-- ==== Sys2Proof/Word.lean ====
section
/-! DEFINITION. The word types of the K9 (spec/01 R13, R14). -/
namespace Sys2Proof

/-- A byte of memory. -/
abbrev Byte := BitVec 8
/-- A doubleword: a g register, an m register, a control register, an address. -/
abbrev Word := BitVec 64
/-- A 32-bit value: an f register, an instruction word. -/
abbrev W32 := BitVec 32
/-- A w register. -/
abbrev Wide := BitVec 512

end Sys2Proof
end

