-- ==== Sys2Proof/Machine/Bits.lean ====
section
/-! DEFINITION. Bit fields, extensions, byte order and sparse maps, the shared plain helpers of the model (spec/00 R3). -/
namespace Sys2Proof

/-- Bits hi:lo of a number. -/
def bitsOf (n hi lo : Nat) : Nat := (n >>> lo) % (1 <<< (hi - lo + 1))

/-- Bit i of a number. -/
def bitOf (n i : Nat) : Bool := (n >>> i) % 2 == 1

/-- The signed reading of an n-bit number (R67). -/
def sext (v n : Nat) : Int :=
  if bitOf v (n - 1) then Int.ofNat (v % (1 <<< n)) - Int.ofNat (1 <<< n) else Int.ofNat (v % (1 <<< n))

/-- An integer modulo 2^64. -/
def toWord (i : Int) : Word := BitVec.ofInt 64 i

/-- A natural number modulo 2^64. -/
def natWord (n : Nat) : Word := BitVec.ofNat 64 n

/-- SignExt of R92: an n-bit field as a 64-bit value. -/
def signExt (v n : Nat) : Word := toWord (sext v n)

/-- The little-endian number of a byte list (R3). -/
def leNat : List Byte → Nat
  | [] => 0
  | b :: bs => b.toNat + 256 * leNat bs

/-- The count little-endian bytes of a number (R3). -/
def leBytes : Nat → Nat → List Byte
  | 0, _ => []
  | c + 1, n => BitVec.ofNat 8 n :: leBytes c (n / 256)

/-- The least common bound: the list 0, 1, …, n − 1 as naturals, by structural recursion. -/
def upTo (n : Nat) : List Nat := List.range n

/-- Element i of width e bits of a wide value (R14). -/
def elemOf (v : Wide) (e i : Nat) : Nat := (v.toNat >>> (e * i)) % (1 <<< e)

/-- A wide value from its elements of width e bits, element 0 lowest (R14). -/
def packElems (e : Nat) : List Nat → Nat
  | [] => 0
  | x :: xs => x % (1 <<< e) + (packElems e xs) <<< e

/-- A wide value from its elements (R14). -/
def wideOf (e : Nat) (xs : List Nat) : Wide := BitVec.ofNat 512 (packElems e xs)

/-- The n elements of width e bits of a wide value. -/
def elemsOf (v : Wide) (e n : Nat) : List Nat := (upTo n).map (elemOf v e)

/-- Set bit i of a number when b holds. -/
def withBit (b : Bool) (i : Nat) : Nat := if b then 1 <<< i else 0

/-- The number whose bit i is the i-th element. -/
def ofBits : List Bool → Nat
  | [] => 0
  | b :: bs => (if b then 1 else 0) + 2 * ofBits bs

/-- 1 for true. -/
def b2n (b : Bool) : Nat := if b then 1 else 0

/-! ### Sparse maps: lists of key and value pairs, keys strictly rising -/

/-- A sparse map by natural-number key. -/
abbrev SMap (α : Type) := List (Nat × α)

namespace SMap

/-- The value at a key, d where the map lists none. -/
def get {α : Type} (d : α) : SMap α → Nat → α
  | [], _ => d
  | (k', v) :: t, k => if k' = k then v else get d t k

/-- The value at a key, if listed. -/
def get? {α : Type} : SMap α → Nat → Option α
  | [], _ => none
  | (k', v) :: t, k => if k' = k then some v else get? t k

/-- The map without a key. -/
def erase {α : Type} : SMap α → Nat → SMap α
  | [], _ => []
  | (k', v) :: t, k => if k' = k then erase t k else (k', v) :: erase t k

/-- Insert a pair at its sorted place. -/
def insert {α : Type} : SMap α → Nat → α → SMap α
  | [], k, v => [(k, v)]
  | (k', v') :: t, k, v => if k < k' then (k, v) :: (k', v') :: t else (k', v') :: insert t k v

/-- The map with a key set; a value equal to the default d is not listed. -/
def set {α : Type} [DecidableEq α] (d : α) (m : SMap α) (k : Nat) (v : α) : SMap α :=
  if v = d then erase m k else insert (erase m k) k v

/-- The map with a key set and always listed. -/
def put {α : Type} (m : SMap α) (k : Nat) (v : α) : SMap α := insert (erase m k) k v

/-- Keys strictly rise and no entry holds the default. -/
def wfFrom {α : Type} [DecidableEq α] (d : α) (lo : Nat) : SMap α → Bool
  | [] => true
  | (k, v) :: t => decide (lo ≤ k) && decide (v ≠ d) && wfFrom d (k + 1) t

/-- The canonical form: keys strictly rising, no entry at the default. -/
def wf {α : Type} [DecidableEq α] (d : α) (m : SMap α) : Bool := wfFrom d 0 m

end SMap

/-- The first element that meets a test, by structural recursion. -/
def firstSome {α β : Type} (f : α → Option β) : List α → Option β
  | [] => none
  | a :: as => match f a with
    | some b => some b
    | none => firstSome f as

/-- A list with the element at an index replaced. -/
def setAt {α : Type} : List α → Nat → α → List α
  | [], _, _ => []
  | _ :: t, 0, a => a :: t
  | h :: t, n + 1, a => h :: setAt t n a

/-- A list without the element at an index. -/
def dropAt {α : Type} : List α → Nat → List α
  | [], _ => []
  | _ :: t, 0 => t
  | h :: t, n + 1 => h :: dropAt t n

/-- Apply a state change once for each element, left to right. -/
def forEach {α σ : Type} (xs : List α) (s : σ) (f : σ → α → σ) : σ := xs.foldl f s

end Sys2Proof
end

