-- ==== Sys2Proof/Syntax.lean ====
section
/-! DEFINITION. The instructions and events of the K9: one constructor for each row of the opcode table.
The operand names are those of the table: d destination, a, b, c sources, x and y the distances of a and b (R43),
i immediate, s store register, size, scope or shift, q condition register, m mask, e element code, n nullify mode or count, o offset.
Rows without bits are the steps of the machine that no instruction word names (spec/95); their arguments say which unit acts. -/
namespace Sys2Proof

/-- Where REGION_BIND places each actor: (actor number, berth key, slip). The choice is the firmware's (R224). -/
abbrev Places := List (Nat × Nat × Nat)
/-- A list of bytes handed in from outside (PLDM, R494). -/
abbrev Bytes := List Byte
/-- The block of a region and the address of a container that holds its context (R466, R467). -/
abbrev ContainerAt := Nat × Nat

/-- The instruction set (spec/02 R52) and the events of spec/95. -/
inductive Instr where
  /-- ADD (R98). -/
  | add (d : BitVec 5) (a : BitVec 5) (x : BitVec 3) (b : BitVec 5) (y : BitVec 3)
  /-- SUB (R98). -/
  | sub (d : BitVec 5) (a : BitVec 5) (x : BitVec 3) (b : BitVec 5) (y : BitVec 3)
  /-- AND (R98). -/
  | and (d : BitVec 5) (a : BitVec 5) (x : BitVec 3) (b : BitVec 5) (y : BitVec 3)
  /-- OR (R98). -/
  | or (d : BitVec 5) (a : BitVec 5) (x : BitVec 3) (b : BitVec 5) (y : BitVec 3)
  /-- XOR (R98). -/
  | xor (d : BitVec 5) (a : BitVec 5) (x : BitVec 3) (b : BitVec 5) (y : BitVec 3)
  /-- ANDN (R98). -/
  | andn (d : BitVec 5) (a : BitVec 5) (x : BitVec 3) (b : BitVec 5) (y : BitVec 3)
  /-- ORN (R98). -/
  | orn (d : BitVec 5) (a : BitVec 5) (x : BitVec 3) (b : BitVec 5) (y : BitVec 3)
  /-- XNOR (R98). -/
  | xnor (d : BitVec 5) (a : BitVec 5) (x : BitVec 3) (b : BitVec 5) (y : BitVec 3)
  /-- SLL (R98). -/
  | sll (d : BitVec 5) (a : BitVec 5) (x : BitVec 3) (b : BitVec 5) (y : BitVec 3)
  /-- SRL (R98). -/
  | srl (d : BitVec 5) (a : BitVec 5) (x : BitVec 3) (b : BitVec 5) (y : BitVec 3)
  /-- SRA (R98). -/
  | sra (d : BitVec 5) (a : BitVec 5) (x : BitVec 3) (b : BitVec 5) (y : BitVec 3)
  /-- ROL (R98). -/
  | rol (d : BitVec 5) (a : BitVec 5) (x : BitVec 3) (b : BitVec 5) (y : BitVec 3)
  /-- ROR (R98). -/
  | ror (d : BitVec 5) (a : BitVec 5) (x : BitVec 3) (b : BitVec 5) (y : BitVec 3)
  /-- MIN (R98). -/
  | min (d : BitVec 5) (a : BitVec 5) (x : BitVec 3) (b : BitVec 5) (y : BitVec 3)
  /-- MAX (R98). -/
  | max (d : BitVec 5) (a : BitVec 5) (x : BitVec 3) (b : BitVec 5) (y : BitVec 3)
  /-- MINU (R98). -/
  | minu (d : BitVec 5) (a : BitVec 5) (x : BitVec 3) (b : BitVec 5) (y : BitVec 3)
  /-- MAXU (R98). -/
  | maxu (d : BitVec 5) (a : BitVec 5) (x : BitVec 3) (b : BitVec 5) (y : BitVec 3)
  /-- ADDS (R98). -/
  | adds (d : BitVec 5) (a : BitVec 5) (x : BitVec 3) (b : BitVec 5) (y : BitVec 3)
  /-- SUBS (R98). -/
  | subs (d : BitVec 5) (a : BitVec 5) (x : BitVec 3) (b : BitVec 5) (y : BitVec 3)
  /-- CLZ (R98). -/
  | clz (d : BitVec 5) (a : BitVec 5) (x : BitVec 3)
  /-- CTZ (R98). -/
  | ctz (d : BitVec 5) (a : BitVec 5) (x : BitVec 3)
  /-- POPC (R98). -/
  | popc (d : BitVec 5) (a : BitVec 5) (x : BitVec 3)
  /-- BREV (R98). -/
  | brev (d : BitVec 5) (a : BitVec 5) (x : BitVec 3)
  /-- SXB (R98). -/
  | sxb (d : BitVec 5) (a : BitVec 5) (x : BitVec 3)
  /-- SXH (R98). -/
  | sxh (d : BitVec 5) (a : BitVec 5) (x : BitVec 3)
  /-- SXW (R98). -/
  | sxw (d : BitVec 5) (a : BitVec 5) (x : BitVec 3)
  /-- ZXB (R98). -/
  | zxb (d : BitVec 5) (a : BitVec 5) (x : BitVec 3)
  /-- ZXH (R98). -/
  | zxh (d : BitVec 5) (a : BitVec 5) (x : BitVec 3)
  /-- ZXW (R98). -/
  | zxw (d : BitVec 5) (a : BitVec 5) (x : BitVec 3)
  /-- MUL (R98). -/
  | mul (d : BitVec 5) (a : BitVec 5) (x : BitVec 3) (b : BitVec 5) (y : BitVec 3)
  /-- MULH (R98). -/
  | mulh (d : BitVec 5) (a : BitVec 5) (x : BitVec 3) (b : BitVec 5) (y : BitVec 3)
  /-- MULHU (R98). -/
  | mulhu (d : BitVec 5) (a : BitVec 5) (x : BitVec 3) (b : BitVec 5) (y : BitVec 3)
  /-- DIV (R99). -/
  | div (d : BitVec 5) (a : BitVec 5) (x : BitVec 3) (b : BitVec 5) (y : BitVec 3)
  /-- DIVU (R99). -/
  | divu (d : BitVec 5) (a : BitVec 5) (x : BitVec 3) (b : BitVec 5) (y : BitVec 3)
  /-- REM (R99). -/
  | rem (d : BitVec 5) (a : BitVec 5) (x : BitVec 3) (b : BitVec 5) (y : BitVec 3)
  /-- REMU (R99). -/
  | remu (d : BitVec 5) (a : BitVec 5) (x : BitVec 3) (b : BitVec 5) (y : BitVec 3)
  /-- ADDI (R102). -/
  | addi (d : BitVec 5) (a : BitVec 5) (x : BitVec 3) (i : BitVec 12)
  /-- ANDI (R102). -/
  | andi (d : BitVec 5) (a : BitVec 5) (x : BitVec 3) (i : BitVec 12)
  /-- ORI (R102). -/
  | ori (d : BitVec 5) (a : BitVec 5) (x : BitVec 3) (i : BitVec 12)
  /-- XORI (R102). -/
  | xori (d : BitVec 5) (a : BitVec 5) (x : BitVec 3) (i : BitVec 12)
  /-- SLLI (R102). -/
  | slli (d : BitVec 5) (a : BitVec 5) (x : BitVec 3) (s : BitVec 6)
  /-- SRLI (R102). -/
  | srli (d : BitVec 5) (a : BitVec 5) (x : BitVec 3) (s : BitVec 6)
  /-- SRAI (R102). -/
  | srai (d : BitVec 5) (a : BitVec 5) (x : BitVec 3) (s : BitVec 6)
  /-- RORI (R102). -/
  | rori (d : BitVec 5) (a : BitVec 5) (x : BitVec 3) (s : BitVec 6)
  /-- UPIM (R102). -/
  | upim (d : BitVec 5) (i : BitVec 20)
  /-- PCADD (R102). -/
  | pcadd (d : BitVec 5) (i : BitVec 20)
  /-- CEQ (R105). -/
  | ceq (q : BitVec 3) (a : BitVec 5) (x : BitVec 3) (b : BitVec 5) (y : BitVec 3)
  /-- CNE (R105). -/
  | cne (q : BitVec 3) (a : BitVec 5) (x : BitVec 3) (b : BitVec 5) (y : BitVec 3)
  /-- CLT (R105). -/
  | clt (q : BitVec 3) (a : BitVec 5) (x : BitVec 3) (b : BitVec 5) (y : BitVec 3)
  /-- CLTU (R105). -/
  | cltu (q : BitVec 3) (a : BitVec 5) (x : BitVec 3) (b : BitVec 5) (y : BitVec 3)
  /-- CGE (R105). -/
  | cge (q : BitVec 3) (a : BitVec 5) (x : BitVec 3) (b : BitVec 5) (y : BitVec 3)
  /-- CGEU (R105). -/
  | cgeu (q : BitVec 3) (a : BitVec 5) (x : BitVec 3) (b : BitVec 5) (y : BitVec 3)
  /-- QAND (R106). -/
  | qand (q : BitVec 3) (a : BitVec 3) (x : BitVec 3) (b : BitVec 3) (y : BitVec 3)
  /-- QOR (R106). -/
  | qor (q : BitVec 3) (a : BitVec 3) (x : BitVec 3) (b : BitVec 3) (y : BitVec 3)
  /-- QXOR (R106). -/
  | qxor (q : BitVec 3) (a : BitVec 3) (x : BitVec 3) (b : BitVec 3) (y : BitVec 3)
  /-- QNOT (R106). -/
  | qnot (q : BitVec 3) (a : BitVec 3) (x : BitVec 3)
  /-- CEQI (R105). -/
  | ceqi (q : BitVec 3) (a : BitVec 5) (x : BitVec 3) (i : BitVec 9)
  /-- CNEI (R105). -/
  | cnei (q : BitVec 3) (a : BitVec 5) (x : BitVec 3) (i : BitVec 9)
  /-- CLTI (R105). -/
  | clti (q : BitVec 3) (a : BitVec 5) (x : BitVec 3) (i : BitVec 9)
  /-- CLTUI (R105). -/
  | cltui (q : BitVec 3) (a : BitVec 5) (x : BitVec 3) (i : BitVec 9)
  /-- CGEI (R105). -/
  | cgei (q : BitVec 3) (a : BitVec 5) (x : BitVec 3) (i : BitVec 9)
  /-- CGEUI (R105). -/
  | cgeui (q : BitVec 3) (a : BitVec 5) (x : BitVec 3) (i : BitVec 9)
  /-- BR (R109). -/
  | br (q : BitVec 3) (s : BitVec 1) (n : BitVec 2) (o : BitVec 19)
  /-- J (R109). -/
  | j (o : BitVec 25)
  /-- JL (R109). -/
  | jl (o : BitVec 25)
  /-- JR (R109). -/
  | jr (a : BitVec 5) (x : BitVec 3) (i : BitVec 12)
  /-- JLR (R109). -/
  | jlr (a : BitVec 5) (x : BitVec 3) (i : BitVec 12)
  /-- LSET (R150). -/
  | lset (w : BitVec 3) (m : BitVec 3) (a : BitVec 5) (b : BitVec 5)
  /-- LOOP (R155). -/
  | loop (c : BitVec 5) (o : BitVec 16)
  /-- LOOPS (R155). -/
  | loops (s : BitVec 5) (o : BitVec 16)
  /-- LEAVE (R167). -/
  | leave (n : BitVec 2)
  /-- LEAVEQ (R167). -/
  | leaveq (q : BitVec 3) (s : BitVec 1) (n : BitVec 2)
  /-- LB (R118). -/
  | lb (d : BitVec 5) (a : BitVec 5) (x : BitVec 3) (i : BitVec 9)
  /-- LBU (R118). -/
  | lbu (d : BitVec 5) (a : BitVec 5) (x : BitVec 3) (i : BitVec 9)
  /-- LH (R118). -/
  | lh (d : BitVec 5) (a : BitVec 5) (x : BitVec 3) (i : BitVec 9)
  /-- LHU (R118). -/
  | lhu (d : BitVec 5) (a : BitVec 5) (x : BitVec 3) (i : BitVec 9)
  /-- LW (R118). -/
  | lw (d : BitVec 5) (a : BitVec 5) (x : BitVec 3) (i : BitVec 9)
  /-- LWU (R118). -/
  | lwu (d : BitVec 5) (a : BitVec 5) (x : BitVec 3) (i : BitVec 9)
  /-- LD (R118). -/
  | ld (d : BitVec 5) (a : BitVec 5) (x : BitVec 3) (i : BitVec 9)
  /-- SB (R118). -/
  | sb (s : BitVec 5) (a : BitVec 5) (x : BitVec 3) (i : BitVec 9)
  /-- SH (R118). -/
  | sh (s : BitVec 5) (a : BitVec 5) (x : BitVec 3) (i : BitVec 9)
  /-- SW (R118). -/
  | sw (s : BitVec 5) (a : BitVec 5) (x : BitVec 3) (i : BitVec 9)
  /-- SD (R118). -/
  | sd (s : BitVec 5) (a : BitVec 5) (x : BitVec 3) (i : BitVec 9)
  /-- LX_B (R118). -/
  | lxB (d : BitVec 5) (a : BitVec 5) (x : BitVec 3) (b : BitVec 5) (y : BitVec 3)
  /-- LX_BU (R118). -/
  | lxBu (d : BitVec 5) (a : BitVec 5) (x : BitVec 3) (b : BitVec 5) (y : BitVec 3)
  /-- LX_H (R118). -/
  | lxH (d : BitVec 5) (a : BitVec 5) (x : BitVec 3) (b : BitVec 5) (y : BitVec 3)
  /-- LX_HU (R118). -/
  | lxHu (d : BitVec 5) (a : BitVec 5) (x : BitVec 3) (b : BitVec 5) (y : BitVec 3)
  /-- LX_W (R118). -/
  | lxW (d : BitVec 5) (a : BitVec 5) (x : BitVec 3) (b : BitVec 5) (y : BitVec 3)
  /-- LX_WU (R118). -/
  | lxWu (d : BitVec 5) (a : BitVec 5) (x : BitVec 3) (b : BitVec 5) (y : BitVec 3)
  /-- LX_D (R118). -/
  | lxD (d : BitVec 5) (a : BitVec 5) (x : BitVec 3) (b : BitVec 5) (y : BitVec 3)
  /-- SX_B (R118). -/
  | sxB (s : BitVec 5) (a : BitVec 5) (x : BitVec 3) (b : BitVec 5) (y : BitVec 3)
  /-- SX_H (R118). -/
  | sxH (s : BitVec 5) (a : BitVec 5) (x : BitVec 3) (b : BitVec 5) (y : BitVec 3)
  /-- SX_W (R118). -/
  | sxW (s : BitVec 5) (a : BitVec 5) (x : BitVec 3) (b : BitVec 5) (y : BitVec 3)
  /-- SX_D (R118). -/
  | sxD (s : BitVec 5) (a : BitVec 5) (x : BitVec 3) (b : BitVec 5) (y : BitVec 3)
  /-- FLW (R130). -/
  | flw (d : BitVec 5) (a : BitVec 5) (x : BitVec 3) (i : BitVec 11)
  /-- FSW (R130). -/
  | fsw (s : BitVec 5) (a : BitVec 5) (x : BitVec 3) (i : BitVec 11)
  /-- VL (R145). -/
  | vl (d : BitVec 5) (a : BitVec 5) (x : BitVec 3) (i : BitVec 10)
  /-- VS (R145). -/
  | vs (s : BitVec 5) (a : BitVec 5) (x : BitVec 3) (i : BitVec 10)
  /-- VLS (R146). -/
  | vls (d : BitVec 5) (a : BitVec 5) (x : BitVec 3) (b : BitVec 5) (m : BitVec 3) (e : BitVec 2)
  /-- VSS (R147). -/
  | vss (s : BitVec 5) (a : BitVec 5) (x : BitVec 3) (b : BitVec 5) (m : BitVec 3) (e : BitVec 2)
  /-- VLG (R146). -/
  | vlg (d : BitVec 5) (a : BitVec 5) (x : BitVec 3) (b : BitVec 5) (m : BitVec 3) (e : BitVec 2)
  /-- VSG (R147). -/
  | vsg (s : BitVec 5) (a : BitVec 5) (x : BitVec 3) (b : BitVec 5) (m : BitVec 3) (e : BitVec 2)
  /-- FADD (R127). -/
  | fadd (d : BitVec 5) (a : BitVec 5) (x : BitVec 3) (b : BitVec 5) (y : BitVec 3)
  /-- FSUB (R127). -/
  | fsub (d : BitVec 5) (a : BitVec 5) (x : BitVec 3) (b : BitVec 5) (y : BitVec 3)
  /-- FMUL (R127). -/
  | fmul (d : BitVec 5) (a : BitVec 5) (x : BitVec 3) (b : BitVec 5) (y : BitVec 3)
  /-- FDIV (R127). -/
  | fdiv (d : BitVec 5) (a : BitVec 5) (x : BitVec 3) (b : BitVec 5) (y : BitVec 3)
  /-- FSQRT (R127). -/
  | fsqrt (d : BitVec 5) (a : BitVec 5) (x : BitVec 3)
  /-- FMIN (R127). -/
  | fmin (d : BitVec 5) (a : BitVec 5) (x : BitVec 3) (b : BitVec 5) (y : BitVec 3)
  /-- FMAX (R127). -/
  | fmax (d : BitVec 5) (a : BitVec 5) (x : BitVec 3) (b : BitVec 5) (y : BitVec 3)
  /-- FABS (R127). -/
  | fabs (d : BitVec 5) (a : BitVec 5) (x : BitVec 3)
  /-- FNEG (R127). -/
  | fneg (d : BitVec 5) (a : BitVec 5) (x : BitVec 3)
  /-- FMA (R127). -/
  | fma (d : BitVec 5) (a : BitVec 5) (b : BitVec 5) (c : BitVec 5)
  /-- FMS (R127). -/
  | fms (d : BitVec 5) (a : BitVec 5) (b : BitVec 5) (c : BitVec 5)
  /-- FNMA (R127). -/
  | fnma (d : BitVec 5) (a : BitVec 5) (b : BitVec 5) (c : BitVec 5)
  /-- FNMS (R127). -/
  | fnms (d : BitVec 5) (a : BitVec 5) (b : BitVec 5) (c : BitVec 5)
  /-- FCVTI (R128). -/
  | fcvti (d : BitVec 5) (a : BitVec 5) (x : BitVec 3) (r : BitVec 2) (s : BitVec 1)
  /-- FCVTF (R128). -/
  | fcvtf (d : BitVec 5) (a : BitVec 5) (x : BitVec 3) (r : BitVec 2) (s : BitVec 1)
  /-- FCVTB (R128). -/
  | fcvtb (d : BitVec 5) (a : BitVec 5) (x : BitVec 3) (r : BitVec 2) (s : BitVec 1)
  /-- FMVGF (R128). -/
  | fmvgf (d : BitVec 5) (a : BitVec 5) (x : BitVec 3)
  /-- FMVFG (R128). -/
  | fmvfg (d : BitVec 5) (a : BitVec 5) (x : BitVec 3)
  /-- FCEQ (R128). -/
  | fceq (q : BitVec 3) (a : BitVec 5) (x : BitVec 3) (b : BitVec 5) (y : BitVec 3)
  /-- FCLT (R128). -/
  | fclt (q : BitVec 3) (a : BitVec 5) (x : BitVec 3) (b : BitVec 5) (y : BitVec 3)
  /-- FCLE (R128). -/
  | fcle (q : BitVec 3) (a : BitVec 5) (x : BitVec 3) (b : BitVec 5) (y : BitVec 3)
  /-- FCLASS (R129). -/
  | fclass (d : BitVec 5) (a : BitVec 5) (x : BitVec 3)
  /-- VADD (R132). -/
  | vadd (d : BitVec 5) (a : BitVec 5) (x : BitVec 3) (b : BitVec 5) (e : BitVec 3)
  /-- VSUB (R132). -/
  | vsub (d : BitVec 5) (a : BitVec 5) (x : BitVec 3) (b : BitVec 5) (e : BitVec 3)
  /-- VMUL (R132). -/
  | vmul (d : BitVec 5) (a : BitVec 5) (x : BitVec 3) (b : BitVec 5) (e : BitVec 3)
  /-- VMULH (R132). -/
  | vmulh (d : BitVec 5) (a : BitVec 5) (x : BitVec 3) (b : BitVec 5) (e : BitVec 3)
  /-- VMIN (R132). -/
  | vmin (d : BitVec 5) (a : BitVec 5) (x : BitVec 3) (b : BitVec 5) (e : BitVec 3)
  /-- VMAX (R132). -/
  | vmax (d : BitVec 5) (a : BitVec 5) (x : BitVec 3) (b : BitVec 5) (e : BitVec 3)
  /-- VMINU (R132). -/
  | vminu (d : BitVec 5) (a : BitVec 5) (x : BitVec 3) (b : BitVec 5) (e : BitVec 3)
  /-- VMAXU (R132). -/
  | vmaxu (d : BitVec 5) (a : BitVec 5) (x : BitVec 3) (b : BitVec 5) (e : BitVec 3)
  /-- VAND (R132). -/
  | vand (d : BitVec 5) (a : BitVec 5) (x : BitVec 3) (b : BitVec 5) (e : BitVec 3)
  /-- VOR (R132). -/
  | vor (d : BitVec 5) (a : BitVec 5) (x : BitVec 3) (b : BitVec 5) (e : BitVec 3)
  /-- VXOR (R132). -/
  | vxor (d : BitVec 5) (a : BitVec 5) (x : BitVec 3) (b : BitVec 5) (e : BitVec 3)
  /-- VSLL (R132). -/
  | vsll (d : BitVec 5) (a : BitVec 5) (x : BitVec 3) (b : BitVec 5) (e : BitVec 3)
  /-- VSRL (R132). -/
  | vsrl (d : BitVec 5) (a : BitVec 5) (x : BitVec 3) (b : BitVec 5) (e : BitVec 3)
  /-- VSRA (R132). -/
  | vsra (d : BitVec 5) (a : BitVec 5) (x : BitVec 3) (b : BitVec 5) (e : BitVec 3)
  /-- VADDS (R132). -/
  | vadds (d : BitVec 5) (a : BitVec 5) (x : BitVec 3) (b : BitVec 5) (e : BitVec 3)
  /-- VSUBS (R132). -/
  | vsubs (d : BitVec 5) (a : BitVec 5) (x : BitVec 3) (b : BitVec 5) (e : BitVec 3)
  /-- VFADD (R133). -/
  | vfadd (d : BitVec 5) (a : BitVec 5) (x : BitVec 3) (b : BitVec 5) (e : BitVec 3)
  /-- VFSUB (R133). -/
  | vfsub (d : BitVec 5) (a : BitVec 5) (x : BitVec 3) (b : BitVec 5) (e : BitVec 3)
  /-- VFMUL (R133). -/
  | vfmul (d : BitVec 5) (a : BitVec 5) (x : BitVec 3) (b : BitVec 5) (e : BitVec 3)
  /-- VFDIV (R133). -/
  | vfdiv (d : BitVec 5) (a : BitVec 5) (x : BitVec 3) (b : BitVec 5) (e : BitVec 3)
  /-- VFMIN (R133). -/
  | vfmin (d : BitVec 5) (a : BitVec 5) (x : BitVec 3) (b : BitVec 5) (e : BitVec 3)
  /-- VFMAX (R133). -/
  | vfmax (d : BitVec 5) (a : BitVec 5) (x : BitVec 3) (b : BitVec 5) (e : BitVec 3)
  /-- VFEXP2 (R133). -/
  | vfexp2 (d : BitVec 5) (a : BitVec 5) (x : BitVec 3) (e : BitVec 3)
  /-- VFRCP (R133). -/
  | vfrcp (d : BitVec 5) (a : BitVec 5) (x : BitVec 3) (e : BitVec 3)
  /-- VFRSQ (R133). -/
  | vfrsq (d : BitVec 5) (a : BitVec 5) (x : BitVec 3) (e : BitVec 3)
  /-- VFABS (R133). -/
  | vfabs (d : BitVec 5) (a : BitVec 5) (x : BitVec 3) (e : BitVec 3)
  /-- VFNEG (R133). -/
  | vfneg (d : BitVec 5) (a : BitVec 5) (x : BitVec 3) (e : BitVec 3)
  /-- VFMA_S (R134). -/
  | vfmaS (d : BitVec 5) (a : BitVec 5) (b : BitVec 5) (c : BitVec 5)
  /-- VFMA_BF (R134). -/
  | vfmaBf (d : BitVec 5) (a : BitVec 5) (b : BitVec 5) (c : BitVec 5)
  /-- VFMS_S (R134). -/
  | vfmsS (d : BitVec 5) (a : BitVec 5) (b : BitVec 5) (c : BitVec 5)
  /-- VFMS_BF (R134). -/
  | vfmsBf (d : BitVec 5) (a : BitVec 5) (b : BitVec 5) (c : BitVec 5)
  /-- VSEL_B (R134). -/
  | vselB (d : BitVec 5) (a : BitVec 5) (b : BitVec 5) (c : BitVec 3)
  /-- VSEL_H (R134). -/
  | vselH (d : BitVec 5) (a : BitVec 5) (b : BitVec 5) (c : BitVec 3)
  /-- VSEL_W (R134). -/
  | vselW (d : BitVec 5) (a : BitVec 5) (b : BitVec 5) (c : BitVec 3)
  /-- VSEL_D (R134). -/
  | vselD (d : BitVec 5) (a : BitVec 5) (b : BitVec 5) (c : BitVec 3)
  /-- VRSUM (R136). -/
  | vrsum (d : BitVec 5) (a : BitVec 5) (x : BitVec 3) (b : BitVec 3) (e : BitVec 3)
  /-- VRMAX (R136). -/
  | vrmax (d : BitVec 5) (a : BitVec 5) (x : BitVec 3) (b : BitVec 3) (e : BitVec 3)
  /-- VRMIN (R136). -/
  | vrmin (d : BitVec 5) (a : BitVec 5) (x : BitVec 3) (b : BitVec 3) (e : BitVec 3)
  /-- VPERM (R137). -/
  | vperm (d : BitVec 5) (a : BitVec 5) (x : BitVec 3) (b : BitVec 5) (e : BitVec 3)
  /-- VBCAST (R137). -/
  | vbcast (d : BitVec 5) (a : BitVec 5) (x : BitVec 3) (b : BitVec 5) (e : BitVec 3)
  /-- VSPLAT (R137). -/
  | vsplat (d : BitVec 5) (a : BitVec 5) (x : BitVec 3) (e : BitVec 3)
  /-- VCVT_BF_S (R141). -/
  | vcvtBfS (d : BitVec 5) (a : BitVec 5) (x : BitVec 3) (b : BitVec 5) (r : BitVec 3)
  /-- VCVT_S_BF (R141). -/
  | vcvtSBf (d : BitVec 5) (a : BitVec 5) (x : BitVec 3)
  /-- VCVT_HF_S (R141). -/
  | vcvtHfS (d : BitVec 5) (a : BitVec 5) (x : BitVec 3) (b : BitVec 5) (r : BitVec 3)
  /-- VCVT_S_HF (R141). -/
  | vcvtSHf (d : BitVec 5) (a : BitVec 5) (x : BitVec 3)
  /-- VCVT_I32_S (R141). -/
  | vcvtI32S (d : BitVec 5) (a : BitVec 5) (x : BitVec 3) (b : BitVec 5) (r : BitVec 3)
  /-- VCVT_S_I32 (R141). -/
  | vcvtSI32 (d : BitVec 5) (a : BitVec 5) (x : BitVec 3) (b : BitVec 5) (r : BitVec 3)
  /-- VCVT_I8_S (R141). -/
  | vcvtI8S (d : BitVec 5) (a : BitVec 5) (x : BitVec 3) (b : BitVec 5) (r : BitVec 3)
  /-- VCVT_S_I8 (R141). -/
  | vcvtSI8 (d : BitVec 5) (a : BitVec 5) (x : BitVec 3)
  /-- VCVT_HF_BF (R141). -/
  | vcvtHfBf (d : BitVec 5) (a : BitVec 5) (x : BitVec 3) (b : BitVec 5) (r : BitVec 3)
  /-- VCVT_BF_HF (R141). -/
  | vcvtBfHf (d : BitVec 5) (a : BitVec 5) (x : BitVec 3) (b : BitVec 5) (r : BitVec 3)
  /-- VPACKMX (R142). -/
  | vpackmx (d : BitVec 5) (a : BitVec 5) (x : BitVec 3) (s : BitVec 1) (t : BitVec 3)
  /-- VUNPKMX (R143). -/
  | vunpkmx (d : BitVec 5) (a : BitVec 5) (x : BitVec 3) (t : BitVec 3)
  /-- MAND (R139). -/
  | mand (d : BitVec 3) (a : BitVec 3) (x : BitVec 3) (b : BitVec 3) (y : BitVec 3)
  /-- MOR (R139). -/
  | mor (d : BitVec 3) (a : BitVec 3) (x : BitVec 3) (b : BitVec 3) (y : BitVec 3)
  /-- MXOR (R139). -/
  | mxor (d : BitVec 3) (a : BitVec 3) (x : BitVec 3) (b : BitVec 3) (y : BitVec 3)
  /-- MNOT (R139). -/
  | mnot (d : BitVec 3) (a : BitVec 3) (x : BitVec 3)
  /-- MPOP (R139). -/
  | mpop (d : BitVec 5) (a : BitVec 3) (x : BitVec 3)
  /-- MFIRST (R139). -/
  | mfirst (d : BitVec 5) (a : BitVec 3) (x : BitVec 3)
  /-- VFCMP_EQ (R139). -/
  | vfcmpEq (m : BitVec 3) (a : BitVec 5) (x : BitVec 3) (b : BitVec 5) (e : BitVec 3)
  /-- VFCMP_LT (R139). -/
  | vfcmpLt (m : BitVec 3) (a : BitVec 5) (x : BitVec 3) (b : BitVec 5) (e : BitVec 3)
  /-- VCMP_EQ (R139). -/
  | vcmpEq (m : BitVec 3) (a : BitVec 5) (x : BitVec 3) (b : BitVec 5) (e : BitVec 3)
  /-- VCMP_NE (R139). -/
  | vcmpNe (m : BitVec 3) (a : BitVec 5) (x : BitVec 3) (b : BitVec 5) (e : BitVec 3)
  /-- VCMP_LT (R139). -/
  | vcmpLt (m : BitVec 3) (a : BitVec 5) (x : BitVec 3) (b : BitVec 5) (e : BitVec 3)
  /-- VCMP_LTU (R139). -/
  | vcmpLtu (m : BitVec 3) (a : BitVec 5) (x : BitVec 3) (b : BitVec 5) (e : BitVec 3)
  /-- VCMP_GE (R139). -/
  | vcmpGe (m : BitVec 3) (a : BitVec 5) (x : BitVec 3) (b : BitVec 5) (e : BitVec 3)
  /-- VCMP_GEU (R139). -/
  | vcmpGeu (m : BitVec 3) (a : BitVec 5) (x : BitVec 3) (b : BitVec 5) (e : BitVec 3)
  /-- VFCMP_LE (R139). -/
  | vfcmpLe (m : BitVec 3) (a : BitVec 5) (x : BitVec 3) (b : BitVec 5) (e : BitVec 3)
  /-- CHWAITF (R249). -/
  | chwaitf (c : BitVec 4) (n : BitVec 12)
  /-- CHWAITE (R249). -/
  | chwaite (c : BitVec 4) (n : BitVec 12)
  /-- CHADVC (R249). -/
  | chadvc (c : BitVec 4) (n : BitVec 12)
  /-- CHADVP (R249). -/
  | chadvp (c : BitVec 4) (n : BitVec 12)
  /-- CHST (R249). -/
  | chst (s : BitVec 5) (c : BitVec 4) (u : BitVec 12)
  /-- CHADDR (R249). -/
  | chaddr (d : BitVec 5) (c : BitVec 4) (u : BitVec 12)
  /-- SEND (R256). -/
  | send (n : BitVec 3) (a : BitVec 5) (c : BitVec 5)
  /-- PUT (R256). -/
  | put (s : BitVec 3) (a : BitVec 5) (c : BitVec 5)
  /-- GET (R256). -/
  | get (s : BitVec 3) (a : BitVec 5) (b : BitVec 5)
  /-- WINDOW (R258). -/
  | window (k : BitVec 1) (g : BitVec 1)
  /-- BDEF (R302). -/
  | bdef (i : BitVec 3) (k : BitVec 1) (a : BitVec 5) (x : BitVec 3) (b : BitVec 5) (y : BitVec 3)
  /-- BADD (R302). -/
  | badd (a : BitVec 5) (x : BitVec 3) (b : BitVec 5) (y : BitVec 3)
  /-- BAND (R302). -/
  | band (a : BitVec 5) (x : BitVec 3) (b : BitVec 5) (y : BitVec 3)
  /-- BOR (R302). -/
  | bor (a : BitVec 5) (x : BitVec 3) (b : BitVec 5) (y : BitVec 3)
  /-- BXOR (R302). -/
  | bxor (a : BitVec 5) (x : BitVec 3) (b : BitVec 5) (y : BitVec 3)
  /-- BMIN (R302). -/
  | bmin (u : BitVec 1) (a : BitVec 5) (x : BitVec 3) (b : BitVec 5) (y : BitVec 3)
  /-- BMAX (R302). -/
  | bmax (u : BitVec 1) (a : BitVec 5) (x : BitVec 3) (b : BitVec 5) (y : BitVec 3)
  /-- BFXA (R302). -/
  | bfxa (f : BitVec 1) (a : BitVec 5) (x : BitVec 3) (b : BitVec 5) (y : BitVec 3)
  /-- BMINF (R302). -/
  | bminf (a : BitVec 5) (x : BitVec 3) (b : BitVec 5) (y : BitVec 3)
  /-- BMAXF (R302). -/
  | bmaxf (a : BitVec 5) (x : BitVec 3) (b : BitVec 5) (y : BitVec 3)
  /-- BVSA (R303). -/
  | bvsa (e : BitVec 4) (a : BitVec 5) (x : BitVec 3) (b : BitVec 5) (y : BitVec 3)
  /-- BRD (R304). -/
  | brd (d : BitVec 5) (a : BitVec 5) (x : BitVec 3) (o : BitVec 2)
  /-- SWDEF (R310). -/
  | swdef (a : BitVec 5) (x : BitVec 3) (b : BitVec 5) (y : BitVec 3)
  /-- ARRIVE (R310). -/
  | arrive (s : BitVec 3) (a : BitVec 5) (x : BitVec 3)
  /-- SWAIT (R310). -/
  | swait (s : BitVec 3) (a : BitVec 5) (x : BitVec 3) (b : BitVec 5) (y : BitVec 3)
  /-- FENCE (R310). -/
  | fence (s : BitVec 3)
  /-- FLUSHAS (R286). -/
  | flushas (a : BitVec 5) (x : BitVec 3)
  /-- DRAIN (R287). -/
  | drain
  /-- XFER (R335). -/
  | xfer (d : BitVec 5) (a : BitVec 5)
  /-- XFERQ (R335). -/
  | xferq (d : BitVec 5) (a : BitVec 5)
  /-- XWAIT (R336). -/
  | xwait (a : BitVec 5) (k : BitVec 2)
  /-- XSTAT (R337). -/
  | xstat (d : BitVec 5) (k : BitVec 2)
  /-- CWLD (R353). -/
  | cwld (a : BitVec 5) (v : BitVec 1) (b : BitVec 5)
  /-- CWLDS (R353). -/
  | cwlds (a : BitVec 5) (v : BitVec 1) (b : BitVec 5)
  /-- CWSWAP (R354). -/
  | cwswap
  /-- CZCLR (R355). -/
  | czclr (z : BitVec 3)
  /-- CZWAIT (R360). -/
  | czwait (l : BitVec 1) (z : BitVec 3)
  /-- CZOUT (R361). -/
  | czout (a : BitVec 5) (b : BitVec 5) (z : BitVec 3)
  /-- CZLD (R362). -/
  | czld (a : BitVec 5) (b : BitVec 5) (z : BitVec 3)
  /-- CMMA_BF (R356). -/
  | cmmaBf (a : BitVec 5) (f : BitVec 4) (s : BitVec 5) (z : BitVec 3)
  /-- CMMA_HF (R356). -/
  | cmmaHf (a : BitVec 5) (f : BitVec 4) (s : BitVec 5) (z : BitVec 3)
  /-- CMMA_I8 (R356). -/
  | cmmaI8 (a : BitVec 5) (f : BitVec 4) (s : BitVec 5) (z : BitVec 3)
  /-- CMMA_E4E4 (R356). -/
  | cmmaE4e4 (a : BitVec 5) (f : BitVec 4) (s : BitVec 5) (z : BitVec 3)
  /-- CMMA_E4E5 (R356). -/
  | cmmaE4e5 (a : BitVec 5) (f : BitVec 4) (s : BitVec 5) (z : BitVec 3)
  /-- CMMA_E5E4 (R356). -/
  | cmmaE5e4 (a : BitVec 5) (f : BitVec 4) (s : BitVec 5) (z : BitVec 3)
  /-- CMMA_E5E5 (R356). -/
  | cmmaE5e5 (a : BitVec 5) (f : BitVec 4) (s : BitVec 5) (z : BitVec 3)
  /-- CMMA_F6A (R356). -/
  | cmmaF6a (a : BitVec 5) (f : BitVec 4) (s : BitVec 5) (z : BitVec 3)
  /-- CMMA_F6B (R356). -/
  | cmmaF6b (a : BitVec 5) (f : BitVec 4) (s : BitVec 5) (z : BitVec 3)
  /-- CMMA_F6AB (R356). -/
  | cmmaF6ab (a : BitVec 5) (f : BitVec 4) (s : BitVec 5) (z : BitVec 3)
  /-- CMMA_MXF4 (R356). -/
  | cmmaMxf4 (a : BitVec 5) (f : BitVec 4) (s : BitVec 5) (z : BitVec 3)
  /-- CMMA_KF4 (R356). -/
  | cmmaKf4 (a : BitVec 5) (f : BitVec 4) (s : BitVec 5) (z : BitVec 3)
  /-- CMMA_E4KF4 (R356). -/
  | cmmaE4kf4 (a : BitVec 5) (f : BitVec 4) (s : BitVec 5) (z : BitVec 3)
  /-- CMMA_MXI8 (R356). -/
  | cmmaMxi8 (a : BitVec 5) (f : BitVec 4) (s : BitVec 5) (z : BitVec 3)
  /-- KVOPEN (R377). -/
  | kvopen (a : BitVec 5) (b : BitVec 5)
  /-- KVAPP (R378). -/
  | kvapp (h : BitVec 2) (a : BitVec 5) (b : BitVec 5) (c : BitVec 5) (p : BitVec 2)
  /-- KVQRY (R385). -/
  | kvqry (a : BitVec 5) (b : BitVec 5) (c : BitVec 5)
  /-- KVSEAL (R383). -/
  | kvseal (a : BitVec 5)
  /-- KVSTAT (R383). -/
  | kvstat (d : BitVec 5) (a : BitVec 5)
  /-- KVDROP (R384). -/
  | kvdrop (a : BitVec 5)
  /-- KVDROP_GRANT (R384). -/
  | kvdropGrant (a : BitVec 5) (b : BitVec 5)
  /-- KVDROP_REVOKE (R384). -/
  | kvdropRevoke (a : BitVec 5)
  /-- QRLD (R411). -/
  | qrld (a : BitVec 5) (x : BitVec 3) (b : BitVec 5) (y : BitVec 3)
  /-- QRSEED (R412). -/
  | qrseed (a : BitVec 5) (x : BitVec 3) (b : BitVec 5) (y : BitVec 3)
  /-- QRI (R413). -/
  | qri (d : BitVec 5) (a : BitVec 5) (x : BitVec 3) (b : BitVec 5) (y : BitVec 3)
  /-- QRF (R413). -/
  | qrf (d : BitVec 5) (a : BitVec 5) (x : BitVec 3) (b : BitVec 5) (y : BitVec 3)
  /-- QRV_I (R413). -/
  | qrvI (d : BitVec 5) (a : BitVec 5) (x : BitVec 3) (b : BitVec 5) (y : BitVec 3)
  /-- QRV_D (R413). -/
  | qrvD (d : BitVec 5) (a : BitVec 5) (x : BitVec 3) (b : BitVec 5) (y : BitVec 3)
  /-- CRD (R185). -/
  | crd (d : BitVec 5) (i : BitVec 12)
  /-- CWR (R185). -/
  | cwr (a : BitVec 5) (i : BitVec 12)
  /-- TRAP (R187). -/
  | trap (i : BitVec 12)
  /-- BRK (R187). -/
  | brk (i : BitVec 12)
  /-- RFT (R188). -/
  | rft
  /-- IDLE (R189). -/
  | idle
  /-- DONE (R220). -/
  | done
  /-- HALT (R221). -/
  | halt
  /-- HALT_R (R221). -/
  | haltR
  /-- C_MV (R60). -/
  | cMv (d : BitVec 5) (a : BitVec 5)
  /-- C_ADD (R60). -/
  | cAdd (d : BitVec 5) (a : BitVec 5)
  /-- C_ADDI (R60). -/
  | cAddi (d : BitVec 5) (i : BitVec 6)
  /-- C_SUB (R60). -/
  | cSub (d : BitVec 5) (a : BitVec 5)
  /-- C_AND (R60). -/
  | cAnd (d : BitVec 5) (a : BitVec 5)
  /-- C_LI (R60). -/
  | cLi (d : BitVec 5) (i : BitVec 6)
  /-- C_LD (R60). -/
  | cLd (d : BitVec 5) (i : BitVec 6)
  /-- C_SD (R60). -/
  | cSd (s : BitVec 5) (i : BitVec 6)
  /-- C_LW (R60). -/
  | cLw (d : BitVec 5) (i : BitVec 6)
  /-- C_SW (R60). -/
  | cSw (s : BitVec 5) (i : BitVec 6)
  /-- C_SLLI (R60). -/
  | cSlli (d : BitVec 5) (i : BitVec 6)
  /-- C_SRLI (R60). -/
  | cSrli (d : BitVec 5) (i : BitVec 6)
  /-- C_J (R60). -/
  | cJ (o : BitVec 11)
  /-- C_BRQ (R60). -/
  | cBrq (o : BitVec 11)
  /-- C_RET (R60). -/
  | cRet
  /-- INTERRUPT_ENTRY (R192). -/
  | interruptEntry
  /-- TIMER_EXPIRY (R190). -/
  | timerExpiry (b : Nat)
  /-- IDLE_WAKE (R189). -/
  | idleWake (b : Nat) (i : Nat)
  /-- SLIP_SCHEDULE (R219). -/
  | slipSchedule (b : Nat)
  /-- SLIP_INPUTS_SUFFICE (R218). -/
  | slipInputsSuffice (b : Nat) (i : Nat)
  /-- WAIT_SATISFIED (R218). -/
  | waitSatisfied (b : Nat) (i : Nat)
  /-- HALT_DRAIN_COMPLETE (R221). -/
  | haltDrainComplete (b : Nat) (i : Nat)
  /-- HANDLER_OVERRUN (R227). -/
  | handlerOverrun
  /-- ITEM_ARRIVAL (R266). -/
  | itemArrival (n : Nat)
  /-- GET_REPLY_ARRIVAL (R257). -/
  | getReplyArrival (n : Nat)
  /-- CLOSE_MARKER_ARRIVAL (R258). -/
  | closeMarkerArrival (b : Nat) (i : Nat)
  /-- WINDOW_COMPLETE (R258). -/
  | windowComplete (b : Nat) (i : Nat)
  /-- LAUNCH_ARRIVAL (R265). -/
  | launchArrival (n : Nat)
  /-- ADVANCE_NOTICE_ARRIVAL (R249). -/
  | advanceNoticeArrival (n : Nat)
  /-- FREE_NOTICE_ARRIVAL (R249). -/
  | freeNoticeArrival (n : Nat)
  /-- ACK_ARRIVAL (R266). -/
  | ackArrival (n : Nat)
  /-- BUSY_RESEND (R267). -/
  | busyResend (n : Nat)
  /-- ARRIVAL_DELIVERY (R307). -/
  | arrivalDelivery (n : Nat)
  /-- COPY_START (R327). -/
  | copyStart (b : Nat)
  /-- COPY_LANDING (R308). -/
  | copyLanding (c : Nat)
  /-- COPY_COMPLETE (R331). -/
  | copyComplete (c : Nat)
  /-- CRANE_DISPATCH (R364). -/
  | craneDispatch (b : Nat)
  /-- CRANE_COMMAND (R356). -/
  | craneCommand (b : Nat)
  /-- BANK_OP_APPLY (R302). -/
  | bankOpApply (n : Nat)
  /-- PAGE_SERVICE (R289). -/
  | pageService (n : Nat)
  /-- PAGE_SERVICE_COMPLETE (R289). -/
  | pageServiceComplete (n : Nat) (entry : Nat) (leaf : Nat)
  /-- MIGRATION (R292). -/
  | migration (pkg : Nat) (page : Nat) (dest : Nat)
  /-- KV_APPEND_APPLY (R378). -/
  | kvAppendApply (n : Nat)
  /-- KV_QUERY_RESOLVE (R388). -/
  | kvQueryResolve (n : Nat)
  /-- TRIPLE_LANDING (R390). -/
  | tripleLanding (n : Nat)
  /-- KV_PAGE_RECALL (R393). -/
  | kvPageRecall (key : Nat)
  /-- REGION_SELECT (R223). -/
  | regionSelect (pkg : Nat)
  /-- REGION_BIND (R224). -/
  | regionBind (pkg : Nat) (region : Nat) (place : Places)
  /-- PREEMPT (R431). -/
  | preempt (pkg : Nat) (region : Nat)
  /-- PREEMPT_FORCE (R431). -/
  | preemptForce (b : Nat) (i : Nat)
  /-- REGION_SUSPEND (R432). -/
  | regionSuspend (pkg : Nat) (region : Nat)
  /-- VICTIM_BANK_CLAIM (R434). -/
  | victimBankClaim (b : Nat) (bank : Nat)
  /-- FAULT_DOMAIN_STOP (R418). -/
  | faultDomainStop
  /-- ROLLBACK (R428). -/
  | rollback
  /-- RETENTION_ENTRY (R438). -/
  | retentionEntry (unit : Nat)
  /-- RETENTION_EXIT (R438). -/
  | retentionExit (unit : Nat)
  /-- TCMP_WRITE (R190). -/
  | tcmpWrite (b : Nat) (v : Nat)
  /-- IPEND_WRITE (R191). -/
  | ipendWrite (b : Nat) (v : Nat)
  /-- QRCTL_WRITE (R414). -/
  | qrctlWrite (v : Nat)
  /-- FDSTOP_WRITE (R420). -/
  | fdstopWrite (v : Nat)
  /-- SERRLOG_WRITE (R440). -/
  | serrlogWrite (b : Nat) (v : Nat)
  /-- KVERR_WRITE (R396). -/
  | kverrWrite (pkg : Nat) (bank : Nat) (v : Nat)
  /-- PLSTAT_CLR (R458). -/
  | plstatClr (pkg : Nat) (port : Nat) (v : Nat)
  /-- REGISTER_WRITE (R26). -/
  | registerWrite (pkg : Nat) (reg : Nat) (v : Nat)
  /-- DOORBELL (R232). -/
  | doorbell (pkg : Nat) (q : Nat) (v : Nat)
  /-- QCTL_ENABLE (R236). -/
  | qctlEnable (pkg : Nat) (q : Nat) (v : Nat)
  /-- QCTL_RESTART (R231). -/
  | qctlRestart (pkg : Nat) (q : Nat)
  /-- EVCTL_WRITE (R241). -/
  | evctlWrite (pkg : Nat) (v : Nat)
  /-- EVHEAD_WRITE (R244). -/
  | evheadWrite (pkg : Nat) (v : Nat)
  /-- EVSTAT_WRITE (R243). -/
  | evstatWrite (pkg : Nat) (v : Nat)
  /-- RESYNC (R245). -/
  | resync (pkg : Nat) (v : Nat)
  /-- RESYNC_COMPLETE (R245). -/
  | resyncComplete (pkg : Nat)
  /-- PACKET_START (R232). -/
  | packetStart (pkg : Nat) (q : Nat)
  /-- LDP (R235). -/
  | ldp (pkg : Nat) (q : Nat)
  /-- LDI (R235). -/
  | ldi (pkg : Nat) (q : Nat)
  /-- MOVI (R235). -/
  | movi (pkg : Nat) (q : Nat)
  /-- PILOT_ADD (R235). -/
  | pilotAdd (pkg : Nat) (q : Nat)
  /-- PILOT_AND (R235). -/
  | pilotAnd (pkg : Nat) (q : Nat)
  /-- SHR (R235). -/
  | shr (pkg : Nat) (q : Nat)
  /-- BEQ (R235). -/
  | pilotBeq (pkg : Nat) (q : Nat)
  /-- LOOPN (R235). -/
  | loopn (pkg : Nat) (q : Nat)
  /-- PILOT_LAUNCH (R237). -/
  | pilotLaunch (pkg : Nat) (q : Nat)
  /-- REGOP_READY (R235). -/
  | regopReady (pkg : Nat) (q : Nat)
  /-- REGOP_PRIO (R235). -/
  | regopPrio (pkg : Nat) (q : Nat)
  /-- REGOP_ARGS (R235). -/
  | regopArgs (pkg : Nat) (q : Nat)
  /-- WAITR (R235). -/
  | waitr (pkg : Nat) (q : Nat)
  /-- PILOT_EVENT (R242). -/
  | pilotEvent (pkg : Nat) (q : Nat)
  /-- FAIL (R235). -/
  | fail (pkg : Nat) (q : Nat)
  /-- HALTP (R235). -/
  | haltp (pkg : Nat) (q : Nat)
  /-- PILOT_WAIT_RESUME (R237). -/
  | pilotWaitResume (pkg : Nat) (q : Nat)
  /-- TAKEOVER (R446). -/
  | takeover (pkg : Nat)
  /-- EVPUSH (R449). -/
  | evpush (pkg : Nat) (v : Nat)
  /-- DBKICK (R450). -/
  | dbkick (pkg : Nat) (v : Nat)
  /-- DBPEND_WRITE (R447). -/
  | dbpendWrite (pkg : Nat) (k : Nat) (v : Nat)
  /-- CBSTAT_WRITE (R448). -/
  | cbstatWrite (pkg : Nat) (v : Nat)
  /-- FLIT_RECEIVE (R456). -/
  | flitReceive (pkg : Nat) (port : Nat) (flit : Bytes)
  /-- PORT_RETRAIN (R456). -/
  | portRetrain (pkg : Nat) (port : Nat) (ok : Bool)
  /-- PORT_DOWN (R456). -/
  | portDown (pkg : Nat) (port : Nat)
  /-- EXCHANGE_LINE_SEND (R462). -/
  | exchangeLineSend (pkg : Nat) (n : Nat)
  /-- EXCHANGE_LINE_RECEIVE (R462). -/
  | exchangeLineReceive (n : Nat)
  /-- TRANSFER_RECORD_RECEIVE (R462). -/
  | transferRecordReceive (n : Nat)
  /-- POWER_GOOD (R487). -/
  | powerGood (pkg : Nat)
  /-- PHASE_COMPLETE (R487). -/
  | phaseComplete (pkg : Nat) (fail : Nat)
  /-- PHASE_TIMEOUT (R488). -/
  | phaseTimeout (pkg : Nat)
  /-- MONITOR_READING (R489). -/
  | monitorReading (pkg : Nat) (plan : Nat) (margin : Nat)
  /-- PWRCAP_LOWER (R490). -/
  | pwrcapLower (pkg : Nat)
  /-- PWRCAP_RAISE (R490). -/
  | pwrcapRaise (pkg : Nat)
  /-- GET_CERTIFICATE (R493). -/
  | getCertificate (pkg : Nat)
  /-- CHALLENGE (R493). -/
  | challenge (pkg : Nat) (nonce : Nat)
  /-- GET_MEASUREMENTS (R493). -/
  | getMeasurements (pkg : Nat)
  /-- PLDM_SENSOR_READ (R494). -/
  | pldmSensorRead (pkg : Nat) (sensor : Nat)
  /-- PLDM_FIRMWARE_UPDATE (R494). -/
  | pldmFirmwareUpdate (pkg : Nat) (image : Bytes)
  /-- OBJECT_LOAD (R473). -/
  | objectLoad (pkg : Nat) (addr : Nat) (len : Nat) (place : Places)
  /-- CONTAINER_LOAD (R466). -/
  | containerLoad (pkg : Nat) (addr : ContainerAt) (len : Nat)
  /-- ILLEGAL_INSTRUCTION (R62). -/
  | illegalInstruction (w : Nat) (cause : Nat)
  /-- FETCH_FAULT (R40). -/
  | fetchFault
  /-- CHST_LANDING (R249). -/
  | chstLanding (n : Nat)
  /-- REGION_RESUME (R214). -/
  | regionResume (pkg : Nat) (region : Nat)
  /-- REGION_RECLAIM (R214). -/
  | regionReclaim (pkg : Nat) (region : Nat)
  /-- KV_PAGE_MOVE (R393). -/
  | kvPageMove (key : Nat)
  /-- LOST_FRAME_RETRANSMIT (R462). -/
  | lostFrameRetransmit (n : Nat)
  /-- CONTAINER_WRITE (R467). -/
  | containerWrite (pkg : Nat) (addr : ContainerAt) (rev : Nat)
  deriving DecidableEq, Repr

end Sys2Proof
end

