-- ==== Sys2Proof/WellFormed.lean ====
section
/-! DEFINITION. Which terms of Instr are words of the machine: no reserved code (spec/02 R47, R50, R53 to R58; R255, R300, R375). -/
namespace Sys2Proof

/-- No operand field holds a reserved or illegal code. A field's width is its type's; the codes below are the rest. -/
def Instr.wellFormed : Instr → Bool
  | .add _ _ _ _ _ => true
  | .sub _ _ _ _ _ => true
  | .and _ _ _ _ _ => true
  | .or _ _ _ _ _ => true
  | .xor _ _ _ _ _ => true
  | .andn _ _ _ _ _ => true
  | .orn _ _ _ _ _ => true
  | .xnor _ _ _ _ _ => true
  | .sll _ _ _ _ _ => true
  | .srl _ _ _ _ _ => true
  | .sra _ _ _ _ _ => true
  | .rol _ _ _ _ _ => true
  | .ror _ _ _ _ _ => true
  | .min _ _ _ _ _ => true
  | .max _ _ _ _ _ => true
  | .minu _ _ _ _ _ => true
  | .maxu _ _ _ _ _ => true
  | .adds _ _ _ _ _ => true
  | .subs _ _ _ _ _ => true
  | .clz _ _ _ => true
  | .ctz _ _ _ => true
  | .popc _ _ _ => true
  | .brev _ _ _ => true
  | .sxb _ _ _ => true
  | .sxh _ _ _ => true
  | .sxw _ _ _ => true
  | .zxb _ _ _ => true
  | .zxh _ _ _ => true
  | .zxw _ _ _ => true
  | .mul _ _ _ _ _ => true
  | .mulh _ _ _ _ _ => true
  | .mulhu _ _ _ _ _ => true
  | .div _ _ _ _ _ => true
  | .divu _ _ _ _ _ => true
  | .rem _ _ _ _ _ => true
  | .remu _ _ _ _ _ => true
  | .addi _ _ _ _ => true
  | .andi _ _ _ _ => true
  | .ori _ _ _ _ => true
  | .xori _ _ _ _ => true
  | .slli _ _ _ _ => true
  | .srli _ _ _ _ => true
  | .srai _ _ _ _ => true
  | .rori _ _ _ _ => true
  | .upim _ _ => true
  | .pcadd _ _ => true
  | .ceq _ _ _ _ _ => true
  | .cne _ _ _ _ _ => true
  | .clt _ _ _ _ _ => true
  | .cltu _ _ _ _ _ => true
  | .cge _ _ _ _ _ => true
  | .cgeu _ _ _ _ _ => true
  | .qand _ _ _ _ _ => true
  | .qor _ _ _ _ _ => true
  | .qxor _ _ _ _ _ => true
  | .qnot _ _ _ => true
  | .ceqi _ _ _ _ => true
  | .cnei _ _ _ _ => true
  | .clti _ _ _ _ => true
  | .cltui _ _ _ _ => true
  | .cgei _ _ _ _ => true
  | .cgeui _ _ _ _ => true
  | .br _ _ n _ => n != 3
  | .j _ => true
  | .jl _ => true
  | .jr _ _ _ => true
  | .jlr _ _ _ => true
  | .lset w m _ _ => decide (w.toNat + 1 + m.toNat ≤ 8)
  | .loop _ _ => true
  | .loops _ _ => true
  | .leave n => n != 3
  | .leaveq _ _ n => n != 3
  | .lb _ _ _ _ => true
  | .lbu _ _ _ _ => true
  | .lh _ _ _ _ => true
  | .lhu _ _ _ _ => true
  | .lw _ _ _ _ => true
  | .lwu _ _ _ _ => true
  | .ld _ _ _ _ => true
  | .sb _ _ _ _ => true
  | .sh _ _ _ _ => true
  | .sw _ _ _ _ => true
  | .sd _ _ _ _ => true
  | .lxB _ _ _ _ _ => true
  | .lxBu _ _ _ _ _ => true
  | .lxH _ _ _ _ _ => true
  | .lxHu _ _ _ _ _ => true
  | .lxW _ _ _ _ _ => true
  | .lxWu _ _ _ _ _ => true
  | .lxD _ _ _ _ _ => true
  | .sxB _ _ _ _ _ => true
  | .sxH _ _ _ _ _ => true
  | .sxW _ _ _ _ _ => true
  | .sxD _ _ _ _ _ => true
  | .flw _ _ _ _ => true
  | .fsw _ _ _ _ => true
  | .vl _ _ _ _ => true
  | .vs _ _ _ _ => true
  | .vls _ _ _ _ _ _ => true
  | .vss _ _ _ _ _ _ => true
  | .vlg _ _ _ _ _ _ => true
  | .vsg _ _ _ _ _ _ => true
  | .fadd _ _ _ _ _ => true
  | .fsub _ _ _ _ _ => true
  | .fmul _ _ _ _ _ => true
  | .fdiv _ _ _ _ _ => true
  | .fsqrt _ _ _ => true
  | .fmin _ _ _ _ _ => true
  | .fmax _ _ _ _ _ => true
  | .fabs _ _ _ => true
  | .fneg _ _ _ => true
  | .fma _ _ _ _ => true
  | .fms _ _ _ _ => true
  | .fnma _ _ _ _ => true
  | .fnms _ _ _ _ => true
  | .fcvti _ _ _ _ _ => true
  | .fcvtf _ _ _ _ _ => true
  | .fcvtb _ _ _ _ _ => true
  | .fmvgf _ _ _ => true
  | .fmvfg _ _ _ => true
  | .fceq _ _ _ _ _ => true
  | .fclt _ _ _ _ _ => true
  | .fcle _ _ _ _ _ => true
  | .fclass _ _ _ => true
  | .vadd _ _ _ _ e => decide (e.toNat ≤ 3)
  | .vsub _ _ _ _ e => decide (e.toNat ≤ 3)
  | .vmul _ _ _ _ e => decide (e.toNat ≤ 3)
  | .vmulh _ _ _ _ e => decide (e.toNat ≤ 3)
  | .vmin _ _ _ _ e => decide (e.toNat ≤ 3)
  | .vmax _ _ _ _ e => decide (e.toNat ≤ 3)
  | .vminu _ _ _ _ e => decide (e.toNat ≤ 3)
  | .vmaxu _ _ _ _ e => decide (e.toNat ≤ 3)
  | .vand _ _ _ _ e => decide (e.toNat ≤ 3)
  | .vor _ _ _ _ e => decide (e.toNat ≤ 3)
  | .vxor _ _ _ _ e => decide (e.toNat ≤ 3)
  | .vsll _ _ _ _ e => decide (e.toNat ≤ 3)
  | .vsrl _ _ _ _ e => decide (e.toNat ≤ 3)
  | .vsra _ _ _ _ e => decide (e.toNat ≤ 3)
  | .vadds _ _ _ _ e => decide (e.toNat ≤ 3)
  | .vsubs _ _ _ _ e => decide (e.toNat ≤ 3)
  | .vfadd _ _ _ _ e => decide (e.toNat ≤ 1)
  | .vfsub _ _ _ _ e => decide (e.toNat ≤ 1)
  | .vfmul _ _ _ _ e => decide (e.toNat ≤ 1)
  | .vfdiv _ _ _ _ e => decide (e.toNat ≤ 1)
  | .vfmin _ _ _ _ e => decide (e.toNat ≤ 1)
  | .vfmax _ _ _ _ e => decide (e.toNat ≤ 1)
  | .vfexp2 _ _ _ e => decide (e.toNat ≤ 1)
  | .vfrcp _ _ _ e => decide (e.toNat ≤ 1)
  | .vfrsq _ _ _ e => decide (e.toNat ≤ 1)
  | .vfabs _ _ _ e => decide (e.toNat ≤ 1)
  | .vfneg _ _ _ e => decide (e.toNat ≤ 1)
  | .vfmaS _ _ _ _ => true
  | .vfmaBf _ _ _ _ => true
  | .vfmsS _ _ _ _ => true
  | .vfmsBf _ _ _ _ => true
  | .vselB _ _ _ _ => true
  | .vselH _ _ _ _ => true
  | .vselW _ _ _ _ => true
  | .vselD _ _ _ _ => true
  | .vrsum _ _ _ _ e => decide (e.toNat ≤ 5)
  | .vrmax _ _ _ _ e => decide (e.toNat ≤ 5)
  | .vrmin _ _ _ _ e => decide (e.toNat ≤ 5)
  | .vperm _ _ _ _ e => decide (e.toNat ≤ 3)
  | .vbcast _ _ _ _ e => decide (e.toNat ≤ 3)
  | .vsplat _ _ _ e => decide (e.toNat ≤ 5)
  | .vcvtBfS _ _ _ b r => decide (r.toNat ≤ 4) && (r == 4 || decide (b.toNat ≤ 1))
  | .vcvtSBf _ _ _ => true
  | .vcvtHfS _ _ _ b r => decide (r.toNat ≤ 4) && (r == 4 || decide (b.toNat ≤ 1))
  | .vcvtSHf _ _ _ => true
  | .vcvtI32S _ _ _ b r => decide (r.toNat ≤ 4) && (r == 4 || decide (b.toNat ≤ 1))
  | .vcvtSI32 _ _ _ b r => decide (r.toNat ≤ 4) && (r == 4 || decide (b.toNat ≤ 1))
  | .vcvtI8S _ _ _ b r => decide (r.toNat ≤ 4) && (r == 4 || decide (b.toNat ≤ 1))
  | .vcvtSI8 _ _ _ => true
  | .vcvtHfBf _ _ _ b r => decide (r.toNat ≤ 4) && (r == 4 || decide (b.toNat ≤ 1))
  | .vcvtBfHf _ _ _ b r => decide (r.toNat ≤ 4) && (r == 4 || decide (b.toNat ≤ 1))
  | .vpackmx _ _ _ _ t => t != 7
  | .vunpkmx _ _ _ t => t != 7
  | .mand _ _ _ _ _ => true
  | .mor _ _ _ _ _ => true
  | .mxor _ _ _ _ _ => true
  | .mnot _ _ _ => true
  | .mpop _ _ _ => true
  | .mfirst _ _ _ => true
  | .vfcmpEq _ _ _ _ e => decide (e.toNat ≤ 1)
  | .vfcmpLt _ _ _ _ e => decide (e.toNat ≤ 1)
  | .vcmpEq _ _ _ _ e => decide (e.toNat ≤ 3)
  | .vcmpNe _ _ _ _ e => decide (e.toNat ≤ 3)
  | .vcmpLt _ _ _ _ e => decide (e.toNat ≤ 3)
  | .vcmpLtu _ _ _ _ e => decide (e.toNat ≤ 3)
  | .vcmpGe _ _ _ _ e => decide (e.toNat ≤ 3)
  | .vcmpGeu _ _ _ _ e => decide (e.toNat ≤ 3)
  | .vfcmpLe _ _ _ _ e => decide (e.toNat ≤ 1)
  | .chwaitf _ _ => true
  | .chwaite _ _ => true
  | .chadvc _ _ => true
  | .chadvp _ _ => true
  | .chst _ _ _ => true
  | .chaddr _ _ _ => true
  | .send _ _ _ => true
  | .put s _ _ => s != 7
  | .get s _ _ => s != 7
  | .window _ _ => true
  | .bdef i k _ _ _ _ => decide (i.toNat ≤ 5) && (k == 0 || i == 0)
  | .badd _ _ _ _ => true
  | .band _ _ _ _ => true
  | .bor _ _ _ _ => true
  | .bxor _ _ _ _ => true
  | .bmin _ _ _ _ _ => true
  | .bmax _ _ _ _ _ => true
  | .bfxa _ _ _ _ _ => true
  | .bminf _ _ _ _ => true
  | .bmaxf _ _ _ _ => true
  | .bvsa _ _ _ _ _ => true
  | .brd _ _ _ o => o != 3
  | .swdef _ _ _ _ => true
  | .arrive s _ _ => s != 7
  | .swait s _ _ _ _ => s != 7
  | .fence s => s != 7
  | .flushas _ _ => true
  | .drain => true
  | .xfer _ _ => true
  | .xferq _ _ => true
  | .xwait _ _ => true
  | .xstat _ _ => true
  | .cwld _ _ _ => true
  | .cwlds _ _ _ => true
  | .cwswap => true
  | .czclr _ => true
  | .czwait l z => l == 0 || z == 0
  | .czout _ _ _ => true
  | .czld _ _ _ => true
  | .cmmaBf _ _ _ _ => true
  | .cmmaHf _ _ _ _ => true
  | .cmmaI8 _ _ _ _ => true
  | .cmmaE4e4 _ _ _ _ => true
  | .cmmaE4e5 _ _ _ _ => true
  | .cmmaE5e4 _ _ _ _ => true
  | .cmmaE5e5 _ _ _ _ => true
  | .cmmaF6a _ _ _ _ => true
  | .cmmaF6b _ _ _ _ => true
  | .cmmaF6ab _ _ _ _ => true
  | .cmmaMxf4 _ _ _ _ => true
  | .cmmaKf4 _ _ _ _ => true
  | .cmmaE4kf4 _ _ _ _ => true
  | .cmmaMxi8 _ _ _ _ => true
  | .kvopen _ _ => true
  | .kvapp h _ _ c p => p != 3 && h != 3 && (p == 1 || c == 0)
  | .kvqry _ _ _ => true
  | .kvseal _ => true
  | .kvstat _ _ => true
  | .kvdrop _ => true
  | .kvdropGrant _ _ => true
  | .kvdropRevoke _ => true
  | .qrld _ _ _ _ => true
  | .qrseed _ _ _ _ => true
  | .qri _ _ _ _ _ => true
  | .qrf _ _ _ _ _ => true
  | .qrvI _ _ _ _ _ => true
  | .qrvD _ _ _ _ _ => true
  | .crd _ _ => true
  | .cwr _ _ => true
  | .trap _ => true
  | .brk _ => true
  | .rft => true
  | .idle => true
  | .done => true
  | .halt => true
  | .haltR => true
  | .cMv _ _ => true
  | .cAdd _ _ => true
  | .cAddi _ _ => true
  | .cSub _ _ => true
  | .cAnd _ _ => true
  | .cLi _ _ => true
  | .cLd _ _ => true
  | .cSd _ _ => true
  | .cLw _ _ => true
  | .cSw _ _ => true
  | .cSlli _ _ => true
  | .cSrli _ _ => true
  | .cJ _ => true
  | .cBrq _ => true
  | .cRet => true
  | .interruptEntry => false
  | .timerExpiry _ => false
  | .idleWake _ _ => false
  | .slipSchedule _ => false
  | .slipInputsSuffice _ _ => false
  | .waitSatisfied _ _ => false
  | .haltDrainComplete _ _ => false
  | .handlerOverrun => false
  | .itemArrival _ => false
  | .getReplyArrival _ => false
  | .closeMarkerArrival _ _ => false
  | .windowComplete _ _ => false
  | .launchArrival _ => false
  | .advanceNoticeArrival _ => false
  | .freeNoticeArrival _ => false
  | .ackArrival _ => false
  | .busyResend _ => false
  | .arrivalDelivery _ => false
  | .copyStart _ => false
  | .copyLanding _ => false
  | .copyComplete _ => false
  | .craneDispatch _ => false
  | .craneCommand _ => false
  | .bankOpApply _ => false
  | .pageService _ => false
  | .pageServiceComplete _ _ _ => false
  | .migration _ _ _ => false
  | .kvAppendApply _ => false
  | .kvQueryResolve _ => false
  | .tripleLanding _ => false
  | .kvPageRecall _ => false
  | .regionSelect _ => false
  | .regionBind _ _ _ => false
  | .preempt _ _ => false
  | .preemptForce _ _ => false
  | .regionSuspend _ _ => false
  | .victimBankClaim _ _ => false
  | .faultDomainStop => false
  | .rollback => false
  | .retentionEntry _ => false
  | .retentionExit _ => false
  | .tcmpWrite _ _ => false
  | .ipendWrite _ _ => false
  | .qrctlWrite _ => false
  | .fdstopWrite _ => false
  | .serrlogWrite _ _ => false
  | .kverrWrite _ _ _ => false
  | .plstatClr _ _ _ => false
  | .registerWrite _ _ _ => false
  | .doorbell _ _ _ => false
  | .qctlEnable _ _ _ => false
  | .qctlRestart _ _ => false
  | .evctlWrite _ _ => false
  | .evheadWrite _ _ => false
  | .evstatWrite _ _ => false
  | .resync _ _ => false
  | .resyncComplete _ => false
  | .packetStart _ _ => false
  | .ldp _ _ => false
  | .ldi _ _ => false
  | .movi _ _ => false
  | .pilotAdd _ _ => false
  | .pilotAnd _ _ => false
  | .shr _ _ => false
  | .pilotBeq _ _ => false
  | .loopn _ _ => false
  | .pilotLaunch _ _ => false
  | .regopReady _ _ => false
  | .regopPrio _ _ => false
  | .regopArgs _ _ => false
  | .waitr _ _ => false
  | .pilotEvent _ _ => false
  | .fail _ _ => false
  | .haltp _ _ => false
  | .pilotWaitResume _ _ => false
  | .takeover _ => false
  | .evpush _ _ => false
  | .dbkick _ _ => false
  | .dbpendWrite _ _ _ => false
  | .cbstatWrite _ _ => false
  | .flitReceive _ _ _ => false
  | .portRetrain _ _ _ => false
  | .portDown _ _ => false
  | .exchangeLineSend _ _ => false
  | .exchangeLineReceive _ => false
  | .transferRecordReceive _ => false
  | .powerGood _ => false
  | .phaseComplete _ _ => false
  | .phaseTimeout _ => false
  | .monitorReading _ _ _ => false
  | .pwrcapLower _ => false
  | .pwrcapRaise _ => false
  | .getCertificate _ => false
  | .challenge _ _ => false
  | .getMeasurements _ => false
  | .pldmSensorRead _ _ => false
  | .pldmFirmwareUpdate _ _ => false
  | .objectLoad _ _ _ _ => false
  | .containerLoad _ _ _ => false
  | .illegalInstruction _ _ => false
  | .fetchFault => false
  | .chstLanding _ => false
  | .regionResume _ _ => false
  | .regionReclaim _ _ => false
  | .kvPageMove _ => false
  | .lostFrameRetransmit _ => false
  | .containerWrite _ _ _ => false

/-- The well-formed instructions: the terms that have a word. An event is none. -/
abbrev Instr.WellFormed (i : Instr) : Prop := i.wellFormed = true

end Sys2Proof
end

