-- ==== Sys2Proof/Decode.lean ====
section
/-! DEFINITION. The decoder and, after it, the encoder of the Volsis words (spec/02 R39 to R66).
Decoding is total on every list of bytes; what is no instruction is rejected by name.
The definitions marked noncomputable build constructors that the compiler's runtime cannot tag (an inductive of 390
constructors); the kernel evaluates them like the others. -/
namespace Sys2Proof

/-- Why bytes are no instruction (R62 steps 2 and 3, and too few bytes). -/
inductive DecodeError where
  /-- Compact opcode 0, an unassigned major, an unlisted function, an LSET beyond width: cause 1. -/
  | illegal
  /-- A reserved bit or a reserved code: cause 2. -/
  | reserved
  /-- The list of bytes ends inside the instruction. -/
  | short
  deriving DecidableEq, Repr

/-- The outcome of decoding one word. -/
abbrev Decoded := Except DecodeError Instr

/-- The field of n bits at bit lo of a word. -/
def fld (w lo n : Nat) : BitVec n := BitVec.ofNat n (w >>> lo)

/-- An instruction unless a reserved bit or code is set (R62 step 3). -/
def ok (bad : Bool) (i : Instr) : Decoded := if bad then .error .reserved else .ok i

/-- Major 0x00 (R52). -/
def dec00 (w : Nat) : Decoded :=
  match bitsOf w 31 28 with
  | 0 => .ok (.add (fld w 7 5) (fld w 12 5) (fld w 17 3) (fld w 20 5) (fld w 25 3))
  | 1 => .ok (.sub (fld w 7 5) (fld w 12 5) (fld w 17 3) (fld w 20 5) (fld w 25 3))
  | 2 => .ok (.and (fld w 7 5) (fld w 12 5) (fld w 17 3) (fld w 20 5) (fld w 25 3))
  | 3 => .ok (.or (fld w 7 5) (fld w 12 5) (fld w 17 3) (fld w 20 5) (fld w 25 3))
  | 4 => .ok (.xor (fld w 7 5) (fld w 12 5) (fld w 17 3) (fld w 20 5) (fld w 25 3))
  | 5 => .ok (.andn (fld w 7 5) (fld w 12 5) (fld w 17 3) (fld w 20 5) (fld w 25 3))
  | 6 => .ok (.orn (fld w 7 5) (fld w 12 5) (fld w 17 3) (fld w 20 5) (fld w 25 3))
  | 7 => .ok (.xnor (fld w 7 5) (fld w 12 5) (fld w 17 3) (fld w 20 5) (fld w 25 3))
  | 8 => .ok (.sll (fld w 7 5) (fld w 12 5) (fld w 17 3) (fld w 20 5) (fld w 25 3))
  | 9 => .ok (.srl (fld w 7 5) (fld w 12 5) (fld w 17 3) (fld w 20 5) (fld w 25 3))
  | 10 => .ok (.sra (fld w 7 5) (fld w 12 5) (fld w 17 3) (fld w 20 5) (fld w 25 3))
  | 11 => .ok (.rol (fld w 7 5) (fld w 12 5) (fld w 17 3) (fld w 20 5) (fld w 25 3))
  | 12 => .ok (.ror (fld w 7 5) (fld w 12 5) (fld w 17 3) (fld w 20 5) (fld w 25 3))
  | 13 => .ok (.min (fld w 7 5) (fld w 12 5) (fld w 17 3) (fld w 20 5) (fld w 25 3))
  | 14 => .ok (.max (fld w 7 5) (fld w 12 5) (fld w 17 3) (fld w 20 5) (fld w 25 3))
  | 15 => .ok (.minu (fld w 7 5) (fld w 12 5) (fld w 17 3) (fld w 20 5) (fld w 25 3))
  | _ => .error .illegal

/-- Major 0x01 (R52). -/
def dec01 (w : Nat) : Decoded :=
  match bitsOf w 31 28 with
  | 0 => .ok (.maxu (fld w 7 5) (fld w 12 5) (fld w 17 3) (fld w 20 5) (fld w 25 3))
  | 1 => .ok (.adds (fld w 7 5) (fld w 12 5) (fld w 17 3) (fld w 20 5) (fld w 25 3))
  | 2 => .ok (.subs (fld w 7 5) (fld w 12 5) (fld w 17 3) (fld w 20 5) (fld w 25 3))
  | 3 => ok (bitsOf w 27 20 != 0) (.clz (fld w 7 5) (fld w 12 5) (fld w 17 3))
  | 4 => ok (bitsOf w 27 20 != 0) (.ctz (fld w 7 5) (fld w 12 5) (fld w 17 3))
  | 5 => ok (bitsOf w 27 20 != 0) (.popc (fld w 7 5) (fld w 12 5) (fld w 17 3))
  | 6 => ok (bitsOf w 27 20 != 0) (.brev (fld w 7 5) (fld w 12 5) (fld w 17 3))
  | 7 => ok (bitsOf w 27 20 != 0) (.sxb (fld w 7 5) (fld w 12 5) (fld w 17 3))
  | 8 => ok (bitsOf w 27 20 != 0) (.sxh (fld w 7 5) (fld w 12 5) (fld w 17 3))
  | 9 => ok (bitsOf w 27 20 != 0) (.sxw (fld w 7 5) (fld w 12 5) (fld w 17 3))
  | 10 => ok (bitsOf w 27 20 != 0) (.zxb (fld w 7 5) (fld w 12 5) (fld w 17 3))
  | 11 => ok (bitsOf w 27 20 != 0) (.zxh (fld w 7 5) (fld w 12 5) (fld w 17 3))
  | 12 => ok (bitsOf w 27 20 != 0) (.zxw (fld w 7 5) (fld w 12 5) (fld w 17 3))
  | _ => .error .illegal

/-- Major 0x02 (R52). -/
def dec02 (w : Nat) : Decoded :=
  match bitsOf w 31 28 with
  | 0 => .ok (.mul (fld w 7 5) (fld w 12 5) (fld w 17 3) (fld w 20 5) (fld w 25 3))
  | 1 => .ok (.mulh (fld w 7 5) (fld w 12 5) (fld w 17 3) (fld w 20 5) (fld w 25 3))
  | 2 => .ok (.mulhu (fld w 7 5) (fld w 12 5) (fld w 17 3) (fld w 20 5) (fld w 25 3))
  | 3 => .ok (.div (fld w 7 5) (fld w 12 5) (fld w 17 3) (fld w 20 5) (fld w 25 3))
  | 4 => .ok (.divu (fld w 7 5) (fld w 12 5) (fld w 17 3) (fld w 20 5) (fld w 25 3))
  | 5 => .ok (.rem (fld w 7 5) (fld w 12 5) (fld w 17 3) (fld w 20 5) (fld w 25 3))
  | 6 => .ok (.remu (fld w 7 5) (fld w 12 5) (fld w 17 3) (fld w 20 5) (fld w 25 3))
  | _ => .error .illegal

/-- Major 0x03 (R52). -/
def dec03 (w : Nat) : Decoded := .ok (.addi (fld w 7 5) (fld w 12 5) (fld w 17 3) (fld w 20 12))

/-- Major 0x04 (R52). -/
def dec04 (w : Nat) : Decoded := .ok (.andi (fld w 7 5) (fld w 12 5) (fld w 17 3) (fld w 20 12))

/-- Major 0x05 (R52). -/
def dec05 (w : Nat) : Decoded := .ok (.ori (fld w 7 5) (fld w 12 5) (fld w 17 3) (fld w 20 12))

/-- Major 0x06 (R52). -/
def dec06 (w : Nat) : Decoded := .ok (.xori (fld w 7 5) (fld w 12 5) (fld w 17 3) (fld w 20 12))

/-- Major 0x07 (R52). -/
def dec07 (w : Nat) : Decoded :=
  match bitsOf w 31 26 with
  | 0 => .ok (.slli (fld w 7 5) (fld w 12 5) (fld w 17 3) (fld w 20 6))
  | 1 => .ok (.srli (fld w 7 5) (fld w 12 5) (fld w 17 3) (fld w 20 6))
  | 2 => .ok (.srai (fld w 7 5) (fld w 12 5) (fld w 17 3) (fld w 20 6))
  | 3 => .ok (.rori (fld w 7 5) (fld w 12 5) (fld w 17 3) (fld w 20 6))
  | _ => .error .illegal

/-- Major 0x08 (R52). -/
def dec08 (w : Nat) : Decoded := .ok (.upim (fld w 7 5) (fld w 12 20))

/-- Major 0x09 (R52). -/
def dec09 (w : Nat) : Decoded := .ok (.pcadd (fld w 7 5) (fld w 12 20))

/-- Major 0x0A (R52). -/
def dec0A (w : Nat) : Decoded :=
  match bitsOf w 31 28 with
  | 0 => ok (bitsOf w 11 10 != 0) (.ceq (fld w 7 3) (fld w 12 5) (fld w 17 3) (fld w 20 5) (fld w 25 3))
  | 1 => ok (bitsOf w 11 10 != 0) (.cne (fld w 7 3) (fld w 12 5) (fld w 17 3) (fld w 20 5) (fld w 25 3))
  | 2 => ok (bitsOf w 11 10 != 0) (.clt (fld w 7 3) (fld w 12 5) (fld w 17 3) (fld w 20 5) (fld w 25 3))
  | 3 => ok (bitsOf w 11 10 != 0) (.cltu (fld w 7 3) (fld w 12 5) (fld w 17 3) (fld w 20 5) (fld w 25 3))
  | 4 => ok (bitsOf w 11 10 != 0) (.cge (fld w 7 3) (fld w 12 5) (fld w 17 3) (fld w 20 5) (fld w 25 3))
  | 5 => ok (bitsOf w 11 10 != 0) (.cgeu (fld w 7 3) (fld w 12 5) (fld w 17 3) (fld w 20 5) (fld w 25 3))
  | 8 => ok (bitsOf w 24 23 != 0 || bitsOf w 16 15 != 0 || bitsOf w 11 10 != 0) (.qand (fld w 7 3) (fld w 12 3) (fld w 17 3) (fld w 20 3) (fld w 25 3))
  | 9 => ok (bitsOf w 24 23 != 0 || bitsOf w 16 15 != 0 || bitsOf w 11 10 != 0) (.qor (fld w 7 3) (fld w 12 3) (fld w 17 3) (fld w 20 3) (fld w 25 3))
  | 10 => ok (bitsOf w 24 23 != 0 || bitsOf w 16 15 != 0 || bitsOf w 11 10 != 0) (.qxor (fld w 7 3) (fld w 12 3) (fld w 17 3) (fld w 20 3) (fld w 25 3))
  | 11 => ok (bitsOf w 27 20 != 0 || bitsOf w 16 15 != 0 || bitsOf w 11 10 != 0) (.qnot (fld w 7 3) (fld w 12 3) (fld w 17 3))
  | _ => .error .illegal

/-- Major 0x0B (R52). -/
def dec0B (w : Nat) : Decoded :=
  match bitsOf w 31 29 with
  | 0 => ok (bitsOf w 11 10 != 0) (.ceqi (fld w 7 3) (fld w 12 5) (fld w 17 3) (fld w 20 9))
  | 1 => ok (bitsOf w 11 10 != 0) (.cnei (fld w 7 3) (fld w 12 5) (fld w 17 3) (fld w 20 9))
  | 2 => ok (bitsOf w 11 10 != 0) (.clti (fld w 7 3) (fld w 12 5) (fld w 17 3) (fld w 20 9))
  | 3 => ok (bitsOf w 11 10 != 0) (.cltui (fld w 7 3) (fld w 12 5) (fld w 17 3) (fld w 20 9))
  | 4 => ok (bitsOf w 11 10 != 0) (.cgei (fld w 7 3) (fld w 12 5) (fld w 17 3) (fld w 20 9))
  | 5 => ok (bitsOf w 11 10 != 0) (.cgeui (fld w 7 3) (fld w 12 5) (fld w 17 3) (fld w 20 9))
  | _ => .error .illegal

/-- Major 0x0C (R52). -/
def dec0C (w : Nat) : Decoded := ok (bitsOf w 12 11 == 3) (.br (fld w 7 3) (fld w 10 1) (fld w 11 2) (fld w 13 19))

/-- Major 0x0D (R52). -/
def dec0D (w : Nat) : Decoded := .ok (.j (fld w 7 25))

/-- Major 0x0E (R52). -/
def dec0E (w : Nat) : Decoded := .ok (.jl (fld w 7 25))

/-- Major 0x0F (R52). -/
def dec0F (w : Nat) : Decoded :=
  match bitsOf w 11 7 with
  | 0 => .ok (.jr (fld w 12 5) (fld w 17 3) (fld w 20 12))
  | 1 => .ok (.jlr (fld w 12 5) (fld w 17 3) (fld w 20 12))
  | _ => .error .illegal

/-- Major 0x10 (R52). -/
def dec10 (w : Nat) : Decoded :=
  match bitsOf w 31 28 with
  | 0 => if decide (bitsOf w 9 7 + 1 + bitsOf w 12 10 > 8) then .error .illegal else ok (bitsOf w 27 23 != 0) (.lset (fld w 7 3) (fld w 10 3) (fld w 13 5) (fld w 18 5))
  | 1 => .ok (.loop (fld w 7 5) (fld w 12 16))
  | 2 => .ok (.loops (fld w 7 5) (fld w 12 16))
  | 3 => ok (bitsOf w 27 13 != 0 || bitsOf w 10 7 != 0 || bitsOf w 12 11 == 3) (.leave (fld w 11 2))
  | 4 => ok (bitsOf w 27 13 != 0 || bitsOf w 12 11 == 3) (.leaveq (fld w 7 3) (fld w 10 1) (fld w 11 2))
  | _ => .error .illegal

/-- Major 0x11 (R52). -/
def dec11 (w : Nat) : Decoded :=
  match bitsOf w 22 20 with
  | 0 => .ok (.lb (fld w 7 5) (fld w 12 5) (fld w 17 3) (fld w 23 9))
  | 1 => .ok (.lbu (fld w 7 5) (fld w 12 5) (fld w 17 3) (fld w 23 9))
  | 2 => .ok (.lh (fld w 7 5) (fld w 12 5) (fld w 17 3) (fld w 23 9))
  | 3 => .ok (.lhu (fld w 7 5) (fld w 12 5) (fld w 17 3) (fld w 23 9))
  | 4 => .ok (.lw (fld w 7 5) (fld w 12 5) (fld w 17 3) (fld w 23 9))
  | 5 => .ok (.lwu (fld w 7 5) (fld w 12 5) (fld w 17 3) (fld w 23 9))
  | 6 => .ok (.ld (fld w 7 5) (fld w 12 5) (fld w 17 3) (fld w 23 9))
  | _ => .error .illegal

/-- Major 0x12 (R52). -/
def dec12 (w : Nat) : Decoded :=
  match bitsOf w 22 20 with
  | 0 => .ok (.sb (fld w 7 5) (fld w 12 5) (fld w 17 3) (fld w 23 9))
  | 2 => .ok (.sh (fld w 7 5) (fld w 12 5) (fld w 17 3) (fld w 23 9))
  | 4 => .ok (.sw (fld w 7 5) (fld w 12 5) (fld w 17 3) (fld w 23 9))
  | 6 => .ok (.sd (fld w 7 5) (fld w 12 5) (fld w 17 3) (fld w 23 9))
  | _ => .error .illegal

/-- Major 0x13 (R52). -/
def dec13 (w : Nat) : Decoded :=
  match bitsOf w 31 28 with
  | 0 => .ok (.lxB (fld w 7 5) (fld w 12 5) (fld w 17 3) (fld w 20 5) (fld w 25 3))
  | 1 => .ok (.lxBu (fld w 7 5) (fld w 12 5) (fld w 17 3) (fld w 20 5) (fld w 25 3))
  | 2 => .ok (.lxH (fld w 7 5) (fld w 12 5) (fld w 17 3) (fld w 20 5) (fld w 25 3))
  | 3 => .ok (.lxHu (fld w 7 5) (fld w 12 5) (fld w 17 3) (fld w 20 5) (fld w 25 3))
  | 4 => .ok (.lxW (fld w 7 5) (fld w 12 5) (fld w 17 3) (fld w 20 5) (fld w 25 3))
  | 5 => .ok (.lxWu (fld w 7 5) (fld w 12 5) (fld w 17 3) (fld w 20 5) (fld w 25 3))
  | 6 => .ok (.lxD (fld w 7 5) (fld w 12 5) (fld w 17 3) (fld w 20 5) (fld w 25 3))
  | 8 => .ok (.sxB (fld w 7 5) (fld w 12 5) (fld w 17 3) (fld w 20 5) (fld w 25 3))
  | 10 => .ok (.sxH (fld w 7 5) (fld w 12 5) (fld w 17 3) (fld w 20 5) (fld w 25 3))
  | 12 => .ok (.sxW (fld w 7 5) (fld w 12 5) (fld w 17 3) (fld w 20 5) (fld w 25 3))
  | 14 => .ok (.sxD (fld w 7 5) (fld w 12 5) (fld w 17 3) (fld w 20 5) (fld w 25 3))
  | _ => .error .illegal

/-- Major 0x14 (R52). -/
def dec14 (w : Nat) : Decoded :=
  match bitsOf w 31 31 with
  | 0 => .ok (.flw (fld w 7 5) (fld w 12 5) (fld w 17 3) (fld w 20 11))
  | 1 => .ok (.fsw (fld w 7 5) (fld w 12 5) (fld w 17 3) (fld w 20 11))
  | _ => .error .illegal

/-- Major 0x15 (R52). -/
def dec15 (w : Nat) : Decoded :=
  match bitsOf w 31 30 with
  | 0 => .ok (.vl (fld w 7 5) (fld w 12 5) (fld w 17 3) (fld w 20 10))
  | 1 => .ok (.vs (fld w 7 5) (fld w 12 5) (fld w 17 3) (fld w 20 10))
  | _ => .error .illegal

/-- Major 0x16 (R52). -/
def dec16 (w : Nat) : Decoded :=
  match bitsOf w 29 28 with
  | 0 => .ok (.vls (fld w 7 5) (fld w 12 5) (fld w 17 3) (fld w 20 5) (fld w 25 3) (fld w 30 2))
  | 1 => .ok (.vss (fld w 7 5) (fld w 12 5) (fld w 17 3) (fld w 20 5) (fld w 25 3) (fld w 30 2))
  | 2 => .ok (.vlg (fld w 7 5) (fld w 12 5) (fld w 17 3) (fld w 20 5) (fld w 25 3) (fld w 30 2))
  | 3 => .ok (.vsg (fld w 7 5) (fld w 12 5) (fld w 17 3) (fld w 20 5) (fld w 25 3) (fld w 30 2))
  | _ => .error .illegal

/-- Major 0x17 (R52). -/
def dec17 (w : Nat) : Decoded :=
  match bitsOf w 31 28 with
  | 0 => .ok (.fadd (fld w 7 5) (fld w 12 5) (fld w 17 3) (fld w 20 5) (fld w 25 3))
  | 1 => .ok (.fsub (fld w 7 5) (fld w 12 5) (fld w 17 3) (fld w 20 5) (fld w 25 3))
  | 2 => .ok (.fmul (fld w 7 5) (fld w 12 5) (fld w 17 3) (fld w 20 5) (fld w 25 3))
  | 3 => .ok (.fdiv (fld w 7 5) (fld w 12 5) (fld w 17 3) (fld w 20 5) (fld w 25 3))
  | 4 => ok (bitsOf w 27 20 != 0) (.fsqrt (fld w 7 5) (fld w 12 5) (fld w 17 3))
  | 5 => .ok (.fmin (fld w 7 5) (fld w 12 5) (fld w 17 3) (fld w 20 5) (fld w 25 3))
  | 6 => .ok (.fmax (fld w 7 5) (fld w 12 5) (fld w 17 3) (fld w 20 5) (fld w 25 3))
  | 7 => ok (bitsOf w 27 20 != 0) (.fabs (fld w 7 5) (fld w 12 5) (fld w 17 3))
  | 8 => ok (bitsOf w 27 20 != 0) (.fneg (fld w 7 5) (fld w 12 5) (fld w 17 3))
  | _ => .error .illegal

/-- Major 0x18 (R52). -/
def dec18 (w : Nat) : Decoded :=
  match bitsOf w 31 27 with
  | 0 => .ok (.fma (fld w 7 5) (fld w 12 5) (fld w 17 5) (fld w 22 5))
  | 1 => .ok (.fms (fld w 7 5) (fld w 12 5) (fld w 17 5) (fld w 22 5))
  | 2 => .ok (.fnma (fld w 7 5) (fld w 12 5) (fld w 17 5) (fld w 22 5))
  | 3 => .ok (.fnms (fld w 7 5) (fld w 12 5) (fld w 17 5) (fld w 22 5))
  | _ => .error .illegal

/-- Major 0x19 (R52). -/
def dec19 (w : Nat) : Decoded :=
  match bitsOf w 31 28 with
  | 0 => ok (bitsOf w 27 23 != 0) (.fcvti (fld w 7 5) (fld w 12 5) (fld w 17 3) (fld w 20 2) (fld w 22 1))
  | 1 => ok (bitsOf w 27 23 != 0) (.fcvtf (fld w 7 5) (fld w 12 5) (fld w 17 3) (fld w 20 2) (fld w 22 1))
  | 2 => ok (bitsOf w 27 23 != 0) (.fcvtb (fld w 7 5) (fld w 12 5) (fld w 17 3) (fld w 20 2) (fld w 22 1))
  | 3 => ok (bitsOf w 27 20 != 0) (.fmvgf (fld w 7 5) (fld w 12 5) (fld w 17 3))
  | 4 => ok (bitsOf w 27 20 != 0) (.fmvfg (fld w 7 5) (fld w 12 5) (fld w 17 3))
  | 5 => ok (bitsOf w 11 10 != 0) (.fceq (fld w 7 3) (fld w 12 5) (fld w 17 3) (fld w 20 5) (fld w 25 3))
  | 6 => ok (bitsOf w 11 10 != 0) (.fclt (fld w 7 3) (fld w 12 5) (fld w 17 3) (fld w 20 5) (fld w 25 3))
  | 7 => ok (bitsOf w 11 10 != 0) (.fcle (fld w 7 3) (fld w 12 5) (fld w 17 3) (fld w 20 5) (fld w 25 3))
  | 8 => ok (bitsOf w 27 20 != 0) (.fclass (fld w 7 5) (fld w 12 5) (fld w 17 3))
  | _ => .error .illegal

/-- Major 0x1A (R52). -/
def dec1A (w : Nat) : Decoded :=
  match bitsOf w 31 28 with
  | 0 => ok (decide (bitsOf w 27 25 > 3)) (.vadd (fld w 7 5) (fld w 12 5) (fld w 17 3) (fld w 20 5) (fld w 25 3))
  | 1 => ok (decide (bitsOf w 27 25 > 3)) (.vsub (fld w 7 5) (fld w 12 5) (fld w 17 3) (fld w 20 5) (fld w 25 3))
  | 2 => ok (decide (bitsOf w 27 25 > 3)) (.vmul (fld w 7 5) (fld w 12 5) (fld w 17 3) (fld w 20 5) (fld w 25 3))
  | 3 => ok (decide (bitsOf w 27 25 > 3)) (.vmulh (fld w 7 5) (fld w 12 5) (fld w 17 3) (fld w 20 5) (fld w 25 3))
  | 4 => ok (decide (bitsOf w 27 25 > 3)) (.vmin (fld w 7 5) (fld w 12 5) (fld w 17 3) (fld w 20 5) (fld w 25 3))
  | 5 => ok (decide (bitsOf w 27 25 > 3)) (.vmax (fld w 7 5) (fld w 12 5) (fld w 17 3) (fld w 20 5) (fld w 25 3))
  | 6 => ok (decide (bitsOf w 27 25 > 3)) (.vminu (fld w 7 5) (fld w 12 5) (fld w 17 3) (fld w 20 5) (fld w 25 3))
  | 7 => ok (decide (bitsOf w 27 25 > 3)) (.vmaxu (fld w 7 5) (fld w 12 5) (fld w 17 3) (fld w 20 5) (fld w 25 3))
  | 8 => ok (decide (bitsOf w 27 25 > 3)) (.vand (fld w 7 5) (fld w 12 5) (fld w 17 3) (fld w 20 5) (fld w 25 3))
  | 9 => ok (decide (bitsOf w 27 25 > 3)) (.vor (fld w 7 5) (fld w 12 5) (fld w 17 3) (fld w 20 5) (fld w 25 3))
  | 10 => ok (decide (bitsOf w 27 25 > 3)) (.vxor (fld w 7 5) (fld w 12 5) (fld w 17 3) (fld w 20 5) (fld w 25 3))
  | 11 => ok (decide (bitsOf w 27 25 > 3)) (.vsll (fld w 7 5) (fld w 12 5) (fld w 17 3) (fld w 20 5) (fld w 25 3))
  | 12 => ok (decide (bitsOf w 27 25 > 3)) (.vsrl (fld w 7 5) (fld w 12 5) (fld w 17 3) (fld w 20 5) (fld w 25 3))
  | 13 => ok (decide (bitsOf w 27 25 > 3)) (.vsra (fld w 7 5) (fld w 12 5) (fld w 17 3) (fld w 20 5) (fld w 25 3))
  | 14 => ok (decide (bitsOf w 27 25 > 3)) (.vadds (fld w 7 5) (fld w 12 5) (fld w 17 3) (fld w 20 5) (fld w 25 3))
  | 15 => ok (decide (bitsOf w 27 25 > 3)) (.vsubs (fld w 7 5) (fld w 12 5) (fld w 17 3) (fld w 20 5) (fld w 25 3))
  | _ => .error .illegal

/-- Major 0x1B (R52). -/
def dec1B (w : Nat) : Decoded :=
  match bitsOf w 31 28 with
  | 0 => ok (decide (bitsOf w 27 25 > 1)) (.vfadd (fld w 7 5) (fld w 12 5) (fld w 17 3) (fld w 20 5) (fld w 25 3))
  | 1 => ok (decide (bitsOf w 27 25 > 1)) (.vfsub (fld w 7 5) (fld w 12 5) (fld w 17 3) (fld w 20 5) (fld w 25 3))
  | 2 => ok (decide (bitsOf w 27 25 > 1)) (.vfmul (fld w 7 5) (fld w 12 5) (fld w 17 3) (fld w 20 5) (fld w 25 3))
  | 3 => ok (decide (bitsOf w 27 25 > 1)) (.vfdiv (fld w 7 5) (fld w 12 5) (fld w 17 3) (fld w 20 5) (fld w 25 3))
  | 4 => ok (decide (bitsOf w 27 25 > 1)) (.vfmin (fld w 7 5) (fld w 12 5) (fld w 17 3) (fld w 20 5) (fld w 25 3))
  | 5 => ok (decide (bitsOf w 27 25 > 1)) (.vfmax (fld w 7 5) (fld w 12 5) (fld w 17 3) (fld w 20 5) (fld w 25 3))
  | 6 => ok (bitsOf w 24 20 != 0 || decide (bitsOf w 27 25 > 1)) (.vfexp2 (fld w 7 5) (fld w 12 5) (fld w 17 3) (fld w 25 3))
  | 7 => ok (bitsOf w 24 20 != 0 || decide (bitsOf w 27 25 > 1)) (.vfrcp (fld w 7 5) (fld w 12 5) (fld w 17 3) (fld w 25 3))
  | 8 => ok (bitsOf w 24 20 != 0 || decide (bitsOf w 27 25 > 1)) (.vfrsq (fld w 7 5) (fld w 12 5) (fld w 17 3) (fld w 25 3))
  | 9 => ok (bitsOf w 24 20 != 0 || decide (bitsOf w 27 25 > 1)) (.vfabs (fld w 7 5) (fld w 12 5) (fld w 17 3) (fld w 25 3))
  | 10 => ok (bitsOf w 24 20 != 0 || decide (bitsOf w 27 25 > 1)) (.vfneg (fld w 7 5) (fld w 12 5) (fld w 17 3) (fld w 25 3))
  | _ => .error .illegal

/-- Major 0x1C (R52). -/
def dec1C (w : Nat) : Decoded :=
  match bitsOf w 31 27 with
  | 0 => .ok (.vfmaS (fld w 7 5) (fld w 12 5) (fld w 17 5) (fld w 22 5))
  | 1 => .ok (.vfmaBf (fld w 7 5) (fld w 12 5) (fld w 17 5) (fld w 22 5))
  | 2 => .ok (.vfmsS (fld w 7 5) (fld w 12 5) (fld w 17 5) (fld w 22 5))
  | 3 => .ok (.vfmsBf (fld w 7 5) (fld w 12 5) (fld w 17 5) (fld w 22 5))
  | 4 => ok (bitsOf w 26 25 != 0) (.vselB (fld w 7 5) (fld w 12 5) (fld w 17 5) (fld w 22 3))
  | 5 => ok (bitsOf w 26 25 != 0) (.vselH (fld w 7 5) (fld w 12 5) (fld w 17 5) (fld w 22 3))
  | 6 => ok (bitsOf w 26 25 != 0) (.vselW (fld w 7 5) (fld w 12 5) (fld w 17 5) (fld w 22 3))
  | 7 => ok (bitsOf w 26 25 != 0) (.vselD (fld w 7 5) (fld w 12 5) (fld w 17 5) (fld w 22 3))
  | _ => .error .illegal

/-- Major 0x1D (R52). -/
def dec1D (w : Nat) : Decoded :=
  match bitsOf w 31 28 with
  | 0 => ok (bitsOf w 24 23 != 0 || decide (bitsOf w 27 25 > 5)) (.vrsum (fld w 7 5) (fld w 12 5) (fld w 17 3) (fld w 20 3) (fld w 25 3))
  | 1 => ok (bitsOf w 24 23 != 0 || decide (bitsOf w 27 25 > 5)) (.vrmax (fld w 7 5) (fld w 12 5) (fld w 17 3) (fld w 20 3) (fld w 25 3))
  | 2 => ok (bitsOf w 24 23 != 0 || decide (bitsOf w 27 25 > 5)) (.vrmin (fld w 7 5) (fld w 12 5) (fld w 17 3) (fld w 20 3) (fld w 25 3))
  | 3 => if bitsOf w 27 25 == 4 || bitsOf w 27 25 == 5 then .error .illegal else ok (decide (bitsOf w 27 25 > 5)) (.vperm (fld w 7 5) (fld w 12 5) (fld w 17 3) (fld w 20 5) (fld w 25 3))
  | 4 => if bitsOf w 27 25 == 4 || bitsOf w 27 25 == 5 then .error .illegal else ok (decide (bitsOf w 27 25 > 5)) (.vbcast (fld w 7 5) (fld w 12 5) (fld w 17 3) (fld w 20 5) (fld w 25 3))
  | 5 => ok (bitsOf w 24 20 != 0 || decide (bitsOf w 27 25 > 5)) (.vsplat (fld w 7 5) (fld w 12 5) (fld w 17 3) (fld w 25 3))
  | _ => .error .illegal

/-- Major 0x1E (R52). -/
def dec1E (w : Nat) : Decoded :=
  match bitsOf w 31 28 with
  | 0 => ok ((decide (bitsOf w 27 25 > 4) || (decide (bitsOf w 27 25 < 4) && bitsOf w 24 21 != 0))) (.vcvtBfS (fld w 7 5) (fld w 12 5) (fld w 17 3) (fld w 20 5) (fld w 25 3))
  | 1 => ok (bitsOf w 27 20 != 0) (.vcvtSBf (fld w 7 5) (fld w 12 5) (fld w 17 3))
  | 2 => ok ((decide (bitsOf w 27 25 > 4) || (decide (bitsOf w 27 25 < 4) && bitsOf w 24 21 != 0))) (.vcvtHfS (fld w 7 5) (fld w 12 5) (fld w 17 3) (fld w 20 5) (fld w 25 3))
  | 3 => ok (bitsOf w 27 20 != 0) (.vcvtSHf (fld w 7 5) (fld w 12 5) (fld w 17 3))
  | 4 => ok ((decide (bitsOf w 27 25 > 4) || (decide (bitsOf w 27 25 < 4) && bitsOf w 24 21 != 0))) (.vcvtI32S (fld w 7 5) (fld w 12 5) (fld w 17 3) (fld w 20 5) (fld w 25 3))
  | 5 => ok ((decide (bitsOf w 27 25 > 4) || (decide (bitsOf w 27 25 < 4) && bitsOf w 24 21 != 0))) (.vcvtSI32 (fld w 7 5) (fld w 12 5) (fld w 17 3) (fld w 20 5) (fld w 25 3))
  | 6 => ok ((decide (bitsOf w 27 25 > 4) || (decide (bitsOf w 27 25 < 4) && bitsOf w 24 21 != 0))) (.vcvtI8S (fld w 7 5) (fld w 12 5) (fld w 17 3) (fld w 20 5) (fld w 25 3))
  | 7 => ok (bitsOf w 27 20 != 0) (.vcvtSI8 (fld w 7 5) (fld w 12 5) (fld w 17 3))
  | 8 => ok ((decide (bitsOf w 27 25 > 4) || (decide (bitsOf w 27 25 < 4) && bitsOf w 24 21 != 0))) (.vcvtHfBf (fld w 7 5) (fld w 12 5) (fld w 17 3) (fld w 20 5) (fld w 25 3))
  | 9 => ok ((decide (bitsOf w 27 25 > 4) || (decide (bitsOf w 27 25 < 4) && bitsOf w 24 21 != 0))) (.vcvtBfHf (fld w 7 5) (fld w 12 5) (fld w 17 3) (fld w 20 5) (fld w 25 3))
  | 12 => ok (bitsOf w 24 21 != 0 || bitsOf w 27 25 == 7) (.vpackmx (fld w 7 5) (fld w 12 5) (fld w 17 3) (fld w 20 1) (fld w 25 3))
  | 13 => ok (bitsOf w 24 20 != 0 || bitsOf w 27 25 == 7) (.vunpkmx (fld w 7 5) (fld w 12 5) (fld w 17 3) (fld w 25 3))
  | _ => .error .illegal

/-- Major 0x1F (R52). -/
def dec1F (w : Nat) : Decoded :=
  match bitsOf w 31 28 with
  | 0 => ok (bitsOf w 24 23 != 0 || bitsOf w 16 15 != 0 || bitsOf w 11 10 != 0) (.mand (fld w 7 3) (fld w 12 3) (fld w 17 3) (fld w 20 3) (fld w 25 3))
  | 1 => ok (bitsOf w 24 23 != 0 || bitsOf w 16 15 != 0 || bitsOf w 11 10 != 0) (.mor (fld w 7 3) (fld w 12 3) (fld w 17 3) (fld w 20 3) (fld w 25 3))
  | 2 => ok (bitsOf w 24 23 != 0 || bitsOf w 16 15 != 0 || bitsOf w 11 10 != 0) (.mxor (fld w 7 3) (fld w 12 3) (fld w 17 3) (fld w 20 3) (fld w 25 3))
  | 3 => ok (bitsOf w 27 20 != 0 || bitsOf w 16 15 != 0 || bitsOf w 11 10 != 0) (.mnot (fld w 7 3) (fld w 12 3) (fld w 17 3))
  | 4 => ok (bitsOf w 27 20 != 0 || bitsOf w 16 15 != 0) (.mpop (fld w 7 5) (fld w 12 3) (fld w 17 3))
  | 5 => ok (bitsOf w 27 20 != 0 || bitsOf w 16 15 != 0) (.mfirst (fld w 7 5) (fld w 12 3) (fld w 17 3))
  | 6 => ok (bitsOf w 11 10 != 0 || decide (bitsOf w 27 25 > 1)) (.vfcmpEq (fld w 7 3) (fld w 12 5) (fld w 17 3) (fld w 20 5) (fld w 25 3))
  | 7 => ok (bitsOf w 11 10 != 0 || decide (bitsOf w 27 25 > 1)) (.vfcmpLt (fld w 7 3) (fld w 12 5) (fld w 17 3) (fld w 20 5) (fld w 25 3))
  | 8 => ok (bitsOf w 11 10 != 0 || decide (bitsOf w 27 25 > 3)) (.vcmpEq (fld w 7 3) (fld w 12 5) (fld w 17 3) (fld w 20 5) (fld w 25 3))
  | 9 => ok (bitsOf w 11 10 != 0 || decide (bitsOf w 27 25 > 3)) (.vcmpNe (fld w 7 3) (fld w 12 5) (fld w 17 3) (fld w 20 5) (fld w 25 3))
  | 10 => ok (bitsOf w 11 10 != 0 || decide (bitsOf w 27 25 > 3)) (.vcmpLt (fld w 7 3) (fld w 12 5) (fld w 17 3) (fld w 20 5) (fld w 25 3))
  | 11 => ok (bitsOf w 11 10 != 0 || decide (bitsOf w 27 25 > 3)) (.vcmpLtu (fld w 7 3) (fld w 12 5) (fld w 17 3) (fld w 20 5) (fld w 25 3))
  | 12 => ok (bitsOf w 11 10 != 0 || decide (bitsOf w 27 25 > 3)) (.vcmpGe (fld w 7 3) (fld w 12 5) (fld w 17 3) (fld w 20 5) (fld w 25 3))
  | 13 => ok (bitsOf w 11 10 != 0 || decide (bitsOf w 27 25 > 3)) (.vcmpGeu (fld w 7 3) (fld w 12 5) (fld w 17 3) (fld w 20 5) (fld w 25 3))
  | 14 => ok (bitsOf w 11 10 != 0 || decide (bitsOf w 27 25 > 1)) (.vfcmpLe (fld w 7 3) (fld w 12 5) (fld w 17 3) (fld w 20 5) (fld w 25 3))
  | _ => .error .illegal

/-- Major 0x20 (R52). -/
def dec20 (w : Nat) : Decoded :=
  match bitsOf w 30 28 with
  | 0 => ok (bitsOf w 31 31 != 0 || bitsOf w 11 7 != 0) (.chwaitf (fld w 12 4) (fld w 16 12))
  | 1 => ok (bitsOf w 31 31 != 0 || bitsOf w 11 7 != 0) (.chwaite (fld w 12 4) (fld w 16 12))
  | 2 => ok (bitsOf w 31 31 != 0 || bitsOf w 11 7 != 0) (.chadvc (fld w 12 4) (fld w 16 12))
  | 3 => ok (bitsOf w 31 31 != 0 || bitsOf w 11 7 != 0) (.chadvp (fld w 12 4) (fld w 16 12))
  | 4 => ok (bitsOf w 31 31 != 0) (.chst (fld w 7 5) (fld w 12 4) (fld w 16 12))
  | 5 => ok (bitsOf w 31 31 != 0) (.chaddr (fld w 7 5) (fld w 12 4) (fld w 16 12))
  | _ => .error .illegal

/-- Major 0x21 (R52). -/
def dec21 (w : Nat) : Decoded :=
  match bitsOf w 29 27 with
  | 0 => ok (bitsOf w 31 30 != 0 || bitsOf w 21 17 != 0 || bitsOf w 11 10 != 0) (.send (fld w 7 3) (fld w 12 5) (fld w 22 5))
  | 1 => ok (bitsOf w 31 30 != 0 || bitsOf w 21 17 != 0 || bitsOf w 11 10 != 0 || bitsOf w 9 7 == 7) (.put (fld w 7 3) (fld w 12 5) (fld w 22 5))
  | 2 => ok (bitsOf w 31 30 != 0 || bitsOf w 26 22 != 0 || bitsOf w 11 10 != 0 || bitsOf w 9 7 == 7) (.get (fld w 7 3) (fld w 12 5) (fld w 17 5))
  | 3 => ok (bitsOf w 26 7 != 0) (.window (fld w 30 1) (fld w 31 1))
  | _ => .error .illegal

/-- Major 0x22 (R52). -/
def dec22 (w : Nat) : Decoded :=
  match bitsOf w 31 28 with
  | 0 => ok (bitsOf w 11 11 != 0 || (decide (bitsOf w 9 7 > 5) || (bitOf w 10 && bitsOf w 9 7 != 0))) (.bdef (fld w 7 3) (fld w 10 1) (fld w 12 5) (fld w 17 3) (fld w 20 5) (fld w 25 3))
  | 1 => ok (bitsOf w 11 7 != 0) (.badd (fld w 12 5) (fld w 17 3) (fld w 20 5) (fld w 25 3))
  | 2 => ok (bitsOf w 11 7 != 0) (.band (fld w 12 5) (fld w 17 3) (fld w 20 5) (fld w 25 3))
  | 3 => ok (bitsOf w 11 7 != 0) (.bor (fld w 12 5) (fld w 17 3) (fld w 20 5) (fld w 25 3))
  | 4 => ok (bitsOf w 11 7 != 0) (.bxor (fld w 12 5) (fld w 17 3) (fld w 20 5) (fld w 25 3))
  | 5 => ok (bitsOf w 11 8 != 0) (.bmin (fld w 7 1) (fld w 12 5) (fld w 17 3) (fld w 20 5) (fld w 25 3))
  | 6 => ok (bitsOf w 11 8 != 0) (.bmax (fld w 7 1) (fld w 12 5) (fld w 17 3) (fld w 20 5) (fld w 25 3))
  | 7 => ok (bitsOf w 11 8 != 0) (.bfxa (fld w 7 1) (fld w 12 5) (fld w 17 3) (fld w 20 5) (fld w 25 3))
  | 8 => ok (bitsOf w 11 7 != 0) (.bminf (fld w 12 5) (fld w 17 3) (fld w 20 5) (fld w 25 3))
  | 9 => ok (bitsOf w 11 7 != 0) (.bmaxf (fld w 12 5) (fld w 17 3) (fld w 20 5) (fld w 25 3))
  | 10 => ok (bitsOf w 11 11 != 0) (.bvsa (fld w 7 4) (fld w 12 5) (fld w 17 3) (fld w 20 5) (fld w 25 3))
  | 11 => ok (bitsOf w 27 22 != 0 || bitsOf w 21 20 == 3) (.brd (fld w 7 5) (fld w 12 5) (fld w 17 3) (fld w 20 2))
  | _ => .error .illegal

/-- Major 0x23 (R52). -/
def dec23 (w : Nat) : Decoded :=
  match bitsOf w 31 28 with
  | 0 => ok (bitsOf w 11 7 != 0) (.swdef (fld w 12 5) (fld w 17 3) (fld w 20 5) (fld w 25 3))
  | 1 => ok (bitsOf w 27 20 != 0 || bitsOf w 11 10 != 0 || bitsOf w 9 7 == 7) (.arrive (fld w 7 3) (fld w 12 5) (fld w 17 3))
  | 2 => ok (bitsOf w 11 10 != 0 || bitsOf w 9 7 == 7) (.swait (fld w 7 3) (fld w 12 5) (fld w 17 3) (fld w 20 5) (fld w 25 3))
  | 3 => ok (bitsOf w 27 10 != 0 || bitsOf w 9 7 == 7) (.fence (fld w 7 3))
  | 4 => ok (bitsOf w 27 20 != 0 || bitsOf w 11 7 != 0) (.flushas (fld w 12 5) (fld w 17 3))
  | 5 => ok (bitsOf w 27 7 != 0) (.drain)
  | _ => .error .illegal

/-- Major 0x24 (R52). -/
def dec24 (w : Nat) : Decoded :=
  match bitsOf w 31 27 with
  | 0 => ok (bitsOf w 26 17 != 0) (.xfer (fld w 7 5) (fld w 12 5))
  | 1 => ok (bitsOf w 26 17 != 0) (.xferq (fld w 7 5) (fld w 12 5))
  | 2 => ok (bitsOf w 26 19 != 0 || bitsOf w 11 7 != 0) (.xwait (fld w 12 5) (fld w 17 2))
  | 3 => ok (bitsOf w 26 19 != 0 || bitsOf w 16 12 != 0) (.xstat (fld w 7 5) (fld w 17 2))
  | _ => .error .illegal

/-- Major 0x25 (R52). -/
def dec25 (w : Nat) : Decoded :=
  match bitsOf w 31 28 with
  | 0 => ok (bitsOf w 27 25 != 0 || bitsOf w 19 18 != 0 || bitsOf w 11 7 != 0) (.cwld (fld w 12 5) (fld w 17 1) (fld w 20 5))
  | 1 => ok (bitsOf w 27 25 != 0 || bitsOf w 19 18 != 0 || bitsOf w 11 7 != 0) (.cwlds (fld w 12 5) (fld w 17 1) (fld w 20 5))
  | 2 => ok (bitsOf w 27 7 != 0) (.cwswap)
  | 3 => ok (bitsOf w 24 7 != 0) (.czclr (fld w 25 3))
  | 4 => ok (bitsOf w 24 18 != 0 || bitsOf w 16 7 != 0 || (bitsOf w 17 17 == 1 && bitsOf w 27 25 != 0)) (.czwait (fld w 17 1) (fld w 25 3))
  | 5 => ok (bitsOf w 19 17 != 0 || bitsOf w 11 7 != 0) (.czout (fld w 12 5) (fld w 20 5) (fld w 25 3))
  | 6 => ok (bitsOf w 19 17 != 0 || bitsOf w 11 7 != 0) (.czld (fld w 12 5) (fld w 20 5) (fld w 25 3))
  | _ => .error .illegal

/-- Major 0x26 (R52). -/
def dec26 (w : Nat) : Decoded :=
  match bitsOf w 8 7 with
  | 0 => ok (bitsOf w 31 26 != 0) (.cmmaBf (fld w 9 5) (fld w 14 4) (fld w 18 5) (fld w 23 3))
  | 1 => ok (bitsOf w 31 26 != 0) (.cmmaHf (fld w 9 5) (fld w 14 4) (fld w 18 5) (fld w 23 3))
  | 2 => ok (bitsOf w 31 26 != 0) (.cmmaI8 (fld w 9 5) (fld w 14 4) (fld w 18 5) (fld w 23 3))
  | 3 => ok (bitsOf w 31 26 != 0) (.cmmaE4e4 (fld w 9 5) (fld w 14 4) (fld w 18 5) (fld w 23 3))
  | _ => .error .illegal

/-- Major 0x27 (R52). -/
def dec27 (w : Nat) : Decoded :=
  match bitsOf w 8 7 with
  | 0 => ok (bitsOf w 31 26 != 0) (.cmmaE4e5 (fld w 9 5) (fld w 14 4) (fld w 18 5) (fld w 23 3))
  | 1 => ok (bitsOf w 31 26 != 0) (.cmmaE5e4 (fld w 9 5) (fld w 14 4) (fld w 18 5) (fld w 23 3))
  | 2 => ok (bitsOf w 31 26 != 0) (.cmmaE5e5 (fld w 9 5) (fld w 14 4) (fld w 18 5) (fld w 23 3))
  | 3 => ok (bitsOf w 31 26 != 0) (.cmmaF6a (fld w 9 5) (fld w 14 4) (fld w 18 5) (fld w 23 3))
  | _ => .error .illegal

/-- Major 0x28 (R52). -/
def dec28 (w : Nat) : Decoded :=
  match bitsOf w 8 7 with
  | 0 => ok (bitsOf w 31 26 != 0) (.cmmaF6b (fld w 9 5) (fld w 14 4) (fld w 18 5) (fld w 23 3))
  | 1 => ok (bitsOf w 31 26 != 0) (.cmmaF6ab (fld w 9 5) (fld w 14 4) (fld w 18 5) (fld w 23 3))
  | 2 => ok (bitsOf w 31 26 != 0) (.cmmaMxf4 (fld w 9 5) (fld w 14 4) (fld w 18 5) (fld w 23 3))
  | 3 => ok (bitsOf w 31 26 != 0) (.cmmaKf4 (fld w 9 5) (fld w 14 4) (fld w 18 5) (fld w 23 3))
  | _ => .error .illegal

/-- Major 0x29 (R52). -/
noncomputable def dec29 (w : Nat) : Decoded :=
  match bitsOf w 8 7 with
  | 0 => ok (bitsOf w 31 26 != 0) (.cmmaE4kf4 (fld w 9 5) (fld w 14 4) (fld w 18 5) (fld w 23 3))
  | 1 => ok (bitsOf w 31 26 != 0) (.cmmaMxi8 (fld w 9 5) (fld w 14 4) (fld w 18 5) (fld w 23 3))
  | _ => .error .illegal

/-- Major 0x2A (R52). -/
noncomputable def dec2A (w : Nat) : Decoded :=
  match bitsOf w 29 27 with
  | 0 => ok (bitsOf w 31 30 != 0 || bitsOf w 26 22 != 0 || bitsOf w 11 7 != 0) (.kvopen (fld w 12 5) (fld w 17 5))
  | 1 => ok (bitsOf w 11 9 != 0 || (bitsOf w 31 30 == 3 || bitsOf w 8 7 == 3 || (bitsOf w 31 30 != 1 && bitsOf w 26 22 != 0))) (.kvapp (fld w 7 2) (fld w 12 5) (fld w 17 5) (fld w 22 5) (fld w 30 2))
  | 2 => ok (bitsOf w 31 30 != 0 || bitsOf w 11 7 != 0) (.kvqry (fld w 12 5) (fld w 17 5) (fld w 22 5))
  | 3 => ok (bitsOf w 31 30 != 0 || bitsOf w 26 17 != 0 || bitsOf w 11 7 != 0) (.kvseal (fld w 12 5))
  | 4 => ok (bitsOf w 31 30 != 0 || bitsOf w 26 17 != 0) (.kvstat (fld w 7 5) (fld w 12 5))
  | 5 => match bitsOf w 8 7 with
    | 0 => ok (bitsOf w 31 30 != 0 || bitsOf w 26 17 != 0 || bitsOf w 11 9 != 0) (.kvdrop (fld w 12 5))
    | 1 => ok (bitsOf w 31 30 != 0 || bitsOf w 26 22 != 0 || bitsOf w 11 9 != 0) (.kvdropGrant (fld w 12 5) (fld w 17 5))
    | 2 => ok (bitsOf w 31 30 != 0 || bitsOf w 26 17 != 0 || bitsOf w 11 9 != 0) (.kvdropRevoke (fld w 12 5))
    | _ => .error .reserved
  | _ => .error .illegal

/-- Major 0x2B (R52). -/
noncomputable def dec2B (w : Nat) : Decoded :=
  match bitsOf w 30 28 with
  | 0 => ok (bitsOf w 31 31 != 0 || bitsOf w 11 7 != 0) (.qrld (fld w 12 5) (fld w 17 3) (fld w 20 5) (fld w 25 3))
  | 1 => ok (bitsOf w 31 31 != 0 || bitsOf w 11 7 != 0) (.qrseed (fld w 12 5) (fld w 17 3) (fld w 20 5) (fld w 25 3))
  | 2 => ok (bitsOf w 31 31 != 0) (.qri (fld w 7 5) (fld w 12 5) (fld w 17 3) (fld w 20 5) (fld w 25 3))
  | 3 => ok (bitsOf w 31 31 != 0) (.qrf (fld w 7 5) (fld w 12 5) (fld w 17 3) (fld w 20 5) (fld w 25 3))
  | 4 => match bitsOf w 31 31 with
    | 0 => .ok (.qrvI (fld w 7 5) (fld w 12 5) (fld w 17 3) (fld w 20 5) (fld w 25 3))
    | 1 => .ok (.qrvD (fld w 7 5) (fld w 12 5) (fld w 17 3) (fld w 20 5) (fld w 25 3))
    | _ => .error .reserved
  | _ => .error .illegal

/-- Major 0x2C (R52). -/
noncomputable def dec2C (w : Nat) : Decoded :=
  match bitsOf w 31 29 with
  | 0 => ok (bitsOf w 16 12 != 0) (.crd (fld w 7 5) (fld w 17 12))
  | 1 => ok (bitsOf w 11 7 != 0) (.cwr (fld w 12 5) (fld w 17 12))
  | 2 => ok (bitsOf w 16 7 != 0) (.trap (fld w 17 12))
  | 3 => ok (bitsOf w 16 7 != 0) (.brk (fld w 17 12))
  | 4 => ok (bitsOf w 28 7 != 0) (.rft)
  | 5 => ok (bitsOf w 28 7 != 0) (.idle)
  | 6 => ok (bitsOf w 28 7 != 0) (.done)
  | 7 => match bitsOf w 17 17 with
    | 0 => ok (bitsOf w 28 18 != 0 || bitsOf w 16 7 != 0) (.halt)
    | 1 => ok (bitsOf w 28 18 != 0 || bitsOf w 16 7 != 0) (.haltR)
    | _ => .error .reserved
  | _ => .error .illegal

/-- A 32-bit word (R41, R52); majors 0x2D to 0x3F are illegal (R64). -/
noncomputable def decode32 (w : Nat) : Decoded :=
  match bitsOf w 6 1 with
  | 0 => dec00 w
  | 1 => dec01 w
  | 2 => dec02 w
  | 3 => dec03 w
  | 4 => dec04 w
  | 5 => dec05 w
  | 6 => dec06 w
  | 7 => dec07 w
  | 8 => dec08 w
  | 9 => dec09 w
  | 10 => dec0A w
  | 11 => dec0B w
  | 12 => dec0C w
  | 13 => dec0D w
  | 14 => dec0E w
  | 15 => dec0F w
  | 16 => dec10 w
  | 17 => dec11 w
  | 18 => dec12 w
  | 19 => dec13 w
  | 20 => dec14 w
  | 21 => dec15 w
  | 22 => dec16 w
  | 23 => dec17 w
  | 24 => dec18 w
  | 25 => dec19 w
  | 26 => dec1A w
  | 27 => dec1B w
  | 28 => dec1C w
  | 29 => dec1D w
  | 30 => dec1E w
  | 31 => dec1F w
  | 32 => dec20 w
  | 33 => dec21 w
  | 34 => dec22 w
  | 35 => dec23 w
  | 36 => dec24 w
  | 37 => dec25 w
  | 38 => dec26 w
  | 39 => dec27 w
  | 40 => dec28 w
  | 41 => dec29 w
  | 42 => dec2A w
  | 43 => dec2B w
  | 44 => dec2C w
  | _ => .error .illegal

/-- A 16-bit word (R41, R60); compact opcode 0 is illegal. -/
noncomputable def decode16 (w : Nat) : Decoded :=
  match bitsOf w 4 1 with
  | 1 => ok (bitsOf w 15 15 != 0) (.cMv (fld w 5 5) (fld w 10 5))
  | 2 => ok (bitsOf w 15 15 != 0) (.cAdd (fld w 5 5) (fld w 10 5))
  | 3 => .ok (.cAddi (fld w 5 5) (fld w 10 6))
  | 4 => ok (bitsOf w 15 15 != 0) (.cSub (fld w 5 5) (fld w 10 5))
  | 5 => ok (bitsOf w 15 15 != 0) (.cAnd (fld w 5 5) (fld w 10 5))
  | 6 => .ok (.cLi (fld w 5 5) (fld w 10 6))
  | 7 => .ok (.cLd (fld w 5 5) (fld w 10 6))
  | 8 => .ok (.cSd (fld w 5 5) (fld w 10 6))
  | 9 => .ok (.cLw (fld w 5 5) (fld w 10 6))
  | 10 => .ok (.cSw (fld w 5 5) (fld w 10 6))
  | 11 => .ok (.cSlli (fld w 5 5) (fld w 10 6))
  | 12 => .ok (.cSrli (fld w 5 5) (fld w 10 6))
  | 13 => .ok (.cJ (fld w 5 11))
  | 14 => .ok (.cBrq (fld w 5 11))
  | 15 => ok (bitsOf w 15 5 != 0) (.cRet)
  | _ => .error .illegal

/-- The length of an instruction from its first halfword (R39). -/
def wordLen (h : Nat) : Nat := if h % 2 = 1 then 4 else 2

/-- Decode a word of the given length (R39, R41). -/
noncomputable def decodeWord (len w : Nat) : Decoded := if len = 4 then decode32 w else decode16 w

/-- Decode the instruction at the head of a list of bytes, with the bytes that follow it (R39). -/
noncomputable def decode (bs : List Byte) : Except DecodeError (Instr × List Byte) :=
  match bs with
  | b0 :: b1 :: t =>
    if b0.toNat % 2 = 1 then
      match t with
      | b2 :: b3 :: t' =>
        match decode32 (leNat [b0, b1, b2, b3]) with
        | .ok i => .ok (i, t')
        | .error e => .error e
      | _ => .error .short
    else
      match decode16 (leNat [b0, b1]) with
      | .ok i => .ok (i, t)
      | .error e => .error e
  | _ => .error .short

/-- What the decoder reads from an instruction whose bits the opcode table numbers as w. -/
noncomputable def decodeTableWord (nbits w : Nat) : Option Instr :=
  match decode (leBytes (nbits / 8) w ++ leBytes 4 0) with
  | .ok (i, _) => some i
  | .error _ => none

/-! ### The encoder, written from the same tables -/

/-- A field placed at a bit. -/
def at' (lo : Nat) (v : Nat) : Nat := v <<< lo

/-- The length in bytes of an instruction's word; 0 for an event, which has none. -/
def Instr.len : Instr → Nat
  | .add _ _ _ _ _ => 4
  | .sub _ _ _ _ _ => 4
  | .and _ _ _ _ _ => 4
  | .or _ _ _ _ _ => 4
  | .xor _ _ _ _ _ => 4
  | .andn _ _ _ _ _ => 4
  | .orn _ _ _ _ _ => 4
  | .xnor _ _ _ _ _ => 4
  | .sll _ _ _ _ _ => 4
  | .srl _ _ _ _ _ => 4
  | .sra _ _ _ _ _ => 4
  | .rol _ _ _ _ _ => 4
  | .ror _ _ _ _ _ => 4
  | .min _ _ _ _ _ => 4
  | .max _ _ _ _ _ => 4
  | .minu _ _ _ _ _ => 4
  | .maxu _ _ _ _ _ => 4
  | .adds _ _ _ _ _ => 4
  | .subs _ _ _ _ _ => 4
  | .clz _ _ _ => 4
  | .ctz _ _ _ => 4
  | .popc _ _ _ => 4
  | .brev _ _ _ => 4
  | .sxb _ _ _ => 4
  | .sxh _ _ _ => 4
  | .sxw _ _ _ => 4
  | .zxb _ _ _ => 4
  | .zxh _ _ _ => 4
  | .zxw _ _ _ => 4
  | .mul _ _ _ _ _ => 4
  | .mulh _ _ _ _ _ => 4
  | .mulhu _ _ _ _ _ => 4
  | .div _ _ _ _ _ => 4
  | .divu _ _ _ _ _ => 4
  | .rem _ _ _ _ _ => 4
  | .remu _ _ _ _ _ => 4
  | .addi _ _ _ _ => 4
  | .andi _ _ _ _ => 4
  | .ori _ _ _ _ => 4
  | .xori _ _ _ _ => 4
  | .slli _ _ _ _ => 4
  | .srli _ _ _ _ => 4
  | .srai _ _ _ _ => 4
  | .rori _ _ _ _ => 4
  | .upim _ _ => 4
  | .pcadd _ _ => 4
  | .ceq _ _ _ _ _ => 4
  | .cne _ _ _ _ _ => 4
  | .clt _ _ _ _ _ => 4
  | .cltu _ _ _ _ _ => 4
  | .cge _ _ _ _ _ => 4
  | .cgeu _ _ _ _ _ => 4
  | .qand _ _ _ _ _ => 4
  | .qor _ _ _ _ _ => 4
  | .qxor _ _ _ _ _ => 4
  | .qnot _ _ _ => 4
  | .ceqi _ _ _ _ => 4
  | .cnei _ _ _ _ => 4
  | .clti _ _ _ _ => 4
  | .cltui _ _ _ _ => 4
  | .cgei _ _ _ _ => 4
  | .cgeui _ _ _ _ => 4
  | .br _ _ _ _ => 4
  | .j _ => 4
  | .jl _ => 4
  | .jr _ _ _ => 4
  | .jlr _ _ _ => 4
  | .lset _ _ _ _ => 4
  | .loop _ _ => 4
  | .loops _ _ => 4
  | .leave _ => 4
  | .leaveq _ _ _ => 4
  | .lb _ _ _ _ => 4
  | .lbu _ _ _ _ => 4
  | .lh _ _ _ _ => 4
  | .lhu _ _ _ _ => 4
  | .lw _ _ _ _ => 4
  | .lwu _ _ _ _ => 4
  | .ld _ _ _ _ => 4
  | .sb _ _ _ _ => 4
  | .sh _ _ _ _ => 4
  | .sw _ _ _ _ => 4
  | .sd _ _ _ _ => 4
  | .lxB _ _ _ _ _ => 4
  | .lxBu _ _ _ _ _ => 4
  | .lxH _ _ _ _ _ => 4
  | .lxHu _ _ _ _ _ => 4
  | .lxW _ _ _ _ _ => 4
  | .lxWu _ _ _ _ _ => 4
  | .lxD _ _ _ _ _ => 4
  | .sxB _ _ _ _ _ => 4
  | .sxH _ _ _ _ _ => 4
  | .sxW _ _ _ _ _ => 4
  | .sxD _ _ _ _ _ => 4
  | .flw _ _ _ _ => 4
  | .fsw _ _ _ _ => 4
  | .vl _ _ _ _ => 4
  | .vs _ _ _ _ => 4
  | .vls _ _ _ _ _ _ => 4
  | .vss _ _ _ _ _ _ => 4
  | .vlg _ _ _ _ _ _ => 4
  | .vsg _ _ _ _ _ _ => 4
  | .fadd _ _ _ _ _ => 4
  | .fsub _ _ _ _ _ => 4
  | .fmul _ _ _ _ _ => 4
  | .fdiv _ _ _ _ _ => 4
  | .fsqrt _ _ _ => 4
  | .fmin _ _ _ _ _ => 4
  | .fmax _ _ _ _ _ => 4
  | .fabs _ _ _ => 4
  | .fneg _ _ _ => 4
  | .fma _ _ _ _ => 4
  | .fms _ _ _ _ => 4
  | .fnma _ _ _ _ => 4
  | .fnms _ _ _ _ => 4
  | .fcvti _ _ _ _ _ => 4
  | .fcvtf _ _ _ _ _ => 4
  | .fcvtb _ _ _ _ _ => 4
  | .fmvgf _ _ _ => 4
  | .fmvfg _ _ _ => 4
  | .fceq _ _ _ _ _ => 4
  | .fclt _ _ _ _ _ => 4
  | .fcle _ _ _ _ _ => 4
  | .fclass _ _ _ => 4
  | .vadd _ _ _ _ _ => 4
  | .vsub _ _ _ _ _ => 4
  | .vmul _ _ _ _ _ => 4
  | .vmulh _ _ _ _ _ => 4
  | .vmin _ _ _ _ _ => 4
  | .vmax _ _ _ _ _ => 4
  | .vminu _ _ _ _ _ => 4
  | .vmaxu _ _ _ _ _ => 4
  | .vand _ _ _ _ _ => 4
  | .vor _ _ _ _ _ => 4
  | .vxor _ _ _ _ _ => 4
  | .vsll _ _ _ _ _ => 4
  | .vsrl _ _ _ _ _ => 4
  | .vsra _ _ _ _ _ => 4
  | .vadds _ _ _ _ _ => 4
  | .vsubs _ _ _ _ _ => 4
  | .vfadd _ _ _ _ _ => 4
  | .vfsub _ _ _ _ _ => 4
  | .vfmul _ _ _ _ _ => 4
  | .vfdiv _ _ _ _ _ => 4
  | .vfmin _ _ _ _ _ => 4
  | .vfmax _ _ _ _ _ => 4
  | .vfexp2 _ _ _ _ => 4
  | .vfrcp _ _ _ _ => 4
  | .vfrsq _ _ _ _ => 4
  | .vfabs _ _ _ _ => 4
  | .vfneg _ _ _ _ => 4
  | .vfmaS _ _ _ _ => 4
  | .vfmaBf _ _ _ _ => 4
  | .vfmsS _ _ _ _ => 4
  | .vfmsBf _ _ _ _ => 4
  | .vselB _ _ _ _ => 4
  | .vselH _ _ _ _ => 4
  | .vselW _ _ _ _ => 4
  | .vselD _ _ _ _ => 4
  | .vrsum _ _ _ _ _ => 4
  | .vrmax _ _ _ _ _ => 4
  | .vrmin _ _ _ _ _ => 4
  | .vperm _ _ _ _ _ => 4
  | .vbcast _ _ _ _ _ => 4
  | .vsplat _ _ _ _ => 4
  | .vcvtBfS _ _ _ _ _ => 4
  | .vcvtSBf _ _ _ => 4
  | .vcvtHfS _ _ _ _ _ => 4
  | .vcvtSHf _ _ _ => 4
  | .vcvtI32S _ _ _ _ _ => 4
  | .vcvtSI32 _ _ _ _ _ => 4
  | .vcvtI8S _ _ _ _ _ => 4
  | .vcvtSI8 _ _ _ => 4
  | .vcvtHfBf _ _ _ _ _ => 4
  | .vcvtBfHf _ _ _ _ _ => 4
  | .vpackmx _ _ _ _ _ => 4
  | .vunpkmx _ _ _ _ => 4
  | .mand _ _ _ _ _ => 4
  | .mor _ _ _ _ _ => 4
  | .mxor _ _ _ _ _ => 4
  | .mnot _ _ _ => 4
  | .mpop _ _ _ => 4
  | .mfirst _ _ _ => 4
  | .vfcmpEq _ _ _ _ _ => 4
  | .vfcmpLt _ _ _ _ _ => 4
  | .vcmpEq _ _ _ _ _ => 4
  | .vcmpNe _ _ _ _ _ => 4
  | .vcmpLt _ _ _ _ _ => 4
  | .vcmpLtu _ _ _ _ _ => 4
  | .vcmpGe _ _ _ _ _ => 4
  | .vcmpGeu _ _ _ _ _ => 4
  | .vfcmpLe _ _ _ _ _ => 4
  | .chwaitf _ _ => 4
  | .chwaite _ _ => 4
  | .chadvc _ _ => 4
  | .chadvp _ _ => 4
  | .chst _ _ _ => 4
  | .chaddr _ _ _ => 4
  | .send _ _ _ => 4
  | .put _ _ _ => 4
  | .get _ _ _ => 4
  | .window _ _ => 4
  | .bdef _ _ _ _ _ _ => 4
  | .badd _ _ _ _ => 4
  | .band _ _ _ _ => 4
  | .bor _ _ _ _ => 4
  | .bxor _ _ _ _ => 4
  | .bmin _ _ _ _ _ => 4
  | .bmax _ _ _ _ _ => 4
  | .bfxa _ _ _ _ _ => 4
  | .bminf _ _ _ _ => 4
  | .bmaxf _ _ _ _ => 4
  | .bvsa _ _ _ _ _ => 4
  | .brd _ _ _ _ => 4
  | .swdef _ _ _ _ => 4
  | .arrive _ _ _ => 4
  | .swait _ _ _ _ _ => 4
  | .fence _ => 4
  | .flushas _ _ => 4
  | .drain => 4
  | .xfer _ _ => 4
  | .xferq _ _ => 4
  | .xwait _ _ => 4
  | .xstat _ _ => 4
  | .cwld _ _ _ => 4
  | .cwlds _ _ _ => 4
  | .cwswap => 4
  | .czclr _ => 4
  | .czwait _ _ => 4
  | .czout _ _ _ => 4
  | .czld _ _ _ => 4
  | .cmmaBf _ _ _ _ => 4
  | .cmmaHf _ _ _ _ => 4
  | .cmmaI8 _ _ _ _ => 4
  | .cmmaE4e4 _ _ _ _ => 4
  | .cmmaE4e5 _ _ _ _ => 4
  | .cmmaE5e4 _ _ _ _ => 4
  | .cmmaE5e5 _ _ _ _ => 4
  | .cmmaF6a _ _ _ _ => 4
  | .cmmaF6b _ _ _ _ => 4
  | .cmmaF6ab _ _ _ _ => 4
  | .cmmaMxf4 _ _ _ _ => 4
  | .cmmaKf4 _ _ _ _ => 4
  | .cmmaE4kf4 _ _ _ _ => 4
  | .cmmaMxi8 _ _ _ _ => 4
  | .kvopen _ _ => 4
  | .kvapp _ _ _ _ _ => 4
  | .kvqry _ _ _ => 4
  | .kvseal _ => 4
  | .kvstat _ _ => 4
  | .kvdrop _ => 4
  | .kvdropGrant _ _ => 4
  | .kvdropRevoke _ => 4
  | .qrld _ _ _ _ => 4
  | .qrseed _ _ _ _ => 4
  | .qri _ _ _ _ _ => 4
  | .qrf _ _ _ _ _ => 4
  | .qrvI _ _ _ _ _ => 4
  | .qrvD _ _ _ _ _ => 4
  | .crd _ _ => 4
  | .cwr _ _ => 4
  | .trap _ => 4
  | .brk _ => 4
  | .rft => 4
  | .idle => 4
  | .done => 4
  | .halt => 4
  | .haltR => 4
  | .cMv _ _ => 2
  | .cAdd _ _ => 2
  | .cAddi _ _ => 2
  | .cSub _ _ => 2
  | .cAnd _ _ => 2
  | .cLi _ _ => 2
  | .cLd _ _ => 2
  | .cSd _ _ => 2
  | .cLw _ _ => 2
  | .cSw _ _ => 2
  | .cSlli _ _ => 2
  | .cSrli _ _ => 2
  | .cJ _ => 2
  | .cBrq _ => 2
  | .cRet => 2
  | .interruptEntry => 0
  | .timerExpiry _ => 0
  | .idleWake _ _ => 0
  | .slipSchedule _ => 0
  | .slipInputsSuffice _ _ => 0
  | .waitSatisfied _ _ => 0
  | .haltDrainComplete _ _ => 0
  | .handlerOverrun => 0
  | .itemArrival _ => 0
  | .getReplyArrival _ => 0
  | .closeMarkerArrival _ _ => 0
  | .windowComplete _ _ => 0
  | .launchArrival _ => 0
  | .advanceNoticeArrival _ => 0
  | .freeNoticeArrival _ => 0
  | .ackArrival _ => 0
  | .busyResend _ => 0
  | .arrivalDelivery _ => 0
  | .copyStart _ => 0
  | .copyLanding _ => 0
  | .copyComplete _ => 0
  | .craneDispatch _ => 0
  | .craneCommand _ => 0
  | .bankOpApply _ => 0
  | .pageService _ => 0
  | .pageServiceComplete _ _ _ => 0
  | .migration _ _ _ => 0
  | .kvAppendApply _ => 0
  | .kvQueryResolve _ => 0
  | .tripleLanding _ => 0
  | .kvPageRecall _ => 0
  | .regionSelect _ => 0
  | .regionBind _ _ _ => 0
  | .preempt _ _ => 0
  | .preemptForce _ _ => 0
  | .regionSuspend _ _ => 0
  | .victimBankClaim _ _ => 0
  | .faultDomainStop => 0
  | .rollback => 0
  | .retentionEntry _ => 0
  | .retentionExit _ => 0
  | .tcmpWrite _ _ => 0
  | .ipendWrite _ _ => 0
  | .qrctlWrite _ => 0
  | .fdstopWrite _ => 0
  | .serrlogWrite _ _ => 0
  | .kverrWrite _ _ _ => 0
  | .plstatClr _ _ _ => 0
  | .registerWrite _ _ _ => 0
  | .doorbell _ _ _ => 0
  | .qctlEnable _ _ _ => 0
  | .qctlRestart _ _ => 0
  | .evctlWrite _ _ => 0
  | .evheadWrite _ _ => 0
  | .evstatWrite _ _ => 0
  | .resync _ _ => 0
  | .resyncComplete _ => 0
  | .packetStart _ _ => 0
  | .ldp _ _ => 0
  | .ldi _ _ => 0
  | .movi _ _ => 0
  | .pilotAdd _ _ => 0
  | .pilotAnd _ _ => 0
  | .shr _ _ => 0
  | .pilotBeq _ _ => 0
  | .loopn _ _ => 0
  | .pilotLaunch _ _ => 0
  | .regopReady _ _ => 0
  | .regopPrio _ _ => 0
  | .regopArgs _ _ => 0
  | .waitr _ _ => 0
  | .pilotEvent _ _ => 0
  | .fail _ _ => 0
  | .haltp _ _ => 0
  | .pilotWaitResume _ _ => 0
  | .takeover _ => 0
  | .evpush _ _ => 0
  | .dbkick _ _ => 0
  | .dbpendWrite _ _ _ => 0
  | .cbstatWrite _ _ => 0
  | .flitReceive _ _ _ => 0
  | .portRetrain _ _ _ => 0
  | .portDown _ _ => 0
  | .exchangeLineSend _ _ => 0
  | .exchangeLineReceive _ => 0
  | .transferRecordReceive _ => 0
  | .powerGood _ => 0
  | .phaseComplete _ _ => 0
  | .phaseTimeout _ => 0
  | .monitorReading _ _ _ => 0
  | .pwrcapLower _ => 0
  | .pwrcapRaise _ => 0
  | .getCertificate _ => 0
  | .challenge _ _ => 0
  | .getMeasurements _ => 0
  | .pldmSensorRead _ _ => 0
  | .pldmFirmwareUpdate _ _ => 0
  | .objectLoad _ _ _ _ => 0
  | .containerLoad _ _ _ => 0
  | .illegalInstruction _ _ => 0
  | .fetchFault => 0
  | .chstLanding _ => 0
  | .regionResume _ _ => 0
  | .regionReclaim _ _ => 0
  | .kvPageMove _ => 0
  | .lostFrameRetransmit _ => 0
  | .containerWrite _ _ _ => 0

/-- The word of ADD (R98). -/
def Enc.add (d : BitVec 5) (a : BitVec 5) (x : BitVec 3) (b : BitVec 5) (y : BitVec 3) : Nat := 0x00000001 + at' 7 d.toNat + at' 12 a.toNat + at' 17 x.toNat + at' 20 b.toNat + at' 25 y.toNat
/-- The word of SUB (R98). -/
def Enc.sub (d : BitVec 5) (a : BitVec 5) (x : BitVec 3) (b : BitVec 5) (y : BitVec 3) : Nat := 0x10000001 + at' 7 d.toNat + at' 12 a.toNat + at' 17 x.toNat + at' 20 b.toNat + at' 25 y.toNat
/-- The word of AND (R98). -/
def Enc.and (d : BitVec 5) (a : BitVec 5) (x : BitVec 3) (b : BitVec 5) (y : BitVec 3) : Nat := 0x20000001 + at' 7 d.toNat + at' 12 a.toNat + at' 17 x.toNat + at' 20 b.toNat + at' 25 y.toNat
/-- The word of OR (R98). -/
def Enc.or (d : BitVec 5) (a : BitVec 5) (x : BitVec 3) (b : BitVec 5) (y : BitVec 3) : Nat := 0x30000001 + at' 7 d.toNat + at' 12 a.toNat + at' 17 x.toNat + at' 20 b.toNat + at' 25 y.toNat
/-- The word of XOR (R98). -/
def Enc.xor (d : BitVec 5) (a : BitVec 5) (x : BitVec 3) (b : BitVec 5) (y : BitVec 3) : Nat := 0x40000001 + at' 7 d.toNat + at' 12 a.toNat + at' 17 x.toNat + at' 20 b.toNat + at' 25 y.toNat
/-- The word of ANDN (R98). -/
def Enc.andn (d : BitVec 5) (a : BitVec 5) (x : BitVec 3) (b : BitVec 5) (y : BitVec 3) : Nat := 0x50000001 + at' 7 d.toNat + at' 12 a.toNat + at' 17 x.toNat + at' 20 b.toNat + at' 25 y.toNat
/-- The word of ORN (R98). -/
def Enc.orn (d : BitVec 5) (a : BitVec 5) (x : BitVec 3) (b : BitVec 5) (y : BitVec 3) : Nat := 0x60000001 + at' 7 d.toNat + at' 12 a.toNat + at' 17 x.toNat + at' 20 b.toNat + at' 25 y.toNat
/-- The word of XNOR (R98). -/
def Enc.xnor (d : BitVec 5) (a : BitVec 5) (x : BitVec 3) (b : BitVec 5) (y : BitVec 3) : Nat := 0x70000001 + at' 7 d.toNat + at' 12 a.toNat + at' 17 x.toNat + at' 20 b.toNat + at' 25 y.toNat
/-- The word of SLL (R98). -/
def Enc.sll (d : BitVec 5) (a : BitVec 5) (x : BitVec 3) (b : BitVec 5) (y : BitVec 3) : Nat := 0x80000001 + at' 7 d.toNat + at' 12 a.toNat + at' 17 x.toNat + at' 20 b.toNat + at' 25 y.toNat
/-- The word of SRL (R98). -/
def Enc.srl (d : BitVec 5) (a : BitVec 5) (x : BitVec 3) (b : BitVec 5) (y : BitVec 3) : Nat := 0x90000001 + at' 7 d.toNat + at' 12 a.toNat + at' 17 x.toNat + at' 20 b.toNat + at' 25 y.toNat
/-- The word of SRA (R98). -/
def Enc.sra (d : BitVec 5) (a : BitVec 5) (x : BitVec 3) (b : BitVec 5) (y : BitVec 3) : Nat := 0xa0000001 + at' 7 d.toNat + at' 12 a.toNat + at' 17 x.toNat + at' 20 b.toNat + at' 25 y.toNat
/-- The word of ROL (R98). -/
def Enc.rol (d : BitVec 5) (a : BitVec 5) (x : BitVec 3) (b : BitVec 5) (y : BitVec 3) : Nat := 0xb0000001 + at' 7 d.toNat + at' 12 a.toNat + at' 17 x.toNat + at' 20 b.toNat + at' 25 y.toNat
/-- The word of ROR (R98). -/
def Enc.ror (d : BitVec 5) (a : BitVec 5) (x : BitVec 3) (b : BitVec 5) (y : BitVec 3) : Nat := 0xc0000001 + at' 7 d.toNat + at' 12 a.toNat + at' 17 x.toNat + at' 20 b.toNat + at' 25 y.toNat
/-- The word of MIN (R98). -/
def Enc.min (d : BitVec 5) (a : BitVec 5) (x : BitVec 3) (b : BitVec 5) (y : BitVec 3) : Nat := 0xd0000001 + at' 7 d.toNat + at' 12 a.toNat + at' 17 x.toNat + at' 20 b.toNat + at' 25 y.toNat
/-- The word of MAX (R98). -/
def Enc.max (d : BitVec 5) (a : BitVec 5) (x : BitVec 3) (b : BitVec 5) (y : BitVec 3) : Nat := 0xe0000001 + at' 7 d.toNat + at' 12 a.toNat + at' 17 x.toNat + at' 20 b.toNat + at' 25 y.toNat
/-- The word of MINU (R98). -/
def Enc.minu (d : BitVec 5) (a : BitVec 5) (x : BitVec 3) (b : BitVec 5) (y : BitVec 3) : Nat := 0xf0000001 + at' 7 d.toNat + at' 12 a.toNat + at' 17 x.toNat + at' 20 b.toNat + at' 25 y.toNat
/-- The word of MAXU (R98). -/
def Enc.maxu (d : BitVec 5) (a : BitVec 5) (x : BitVec 3) (b : BitVec 5) (y : BitVec 3) : Nat := 0x00000003 + at' 7 d.toNat + at' 12 a.toNat + at' 17 x.toNat + at' 20 b.toNat + at' 25 y.toNat
/-- The word of ADDS (R98). -/
def Enc.adds (d : BitVec 5) (a : BitVec 5) (x : BitVec 3) (b : BitVec 5) (y : BitVec 3) : Nat := 0x10000003 + at' 7 d.toNat + at' 12 a.toNat + at' 17 x.toNat + at' 20 b.toNat + at' 25 y.toNat
/-- The word of SUBS (R98). -/
def Enc.subs (d : BitVec 5) (a : BitVec 5) (x : BitVec 3) (b : BitVec 5) (y : BitVec 3) : Nat := 0x20000003 + at' 7 d.toNat + at' 12 a.toNat + at' 17 x.toNat + at' 20 b.toNat + at' 25 y.toNat
/-- The word of CLZ (R98). -/
def Enc.clz (d : BitVec 5) (a : BitVec 5) (x : BitVec 3) : Nat := 0x30000003 + at' 7 d.toNat + at' 12 a.toNat + at' 17 x.toNat
/-- The word of CTZ (R98). -/
def Enc.ctz (d : BitVec 5) (a : BitVec 5) (x : BitVec 3) : Nat := 0x40000003 + at' 7 d.toNat + at' 12 a.toNat + at' 17 x.toNat
/-- The word of POPC (R98). -/
def Enc.popc (d : BitVec 5) (a : BitVec 5) (x : BitVec 3) : Nat := 0x50000003 + at' 7 d.toNat + at' 12 a.toNat + at' 17 x.toNat
/-- The word of BREV (R98). -/
def Enc.brev (d : BitVec 5) (a : BitVec 5) (x : BitVec 3) : Nat := 0x60000003 + at' 7 d.toNat + at' 12 a.toNat + at' 17 x.toNat
/-- The word of SXB (R98). -/
def Enc.sxb (d : BitVec 5) (a : BitVec 5) (x : BitVec 3) : Nat := 0x70000003 + at' 7 d.toNat + at' 12 a.toNat + at' 17 x.toNat
/-- The word of SXH (R98). -/
def Enc.sxh (d : BitVec 5) (a : BitVec 5) (x : BitVec 3) : Nat := 0x80000003 + at' 7 d.toNat + at' 12 a.toNat + at' 17 x.toNat
/-- The word of SXW (R98). -/
def Enc.sxw (d : BitVec 5) (a : BitVec 5) (x : BitVec 3) : Nat := 0x90000003 + at' 7 d.toNat + at' 12 a.toNat + at' 17 x.toNat
/-- The word of ZXB (R98). -/
def Enc.zxb (d : BitVec 5) (a : BitVec 5) (x : BitVec 3) : Nat := 0xa0000003 + at' 7 d.toNat + at' 12 a.toNat + at' 17 x.toNat
/-- The word of ZXH (R98). -/
def Enc.zxh (d : BitVec 5) (a : BitVec 5) (x : BitVec 3) : Nat := 0xb0000003 + at' 7 d.toNat + at' 12 a.toNat + at' 17 x.toNat
/-- The word of ZXW (R98). -/
def Enc.zxw (d : BitVec 5) (a : BitVec 5) (x : BitVec 3) : Nat := 0xc0000003 + at' 7 d.toNat + at' 12 a.toNat + at' 17 x.toNat
/-- The word of MUL (R98). -/
def Enc.mul (d : BitVec 5) (a : BitVec 5) (x : BitVec 3) (b : BitVec 5) (y : BitVec 3) : Nat := 0x00000005 + at' 7 d.toNat + at' 12 a.toNat + at' 17 x.toNat + at' 20 b.toNat + at' 25 y.toNat
/-- The word of MULH (R98). -/
def Enc.mulh (d : BitVec 5) (a : BitVec 5) (x : BitVec 3) (b : BitVec 5) (y : BitVec 3) : Nat := 0x10000005 + at' 7 d.toNat + at' 12 a.toNat + at' 17 x.toNat + at' 20 b.toNat + at' 25 y.toNat
/-- The word of MULHU (R98). -/
def Enc.mulhu (d : BitVec 5) (a : BitVec 5) (x : BitVec 3) (b : BitVec 5) (y : BitVec 3) : Nat := 0x20000005 + at' 7 d.toNat + at' 12 a.toNat + at' 17 x.toNat + at' 20 b.toNat + at' 25 y.toNat
/-- The word of DIV (R99). -/
def Enc.div (d : BitVec 5) (a : BitVec 5) (x : BitVec 3) (b : BitVec 5) (y : BitVec 3) : Nat := 0x30000005 + at' 7 d.toNat + at' 12 a.toNat + at' 17 x.toNat + at' 20 b.toNat + at' 25 y.toNat
/-- The word of DIVU (R99). -/
def Enc.divu (d : BitVec 5) (a : BitVec 5) (x : BitVec 3) (b : BitVec 5) (y : BitVec 3) : Nat := 0x40000005 + at' 7 d.toNat + at' 12 a.toNat + at' 17 x.toNat + at' 20 b.toNat + at' 25 y.toNat
/-- The word of REM (R99). -/
def Enc.rem (d : BitVec 5) (a : BitVec 5) (x : BitVec 3) (b : BitVec 5) (y : BitVec 3) : Nat := 0x50000005 + at' 7 d.toNat + at' 12 a.toNat + at' 17 x.toNat + at' 20 b.toNat + at' 25 y.toNat
/-- The word of REMU (R99). -/
def Enc.remu (d : BitVec 5) (a : BitVec 5) (x : BitVec 3) (b : BitVec 5) (y : BitVec 3) : Nat := 0x60000005 + at' 7 d.toNat + at' 12 a.toNat + at' 17 x.toNat + at' 20 b.toNat + at' 25 y.toNat
/-- The word of ADDI (R102). -/
def Enc.addi (d : BitVec 5) (a : BitVec 5) (x : BitVec 3) (i : BitVec 12) : Nat := 0x00000007 + at' 7 d.toNat + at' 12 a.toNat + at' 17 x.toNat + at' 20 i.toNat
/-- The word of ANDI (R102). -/
def Enc.andi (d : BitVec 5) (a : BitVec 5) (x : BitVec 3) (i : BitVec 12) : Nat := 0x00000009 + at' 7 d.toNat + at' 12 a.toNat + at' 17 x.toNat + at' 20 i.toNat
/-- The word of ORI (R102). -/
def Enc.ori (d : BitVec 5) (a : BitVec 5) (x : BitVec 3) (i : BitVec 12) : Nat := 0x0000000b + at' 7 d.toNat + at' 12 a.toNat + at' 17 x.toNat + at' 20 i.toNat
/-- The word of XORI (R102). -/
def Enc.xori (d : BitVec 5) (a : BitVec 5) (x : BitVec 3) (i : BitVec 12) : Nat := 0x0000000d + at' 7 d.toNat + at' 12 a.toNat + at' 17 x.toNat + at' 20 i.toNat
/-- The word of SLLI (R102). -/
def Enc.slli (d : BitVec 5) (a : BitVec 5) (x : BitVec 3) (s : BitVec 6) : Nat := 0x0000000f + at' 7 d.toNat + at' 12 a.toNat + at' 17 x.toNat + at' 20 s.toNat
/-- The word of SRLI (R102). -/
def Enc.srli (d : BitVec 5) (a : BitVec 5) (x : BitVec 3) (s : BitVec 6) : Nat := 0x0400000f + at' 7 d.toNat + at' 12 a.toNat + at' 17 x.toNat + at' 20 s.toNat
/-- The word of SRAI (R102). -/
def Enc.srai (d : BitVec 5) (a : BitVec 5) (x : BitVec 3) (s : BitVec 6) : Nat := 0x0800000f + at' 7 d.toNat + at' 12 a.toNat + at' 17 x.toNat + at' 20 s.toNat
/-- The word of RORI (R102). -/
def Enc.rori (d : BitVec 5) (a : BitVec 5) (x : BitVec 3) (s : BitVec 6) : Nat := 0x0c00000f + at' 7 d.toNat + at' 12 a.toNat + at' 17 x.toNat + at' 20 s.toNat
/-- The word of UPIM (R102). -/
def Enc.upim (d : BitVec 5) (i : BitVec 20) : Nat := 0x00000011 + at' 7 d.toNat + at' 12 i.toNat
/-- The word of PCADD (R102). -/
def Enc.pcadd (d : BitVec 5) (i : BitVec 20) : Nat := 0x00000013 + at' 7 d.toNat + at' 12 i.toNat
/-- The word of CEQ (R105). -/
def Enc.ceq (q : BitVec 3) (a : BitVec 5) (x : BitVec 3) (b : BitVec 5) (y : BitVec 3) : Nat := 0x00000015 + at' 7 q.toNat + at' 12 a.toNat + at' 17 x.toNat + at' 20 b.toNat + at' 25 y.toNat
/-- The word of CNE (R105). -/
def Enc.cne (q : BitVec 3) (a : BitVec 5) (x : BitVec 3) (b : BitVec 5) (y : BitVec 3) : Nat := 0x10000015 + at' 7 q.toNat + at' 12 a.toNat + at' 17 x.toNat + at' 20 b.toNat + at' 25 y.toNat
/-- The word of CLT (R105). -/
def Enc.clt (q : BitVec 3) (a : BitVec 5) (x : BitVec 3) (b : BitVec 5) (y : BitVec 3) : Nat := 0x20000015 + at' 7 q.toNat + at' 12 a.toNat + at' 17 x.toNat + at' 20 b.toNat + at' 25 y.toNat
/-- The word of CLTU (R105). -/
def Enc.cltu (q : BitVec 3) (a : BitVec 5) (x : BitVec 3) (b : BitVec 5) (y : BitVec 3) : Nat := 0x30000015 + at' 7 q.toNat + at' 12 a.toNat + at' 17 x.toNat + at' 20 b.toNat + at' 25 y.toNat
/-- The word of CGE (R105). -/
def Enc.cge (q : BitVec 3) (a : BitVec 5) (x : BitVec 3) (b : BitVec 5) (y : BitVec 3) : Nat := 0x40000015 + at' 7 q.toNat + at' 12 a.toNat + at' 17 x.toNat + at' 20 b.toNat + at' 25 y.toNat
/-- The word of CGEU (R105). -/
def Enc.cgeu (q : BitVec 3) (a : BitVec 5) (x : BitVec 3) (b : BitVec 5) (y : BitVec 3) : Nat := 0x50000015 + at' 7 q.toNat + at' 12 a.toNat + at' 17 x.toNat + at' 20 b.toNat + at' 25 y.toNat
/-- The word of QAND (R106). -/
def Enc.qand (q : BitVec 3) (a : BitVec 3) (x : BitVec 3) (b : BitVec 3) (y : BitVec 3) : Nat := 0x80000015 + at' 7 q.toNat + at' 12 a.toNat + at' 17 x.toNat + at' 20 b.toNat + at' 25 y.toNat
/-- The word of QOR (R106). -/
def Enc.qor (q : BitVec 3) (a : BitVec 3) (x : BitVec 3) (b : BitVec 3) (y : BitVec 3) : Nat := 0x90000015 + at' 7 q.toNat + at' 12 a.toNat + at' 17 x.toNat + at' 20 b.toNat + at' 25 y.toNat
/-- The word of QXOR (R106). -/
def Enc.qxor (q : BitVec 3) (a : BitVec 3) (x : BitVec 3) (b : BitVec 3) (y : BitVec 3) : Nat := 0xa0000015 + at' 7 q.toNat + at' 12 a.toNat + at' 17 x.toNat + at' 20 b.toNat + at' 25 y.toNat
/-- The word of QNOT (R106). -/
def Enc.qnot (q : BitVec 3) (a : BitVec 3) (x : BitVec 3) : Nat := 0xb0000015 + at' 7 q.toNat + at' 12 a.toNat + at' 17 x.toNat
/-- The word of CEQI (R105). -/
def Enc.ceqi (q : BitVec 3) (a : BitVec 5) (x : BitVec 3) (i : BitVec 9) : Nat := 0x00000017 + at' 7 q.toNat + at' 12 a.toNat + at' 17 x.toNat + at' 20 i.toNat
/-- The word of CNEI (R105). -/
def Enc.cnei (q : BitVec 3) (a : BitVec 5) (x : BitVec 3) (i : BitVec 9) : Nat := 0x20000017 + at' 7 q.toNat + at' 12 a.toNat + at' 17 x.toNat + at' 20 i.toNat
/-- The word of CLTI (R105). -/
def Enc.clti (q : BitVec 3) (a : BitVec 5) (x : BitVec 3) (i : BitVec 9) : Nat := 0x40000017 + at' 7 q.toNat + at' 12 a.toNat + at' 17 x.toNat + at' 20 i.toNat
/-- The word of CLTUI (R105). -/
def Enc.cltui (q : BitVec 3) (a : BitVec 5) (x : BitVec 3) (i : BitVec 9) : Nat := 0x60000017 + at' 7 q.toNat + at' 12 a.toNat + at' 17 x.toNat + at' 20 i.toNat
/-- The word of CGEI (R105). -/
def Enc.cgei (q : BitVec 3) (a : BitVec 5) (x : BitVec 3) (i : BitVec 9) : Nat := 0x80000017 + at' 7 q.toNat + at' 12 a.toNat + at' 17 x.toNat + at' 20 i.toNat
/-- The word of CGEUI (R105). -/
def Enc.cgeui (q : BitVec 3) (a : BitVec 5) (x : BitVec 3) (i : BitVec 9) : Nat := 0xa0000017 + at' 7 q.toNat + at' 12 a.toNat + at' 17 x.toNat + at' 20 i.toNat
/-- The word of BR (R109). -/
def Enc.br (q : BitVec 3) (s : BitVec 1) (n : BitVec 2) (o : BitVec 19) : Nat := 0x00000019 + at' 7 q.toNat + at' 10 s.toNat + at' 11 n.toNat + at' 13 o.toNat
/-- The word of J (R109). -/
def Enc.j (o : BitVec 25) : Nat := 0x0000001b + at' 7 o.toNat
/-- The word of JL (R109). -/
def Enc.jl (o : BitVec 25) : Nat := 0x0000001d + at' 7 o.toNat
/-- The word of JR (R109). -/
def Enc.jr (a : BitVec 5) (x : BitVec 3) (i : BitVec 12) : Nat := 0x0000001f + at' 12 a.toNat + at' 17 x.toNat + at' 20 i.toNat
/-- The word of JLR (R109). -/
def Enc.jlr (a : BitVec 5) (x : BitVec 3) (i : BitVec 12) : Nat := 0x0000009f + at' 12 a.toNat + at' 17 x.toNat + at' 20 i.toNat
/-- The word of LSET (R150). -/
def Enc.lset (w : BitVec 3) (m : BitVec 3) (a : BitVec 5) (b : BitVec 5) : Nat := 0x00000021 + at' 7 w.toNat + at' 10 m.toNat + at' 13 a.toNat + at' 18 b.toNat
/-- The word of LOOP (R155). -/
def Enc.loop (c : BitVec 5) (o : BitVec 16) : Nat := 0x10000021 + at' 7 c.toNat + at' 12 o.toNat
/-- The word of LOOPS (R155). -/
def Enc.loops (s : BitVec 5) (o : BitVec 16) : Nat := 0x20000021 + at' 7 s.toNat + at' 12 o.toNat
/-- The word of LEAVE (R167). -/
def Enc.leave (n : BitVec 2) : Nat := 0x30000021 + at' 11 n.toNat
/-- The word of LEAVEQ (R167). -/
def Enc.leaveq (q : BitVec 3) (s : BitVec 1) (n : BitVec 2) : Nat := 0x40000021 + at' 7 q.toNat + at' 10 s.toNat + at' 11 n.toNat
/-- The word of LB (R118). -/
def Enc.lb (d : BitVec 5) (a : BitVec 5) (x : BitVec 3) (i : BitVec 9) : Nat := 0x00000023 + at' 7 d.toNat + at' 12 a.toNat + at' 17 x.toNat + at' 23 i.toNat
/-- The word of LBU (R118). -/
def Enc.lbu (d : BitVec 5) (a : BitVec 5) (x : BitVec 3) (i : BitVec 9) : Nat := 0x00100023 + at' 7 d.toNat + at' 12 a.toNat + at' 17 x.toNat + at' 23 i.toNat
/-- The word of LH (R118). -/
def Enc.lh (d : BitVec 5) (a : BitVec 5) (x : BitVec 3) (i : BitVec 9) : Nat := 0x00200023 + at' 7 d.toNat + at' 12 a.toNat + at' 17 x.toNat + at' 23 i.toNat
/-- The word of LHU (R118). -/
def Enc.lhu (d : BitVec 5) (a : BitVec 5) (x : BitVec 3) (i : BitVec 9) : Nat := 0x00300023 + at' 7 d.toNat + at' 12 a.toNat + at' 17 x.toNat + at' 23 i.toNat
/-- The word of LW (R118). -/
def Enc.lw (d : BitVec 5) (a : BitVec 5) (x : BitVec 3) (i : BitVec 9) : Nat := 0x00400023 + at' 7 d.toNat + at' 12 a.toNat + at' 17 x.toNat + at' 23 i.toNat
/-- The word of LWU (R118). -/
def Enc.lwu (d : BitVec 5) (a : BitVec 5) (x : BitVec 3) (i : BitVec 9) : Nat := 0x00500023 + at' 7 d.toNat + at' 12 a.toNat + at' 17 x.toNat + at' 23 i.toNat
/-- The word of LD (R118). -/
def Enc.ld (d : BitVec 5) (a : BitVec 5) (x : BitVec 3) (i : BitVec 9) : Nat := 0x00600023 + at' 7 d.toNat + at' 12 a.toNat + at' 17 x.toNat + at' 23 i.toNat
/-- The word of SB (R118). -/
def Enc.sb (s : BitVec 5) (a : BitVec 5) (x : BitVec 3) (i : BitVec 9) : Nat := 0x00000025 + at' 7 s.toNat + at' 12 a.toNat + at' 17 x.toNat + at' 23 i.toNat
/-- The word of SH (R118). -/
def Enc.sh (s : BitVec 5) (a : BitVec 5) (x : BitVec 3) (i : BitVec 9) : Nat := 0x00200025 + at' 7 s.toNat + at' 12 a.toNat + at' 17 x.toNat + at' 23 i.toNat
/-- The word of SW (R118). -/
def Enc.sw (s : BitVec 5) (a : BitVec 5) (x : BitVec 3) (i : BitVec 9) : Nat := 0x00400025 + at' 7 s.toNat + at' 12 a.toNat + at' 17 x.toNat + at' 23 i.toNat
/-- The word of SD (R118). -/
def Enc.sd (s : BitVec 5) (a : BitVec 5) (x : BitVec 3) (i : BitVec 9) : Nat := 0x00600025 + at' 7 s.toNat + at' 12 a.toNat + at' 17 x.toNat + at' 23 i.toNat
/-- The word of LX_B (R118). -/
def Enc.lxB (d : BitVec 5) (a : BitVec 5) (x : BitVec 3) (b : BitVec 5) (y : BitVec 3) : Nat := 0x00000027 + at' 7 d.toNat + at' 12 a.toNat + at' 17 x.toNat + at' 20 b.toNat + at' 25 y.toNat
/-- The word of LX_BU (R118). -/
def Enc.lxBu (d : BitVec 5) (a : BitVec 5) (x : BitVec 3) (b : BitVec 5) (y : BitVec 3) : Nat := 0x10000027 + at' 7 d.toNat + at' 12 a.toNat + at' 17 x.toNat + at' 20 b.toNat + at' 25 y.toNat
/-- The word of LX_H (R118). -/
def Enc.lxH (d : BitVec 5) (a : BitVec 5) (x : BitVec 3) (b : BitVec 5) (y : BitVec 3) : Nat := 0x20000027 + at' 7 d.toNat + at' 12 a.toNat + at' 17 x.toNat + at' 20 b.toNat + at' 25 y.toNat
/-- The word of LX_HU (R118). -/
def Enc.lxHu (d : BitVec 5) (a : BitVec 5) (x : BitVec 3) (b : BitVec 5) (y : BitVec 3) : Nat := 0x30000027 + at' 7 d.toNat + at' 12 a.toNat + at' 17 x.toNat + at' 20 b.toNat + at' 25 y.toNat
/-- The word of LX_W (R118). -/
def Enc.lxW (d : BitVec 5) (a : BitVec 5) (x : BitVec 3) (b : BitVec 5) (y : BitVec 3) : Nat := 0x40000027 + at' 7 d.toNat + at' 12 a.toNat + at' 17 x.toNat + at' 20 b.toNat + at' 25 y.toNat
/-- The word of LX_WU (R118). -/
def Enc.lxWu (d : BitVec 5) (a : BitVec 5) (x : BitVec 3) (b : BitVec 5) (y : BitVec 3) : Nat := 0x50000027 + at' 7 d.toNat + at' 12 a.toNat + at' 17 x.toNat + at' 20 b.toNat + at' 25 y.toNat
/-- The word of LX_D (R118). -/
def Enc.lxD (d : BitVec 5) (a : BitVec 5) (x : BitVec 3) (b : BitVec 5) (y : BitVec 3) : Nat := 0x60000027 + at' 7 d.toNat + at' 12 a.toNat + at' 17 x.toNat + at' 20 b.toNat + at' 25 y.toNat
/-- The word of SX_B (R118). -/
def Enc.sxB (s : BitVec 5) (a : BitVec 5) (x : BitVec 3) (b : BitVec 5) (y : BitVec 3) : Nat := 0x80000027 + at' 7 s.toNat + at' 12 a.toNat + at' 17 x.toNat + at' 20 b.toNat + at' 25 y.toNat
/-- The word of SX_H (R118). -/
def Enc.sxH (s : BitVec 5) (a : BitVec 5) (x : BitVec 3) (b : BitVec 5) (y : BitVec 3) : Nat := 0xa0000027 + at' 7 s.toNat + at' 12 a.toNat + at' 17 x.toNat + at' 20 b.toNat + at' 25 y.toNat
/-- The word of SX_W (R118). -/
def Enc.sxW (s : BitVec 5) (a : BitVec 5) (x : BitVec 3) (b : BitVec 5) (y : BitVec 3) : Nat := 0xc0000027 + at' 7 s.toNat + at' 12 a.toNat + at' 17 x.toNat + at' 20 b.toNat + at' 25 y.toNat
/-- The word of SX_D (R118). -/
def Enc.sxD (s : BitVec 5) (a : BitVec 5) (x : BitVec 3) (b : BitVec 5) (y : BitVec 3) : Nat := 0xe0000027 + at' 7 s.toNat + at' 12 a.toNat + at' 17 x.toNat + at' 20 b.toNat + at' 25 y.toNat
/-- The word of FLW (R130). -/
def Enc.flw (d : BitVec 5) (a : BitVec 5) (x : BitVec 3) (i : BitVec 11) : Nat := 0x00000029 + at' 7 d.toNat + at' 12 a.toNat + at' 17 x.toNat + at' 20 i.toNat
/-- The word of FSW (R130). -/
def Enc.fsw (s : BitVec 5) (a : BitVec 5) (x : BitVec 3) (i : BitVec 11) : Nat := 0x80000029 + at' 7 s.toNat + at' 12 a.toNat + at' 17 x.toNat + at' 20 i.toNat
/-- The word of VL (R145). -/
def Enc.vl (d : BitVec 5) (a : BitVec 5) (x : BitVec 3) (i : BitVec 10) : Nat := 0x0000002b + at' 7 d.toNat + at' 12 a.toNat + at' 17 x.toNat + at' 20 i.toNat
/-- The word of VS (R145). -/
def Enc.vs (s : BitVec 5) (a : BitVec 5) (x : BitVec 3) (i : BitVec 10) : Nat := 0x4000002b + at' 7 s.toNat + at' 12 a.toNat + at' 17 x.toNat + at' 20 i.toNat
/-- The word of VLS (R146). -/
def Enc.vls (d : BitVec 5) (a : BitVec 5) (x : BitVec 3) (b : BitVec 5) (m : BitVec 3) (e : BitVec 2) : Nat := 0x0000002d + at' 7 d.toNat + at' 12 a.toNat + at' 17 x.toNat + at' 20 b.toNat + at' 25 m.toNat + at' 30 e.toNat
/-- The word of VSS (R147). -/
def Enc.vss (s : BitVec 5) (a : BitVec 5) (x : BitVec 3) (b : BitVec 5) (m : BitVec 3) (e : BitVec 2) : Nat := 0x1000002d + at' 7 s.toNat + at' 12 a.toNat + at' 17 x.toNat + at' 20 b.toNat + at' 25 m.toNat + at' 30 e.toNat
/-- The word of VLG (R146). -/
def Enc.vlg (d : BitVec 5) (a : BitVec 5) (x : BitVec 3) (b : BitVec 5) (m : BitVec 3) (e : BitVec 2) : Nat := 0x2000002d + at' 7 d.toNat + at' 12 a.toNat + at' 17 x.toNat + at' 20 b.toNat + at' 25 m.toNat + at' 30 e.toNat
/-- The word of VSG (R147). -/
def Enc.vsg (s : BitVec 5) (a : BitVec 5) (x : BitVec 3) (b : BitVec 5) (m : BitVec 3) (e : BitVec 2) : Nat := 0x3000002d + at' 7 s.toNat + at' 12 a.toNat + at' 17 x.toNat + at' 20 b.toNat + at' 25 m.toNat + at' 30 e.toNat
/-- The word of FADD (R127). -/
def Enc.fadd (d : BitVec 5) (a : BitVec 5) (x : BitVec 3) (b : BitVec 5) (y : BitVec 3) : Nat := 0x0000002f + at' 7 d.toNat + at' 12 a.toNat + at' 17 x.toNat + at' 20 b.toNat + at' 25 y.toNat
/-- The word of FSUB (R127). -/
def Enc.fsub (d : BitVec 5) (a : BitVec 5) (x : BitVec 3) (b : BitVec 5) (y : BitVec 3) : Nat := 0x1000002f + at' 7 d.toNat + at' 12 a.toNat + at' 17 x.toNat + at' 20 b.toNat + at' 25 y.toNat
/-- The word of FMUL (R127). -/
def Enc.fmul (d : BitVec 5) (a : BitVec 5) (x : BitVec 3) (b : BitVec 5) (y : BitVec 3) : Nat := 0x2000002f + at' 7 d.toNat + at' 12 a.toNat + at' 17 x.toNat + at' 20 b.toNat + at' 25 y.toNat
/-- The word of FDIV (R127). -/
def Enc.fdiv (d : BitVec 5) (a : BitVec 5) (x : BitVec 3) (b : BitVec 5) (y : BitVec 3) : Nat := 0x3000002f + at' 7 d.toNat + at' 12 a.toNat + at' 17 x.toNat + at' 20 b.toNat + at' 25 y.toNat
/-- The word of FSQRT (R127). -/
def Enc.fsqrt (d : BitVec 5) (a : BitVec 5) (x : BitVec 3) : Nat := 0x4000002f + at' 7 d.toNat + at' 12 a.toNat + at' 17 x.toNat
/-- The word of FMIN (R127). -/
def Enc.fmin (d : BitVec 5) (a : BitVec 5) (x : BitVec 3) (b : BitVec 5) (y : BitVec 3) : Nat := 0x5000002f + at' 7 d.toNat + at' 12 a.toNat + at' 17 x.toNat + at' 20 b.toNat + at' 25 y.toNat
/-- The word of FMAX (R127). -/
def Enc.fmax (d : BitVec 5) (a : BitVec 5) (x : BitVec 3) (b : BitVec 5) (y : BitVec 3) : Nat := 0x6000002f + at' 7 d.toNat + at' 12 a.toNat + at' 17 x.toNat + at' 20 b.toNat + at' 25 y.toNat
/-- The word of FABS (R127). -/
def Enc.fabs (d : BitVec 5) (a : BitVec 5) (x : BitVec 3) : Nat := 0x7000002f + at' 7 d.toNat + at' 12 a.toNat + at' 17 x.toNat
/-- The word of FNEG (R127). -/
def Enc.fneg (d : BitVec 5) (a : BitVec 5) (x : BitVec 3) : Nat := 0x8000002f + at' 7 d.toNat + at' 12 a.toNat + at' 17 x.toNat
/-- The word of FMA (R127). -/
def Enc.fma (d : BitVec 5) (a : BitVec 5) (b : BitVec 5) (c : BitVec 5) : Nat := 0x00000031 + at' 7 d.toNat + at' 12 a.toNat + at' 17 b.toNat + at' 22 c.toNat
/-- The word of FMS (R127). -/
def Enc.fms (d : BitVec 5) (a : BitVec 5) (b : BitVec 5) (c : BitVec 5) : Nat := 0x08000031 + at' 7 d.toNat + at' 12 a.toNat + at' 17 b.toNat + at' 22 c.toNat
/-- The word of FNMA (R127). -/
def Enc.fnma (d : BitVec 5) (a : BitVec 5) (b : BitVec 5) (c : BitVec 5) : Nat := 0x10000031 + at' 7 d.toNat + at' 12 a.toNat + at' 17 b.toNat + at' 22 c.toNat
/-- The word of FNMS (R127). -/
def Enc.fnms (d : BitVec 5) (a : BitVec 5) (b : BitVec 5) (c : BitVec 5) : Nat := 0x18000031 + at' 7 d.toNat + at' 12 a.toNat + at' 17 b.toNat + at' 22 c.toNat
/-- The word of FCVTI (R128). -/
def Enc.fcvti (d : BitVec 5) (a : BitVec 5) (x : BitVec 3) (r : BitVec 2) (s : BitVec 1) : Nat := 0x00000033 + at' 7 d.toNat + at' 12 a.toNat + at' 17 x.toNat + at' 20 r.toNat + at' 22 s.toNat
/-- The word of FCVTF (R128). -/
def Enc.fcvtf (d : BitVec 5) (a : BitVec 5) (x : BitVec 3) (r : BitVec 2) (s : BitVec 1) : Nat := 0x10000033 + at' 7 d.toNat + at' 12 a.toNat + at' 17 x.toNat + at' 20 r.toNat + at' 22 s.toNat
/-- The word of FCVTB (R128). -/
def Enc.fcvtb (d : BitVec 5) (a : BitVec 5) (x : BitVec 3) (r : BitVec 2) (s : BitVec 1) : Nat := 0x20000033 + at' 7 d.toNat + at' 12 a.toNat + at' 17 x.toNat + at' 20 r.toNat + at' 22 s.toNat
/-- The word of FMVGF (R128). -/
def Enc.fmvgf (d : BitVec 5) (a : BitVec 5) (x : BitVec 3) : Nat := 0x30000033 + at' 7 d.toNat + at' 12 a.toNat + at' 17 x.toNat
/-- The word of FMVFG (R128). -/
def Enc.fmvfg (d : BitVec 5) (a : BitVec 5) (x : BitVec 3) : Nat := 0x40000033 + at' 7 d.toNat + at' 12 a.toNat + at' 17 x.toNat
/-- The word of FCEQ (R128). -/
def Enc.fceq (q : BitVec 3) (a : BitVec 5) (x : BitVec 3) (b : BitVec 5) (y : BitVec 3) : Nat := 0x50000033 + at' 7 q.toNat + at' 12 a.toNat + at' 17 x.toNat + at' 20 b.toNat + at' 25 y.toNat
/-- The word of FCLT (R128). -/
def Enc.fclt (q : BitVec 3) (a : BitVec 5) (x : BitVec 3) (b : BitVec 5) (y : BitVec 3) : Nat := 0x60000033 + at' 7 q.toNat + at' 12 a.toNat + at' 17 x.toNat + at' 20 b.toNat + at' 25 y.toNat
/-- The word of FCLE (R128). -/
def Enc.fcle (q : BitVec 3) (a : BitVec 5) (x : BitVec 3) (b : BitVec 5) (y : BitVec 3) : Nat := 0x70000033 + at' 7 q.toNat + at' 12 a.toNat + at' 17 x.toNat + at' 20 b.toNat + at' 25 y.toNat
/-- The word of FCLASS (R129). -/
def Enc.fclass (d : BitVec 5) (a : BitVec 5) (x : BitVec 3) : Nat := 0x80000033 + at' 7 d.toNat + at' 12 a.toNat + at' 17 x.toNat
/-- The word of VADD (R132). -/
def Enc.vadd (d : BitVec 5) (a : BitVec 5) (x : BitVec 3) (b : BitVec 5) (e : BitVec 3) : Nat := 0x00000035 + at' 7 d.toNat + at' 12 a.toNat + at' 17 x.toNat + at' 20 b.toNat + at' 25 e.toNat
/-- The word of VSUB (R132). -/
def Enc.vsub (d : BitVec 5) (a : BitVec 5) (x : BitVec 3) (b : BitVec 5) (e : BitVec 3) : Nat := 0x10000035 + at' 7 d.toNat + at' 12 a.toNat + at' 17 x.toNat + at' 20 b.toNat + at' 25 e.toNat
/-- The word of VMUL (R132). -/
def Enc.vmul (d : BitVec 5) (a : BitVec 5) (x : BitVec 3) (b : BitVec 5) (e : BitVec 3) : Nat := 0x20000035 + at' 7 d.toNat + at' 12 a.toNat + at' 17 x.toNat + at' 20 b.toNat + at' 25 e.toNat
/-- The word of VMULH (R132). -/
def Enc.vmulh (d : BitVec 5) (a : BitVec 5) (x : BitVec 3) (b : BitVec 5) (e : BitVec 3) : Nat := 0x30000035 + at' 7 d.toNat + at' 12 a.toNat + at' 17 x.toNat + at' 20 b.toNat + at' 25 e.toNat
/-- The word of VMIN (R132). -/
def Enc.vmin (d : BitVec 5) (a : BitVec 5) (x : BitVec 3) (b : BitVec 5) (e : BitVec 3) : Nat := 0x40000035 + at' 7 d.toNat + at' 12 a.toNat + at' 17 x.toNat + at' 20 b.toNat + at' 25 e.toNat
/-- The word of VMAX (R132). -/
def Enc.vmax (d : BitVec 5) (a : BitVec 5) (x : BitVec 3) (b : BitVec 5) (e : BitVec 3) : Nat := 0x50000035 + at' 7 d.toNat + at' 12 a.toNat + at' 17 x.toNat + at' 20 b.toNat + at' 25 e.toNat
/-- The word of VMINU (R132). -/
def Enc.vminu (d : BitVec 5) (a : BitVec 5) (x : BitVec 3) (b : BitVec 5) (e : BitVec 3) : Nat := 0x60000035 + at' 7 d.toNat + at' 12 a.toNat + at' 17 x.toNat + at' 20 b.toNat + at' 25 e.toNat
/-- The word of VMAXU (R132). -/
def Enc.vmaxu (d : BitVec 5) (a : BitVec 5) (x : BitVec 3) (b : BitVec 5) (e : BitVec 3) : Nat := 0x70000035 + at' 7 d.toNat + at' 12 a.toNat + at' 17 x.toNat + at' 20 b.toNat + at' 25 e.toNat
/-- The word of VAND (R132). -/
def Enc.vand (d : BitVec 5) (a : BitVec 5) (x : BitVec 3) (b : BitVec 5) (e : BitVec 3) : Nat := 0x80000035 + at' 7 d.toNat + at' 12 a.toNat + at' 17 x.toNat + at' 20 b.toNat + at' 25 e.toNat
/-- The word of VOR (R132). -/
def Enc.vor (d : BitVec 5) (a : BitVec 5) (x : BitVec 3) (b : BitVec 5) (e : BitVec 3) : Nat := 0x90000035 + at' 7 d.toNat + at' 12 a.toNat + at' 17 x.toNat + at' 20 b.toNat + at' 25 e.toNat
/-- The word of VXOR (R132). -/
def Enc.vxor (d : BitVec 5) (a : BitVec 5) (x : BitVec 3) (b : BitVec 5) (e : BitVec 3) : Nat := 0xa0000035 + at' 7 d.toNat + at' 12 a.toNat + at' 17 x.toNat + at' 20 b.toNat + at' 25 e.toNat
/-- The word of VSLL (R132). -/
def Enc.vsll (d : BitVec 5) (a : BitVec 5) (x : BitVec 3) (b : BitVec 5) (e : BitVec 3) : Nat := 0xb0000035 + at' 7 d.toNat + at' 12 a.toNat + at' 17 x.toNat + at' 20 b.toNat + at' 25 e.toNat
/-- The word of VSRL (R132). -/
def Enc.vsrl (d : BitVec 5) (a : BitVec 5) (x : BitVec 3) (b : BitVec 5) (e : BitVec 3) : Nat := 0xc0000035 + at' 7 d.toNat + at' 12 a.toNat + at' 17 x.toNat + at' 20 b.toNat + at' 25 e.toNat
/-- The word of VSRA (R132). -/
def Enc.vsra (d : BitVec 5) (a : BitVec 5) (x : BitVec 3) (b : BitVec 5) (e : BitVec 3) : Nat := 0xd0000035 + at' 7 d.toNat + at' 12 a.toNat + at' 17 x.toNat + at' 20 b.toNat + at' 25 e.toNat
/-- The word of VADDS (R132). -/
def Enc.vadds (d : BitVec 5) (a : BitVec 5) (x : BitVec 3) (b : BitVec 5) (e : BitVec 3) : Nat := 0xe0000035 + at' 7 d.toNat + at' 12 a.toNat + at' 17 x.toNat + at' 20 b.toNat + at' 25 e.toNat
/-- The word of VSUBS (R132). -/
def Enc.vsubs (d : BitVec 5) (a : BitVec 5) (x : BitVec 3) (b : BitVec 5) (e : BitVec 3) : Nat := 0xf0000035 + at' 7 d.toNat + at' 12 a.toNat + at' 17 x.toNat + at' 20 b.toNat + at' 25 e.toNat
/-- The word of VFADD (R133). -/
def Enc.vfadd (d : BitVec 5) (a : BitVec 5) (x : BitVec 3) (b : BitVec 5) (e : BitVec 3) : Nat := 0x00000037 + at' 7 d.toNat + at' 12 a.toNat + at' 17 x.toNat + at' 20 b.toNat + at' 25 e.toNat
/-- The word of VFSUB (R133). -/
def Enc.vfsub (d : BitVec 5) (a : BitVec 5) (x : BitVec 3) (b : BitVec 5) (e : BitVec 3) : Nat := 0x10000037 + at' 7 d.toNat + at' 12 a.toNat + at' 17 x.toNat + at' 20 b.toNat + at' 25 e.toNat
/-- The word of VFMUL (R133). -/
def Enc.vfmul (d : BitVec 5) (a : BitVec 5) (x : BitVec 3) (b : BitVec 5) (e : BitVec 3) : Nat := 0x20000037 + at' 7 d.toNat + at' 12 a.toNat + at' 17 x.toNat + at' 20 b.toNat + at' 25 e.toNat
/-- The word of VFDIV (R133). -/
def Enc.vfdiv (d : BitVec 5) (a : BitVec 5) (x : BitVec 3) (b : BitVec 5) (e : BitVec 3) : Nat := 0x30000037 + at' 7 d.toNat + at' 12 a.toNat + at' 17 x.toNat + at' 20 b.toNat + at' 25 e.toNat
/-- The word of VFMIN (R133). -/
def Enc.vfmin (d : BitVec 5) (a : BitVec 5) (x : BitVec 3) (b : BitVec 5) (e : BitVec 3) : Nat := 0x40000037 + at' 7 d.toNat + at' 12 a.toNat + at' 17 x.toNat + at' 20 b.toNat + at' 25 e.toNat
/-- The word of VFMAX (R133). -/
def Enc.vfmax (d : BitVec 5) (a : BitVec 5) (x : BitVec 3) (b : BitVec 5) (e : BitVec 3) : Nat := 0x50000037 + at' 7 d.toNat + at' 12 a.toNat + at' 17 x.toNat + at' 20 b.toNat + at' 25 e.toNat
/-- The word of VFEXP2 (R133). -/
def Enc.vfexp2 (d : BitVec 5) (a : BitVec 5) (x : BitVec 3) (e : BitVec 3) : Nat := 0x60000037 + at' 7 d.toNat + at' 12 a.toNat + at' 17 x.toNat + at' 25 e.toNat
/-- The word of VFRCP (R133). -/
def Enc.vfrcp (d : BitVec 5) (a : BitVec 5) (x : BitVec 3) (e : BitVec 3) : Nat := 0x70000037 + at' 7 d.toNat + at' 12 a.toNat + at' 17 x.toNat + at' 25 e.toNat
/-- The word of VFRSQ (R133). -/
def Enc.vfrsq (d : BitVec 5) (a : BitVec 5) (x : BitVec 3) (e : BitVec 3) : Nat := 0x80000037 + at' 7 d.toNat + at' 12 a.toNat + at' 17 x.toNat + at' 25 e.toNat
/-- The word of VFABS (R133). -/
def Enc.vfabs (d : BitVec 5) (a : BitVec 5) (x : BitVec 3) (e : BitVec 3) : Nat := 0x90000037 + at' 7 d.toNat + at' 12 a.toNat + at' 17 x.toNat + at' 25 e.toNat
/-- The word of VFNEG (R133). -/
def Enc.vfneg (d : BitVec 5) (a : BitVec 5) (x : BitVec 3) (e : BitVec 3) : Nat := 0xa0000037 + at' 7 d.toNat + at' 12 a.toNat + at' 17 x.toNat + at' 25 e.toNat
/-- The word of VFMA_S (R134). -/
def Enc.vfmaS (d : BitVec 5) (a : BitVec 5) (b : BitVec 5) (c : BitVec 5) : Nat := 0x00000039 + at' 7 d.toNat + at' 12 a.toNat + at' 17 b.toNat + at' 22 c.toNat
/-- The word of VFMA_BF (R134). -/
def Enc.vfmaBf (d : BitVec 5) (a : BitVec 5) (b : BitVec 5) (c : BitVec 5) : Nat := 0x08000039 + at' 7 d.toNat + at' 12 a.toNat + at' 17 b.toNat + at' 22 c.toNat
/-- The word of VFMS_S (R134). -/
def Enc.vfmsS (d : BitVec 5) (a : BitVec 5) (b : BitVec 5) (c : BitVec 5) : Nat := 0x10000039 + at' 7 d.toNat + at' 12 a.toNat + at' 17 b.toNat + at' 22 c.toNat
/-- The word of VFMS_BF (R134). -/
def Enc.vfmsBf (d : BitVec 5) (a : BitVec 5) (b : BitVec 5) (c : BitVec 5) : Nat := 0x18000039 + at' 7 d.toNat + at' 12 a.toNat + at' 17 b.toNat + at' 22 c.toNat
/-- The word of VSEL_B (R134). -/
def Enc.vselB (d : BitVec 5) (a : BitVec 5) (b : BitVec 5) (c : BitVec 3) : Nat := 0x20000039 + at' 7 d.toNat + at' 12 a.toNat + at' 17 b.toNat + at' 22 c.toNat
/-- The word of VSEL_H (R134). -/
def Enc.vselH (d : BitVec 5) (a : BitVec 5) (b : BitVec 5) (c : BitVec 3) : Nat := 0x28000039 + at' 7 d.toNat + at' 12 a.toNat + at' 17 b.toNat + at' 22 c.toNat
/-- The word of VSEL_W (R134). -/
def Enc.vselW (d : BitVec 5) (a : BitVec 5) (b : BitVec 5) (c : BitVec 3) : Nat := 0x30000039 + at' 7 d.toNat + at' 12 a.toNat + at' 17 b.toNat + at' 22 c.toNat
/-- The word of VSEL_D (R134). -/
def Enc.vselD (d : BitVec 5) (a : BitVec 5) (b : BitVec 5) (c : BitVec 3) : Nat := 0x38000039 + at' 7 d.toNat + at' 12 a.toNat + at' 17 b.toNat + at' 22 c.toNat
/-- The word of VRSUM (R136). -/
def Enc.vrsum (d : BitVec 5) (a : BitVec 5) (x : BitVec 3) (b : BitVec 3) (e : BitVec 3) : Nat := 0x0000003b + at' 7 d.toNat + at' 12 a.toNat + at' 17 x.toNat + at' 20 b.toNat + at' 25 e.toNat
/-- The word of VRMAX (R136). -/
def Enc.vrmax (d : BitVec 5) (a : BitVec 5) (x : BitVec 3) (b : BitVec 3) (e : BitVec 3) : Nat := 0x1000003b + at' 7 d.toNat + at' 12 a.toNat + at' 17 x.toNat + at' 20 b.toNat + at' 25 e.toNat
/-- The word of VRMIN (R136). -/
def Enc.vrmin (d : BitVec 5) (a : BitVec 5) (x : BitVec 3) (b : BitVec 3) (e : BitVec 3) : Nat := 0x2000003b + at' 7 d.toNat + at' 12 a.toNat + at' 17 x.toNat + at' 20 b.toNat + at' 25 e.toNat
/-- The word of VPERM (R137). -/
def Enc.vperm (d : BitVec 5) (a : BitVec 5) (x : BitVec 3) (b : BitVec 5) (e : BitVec 3) : Nat := 0x3000003b + at' 7 d.toNat + at' 12 a.toNat + at' 17 x.toNat + at' 20 b.toNat + at' 25 e.toNat
/-- The word of VBCAST (R137). -/
def Enc.vbcast (d : BitVec 5) (a : BitVec 5) (x : BitVec 3) (b : BitVec 5) (e : BitVec 3) : Nat := 0x4000003b + at' 7 d.toNat + at' 12 a.toNat + at' 17 x.toNat + at' 20 b.toNat + at' 25 e.toNat
/-- The word of VSPLAT (R137). -/
def Enc.vsplat (d : BitVec 5) (a : BitVec 5) (x : BitVec 3) (e : BitVec 3) : Nat := 0x5000003b + at' 7 d.toNat + at' 12 a.toNat + at' 17 x.toNat + at' 25 e.toNat
/-- The word of VCVT_BF_S (R141). -/
def Enc.vcvtBfS (d : BitVec 5) (a : BitVec 5) (x : BitVec 3) (b : BitVec 5) (r : BitVec 3) : Nat := 0x0000003d + at' 7 d.toNat + at' 12 a.toNat + at' 17 x.toNat + at' 20 b.toNat + at' 25 r.toNat
/-- The word of VCVT_S_BF (R141). -/
def Enc.vcvtSBf (d : BitVec 5) (a : BitVec 5) (x : BitVec 3) : Nat := 0x1000003d + at' 7 d.toNat + at' 12 a.toNat + at' 17 x.toNat
/-- The word of VCVT_HF_S (R141). -/
def Enc.vcvtHfS (d : BitVec 5) (a : BitVec 5) (x : BitVec 3) (b : BitVec 5) (r : BitVec 3) : Nat := 0x2000003d + at' 7 d.toNat + at' 12 a.toNat + at' 17 x.toNat + at' 20 b.toNat + at' 25 r.toNat
/-- The word of VCVT_S_HF (R141). -/
def Enc.vcvtSHf (d : BitVec 5) (a : BitVec 5) (x : BitVec 3) : Nat := 0x3000003d + at' 7 d.toNat + at' 12 a.toNat + at' 17 x.toNat
/-- The word of VCVT_I32_S (R141). -/
def Enc.vcvtI32S (d : BitVec 5) (a : BitVec 5) (x : BitVec 3) (b : BitVec 5) (r : BitVec 3) : Nat := 0x4000003d + at' 7 d.toNat + at' 12 a.toNat + at' 17 x.toNat + at' 20 b.toNat + at' 25 r.toNat
/-- The word of VCVT_S_I32 (R141). -/
def Enc.vcvtSI32 (d : BitVec 5) (a : BitVec 5) (x : BitVec 3) (b : BitVec 5) (r : BitVec 3) : Nat := 0x5000003d + at' 7 d.toNat + at' 12 a.toNat + at' 17 x.toNat + at' 20 b.toNat + at' 25 r.toNat
/-- The word of VCVT_I8_S (R141). -/
def Enc.vcvtI8S (d : BitVec 5) (a : BitVec 5) (x : BitVec 3) (b : BitVec 5) (r : BitVec 3) : Nat := 0x6000003d + at' 7 d.toNat + at' 12 a.toNat + at' 17 x.toNat + at' 20 b.toNat + at' 25 r.toNat
/-- The word of VCVT_S_I8 (R141). -/
def Enc.vcvtSI8 (d : BitVec 5) (a : BitVec 5) (x : BitVec 3) : Nat := 0x7000003d + at' 7 d.toNat + at' 12 a.toNat + at' 17 x.toNat
/-- The word of VCVT_HF_BF (R141). -/
def Enc.vcvtHfBf (d : BitVec 5) (a : BitVec 5) (x : BitVec 3) (b : BitVec 5) (r : BitVec 3) : Nat := 0x8000003d + at' 7 d.toNat + at' 12 a.toNat + at' 17 x.toNat + at' 20 b.toNat + at' 25 r.toNat
/-- The word of VCVT_BF_HF (R141). -/
def Enc.vcvtBfHf (d : BitVec 5) (a : BitVec 5) (x : BitVec 3) (b : BitVec 5) (r : BitVec 3) : Nat := 0x9000003d + at' 7 d.toNat + at' 12 a.toNat + at' 17 x.toNat + at' 20 b.toNat + at' 25 r.toNat
/-- The word of VPACKMX (R142). -/
def Enc.vpackmx (d : BitVec 5) (a : BitVec 5) (x : BitVec 3) (s : BitVec 1) (t : BitVec 3) : Nat := 0xc000003d + at' 7 d.toNat + at' 12 a.toNat + at' 17 x.toNat + at' 20 s.toNat + at' 25 t.toNat
/-- The word of VUNPKMX (R143). -/
def Enc.vunpkmx (d : BitVec 5) (a : BitVec 5) (x : BitVec 3) (t : BitVec 3) : Nat := 0xd000003d + at' 7 d.toNat + at' 12 a.toNat + at' 17 x.toNat + at' 25 t.toNat
/-- The word of MAND (R139). -/
def Enc.mand (d : BitVec 3) (a : BitVec 3) (x : BitVec 3) (b : BitVec 3) (y : BitVec 3) : Nat := 0x0000003f + at' 7 d.toNat + at' 12 a.toNat + at' 17 x.toNat + at' 20 b.toNat + at' 25 y.toNat
/-- The word of MOR (R139). -/
def Enc.mor (d : BitVec 3) (a : BitVec 3) (x : BitVec 3) (b : BitVec 3) (y : BitVec 3) : Nat := 0x1000003f + at' 7 d.toNat + at' 12 a.toNat + at' 17 x.toNat + at' 20 b.toNat + at' 25 y.toNat
/-- The word of MXOR (R139). -/
def Enc.mxor (d : BitVec 3) (a : BitVec 3) (x : BitVec 3) (b : BitVec 3) (y : BitVec 3) : Nat := 0x2000003f + at' 7 d.toNat + at' 12 a.toNat + at' 17 x.toNat + at' 20 b.toNat + at' 25 y.toNat
/-- The word of MNOT (R139). -/
def Enc.mnot (d : BitVec 3) (a : BitVec 3) (x : BitVec 3) : Nat := 0x3000003f + at' 7 d.toNat + at' 12 a.toNat + at' 17 x.toNat
/-- The word of MPOP (R139). -/
def Enc.mpop (d : BitVec 5) (a : BitVec 3) (x : BitVec 3) : Nat := 0x4000003f + at' 7 d.toNat + at' 12 a.toNat + at' 17 x.toNat
/-- The word of MFIRST (R139). -/
def Enc.mfirst (d : BitVec 5) (a : BitVec 3) (x : BitVec 3) : Nat := 0x5000003f + at' 7 d.toNat + at' 12 a.toNat + at' 17 x.toNat
/-- The word of VFCMP_EQ (R139). -/
def Enc.vfcmpEq (m : BitVec 3) (a : BitVec 5) (x : BitVec 3) (b : BitVec 5) (e : BitVec 3) : Nat := 0x6000003f + at' 7 m.toNat + at' 12 a.toNat + at' 17 x.toNat + at' 20 b.toNat + at' 25 e.toNat
/-- The word of VFCMP_LT (R139). -/
def Enc.vfcmpLt (m : BitVec 3) (a : BitVec 5) (x : BitVec 3) (b : BitVec 5) (e : BitVec 3) : Nat := 0x7000003f + at' 7 m.toNat + at' 12 a.toNat + at' 17 x.toNat + at' 20 b.toNat + at' 25 e.toNat
/-- The word of VCMP_EQ (R139). -/
def Enc.vcmpEq (m : BitVec 3) (a : BitVec 5) (x : BitVec 3) (b : BitVec 5) (e : BitVec 3) : Nat := 0x8000003f + at' 7 m.toNat + at' 12 a.toNat + at' 17 x.toNat + at' 20 b.toNat + at' 25 e.toNat
/-- The word of VCMP_NE (R139). -/
def Enc.vcmpNe (m : BitVec 3) (a : BitVec 5) (x : BitVec 3) (b : BitVec 5) (e : BitVec 3) : Nat := 0x9000003f + at' 7 m.toNat + at' 12 a.toNat + at' 17 x.toNat + at' 20 b.toNat + at' 25 e.toNat
/-- The word of VCMP_LT (R139). -/
def Enc.vcmpLt (m : BitVec 3) (a : BitVec 5) (x : BitVec 3) (b : BitVec 5) (e : BitVec 3) : Nat := 0xa000003f + at' 7 m.toNat + at' 12 a.toNat + at' 17 x.toNat + at' 20 b.toNat + at' 25 e.toNat
/-- The word of VCMP_LTU (R139). -/
def Enc.vcmpLtu (m : BitVec 3) (a : BitVec 5) (x : BitVec 3) (b : BitVec 5) (e : BitVec 3) : Nat := 0xb000003f + at' 7 m.toNat + at' 12 a.toNat + at' 17 x.toNat + at' 20 b.toNat + at' 25 e.toNat
/-- The word of VCMP_GE (R139). -/
def Enc.vcmpGe (m : BitVec 3) (a : BitVec 5) (x : BitVec 3) (b : BitVec 5) (e : BitVec 3) : Nat := 0xc000003f + at' 7 m.toNat + at' 12 a.toNat + at' 17 x.toNat + at' 20 b.toNat + at' 25 e.toNat
/-- The word of VCMP_GEU (R139). -/
def Enc.vcmpGeu (m : BitVec 3) (a : BitVec 5) (x : BitVec 3) (b : BitVec 5) (e : BitVec 3) : Nat := 0xd000003f + at' 7 m.toNat + at' 12 a.toNat + at' 17 x.toNat + at' 20 b.toNat + at' 25 e.toNat
/-- The word of VFCMP_LE (R139). -/
def Enc.vfcmpLe (m : BitVec 3) (a : BitVec 5) (x : BitVec 3) (b : BitVec 5) (e : BitVec 3) : Nat := 0xe000003f + at' 7 m.toNat + at' 12 a.toNat + at' 17 x.toNat + at' 20 b.toNat + at' 25 e.toNat
/-- The word of CHWAITF (R249). -/
def Enc.chwaitf (c : BitVec 4) (n : BitVec 12) : Nat := 0x00000041 + at' 12 c.toNat + at' 16 n.toNat
/-- The word of CHWAITE (R249). -/
def Enc.chwaite (c : BitVec 4) (n : BitVec 12) : Nat := 0x10000041 + at' 12 c.toNat + at' 16 n.toNat
/-- The word of CHADVC (R249). -/
def Enc.chadvc (c : BitVec 4) (n : BitVec 12) : Nat := 0x20000041 + at' 12 c.toNat + at' 16 n.toNat
/-- The word of CHADVP (R249). -/
def Enc.chadvp (c : BitVec 4) (n : BitVec 12) : Nat := 0x30000041 + at' 12 c.toNat + at' 16 n.toNat
/-- The word of CHST (R249). -/
def Enc.chst (s : BitVec 5) (c : BitVec 4) (u : BitVec 12) : Nat := 0x40000041 + at' 7 s.toNat + at' 12 c.toNat + at' 16 u.toNat
/-- The word of CHADDR (R249). -/
def Enc.chaddr (d : BitVec 5) (c : BitVec 4) (u : BitVec 12) : Nat := 0x50000041 + at' 7 d.toNat + at' 12 c.toNat + at' 16 u.toNat
/-- The word of SEND (R256). -/
def Enc.send (n : BitVec 3) (a : BitVec 5) (c : BitVec 5) : Nat := 0x00000043 + at' 7 n.toNat + at' 12 a.toNat + at' 22 c.toNat
/-- The word of PUT (R256). -/
def Enc.put (s : BitVec 3) (a : BitVec 5) (c : BitVec 5) : Nat := 0x08000043 + at' 7 s.toNat + at' 12 a.toNat + at' 22 c.toNat
/-- The word of GET (R256). -/
def Enc.get (s : BitVec 3) (a : BitVec 5) (b : BitVec 5) : Nat := 0x10000043 + at' 7 s.toNat + at' 12 a.toNat + at' 17 b.toNat
/-- The word of WINDOW (R258). -/
def Enc.window (k : BitVec 1) (g : BitVec 1) : Nat := 0x18000043 + at' 30 k.toNat + at' 31 g.toNat
/-- The word of BDEF (R302). -/
def Enc.bdef (i : BitVec 3) (k : BitVec 1) (a : BitVec 5) (x : BitVec 3) (b : BitVec 5) (y : BitVec 3) : Nat := 0x00000045 + at' 7 i.toNat + at' 10 k.toNat + at' 12 a.toNat + at' 17 x.toNat + at' 20 b.toNat + at' 25 y.toNat
/-- The word of BADD (R302). -/
def Enc.badd (a : BitVec 5) (x : BitVec 3) (b : BitVec 5) (y : BitVec 3) : Nat := 0x10000045 + at' 12 a.toNat + at' 17 x.toNat + at' 20 b.toNat + at' 25 y.toNat
/-- The word of BAND (R302). -/
def Enc.band (a : BitVec 5) (x : BitVec 3) (b : BitVec 5) (y : BitVec 3) : Nat := 0x20000045 + at' 12 a.toNat + at' 17 x.toNat + at' 20 b.toNat + at' 25 y.toNat
/-- The word of BOR (R302). -/
def Enc.bor (a : BitVec 5) (x : BitVec 3) (b : BitVec 5) (y : BitVec 3) : Nat := 0x30000045 + at' 12 a.toNat + at' 17 x.toNat + at' 20 b.toNat + at' 25 y.toNat
/-- The word of BXOR (R302). -/
def Enc.bxor (a : BitVec 5) (x : BitVec 3) (b : BitVec 5) (y : BitVec 3) : Nat := 0x40000045 + at' 12 a.toNat + at' 17 x.toNat + at' 20 b.toNat + at' 25 y.toNat
/-- The word of BMIN (R302). -/
def Enc.bmin (u : BitVec 1) (a : BitVec 5) (x : BitVec 3) (b : BitVec 5) (y : BitVec 3) : Nat := 0x50000045 + at' 7 u.toNat + at' 12 a.toNat + at' 17 x.toNat + at' 20 b.toNat + at' 25 y.toNat
/-- The word of BMAX (R302). -/
def Enc.bmax (u : BitVec 1) (a : BitVec 5) (x : BitVec 3) (b : BitVec 5) (y : BitVec 3) : Nat := 0x60000045 + at' 7 u.toNat + at' 12 a.toNat + at' 17 x.toNat + at' 20 b.toNat + at' 25 y.toNat
/-- The word of BFXA (R302). -/
def Enc.bfxa (f : BitVec 1) (a : BitVec 5) (x : BitVec 3) (b : BitVec 5) (y : BitVec 3) : Nat := 0x70000045 + at' 7 f.toNat + at' 12 a.toNat + at' 17 x.toNat + at' 20 b.toNat + at' 25 y.toNat
/-- The word of BMINF (R302). -/
def Enc.bminf (a : BitVec 5) (x : BitVec 3) (b : BitVec 5) (y : BitVec 3) : Nat := 0x80000045 + at' 12 a.toNat + at' 17 x.toNat + at' 20 b.toNat + at' 25 y.toNat
/-- The word of BMAXF (R302). -/
def Enc.bmaxf (a : BitVec 5) (x : BitVec 3) (b : BitVec 5) (y : BitVec 3) : Nat := 0x90000045 + at' 12 a.toNat + at' 17 x.toNat + at' 20 b.toNat + at' 25 y.toNat
/-- The word of BVSA (R303). -/
def Enc.bvsa (e : BitVec 4) (a : BitVec 5) (x : BitVec 3) (b : BitVec 5) (y : BitVec 3) : Nat := 0xa0000045 + at' 7 e.toNat + at' 12 a.toNat + at' 17 x.toNat + at' 20 b.toNat + at' 25 y.toNat
/-- The word of BRD (R304). -/
def Enc.brd (d : BitVec 5) (a : BitVec 5) (x : BitVec 3) (o : BitVec 2) : Nat := 0xb0000045 + at' 7 d.toNat + at' 12 a.toNat + at' 17 x.toNat + at' 20 o.toNat
/-- The word of SWDEF (R310). -/
def Enc.swdef (a : BitVec 5) (x : BitVec 3) (b : BitVec 5) (y : BitVec 3) : Nat := 0x00000047 + at' 12 a.toNat + at' 17 x.toNat + at' 20 b.toNat + at' 25 y.toNat
/-- The word of ARRIVE (R310). -/
def Enc.arrive (s : BitVec 3) (a : BitVec 5) (x : BitVec 3) : Nat := 0x10000047 + at' 7 s.toNat + at' 12 a.toNat + at' 17 x.toNat
/-- The word of SWAIT (R310). -/
def Enc.swait (s : BitVec 3) (a : BitVec 5) (x : BitVec 3) (b : BitVec 5) (y : BitVec 3) : Nat := 0x20000047 + at' 7 s.toNat + at' 12 a.toNat + at' 17 x.toNat + at' 20 b.toNat + at' 25 y.toNat
/-- The word of FENCE (R310). -/
def Enc.fence (s : BitVec 3) : Nat := 0x30000047 + at' 7 s.toNat
/-- The word of FLUSHAS (R286). -/
def Enc.flushas (a : BitVec 5) (x : BitVec 3) : Nat := 0x40000047 + at' 12 a.toNat + at' 17 x.toNat
/-- The word of DRAIN (R287). -/
def Enc.drain : Nat := 0x50000047
/-- The word of XFER (R335). -/
def Enc.xfer (d : BitVec 5) (a : BitVec 5) : Nat := 0x00000049 + at' 7 d.toNat + at' 12 a.toNat
/-- The word of XFERQ (R335). -/
def Enc.xferq (d : BitVec 5) (a : BitVec 5) : Nat := 0x08000049 + at' 7 d.toNat + at' 12 a.toNat
/-- The word of XWAIT (R336). -/
def Enc.xwait (a : BitVec 5) (k : BitVec 2) : Nat := 0x10000049 + at' 12 a.toNat + at' 17 k.toNat
/-- The word of XSTAT (R337). -/
def Enc.xstat (d : BitVec 5) (k : BitVec 2) : Nat := 0x18000049 + at' 7 d.toNat + at' 17 k.toNat
/-- The word of CWLD (R353). -/
def Enc.cwld (a : BitVec 5) (v : BitVec 1) (b : BitVec 5) : Nat := 0x0000004b + at' 12 a.toNat + at' 17 v.toNat + at' 20 b.toNat
/-- The word of CWLDS (R353). -/
def Enc.cwlds (a : BitVec 5) (v : BitVec 1) (b : BitVec 5) : Nat := 0x1000004b + at' 12 a.toNat + at' 17 v.toNat + at' 20 b.toNat
/-- The word of CWSWAP (R354). -/
def Enc.cwswap : Nat := 0x2000004b
/-- The word of CZCLR (R355). -/
def Enc.czclr (z : BitVec 3) : Nat := 0x3000004b + at' 25 z.toNat
/-- The word of CZWAIT (R360). -/
def Enc.czwait (l : BitVec 1) (z : BitVec 3) : Nat := 0x4000004b + at' 17 l.toNat + at' 25 z.toNat
/-- The word of CZOUT (R361). -/
def Enc.czout (a : BitVec 5) (b : BitVec 5) (z : BitVec 3) : Nat := 0x5000004b + at' 12 a.toNat + at' 20 b.toNat + at' 25 z.toNat
/-- The word of CZLD (R362). -/
def Enc.czld (a : BitVec 5) (b : BitVec 5) (z : BitVec 3) : Nat := 0x6000004b + at' 12 a.toNat + at' 20 b.toNat + at' 25 z.toNat
/-- The word of CMMA_BF (R356). -/
def Enc.cmmaBf (a : BitVec 5) (f : BitVec 4) (s : BitVec 5) (z : BitVec 3) : Nat := 0x0000004d + at' 9 a.toNat + at' 14 f.toNat + at' 18 s.toNat + at' 23 z.toNat
/-- The word of CMMA_HF (R356). -/
def Enc.cmmaHf (a : BitVec 5) (f : BitVec 4) (s : BitVec 5) (z : BitVec 3) : Nat := 0x000000cd + at' 9 a.toNat + at' 14 f.toNat + at' 18 s.toNat + at' 23 z.toNat
/-- The word of CMMA_I8 (R356). -/
def Enc.cmmaI8 (a : BitVec 5) (f : BitVec 4) (s : BitVec 5) (z : BitVec 3) : Nat := 0x0000014d + at' 9 a.toNat + at' 14 f.toNat + at' 18 s.toNat + at' 23 z.toNat
/-- The word of CMMA_E4E4 (R356). -/
def Enc.cmmaE4e4 (a : BitVec 5) (f : BitVec 4) (s : BitVec 5) (z : BitVec 3) : Nat := 0x000001cd + at' 9 a.toNat + at' 14 f.toNat + at' 18 s.toNat + at' 23 z.toNat
/-- The word of CMMA_E4E5 (R356). -/
def Enc.cmmaE4e5 (a : BitVec 5) (f : BitVec 4) (s : BitVec 5) (z : BitVec 3) : Nat := 0x0000004f + at' 9 a.toNat + at' 14 f.toNat + at' 18 s.toNat + at' 23 z.toNat
/-- The word of CMMA_E5E4 (R356). -/
def Enc.cmmaE5e4 (a : BitVec 5) (f : BitVec 4) (s : BitVec 5) (z : BitVec 3) : Nat := 0x000000cf + at' 9 a.toNat + at' 14 f.toNat + at' 18 s.toNat + at' 23 z.toNat
/-- The word of CMMA_E5E5 (R356). -/
def Enc.cmmaE5e5 (a : BitVec 5) (f : BitVec 4) (s : BitVec 5) (z : BitVec 3) : Nat := 0x0000014f + at' 9 a.toNat + at' 14 f.toNat + at' 18 s.toNat + at' 23 z.toNat
/-- The word of CMMA_F6A (R356). -/
def Enc.cmmaF6a (a : BitVec 5) (f : BitVec 4) (s : BitVec 5) (z : BitVec 3) : Nat := 0x000001cf + at' 9 a.toNat + at' 14 f.toNat + at' 18 s.toNat + at' 23 z.toNat
/-- The word of CMMA_F6B (R356). -/
def Enc.cmmaF6b (a : BitVec 5) (f : BitVec 4) (s : BitVec 5) (z : BitVec 3) : Nat := 0x00000051 + at' 9 a.toNat + at' 14 f.toNat + at' 18 s.toNat + at' 23 z.toNat
/-- The word of CMMA_F6AB (R356). -/
def Enc.cmmaF6ab (a : BitVec 5) (f : BitVec 4) (s : BitVec 5) (z : BitVec 3) : Nat := 0x000000d1 + at' 9 a.toNat + at' 14 f.toNat + at' 18 s.toNat + at' 23 z.toNat
/-- The word of CMMA_MXF4 (R356). -/
def Enc.cmmaMxf4 (a : BitVec 5) (f : BitVec 4) (s : BitVec 5) (z : BitVec 3) : Nat := 0x00000151 + at' 9 a.toNat + at' 14 f.toNat + at' 18 s.toNat + at' 23 z.toNat
/-- The word of CMMA_KF4 (R356). -/
def Enc.cmmaKf4 (a : BitVec 5) (f : BitVec 4) (s : BitVec 5) (z : BitVec 3) : Nat := 0x000001d1 + at' 9 a.toNat + at' 14 f.toNat + at' 18 s.toNat + at' 23 z.toNat
/-- The word of CMMA_E4KF4 (R356). -/
def Enc.cmmaE4kf4 (a : BitVec 5) (f : BitVec 4) (s : BitVec 5) (z : BitVec 3) : Nat := 0x00000053 + at' 9 a.toNat + at' 14 f.toNat + at' 18 s.toNat + at' 23 z.toNat
/-- The word of CMMA_MXI8 (R356). -/
def Enc.cmmaMxi8 (a : BitVec 5) (f : BitVec 4) (s : BitVec 5) (z : BitVec 3) : Nat := 0x000000d3 + at' 9 a.toNat + at' 14 f.toNat + at' 18 s.toNat + at' 23 z.toNat
/-- The word of KVOPEN (R377). -/
def Enc.kvopen (a : BitVec 5) (b : BitVec 5) : Nat := 0x00000055 + at' 12 a.toNat + at' 17 b.toNat
/-- The word of KVAPP (R378). -/
def Enc.kvapp (h : BitVec 2) (a : BitVec 5) (b : BitVec 5) (c : BitVec 5) (p : BitVec 2) : Nat := 0x08000055 + at' 7 h.toNat + at' 12 a.toNat + at' 17 b.toNat + at' 22 c.toNat + at' 30 p.toNat
/-- The word of KVQRY (R385). -/
def Enc.kvqry (a : BitVec 5) (b : BitVec 5) (c : BitVec 5) : Nat := 0x10000055 + at' 12 a.toNat + at' 17 b.toNat + at' 22 c.toNat
/-- The word of KVSEAL (R383). -/
def Enc.kvseal (a : BitVec 5) : Nat := 0x18000055 + at' 12 a.toNat
/-- The word of KVSTAT (R383). -/
def Enc.kvstat (d : BitVec 5) (a : BitVec 5) : Nat := 0x20000055 + at' 7 d.toNat + at' 12 a.toNat
/-- The word of KVDROP (R384). -/
def Enc.kvdrop (a : BitVec 5) : Nat := 0x28000055 + at' 12 a.toNat
/-- The word of KVDROP_GRANT (R384). -/
def Enc.kvdropGrant (a : BitVec 5) (b : BitVec 5) : Nat := 0x280000d5 + at' 12 a.toNat + at' 17 b.toNat
/-- The word of KVDROP_REVOKE (R384). -/
def Enc.kvdropRevoke (a : BitVec 5) : Nat := 0x28000155 + at' 12 a.toNat
/-- The word of QRLD (R411). -/
def Enc.qrld (a : BitVec 5) (x : BitVec 3) (b : BitVec 5) (y : BitVec 3) : Nat := 0x00000057 + at' 12 a.toNat + at' 17 x.toNat + at' 20 b.toNat + at' 25 y.toNat
/-- The word of QRSEED (R412). -/
def Enc.qrseed (a : BitVec 5) (x : BitVec 3) (b : BitVec 5) (y : BitVec 3) : Nat := 0x10000057 + at' 12 a.toNat + at' 17 x.toNat + at' 20 b.toNat + at' 25 y.toNat
/-- The word of QRI (R413). -/
def Enc.qri (d : BitVec 5) (a : BitVec 5) (x : BitVec 3) (b : BitVec 5) (y : BitVec 3) : Nat := 0x20000057 + at' 7 d.toNat + at' 12 a.toNat + at' 17 x.toNat + at' 20 b.toNat + at' 25 y.toNat
/-- The word of QRF (R413). -/
def Enc.qrf (d : BitVec 5) (a : BitVec 5) (x : BitVec 3) (b : BitVec 5) (y : BitVec 3) : Nat := 0x30000057 + at' 7 d.toNat + at' 12 a.toNat + at' 17 x.toNat + at' 20 b.toNat + at' 25 y.toNat
/-- The word of QRV_I (R413). -/
def Enc.qrvI (d : BitVec 5) (a : BitVec 5) (x : BitVec 3) (b : BitVec 5) (y : BitVec 3) : Nat := 0x40000057 + at' 7 d.toNat + at' 12 a.toNat + at' 17 x.toNat + at' 20 b.toNat + at' 25 y.toNat
/-- The word of QRV_D (R413). -/
def Enc.qrvD (d : BitVec 5) (a : BitVec 5) (x : BitVec 3) (b : BitVec 5) (y : BitVec 3) : Nat := 0xc0000057 + at' 7 d.toNat + at' 12 a.toNat + at' 17 x.toNat + at' 20 b.toNat + at' 25 y.toNat
/-- The word of CRD (R185). -/
def Enc.crd (d : BitVec 5) (i : BitVec 12) : Nat := 0x00000059 + at' 7 d.toNat + at' 17 i.toNat
/-- The word of CWR (R185). -/
def Enc.cwr (a : BitVec 5) (i : BitVec 12) : Nat := 0x20000059 + at' 12 a.toNat + at' 17 i.toNat
/-- The word of TRAP (R187). -/
def Enc.trap (i : BitVec 12) : Nat := 0x40000059 + at' 17 i.toNat
/-- The word of BRK (R187). -/
def Enc.brk (i : BitVec 12) : Nat := 0x60000059 + at' 17 i.toNat
/-- The word of RFT (R188). -/
def Enc.rft : Nat := 0x80000059
/-- The word of IDLE (R189). -/
def Enc.idle : Nat := 0xa0000059
/-- The word of DONE (R220). -/
def Enc.done : Nat := 0xc0000059
/-- The word of HALT (R221). -/
def Enc.halt : Nat := 0xe0000059
/-- The word of HALT_R (R221). -/
def Enc.haltR : Nat := 0xe0020059
/-- The word of C_MV (R60). -/
def Enc.cMv (d : BitVec 5) (a : BitVec 5) : Nat := 0x0002 + at' 5 d.toNat + at' 10 a.toNat
/-- The word of C_ADD (R60). -/
def Enc.cAdd (d : BitVec 5) (a : BitVec 5) : Nat := 0x0004 + at' 5 d.toNat + at' 10 a.toNat
/-- The word of C_ADDI (R60). -/
def Enc.cAddi (d : BitVec 5) (i : BitVec 6) : Nat := 0x0006 + at' 5 d.toNat + at' 10 i.toNat
/-- The word of C_SUB (R60). -/
def Enc.cSub (d : BitVec 5) (a : BitVec 5) : Nat := 0x0008 + at' 5 d.toNat + at' 10 a.toNat
/-- The word of C_AND (R60). -/
def Enc.cAnd (d : BitVec 5) (a : BitVec 5) : Nat := 0x000a + at' 5 d.toNat + at' 10 a.toNat
/-- The word of C_LI (R60). -/
def Enc.cLi (d : BitVec 5) (i : BitVec 6) : Nat := 0x000c + at' 5 d.toNat + at' 10 i.toNat
/-- The word of C_LD (R60). -/
def Enc.cLd (d : BitVec 5) (i : BitVec 6) : Nat := 0x000e + at' 5 d.toNat + at' 10 i.toNat
/-- The word of C_SD (R60). -/
def Enc.cSd (s : BitVec 5) (i : BitVec 6) : Nat := 0x0010 + at' 5 s.toNat + at' 10 i.toNat
/-- The word of C_LW (R60). -/
def Enc.cLw (d : BitVec 5) (i : BitVec 6) : Nat := 0x0012 + at' 5 d.toNat + at' 10 i.toNat
/-- The word of C_SW (R60). -/
def Enc.cSw (s : BitVec 5) (i : BitVec 6) : Nat := 0x0014 + at' 5 s.toNat + at' 10 i.toNat
/-- The word of C_SLLI (R60). -/
def Enc.cSlli (d : BitVec 5) (i : BitVec 6) : Nat := 0x0016 + at' 5 d.toNat + at' 10 i.toNat
/-- The word of C_SRLI (R60). -/
def Enc.cSrli (d : BitVec 5) (i : BitVec 6) : Nat := 0x0018 + at' 5 d.toNat + at' 10 i.toNat
/-- The word of C_J (R60). -/
def Enc.cJ (o : BitVec 11) : Nat := 0x001a + at' 5 o.toNat
/-- The word of C_BRQ (R60). -/
def Enc.cBrq (o : BitVec 11) : Nat := 0x001c + at' 5 o.toNat
/-- The word of C_RET (R60). -/
def Enc.cRet : Nat := 0x001e

/-- The word of an instruction, as a number; 0 for an event. -/
def encode : Instr → Nat
  | .add d a x b y => Enc.add d a x b y
  | .sub d a x b y => Enc.sub d a x b y
  | .and d a x b y => Enc.and d a x b y
  | .or d a x b y => Enc.or d a x b y
  | .xor d a x b y => Enc.xor d a x b y
  | .andn d a x b y => Enc.andn d a x b y
  | .orn d a x b y => Enc.orn d a x b y
  | .xnor d a x b y => Enc.xnor d a x b y
  | .sll d a x b y => Enc.sll d a x b y
  | .srl d a x b y => Enc.srl d a x b y
  | .sra d a x b y => Enc.sra d a x b y
  | .rol d a x b y => Enc.rol d a x b y
  | .ror d a x b y => Enc.ror d a x b y
  | .min d a x b y => Enc.min d a x b y
  | .max d a x b y => Enc.max d a x b y
  | .minu d a x b y => Enc.minu d a x b y
  | .maxu d a x b y => Enc.maxu d a x b y
  | .adds d a x b y => Enc.adds d a x b y
  | .subs d a x b y => Enc.subs d a x b y
  | .clz d a x => Enc.clz d a x
  | .ctz d a x => Enc.ctz d a x
  | .popc d a x => Enc.popc d a x
  | .brev d a x => Enc.brev d a x
  | .sxb d a x => Enc.sxb d a x
  | .sxh d a x => Enc.sxh d a x
  | .sxw d a x => Enc.sxw d a x
  | .zxb d a x => Enc.zxb d a x
  | .zxh d a x => Enc.zxh d a x
  | .zxw d a x => Enc.zxw d a x
  | .mul d a x b y => Enc.mul d a x b y
  | .mulh d a x b y => Enc.mulh d a x b y
  | .mulhu d a x b y => Enc.mulhu d a x b y
  | .div d a x b y => Enc.div d a x b y
  | .divu d a x b y => Enc.divu d a x b y
  | .rem d a x b y => Enc.rem d a x b y
  | .remu d a x b y => Enc.remu d a x b y
  | .addi d a x i => Enc.addi d a x i
  | .andi d a x i => Enc.andi d a x i
  | .ori d a x i => Enc.ori d a x i
  | .xori d a x i => Enc.xori d a x i
  | .slli d a x s => Enc.slli d a x s
  | .srli d a x s => Enc.srli d a x s
  | .srai d a x s => Enc.srai d a x s
  | .rori d a x s => Enc.rori d a x s
  | .upim d i => Enc.upim d i
  | .pcadd d i => Enc.pcadd d i
  | .ceq q a x b y => Enc.ceq q a x b y
  | .cne q a x b y => Enc.cne q a x b y
  | .clt q a x b y => Enc.clt q a x b y
  | .cltu q a x b y => Enc.cltu q a x b y
  | .cge q a x b y => Enc.cge q a x b y
  | .cgeu q a x b y => Enc.cgeu q a x b y
  | .qand q a x b y => Enc.qand q a x b y
  | .qor q a x b y => Enc.qor q a x b y
  | .qxor q a x b y => Enc.qxor q a x b y
  | .qnot q a x => Enc.qnot q a x
  | .ceqi q a x i => Enc.ceqi q a x i
  | .cnei q a x i => Enc.cnei q a x i
  | .clti q a x i => Enc.clti q a x i
  | .cltui q a x i => Enc.cltui q a x i
  | .cgei q a x i => Enc.cgei q a x i
  | .cgeui q a x i => Enc.cgeui q a x i
  | .br q s n o => Enc.br q s n o
  | .j o => Enc.j o
  | .jl o => Enc.jl o
  | .jr a x i => Enc.jr a x i
  | .jlr a x i => Enc.jlr a x i
  | .lset w m a b => Enc.lset w m a b
  | .loop c o => Enc.loop c o
  | .loops s o => Enc.loops s o
  | .leave n => Enc.leave n
  | .leaveq q s n => Enc.leaveq q s n
  | .lb d a x i => Enc.lb d a x i
  | .lbu d a x i => Enc.lbu d a x i
  | .lh d a x i => Enc.lh d a x i
  | .lhu d a x i => Enc.lhu d a x i
  | .lw d a x i => Enc.lw d a x i
  | .lwu d a x i => Enc.lwu d a x i
  | .ld d a x i => Enc.ld d a x i
  | .sb s a x i => Enc.sb s a x i
  | .sh s a x i => Enc.sh s a x i
  | .sw s a x i => Enc.sw s a x i
  | .sd s a x i => Enc.sd s a x i
  | .lxB d a x b y => Enc.lxB d a x b y
  | .lxBu d a x b y => Enc.lxBu d a x b y
  | .lxH d a x b y => Enc.lxH d a x b y
  | .lxHu d a x b y => Enc.lxHu d a x b y
  | .lxW d a x b y => Enc.lxW d a x b y
  | .lxWu d a x b y => Enc.lxWu d a x b y
  | .lxD d a x b y => Enc.lxD d a x b y
  | .sxB s a x b y => Enc.sxB s a x b y
  | .sxH s a x b y => Enc.sxH s a x b y
  | .sxW s a x b y => Enc.sxW s a x b y
  | .sxD s a x b y => Enc.sxD s a x b y
  | .flw d a x i => Enc.flw d a x i
  | .fsw s a x i => Enc.fsw s a x i
  | .vl d a x i => Enc.vl d a x i
  | .vs s a x i => Enc.vs s a x i
  | .vls d a x b m e => Enc.vls d a x b m e
  | .vss s a x b m e => Enc.vss s a x b m e
  | .vlg d a x b m e => Enc.vlg d a x b m e
  | .vsg s a x b m e => Enc.vsg s a x b m e
  | .fadd d a x b y => Enc.fadd d a x b y
  | .fsub d a x b y => Enc.fsub d a x b y
  | .fmul d a x b y => Enc.fmul d a x b y
  | .fdiv d a x b y => Enc.fdiv d a x b y
  | .fsqrt d a x => Enc.fsqrt d a x
  | .fmin d a x b y => Enc.fmin d a x b y
  | .fmax d a x b y => Enc.fmax d a x b y
  | .fabs d a x => Enc.fabs d a x
  | .fneg d a x => Enc.fneg d a x
  | .fma d a b c => Enc.fma d a b c
  | .fms d a b c => Enc.fms d a b c
  | .fnma d a b c => Enc.fnma d a b c
  | .fnms d a b c => Enc.fnms d a b c
  | .fcvti d a x r s => Enc.fcvti d a x r s
  | .fcvtf d a x r s => Enc.fcvtf d a x r s
  | .fcvtb d a x r s => Enc.fcvtb d a x r s
  | .fmvgf d a x => Enc.fmvgf d a x
  | .fmvfg d a x => Enc.fmvfg d a x
  | .fceq q a x b y => Enc.fceq q a x b y
  | .fclt q a x b y => Enc.fclt q a x b y
  | .fcle q a x b y => Enc.fcle q a x b y
  | .fclass d a x => Enc.fclass d a x
  | .vadd d a x b e => Enc.vadd d a x b e
  | .vsub d a x b e => Enc.vsub d a x b e
  | .vmul d a x b e => Enc.vmul d a x b e
  | .vmulh d a x b e => Enc.vmulh d a x b e
  | .vmin d a x b e => Enc.vmin d a x b e
  | .vmax d a x b e => Enc.vmax d a x b e
  | .vminu d a x b e => Enc.vminu d a x b e
  | .vmaxu d a x b e => Enc.vmaxu d a x b e
  | .vand d a x b e => Enc.vand d a x b e
  | .vor d a x b e => Enc.vor d a x b e
  | .vxor d a x b e => Enc.vxor d a x b e
  | .vsll d a x b e => Enc.vsll d a x b e
  | .vsrl d a x b e => Enc.vsrl d a x b e
  | .vsra d a x b e => Enc.vsra d a x b e
  | .vadds d a x b e => Enc.vadds d a x b e
  | .vsubs d a x b e => Enc.vsubs d a x b e
  | .vfadd d a x b e => Enc.vfadd d a x b e
  | .vfsub d a x b e => Enc.vfsub d a x b e
  | .vfmul d a x b e => Enc.vfmul d a x b e
  | .vfdiv d a x b e => Enc.vfdiv d a x b e
  | .vfmin d a x b e => Enc.vfmin d a x b e
  | .vfmax d a x b e => Enc.vfmax d a x b e
  | .vfexp2 d a x e => Enc.vfexp2 d a x e
  | .vfrcp d a x e => Enc.vfrcp d a x e
  | .vfrsq d a x e => Enc.vfrsq d a x e
  | .vfabs d a x e => Enc.vfabs d a x e
  | .vfneg d a x e => Enc.vfneg d a x e
  | .vfmaS d a b c => Enc.vfmaS d a b c
  | .vfmaBf d a b c => Enc.vfmaBf d a b c
  | .vfmsS d a b c => Enc.vfmsS d a b c
  | .vfmsBf d a b c => Enc.vfmsBf d a b c
  | .vselB d a b c => Enc.vselB d a b c
  | .vselH d a b c => Enc.vselH d a b c
  | .vselW d a b c => Enc.vselW d a b c
  | .vselD d a b c => Enc.vselD d a b c
  | .vrsum d a x b e => Enc.vrsum d a x b e
  | .vrmax d a x b e => Enc.vrmax d a x b e
  | .vrmin d a x b e => Enc.vrmin d a x b e
  | .vperm d a x b e => Enc.vperm d a x b e
  | .vbcast d a x b e => Enc.vbcast d a x b e
  | .vsplat d a x e => Enc.vsplat d a x e
  | .vcvtBfS d a x b r => Enc.vcvtBfS d a x b r
  | .vcvtSBf d a x => Enc.vcvtSBf d a x
  | .vcvtHfS d a x b r => Enc.vcvtHfS d a x b r
  | .vcvtSHf d a x => Enc.vcvtSHf d a x
  | .vcvtI32S d a x b r => Enc.vcvtI32S d a x b r
  | .vcvtSI32 d a x b r => Enc.vcvtSI32 d a x b r
  | .vcvtI8S d a x b r => Enc.vcvtI8S d a x b r
  | .vcvtSI8 d a x => Enc.vcvtSI8 d a x
  | .vcvtHfBf d a x b r => Enc.vcvtHfBf d a x b r
  | .vcvtBfHf d a x b r => Enc.vcvtBfHf d a x b r
  | .vpackmx d a x s t => Enc.vpackmx d a x s t
  | .vunpkmx d a x t => Enc.vunpkmx d a x t
  | .mand d a x b y => Enc.mand d a x b y
  | .mor d a x b y => Enc.mor d a x b y
  | .mxor d a x b y => Enc.mxor d a x b y
  | .mnot d a x => Enc.mnot d a x
  | .mpop d a x => Enc.mpop d a x
  | .mfirst d a x => Enc.mfirst d a x
  | .vfcmpEq m a x b e => Enc.vfcmpEq m a x b e
  | .vfcmpLt m a x b e => Enc.vfcmpLt m a x b e
  | .vcmpEq m a x b e => Enc.vcmpEq m a x b e
  | .vcmpNe m a x b e => Enc.vcmpNe m a x b e
  | .vcmpLt m a x b e => Enc.vcmpLt m a x b e
  | .vcmpLtu m a x b e => Enc.vcmpLtu m a x b e
  | .vcmpGe m a x b e => Enc.vcmpGe m a x b e
  | .vcmpGeu m a x b e => Enc.vcmpGeu m a x b e
  | .vfcmpLe m a x b e => Enc.vfcmpLe m a x b e
  | .chwaitf c n => Enc.chwaitf c n
  | .chwaite c n => Enc.chwaite c n
  | .chadvc c n => Enc.chadvc c n
  | .chadvp c n => Enc.chadvp c n
  | .chst s c u => Enc.chst s c u
  | .chaddr d c u => Enc.chaddr d c u
  | .send n a c => Enc.send n a c
  | .put s a c => Enc.put s a c
  | .get s a b => Enc.get s a b
  | .window k g => Enc.window k g
  | .bdef i k a x b y => Enc.bdef i k a x b y
  | .badd a x b y => Enc.badd a x b y
  | .band a x b y => Enc.band a x b y
  | .bor a x b y => Enc.bor a x b y
  | .bxor a x b y => Enc.bxor a x b y
  | .bmin u a x b y => Enc.bmin u a x b y
  | .bmax u a x b y => Enc.bmax u a x b y
  | .bfxa f a x b y => Enc.bfxa f a x b y
  | .bminf a x b y => Enc.bminf a x b y
  | .bmaxf a x b y => Enc.bmaxf a x b y
  | .bvsa e a x b y => Enc.bvsa e a x b y
  | .brd d a x o => Enc.brd d a x o
  | .swdef a x b y => Enc.swdef a x b y
  | .arrive s a x => Enc.arrive s a x
  | .swait s a x b y => Enc.swait s a x b y
  | .fence s => Enc.fence s
  | .flushas a x => Enc.flushas a x
  | .drain => Enc.drain
  | .xfer d a => Enc.xfer d a
  | .xferq d a => Enc.xferq d a
  | .xwait a k => Enc.xwait a k
  | .xstat d k => Enc.xstat d k
  | .cwld a v b => Enc.cwld a v b
  | .cwlds a v b => Enc.cwlds a v b
  | .cwswap => Enc.cwswap
  | .czclr z => Enc.czclr z
  | .czwait l z => Enc.czwait l z
  | .czout a b z => Enc.czout a b z
  | .czld a b z => Enc.czld a b z
  | .cmmaBf a f s z => Enc.cmmaBf a f s z
  | .cmmaHf a f s z => Enc.cmmaHf a f s z
  | .cmmaI8 a f s z => Enc.cmmaI8 a f s z
  | .cmmaE4e4 a f s z => Enc.cmmaE4e4 a f s z
  | .cmmaE4e5 a f s z => Enc.cmmaE4e5 a f s z
  | .cmmaE5e4 a f s z => Enc.cmmaE5e4 a f s z
  | .cmmaE5e5 a f s z => Enc.cmmaE5e5 a f s z
  | .cmmaF6a a f s z => Enc.cmmaF6a a f s z
  | .cmmaF6b a f s z => Enc.cmmaF6b a f s z
  | .cmmaF6ab a f s z => Enc.cmmaF6ab a f s z
  | .cmmaMxf4 a f s z => Enc.cmmaMxf4 a f s z
  | .cmmaKf4 a f s z => Enc.cmmaKf4 a f s z
  | .cmmaE4kf4 a f s z => Enc.cmmaE4kf4 a f s z
  | .cmmaMxi8 a f s z => Enc.cmmaMxi8 a f s z
  | .kvopen a b => Enc.kvopen a b
  | .kvapp h a b c p => Enc.kvapp h a b c p
  | .kvqry a b c => Enc.kvqry a b c
  | .kvseal a => Enc.kvseal a
  | .kvstat d a => Enc.kvstat d a
  | .kvdrop a => Enc.kvdrop a
  | .kvdropGrant a b => Enc.kvdropGrant a b
  | .kvdropRevoke a => Enc.kvdropRevoke a
  | .qrld a x b y => Enc.qrld a x b y
  | .qrseed a x b y => Enc.qrseed a x b y
  | .qri d a x b y => Enc.qri d a x b y
  | .qrf d a x b y => Enc.qrf d a x b y
  | .qrvI d a x b y => Enc.qrvI d a x b y
  | .qrvD d a x b y => Enc.qrvD d a x b y
  | .crd d i => Enc.crd d i
  | .cwr a i => Enc.cwr a i
  | .trap i => Enc.trap i
  | .brk i => Enc.brk i
  | .rft => Enc.rft
  | .idle => Enc.idle
  | .done => Enc.done
  | .halt => Enc.halt
  | .haltR => Enc.haltR
  | .cMv d a => Enc.cMv d a
  | .cAdd d a => Enc.cAdd d a
  | .cAddi d i => Enc.cAddi d i
  | .cSub d a => Enc.cSub d a
  | .cAnd d a => Enc.cAnd d a
  | .cLi d i => Enc.cLi d i
  | .cLd d i => Enc.cLd d i
  | .cSd s i => Enc.cSd s i
  | .cLw d i => Enc.cLw d i
  | .cSw s i => Enc.cSw s i
  | .cSlli d i => Enc.cSlli d i
  | .cSrli d i => Enc.cSrli d i
  | .cJ o => Enc.cJ o
  | .cBrq o => Enc.cBrq o
  | .cRet => Enc.cRet
  | .interruptEntry => 0
  | .timerExpiry _ => 0
  | .idleWake _ _ => 0
  | .slipSchedule _ => 0
  | .slipInputsSuffice _ _ => 0
  | .waitSatisfied _ _ => 0
  | .haltDrainComplete _ _ => 0
  | .handlerOverrun => 0
  | .itemArrival _ => 0
  | .getReplyArrival _ => 0
  | .closeMarkerArrival _ _ => 0
  | .windowComplete _ _ => 0
  | .launchArrival _ => 0
  | .advanceNoticeArrival _ => 0
  | .freeNoticeArrival _ => 0
  | .ackArrival _ => 0
  | .busyResend _ => 0
  | .arrivalDelivery _ => 0
  | .copyStart _ => 0
  | .copyLanding _ => 0
  | .copyComplete _ => 0
  | .craneDispatch _ => 0
  | .craneCommand _ => 0
  | .bankOpApply _ => 0
  | .pageService _ => 0
  | .pageServiceComplete _ _ _ => 0
  | .migration _ _ _ => 0
  | .kvAppendApply _ => 0
  | .kvQueryResolve _ => 0
  | .tripleLanding _ => 0
  | .kvPageRecall _ => 0
  | .regionSelect _ => 0
  | .regionBind _ _ _ => 0
  | .preempt _ _ => 0
  | .preemptForce _ _ => 0
  | .regionSuspend _ _ => 0
  | .victimBankClaim _ _ => 0
  | .faultDomainStop => 0
  | .rollback => 0
  | .retentionEntry _ => 0
  | .retentionExit _ => 0
  | .tcmpWrite _ _ => 0
  | .ipendWrite _ _ => 0
  | .qrctlWrite _ => 0
  | .fdstopWrite _ => 0
  | .serrlogWrite _ _ => 0
  | .kverrWrite _ _ _ => 0
  | .plstatClr _ _ _ => 0
  | .registerWrite _ _ _ => 0
  | .doorbell _ _ _ => 0
  | .qctlEnable _ _ _ => 0
  | .qctlRestart _ _ => 0
  | .evctlWrite _ _ => 0
  | .evheadWrite _ _ => 0
  | .evstatWrite _ _ => 0
  | .resync _ _ => 0
  | .resyncComplete _ => 0
  | .packetStart _ _ => 0
  | .ldp _ _ => 0
  | .ldi _ _ => 0
  | .movi _ _ => 0
  | .pilotAdd _ _ => 0
  | .pilotAnd _ _ => 0
  | .shr _ _ => 0
  | .pilotBeq _ _ => 0
  | .loopn _ _ => 0
  | .pilotLaunch _ _ => 0
  | .regopReady _ _ => 0
  | .regopPrio _ _ => 0
  | .regopArgs _ _ => 0
  | .waitr _ _ => 0
  | .pilotEvent _ _ => 0
  | .fail _ _ => 0
  | .haltp _ _ => 0
  | .pilotWaitResume _ _ => 0
  | .takeover _ => 0
  | .evpush _ _ => 0
  | .dbkick _ _ => 0
  | .dbpendWrite _ _ _ => 0
  | .cbstatWrite _ _ => 0
  | .flitReceive _ _ _ => 0
  | .portRetrain _ _ _ => 0
  | .portDown _ _ => 0
  | .exchangeLineSend _ _ => 0
  | .exchangeLineReceive _ => 0
  | .transferRecordReceive _ => 0
  | .powerGood _ => 0
  | .phaseComplete _ _ => 0
  | .phaseTimeout _ => 0
  | .monitorReading _ _ _ => 0
  | .pwrcapLower _ => 0
  | .pwrcapRaise _ => 0
  | .getCertificate _ => 0
  | .challenge _ _ => 0
  | .getMeasurements _ => 0
  | .pldmSensorRead _ _ => 0
  | .pldmFirmwareUpdate _ _ => 0
  | .objectLoad _ _ _ _ => 0
  | .containerLoad _ _ _ => 0
  | .illegalInstruction _ _ => 0
  | .fetchFault => 0
  | .chstLanding _ => 0
  | .regionResume _ _ => 0
  | .regionReclaim _ _ => 0
  | .kvPageMove _ => 0
  | .lostFrameRetransmit _ => 0
  | .containerWrite _ _ _ => 0

/-- The bytes of an instruction's word, as memory holds them (R3, R39). -/
def encodeBytes (i : Instr) : List Byte := leBytes i.len (encode i)

end Sys2Proof
end

