-- ==== Sys2Proof/Config.lean ====
section
/-! DEFINITION. What the spec leaves open: free values, uninterpreted constants that nothing can evaluate (assumption log 4),
and the constants an implementation fixes. -/
namespace Sys2Proof.Config

/-- The n-th free 64-bit value. -/
opaque freeWord : Nat → Word
/-- The n-th free 32-bit value. -/
opaque freeW32 : Nat → W32
/-- The n-th free 512-bit value. -/
opaque freeWide : Nat → Wide
/-- The n-th free byte. -/
opaque freeByte : Nat → Byte

/-- The CRC of a flit over its first 248 bytes: R454 gives its size and no polynomial (log 111). -/
opaque flitCrc : List Byte → Word

/-- Code words of the DRAM and of the CXL tier have 8, 16, 32 or 64 bytes, by this number modulo 4: R439 leaves an array's own code word
to the array (log 105). -/
opaque dramCode : Nat

/-- The berth numbers on die 0 of control berths 0 and 1 (R452); DESIGN CHOICE, log 10. -/
def controlBerth (k : Nat) : Nat := k

/-- The bytes of a public key of a modulus, whose SHA-256 the fuses hold for the firmware key (R491). -/
opaque keyBytes : Nat → List Byte

end Sys2Proof.Config
end

