-- ==== Sys2Proof/Machine/Fp.lean ====
section
/-! DEFINITION. Number formats, exact values, rounding and events (spec/03 R67 to R87, R92, R93). -/
namespace Sys2Proof.Machine
open Sys2Proof

/-- The kinds of arithmetic event of R93, as counts. -/
structure Ev where
  nan : Nat := 0
  ovf : Nat := 0
  sat : Nat := 0
  nscale : Nat := 0
  udf : Nat := 0
  deriving DecidableEq, Repr

namespace Ev
def zero : Ev := {}
def add (a b : Ev) : Ev :=
  { nan := a.nan + b.nan, ovf := a.ovf + b.ovf, sat := a.sat + b.sat, nscale := a.nscale + b.nscale, udf := a.udf + b.udf }
/-- At most one of each kind for one element (R93). -/
def once (a : Ev) : Ev :=
  { nan := min a.nan 1, ovf := min a.ovf 1, sat := min a.sat 1, nscale := min a.nscale 1, udf := min a.udf 1 }
def oneNan : Ev := { nan := 1 }
def oneOvf : Ev := { ovf := 1 }
def oneSat : Ev := { sat := 1 }
def oneNScale : Ev := { nscale := 1 }
def sum (l : List Ev) : Ev := l.foldl Ev.add {}
end Ev

/-- The binary floating-point formats of R69 and R72. -/
inductive Fmt where
  | fp32 | fp16 | bf16 | fs24 | e4m3 | e5m2 | e3m2 | e2m3 | e2m1
  deriving DecidableEq, Repr

namespace Fmt
def width : Fmt → Nat
  | fp32 => 32 | fp16 => 16 | bf16 => 16 | fs24 => 24 | e4m3 => 8 | e5m2 => 8 | e3m2 => 6 | e2m3 => 6 | e2m1 => 4
/-- Mantissa bits. -/
def mbits : Fmt → Nat
  | fp32 => 23 | fp16 => 10 | bf16 => 7 | fs24 => 15 | e4m3 => 3 | e5m2 => 2 | e3m2 => 2 | e2m3 => 3 | e2m1 => 1
def bias : Fmt → Nat
  | fp32 => 127 | fp16 => 15 | bf16 => 127 | fs24 => 127 | e4m3 => 7 | e5m2 => 15 | e3m2 => 3 | e2m3 => 1 | e2m1 => 1
/-- The magnitude code of the largest finite value. -/
def maxCode : Fmt → Nat
  | fp32 => 0x7F7FFFFF | fp16 => 0x7BFF | bf16 => 0x7F7F | fs24 => 0x7F7FFF | e4m3 => 0x7E | e5m2 => 0x7B
  | e3m2 => 0x1F | e2m3 => 0x1F | e2m1 => 0x7
/-- The magnitude code of infinity, where the format has one. -/
def infCode : Fmt → Option Nat
  | fp32 => some 0x7F800000 | fp16 => some 0x7C00 | bf16 => some 0x7F80 | fs24 => some 0x7F8000 | e5m2 => some 0x7C
  | e4m3 => none | e3m2 => none | e2m3 => none | e2m1 => none
/-- CanonNaN of R80; for a format with no NaN, code 0 (the packing instruction sets the scale instead). -/
def canonNaN : Fmt → Nat
  | fp32 => 0x7FC00000 | fp16 => 0x7E00 | bf16 => 0x7FC0 | fs24 => 0x7FC000 | e4m3 => 0x7F | e5m2 => 0x7E
  | e3m2 => 0 | e2m3 => 0 | e2m1 => 0
/-- emax of R72. -/
def emax : Fmt → Nat
  | e4m3 => 8 | e5m2 => 15 | e3m2 => 4 | e2m3 => 2 | e2m1 => 2 | fp32 => 127 | fp16 => 15 | bf16 => 127 | fs24 => 127
end Fmt

/-- An exact value: NaN, an infinity, or ±n·2^e; with sticky, a magnitude strictly between n·2^e and (n+1)·2^e. -/
inductive Val where
  | nan
  | inf (neg : Bool)
  | fin (neg : Bool) (n : Nat) (e : Int) (sticky : Bool)
  deriving DecidableEq, Repr

namespace Val
def zero (neg : Bool) : Val := .fin neg 0 0 false
def ofInt (i : Int) : Val := .fin (decide (i < 0)) i.natAbs 0 false
def isNaN : Val → Bool
  | .nan => true
  | _ => false
def isInf : Val → Bool
  | .inf _ => true
  | _ => false
def isZero : Val → Bool
  | .fin _ n _ st => n == 0 && !st
  | _ => false
def neg : Val → Val
  | .nan => .nan
  | .inf s => .inf (!s)
  | .fin s n e st => .fin (!s) n e st
def isNeg : Val → Bool
  | .nan => false
  | .inf s => s
  | .fin s _ _ _ => s
/-- The value times 2^k. -/
def scale (v : Val) (k : Int) : Val :=
  match v with
  | .fin s n e st => .fin s n (e + k) st
  | w => w
end Val

/-- Shift a natural number left by an integer amount (right when negative). -/
def shiftInt (n : Nat) (k : Int) : Nat := if 0 ≤ k then n <<< k.toNat else n >>> (-k).toNat

/-- Exact(fmt, bits) of R92, by R69 and R72. -/
def exact (f : Fmt) (bits : Nat) : Val :=
  let s := bitOf bits (f.width - 1)
  let mag := bits % (1 <<< (f.width - 1))
  let m := mag % (1 <<< f.mbits)
  let e := mag >>> f.mbits
  if f.infCode = some mag then .inf s
  else if mag > f.maxCode then .nan
  else if e = 0 then .fin s m (1 - Int.ofNat f.bias - Int.ofNat f.mbits) false
  else .fin s (m + 1 <<< f.mbits) (Int.ofNat e - Int.ofNat f.bias - Int.ofNat f.mbits) false

/-- Rounding modes of R78. -/
inductive Rm where
  | ne | rz | up | down | sr
  deriving DecidableEq, Repr

/-- Does the mode round a magnitude t·quantum plus rem/2^sh of a quantum (plus something when sticky) away from zero (R78)? -/
def roundsUp (rm : Rm) (neg : Bool) (t rem sh : Nat) (sticky : Bool) (rb : Nat) : Bool :=
  let inexact := rem != 0 || sticky
  let half := (1 <<< sh) / 2
  match rm with
  | .ne => if sh = 0 then false else decide (rem > half) || (rem == half && (sticky || t % 2 == 1))
  | .rz => false
  | .up => inexact && !neg
  | .down => inexact && neg
  | .sr => decide (rem <<< 16 > rb <<< sh) || (rem <<< 16 == rb <<< sh && sticky)

/-- A magnitude n·2^e cut at quantum 2^q: the integer part, the remainder, its width, and whether the cut is inexact. -/
def cutAt (n : Nat) (e q : Int) : Nat × Nat × Nat :=
  if q ≤ e then (n <<< (e - q).toNat, 0, 0)
  else let sh := (q - e).toNat; (n >>> sh, n % (1 <<< sh), sh)

/-- The code of a sign and a magnitude code. -/
def signCode (f : Fmt) (neg : Bool) (mag : Nat) : Nat := mag + withBit neg (f.width - 1)

/-- The result beyond the largest finite value, and its event: a clamp to the largest finite value is a saturation, whatever sat says
(R79); away says that the rounding went away from zero. -/
def overflowed (f : Fmt) (neg : Bool) (rm : Rm) (sat away : Bool) : Nat × Ev :=
  match f.infCode with
  | some ic =>
    if sat then (signCode f neg f.maxCode, Ev.oneSat)
    else
      let toInf := match rm with
        | .ne => true
        | .rz => false
        | .up => !neg
        | .down => neg
        | .sr => away
      if toInf then (signCode f neg ic, Ev.oneOvf) else (signCode f neg f.maxCode, Ev.oneSat)
  | none =>
    match f with
    | .e4m3 => if sat then (signCode f neg f.maxCode, Ev.oneSat) else (f.canonNaN, Ev.oneOvf)
    | _ => (signCode f neg f.maxCode, Ev.oneSat)

/-- Is a value tiny after rounding (R71): rounded to the format's precision with no bound on the exponent, does its magnitude stay
below the smallest normal value? own is the quantum of its own exponent, qmin that of the subnormals. -/
def isTiny (f : Fmt) (neg : Bool) (rm : Rm) (n : Nat) (e own qmin : Int) (st : Bool) (rb : Nat) : Bool :=
  let (t, rem, sh) := cutAt n e own
  let t' := if roundsUp rm neg t rem sh st rb then t + 1 else t
  decide (t' < 1 <<< (f.mbits + (qmin - own).toNat))

/-- Round(x, fmt, rm, sat, rb) of R78 to R80, with its events (R71, R79, R93). -/
def roundTo (f : Fmt) (rm : Rm) (sat : Bool) (rb : Nat) (v : Val) : Nat × Ev :=
  match v with
  | .nan => (f.canonNaN, Ev.oneNan)
  | .inf s =>
    match f.infCode with
    | some ic => if sat then (signCode f s f.maxCode, Ev.oneSat) else (signCode f s ic, {})
    | none => overflowed f s rm sat true
  | .fin s n e st =>
    if n = 0 && !st then (signCode f s 0, {})
    else
      let qmin : Int := 1 - Int.ofNat f.bias - Int.ofNat f.mbits
      let qtop : Int := qmin + Int.ofNat (f.maxCode >>> f.mbits) - 1
      let own : Int := Int.ofNat n.log2 + e - Int.ofNat f.mbits
      let q : Int := min (max own qmin) qtop
      let (t, rem, sh) := cutAt n e q
      let away := roundsUp rm s t rem sh st rb
      let t' := if away then t + 1 else t
      let mag := ((q - qmin).toNat <<< f.mbits) + t'
      if mag > f.maxCode then overflowed f s rm sat away
      else
        (signCode f s mag, { udf := b2n ((rem != 0 || st) && decide (own < qmin) && isTiny f s rm n e own qmin st rb) })

/-- RoundNE of R92. -/
def roundNE (f : Fmt) (v : Val) : Nat × Ev := roundTo f .ne false 0 v

/-- Sat of R68 on a signed n-bit range. -/
def satS (x : Int) (n : Nat) : Int × Bool :=
  let hi : Int := Int.ofNat (1 <<< (n - 1)) - 1
  let lo : Int := -Int.ofNat (1 <<< (n - 1))
  if x > hi then (hi, true) else if x < lo then (lo, true) else (x, false)

/-- The integer nearest a value under a mode; the value is finite. -/
def roundInt (rm : Rm) (neg : Bool) (n : Nat) (e : Int) (st : Bool) (rb : Nat) : Int :=
  let (t, rem, sh) := cutAt n e 0
  let t' := if roundsUp rm neg t rem sh st rb then t + 1 else t
  if neg then -Int.ofNat t' else Int.ofNat t'

/-- Round to a signed integer of n bits (R79, R80). -/
def roundToInt (n : Nat) (rm : Rm) (sat : Bool) (rb : Nat) (v : Val) : Int × Ev :=
  let lo : Int := -Int.ofNat (1 <<< (n - 1))
  let hi : Int := Int.ofNat (1 <<< (n - 1)) - 1
  match v with
  | .nan => (if sat then 0 else lo, Ev.oneNan)
  | .inf s => if sat then (if s then lo else hi, Ev.oneSat) else (lo, Ev.oneOvf)
  | .fin s m e st =>
    let i := roundInt rm s m e st rb
    if lo ≤ i ∧ i ≤ hi then (i, {})
    else if sat then ((satS i n).1, Ev.oneSat) else (lo, Ev.oneOvf)

/-- Round to MXINT8 (R72, R79): k·2^-6 with k clamped at ±127; a NaN never reaches it (R77). -/
def roundMxInt8 (v : Val) : Nat × Ev :=
  match v with
  | .nan => (0, Ev.oneNan)
  | .inf s => (if s then 0x81 else 0x7F, Ev.oneSat)
  | .fin s m e st =>
    let i := roundInt .ne s m (e + 6) st 0
    if i > 127 then (0x7F, Ev.oneSat) else if i < -127 then (0x81, Ev.oneSat)
    else ((BitVec.ofInt 8 i).toNat, {})

/-- The exact value of an MXINT8 code (R72). -/
def exactMxInt8 (code : Nat) : Val := (Val.ofInt (sext code 8)).scale (-6)

/-- The exact value of an E8M0 scale (R73). -/
def exactE8 (x : Nat) : Val := if x % 256 = 255 then .nan else .fin false 1 (Int.ofNat (x % 256) - 127) false

/-- The exact value of an E3M5 microscale (R75). -/
def exactE3M5 (c : Nat) : Val :=
  let c := c % 256
  let e := c >>> 5
  let m := c % 32
  if c = 255 then .nan else if e = 0 then .fin false m (-7) false else .fin false (32 + m) (Int.ofNat e - 8) false

/-- FS24ToFP32 of R70. -/
def fs24ToFp32 (v : Nat) : Nat := (v % (1 <<< 24)) <<< 8

/-! ### Exact operations (R82) -/

/-- Compare two magnitudes n1·2^e1 and n2·2^e2. -/
def cmpMag (n1 : Nat) (e1 : Int) (n2 : Nat) (e2 : Int) : Ordering :=
  let e := min e1 e2
  compare (n1 <<< (e1 - e).toNat) (n2 <<< (e2 - e).toNat)

/-- The signed integer of a finite value over 2^e. -/
def signedAt (s : Bool) (n : Nat) (e' e : Int) : Int :=
  let m : Int := Int.ofNat (n <<< (e' - e).toNat)
  if s then -m else m

/-- Exact sum; the operands are exact (not sticky). -/
def vadd (a b : Val) : Val :=
  match a, b with
  | .nan, _ => .nan
  | _, .nan => .nan
  | .inf s, .inf t => if s = t then .inf s else .nan
  | .inf s, .fin _ _ _ _ => .inf s
  | .fin _ _ _ _, .inf t => .inf t
  | .fin s n e _, .fin t m f _ =>
    if n = 0 ∧ m = 0 then Val.zero (s && t)
    else
      let g := min e f
      let x := signedAt s n e g + signedAt t m f g
      .fin (decide (x < 0)) x.natAbs g false

/-- Exact product; the operands are exact. -/
def vmul (a b : Val) : Val :=
  match a, b with
  | .nan, _ => .nan
  | _, .nan => .nan
  | .inf s, .inf t => .inf (xor s t)
  | .inf s, .fin t n _ _ => if n = 0 then .nan else .inf (xor s t)
  | .fin s n _ _, .inf t => if n = 0 then .nan else .inf (xor s t)
  | .fin s n e _, .fin t m f _ => .fin (xor s t) (n * m) (e + f) false

def vsub (a b : Val) : Val := vadd a b.neg

/-- Quotient bits kept beyond the operands: enough for every format and for stochastic rounding. -/
def guardBits : Nat := 128

/-- a / b (R82): the value, and whether it divided a finite nonzero value by zero. -/
def vdiv (a b : Val) : Val × Bool :=
  match a, b with
  | .nan, _ => (.nan, false)
  | _, .nan => (.nan, false)
  | .inf _, .inf _ => (.nan, false)
  | .inf s, .fin t _ _ _ => (.inf (xor s t), false)
  | .fin s _ _ _, .inf t => (Val.zero (xor s t), false)
  | .fin s n e _, .fin t m f _ =>
    if m = 0 then (if n = 0 then (.nan, false) else (.inf (xor s t), true))
    else
      let k := guardBits + m.log2 + 1
      let q := (n <<< k) / m
      (.fin (xor s t) q (e - f - Int.ofNat k) (decide ((n <<< k) % m ≠ 0)), false)

/-- Integer square root, bit by bit from bit i − 1 down. -/
def isqrtLoop (n : Nat) : Nat → Nat → Nat
  | 0, r => r
  | i + 1, r => let c := r + (1 <<< i); if c * c ≤ n then isqrtLoop n i c else isqrtLoop n i r

/-- ⌊√n⌋. -/
def isqrt (n : Nat) : Nat := isqrtLoop n (n.log2 / 2 + 1) 0

/-- √a (R82). -/
def vsqrt (a : Val) : Val :=
  match a with
  | .nan => .nan
  | .inf s => if s then .nan else .inf false
  | .fin s n e _ =>
    if n = 0 then Val.zero s
    else if s then .nan
    else
      let odd := e % 2 ≠ 0
      let n1 := if odd then n <<< 1 else n
      let e1 := if odd then e - 1 else e
      let n2 := n1 <<< guardBits
      let r := isqrt n2
      .fin false r (e1 / 2 - Int.ofNat (guardBits / 2)) (decide (r * r ≠ n2))

/-- 1/√a (R83). The flag says that a zero operand gave an infinity. -/
def vrsqrt (a : Val) : Val × Bool :=
  match a with
  | .nan => (.nan, false)
  | .inf s => if s then (.nan, false) else (Val.zero false, false)
  | .fin s n e _ =>
    if n = 0 then (.inf s, true)
    else if s then (.nan, false)
    else
      let odd := e % 2 ≠ 0
      let n1 := if odd then n <<< 1 else n
      let e1 := if odd then e - 1 else e
      let k := 2 * (guardBits + n1.log2)
      let r := isqrt ((1 <<< k) / n1)
      (.fin false r (-(e1 / 2) - Int.ofNat (k / 2)) (decide (r * r * n1 ≠ 1 <<< k)), false)

/-- Fraction bits of the fixed-point evaluation of 2^f. -/
def expBits : Nat := 256

/-- ln 2 × 2^256, rounded down. -/
def ln2Fixed : Nat := 0xb17217f7d1cf79abc9e3b39803f2f6af40f343267298b62d8a0d175b8baafa2b

/-- The Taylor sum of e^t in fixed point: k terms left, next index i, current term, sum so far. -/
def expSeries (t : Nat) : Nat → Nat → Nat → Nat → Nat
  | 0, _, _, acc => acc
  | k + 1, i, term, acc =>
    let term' := (term * t) >>> expBits / i
    expSeries t k (i + 1) term' (acc + term')

/-- 2^x (R83). The flag says that a large finite x gave +∞. A result that is no power of two is irrational, so it is
never representable nor a tie; the fixed-point sum carries 240 correct bits (assumption log 20). -/
def vexp2 (x : Val) : Val × Bool :=
  match x with
  | .nan => (.nan, false)
  | .inf s => (if s then Val.zero false else .inf false, false)
  | .fin s n e _ =>
    if n = 0 then (.fin false 1 0 false, false)
    else if Int.ofNat n.log2 + e ≥ 16 then (if s then (.fin false 1 (-70000) false, false) else (.fin false 1 70000 false, true))
    else if Int.ofNat n.log2 + e < -200 then
      -- 2^x lies within 2^-200 of 1, on the side of x's sign
      (if s then .fin false ((1 <<< 240) - 1) (-240) true else .fin false (1 <<< 240) (-240) true, false)
    else
      let mag : Int := Int.ofNat (shiftInt n (e + Int.ofNat expBits))
      let fx : Int := if s then -mag else mag
      let i := fx / Int.ofNat (1 <<< expBits)
      let fr := (fx % Int.ofNat (1 <<< expBits)).toNat
      if fr = 0 then (.fin false 1 i false, false)
      else
        let t := (fr * ln2Fixed) >>> expBits
        let y := expSeries t 80 1 (1 <<< expBits) (1 <<< expBits)
        (.fin false (y >>> 16) (i - Int.ofNat (expBits - 16)) true, false)

/-- Order of two values that are not NaN; −0 equals +0 (R82). -/
def vcompare (a b : Val) : Option Ordering :=
  match a, b with
  | .nan, _ => none
  | _, .nan => none
  | .inf s, .inf t => some (if s = t then .eq else if s then .lt else .gt)
  | .inf s, .fin _ _ _ _ => some (if s then .lt else .gt)
  | .fin _ _ _ _, .inf t => some (if t then .gt else .lt)
  | .fin s n e _, .fin t m f _ =>
    let g := min e f
    some (compare (signedAt s n e g) (signedAt t m f g))

/-- FEQ, FLT, FLE of R82: any relation with a NaN is false. -/
def veq (a b : Val) : Bool := vcompare a b == some .eq
def vlt (a b : Val) : Bool := vcompare a b == some .lt
def vle (a b : Val) : Bool := vcompare a b == some .lt || vcompare a b == some .eq

/-! ### Format-level operations: bit codes in, bit codes and events out -/

def fpAdd (f : Fmt) (a b : Nat) : Nat × Ev := roundNE f (vadd (exact f a) (exact f b))
def fpSub (f : Fmt) (a b : Nat) : Nat × Ev := roundNE f (vsub (exact f a) (exact f b))
def fpMul (f : Fmt) (a b : Nat) : Nat × Ev := roundNE f (vmul (exact f a) (exact f b))

/-- Fused ±(a·b) ± c with one rounding (R82, R127). -/
def fpFma (f : Fmt) (negP negC : Bool) (a b c : Nat) : Nat × Ev :=
  let p := vmul (exact f a) (exact f b)
  let p' := if negP then p.neg else p
  let c' := if negC then (exact f c).neg else exact f c
  roundNE f (vadd p' c')

/-- Add the one overflow event of an infinity made from a finite operand (R82, R83). -/
def withZeroDiv (z : Bool) (r : Nat × Ev) : Nat × Ev := if z then (r.1, r.2.add Ev.oneOvf) else r

def fpDiv (f : Fmt) (a b : Nat) : Nat × Ev :=
  let r := vdiv (exact f a) (exact f b)
  withZeroDiv r.2 (roundNE f r.1)

def fpSqrt (f : Fmt) (a : Nat) : Nat × Ev := roundNE f (vsqrt (exact f a))

def fpRcp (f : Fmt) (a : Nat) : Nat × Ev :=
  let r := vdiv (.fin false 1 0 false) (exact f a)
  withZeroDiv r.2 (roundNE f r.1)

def fpRsq (f : Fmt) (a : Nat) : Nat × Ev :=
  let r := vrsqrt (exact f a)
  withZeroDiv r.2 (roundNE f r.1)

def fpExp2 (f : Fmt) (a : Nat) : Nat × Ev := roundNE f (vexp2 (exact f a)).1

/-- FMIN and FMAX of R82: one NaN gives the other operand, two give the canonical NaN, −0 lies below +0. -/
def fpMinMax (f : Fmt) (wantMax : Bool) (a b : Nat) : Nat × Ev :=
  let x := exact f a
  let y := exact f b
  if x.isNaN && y.isNaN then (f.canonNaN, Ev.oneNan)
  else if x.isNaN then (b, {})
  else if y.isNaN then (a, {})
  else
    let aLess := vlt x y || (veq x y && x.isNeg && !y.isNeg)
    ((if aLess = wantMax then b else a), {})

/-- FABS and FNEG of R81, on bits. -/
def fpAbs (f : Fmt) (a : Nat) : Nat := a % (1 <<< (f.width - 1))
def fpNeg (f : Fmt) (a : Nat) : Nat := a ^^^ (1 <<< (f.width - 1))

/-- The class bit of R129. -/
def fpClass (f : Fmt) (a : Nat) : Nat :=
  match exact f a with
  | .nan => 8
  | .inf s => if s then 0 else 7
  | .fin s n _ _ =>
    if n = 0 then (if s then 3 else 4)
    else if a % (1 <<< (f.width - 1)) < 1 <<< f.mbits then (if s then 2 else 5)
    else if s then 1 else 6

/-! ### Fixed-order reductions (R84) -/

/-- One level of the pair tree: neighbours combined in index order, with their events. -/
def pairLevel (op : Nat → Nat → Nat × Ev) : List Nat → List Nat × Ev
  | a :: b :: t =>
    let r := op a b
    let rest := pairLevel op t
    (r.1 :: rest.1, r.2.add rest.2)
  | l => (l, {})

/-- PairTree of R84 over a list whose length is a power of two, at most 2^fuel. -/
def pairTree (op : Nat → Nat → Nat × Ev) : Nat → List Nat → Nat × Ev
  | 0, l => (l.headD 0, {})
  | fuel + 1, l =>
    let r := pairLevel op l
    let rest := pairTree op fuel r.1
    (rest.1, r.2.add rest.2)

/-! ### Block scales (R77) -/

/-- Is a value NaN or infinite? -/
def Val.special : Val → Bool
  | .nan => true
  | .inf _ => true
  | .fin _ _ _ _ => false

/-- The largest finite magnitude of a list, as n and e; 0 where the list has none. -/
def amaxOf : List Val → Nat × Int
  | [] => (0, 0)
  | v :: t =>
    let r := amaxOf t
    match v with
    | .fin _ n e _ => if cmpMag n e r.1 r.2 = .gt then (n, e) else r
    | _ => r

/-- MXScale of R77. -/
def mxScale (emax : Nat) (block : List Val) : Nat :=
  if block.any Val.special then 255
  else
    let r := amaxOf block
    if r.1 = 0 then 0
    else (max 0 (min 254 (127 + Int.ofNat r.1.log2 + r.2 - Int.ofNat emax))).toNat

/-- KF4Micro of R77: the smallest E3M5 code whose value is at least amax/6. -/
def kf4Micro (block : List Val) : Nat :=
  if block.any Val.special then 255
  else
    let r := amaxOf block
    if r.1 = 0 then 0
    else
      match (List.range 254).find? (fun c => match exactE3M5 (c + 1) with
        | .fin _ n e _ => cmpMag (6 * n) e r.1 r.2 != .lt
        | _ => false) with
      | some c => c + 1
      | none => 0xFE

/-- KVScale of R379: the smallest x with amax ≤ 448·2^(x − 127) over the finite elements; 127 if none is nonzero. -/
def kvScale (block : List Val) : Nat :=
  let r := amaxOf block
  if r.1 = 0 then 127
  else
    match (List.range 255).find? (fun x => cmpMag 448 (Int.ofNat x - 127) r.1 r.2 != .lt) with
    | some x => x
    | none => 254

end Sys2Proof.Machine
end

