-- ==== Sys2Proof/Machine/State.lean ====
section
/-! DEFINITION. The state of the K9: every piece of state that spec/ names, as plain data; reset; faults and refusals. -/
namespace Sys2Proof.Machine
open Sys2Proof

/-! ### The slip: PC queue, loops, waits (spec/01, 06, 07, 11) -/

/-- The five versioned register sets (R13), numbered as R161 numbers them. -/
inductive RSet where
  | g | f | w | q | m
  deriving DecidableEq, Repr

/-- Why an entry of the PC queue was placed: sequential or a target, the first address of the next iteration, the body
end of the last iteration, or the body end after a taken LEAVE (R162, R163, R167). -/
inductive Tag where
  | plain | iter | exit | leave
  deriving DecidableEq, Repr

/-- One entry of the PC queue with its nullify flag (R24). addr is none while the length of the entry before it cannot
be read; slot and taken say that it stands in a slot of an executed, of a taken, branch (R154, R166, R181). -/
structure QE where
  addr : Option Word := some 0
  nf : Bool := false
  slot : Bool := false
  taken : Bool := false
  tag : Tag := .plain
  deriving DecidableEq, Repr

/-- The PC queue (R24). -/
structure Queue where
  q0 : QE := {}
  q1 : QE := {}
  q2 : QE := {}
  deriving DecidableEq, Repr

/-- The masks of a loop descriptor (R150). -/
structure Masks where
  g : Nat := 0
  f : Nat := 0
  w : Nat := 0
  q : Nat := 0
  m : Nat := 0
  deriving DecidableEq, Repr

/-- The pending loop descriptor of LSET (R150). -/
structure Pend where
  width : Nat := 1
  dmax : Nat := 0
  masks : Masks := {}
  deriving DecidableEq, Repr

/-- An active loop level (R155): its body is [start, stop), count its n, idx the iteration in progress. -/
structure Level where
  width : Nat
  dmax : Nat
  masks : Masks
  start : Word
  stop : Word
  count : Nat
  idx : Nat
  deriving DecidableEq, Repr

/-- The after-loop window of a loop that ended (R164). -/
structure AfterWin where
  masks : Masks
  dmax : Nat
  deriving DecidableEq, Repr

/-- Slip states (R218). -/
inductive SlipState where
  | free | waiting | ready | running | blocked | halting
  deriving DecidableEq, Repr

/-- What a BLOCKED slip waits for (R218, R289). -/
inductive Wait where
  | filled (h n : Nat)
  | space (h n : Nat)
  | syncWord (key gen : Nat)
  | copies (chan id : Nat)
  | cell (key : Nat)
  | tiles (mask : Nat)
  | window
  | fifo
  | idle
  | page (key : Nat)
  deriving DecidableEq, Repr

/-- Roles of a channel handle (R246). -/
inductive ChRole where
  | unbound | producer | consumer
  deriving DecidableEq, Repr

/-- A channel handle (R246); the peer is the other end's berth, slip and handle, with its incarnation. -/
structure Chan where
  role : ChRole := .unbound
  cap : Nat := 0
  slotb : Nat := 0
  granted : Nat := 0
  ri : Nat := 0
  tk : Nat := 0
  base : Nat := 0
  wi : Nat := 0
  hk : Nat := 0
  peer : Nat := 0
  peerSlip : Nat := 0
  peerHandle : Nat := 0
  peerTag : Nat := 0
  deriving DecidableEq, Repr

/-- A queued launch (R265): the message words x1 to x8, the queue and the packet index. -/
structure Launch where
  words : List Word
  queue : Nat
  packet : Nat
  pkg : Nat
  deriving DecidableEq, Repr

/-- The body of a message item (R255, R257). -/
inductive ItemKind where
  | send (data : Wide) (n : Nat)
  | put (off size : Nat) (data : Wide)
  | get (off size dst : Nat)
  deriving DecidableEq, Repr

/-- A message item with its hidden header (R253). Tags are actor × 2^32 + incarnation (R30). -/
structure Item where
  kind : ItemKind
  sidx : Nat
  sseq : Nat
  win : Nat
  src : Nat
  srcSlip : Nat
  srcTag : Nat
  dst : Nat
  dstSlip : Nat
  dtag : Nat
  deriving DecidableEq, Repr

/-- A GET reply held at the requester (R257). -/
structure Reply where
  win : Nat
  seq : Nat
  off : Nat
  size : Nat
  data : Wide
  deriving DecidableEq, Repr

/-- A GET whose window is open: its window, its SSEQ, its destination (R261), whether a reply is owed. -/
structure GetDest where
  win : Nat
  seq : Nat
  off : Nat
  size : Nat
  owed : Bool := true
  deriving DecidableEq, Repr

/-- A member of a window group (R254): where its actor lies, its actor number, the tag it was bound with, its BANKS. -/
structure Member where
  berth : Nat
  slip : Nat
  actor : Nat
  tag : Nat
  banks : Nat
  deriving DecidableEq, Repr

/-- Reasons of an acknowledgement (R266); a BUSY shows as a packet that backs off (Packet.waiting). -/
inductive AckReason where
  | accept | stale | overflow
  deriving DecidableEq, Repr

/-- A WINDOW being closed (R258): flags, whether the marker has left, whether the checks are done, the items left to apply,
whether its checkpoint is to be taken (R422), whether the checkpoint before it is void (R425), the shares it has handed
to the gather (R444). -/
structure Closing where
  k : Bool
  g : Bool
  marked : Bool := false
  applying : Bool := false
  items : List Item := []
  decided : Option Bool := none
  voided : Option Bool := none
  gathered : Option (List Nat) := none
  deriving DecidableEq, Repr

/-- A STALE record (R268): window, destination actor, SSEQ. -/
structure StaleRec where
  win : Nat
  actor : Nat
  sseq : Nat
  deriving DecidableEq, Repr

/-- The actor a slip carries (R216, R218): where its region's block lies, its root and fault domain (R416), the root's
queue, the firing entry, launches, successor and predecessor, and the CRATE of each consumer handle. -/
structure Act where
  pkg : Nat
  region : Nat
  root : Nat
  fdom : Nat
  queue : Nat
  entry : Word
  launch : Bool
  succ : Nat
  pred : Nat
  predDone : Bool
  crates : List (Nat × Nat)
  banks : Nat
  deriving DecidableEq, Repr

/-- A copy the slip issued, until it is acknowledged (R333): channel, identifier, whether complete, its error record. -/
structure Outstanding where
  chan : Nat
  id : Nat
  done : Bool := false
  err : Option Word := none
  deriving DecidableEq, Repr

/-- The quasi-random context bank of a slip (R403, R404): V of dimension d and bit j at key 32 d + j. -/
structure QrBank where
  v : SMap W32 := []
  s : SMap W32 := []
  ctl : Word := 0
  deriving DecidableEq, Repr

/-- A pending refusal of a valley append (R382). -/
structure KvRefusal where
  seq : Nat
  cause : Nat
  tval : Word
  deriving DecidableEq, Repr

/-- A BRD that has been translated and waits (R287, R292): the key of the byte it addresses, the address space it was translated under, the
marks of the FLUSHAS that found it under way, and whether a migration of its page waits for it. -/
structure Brd where
  key : Nat
  asid : Option Nat := none
  flushers : List Nat := []
  early : Bool := false
  deriving DecidableEq, Repr

/-- One slip (R17). Register r at version v of a set is at key 8 r + v; cur holds the current version of a register at
key 32 × set + r (R19, R155); begun says that the instruction at PCQ0 has issued and stalls or waits (R209);
early holds the bytes, by memory key, that the racing reads of the slip are to return in place of the latest ones (R313); late the cause and
TVAL of a landing's fault that its next firing takes (R36); brd a BRD under way; drains the marks that its FLUSHAS have left, for its DRAIN
(R287). -/
structure Slip where
  st : SlipState := .free
  wait : Option Wait := none
  stamp : Nat := 0
  g : SMap Word := []
  f : SMap W32 := []
  w : SMap Wide := []
  q : SMap Bool := []
  m : SMap Word := []
  cur : SMap Nat := []
  carryG : SMap Word := []
  carryF : SMap W32 := []
  chans : SMap Chan := []
  live : Queue := {}
  saved : Queue := {}
  ppriv : Bool := false
  pie : Nat := 0
  prio : Nat := 0
  intrap : Bool := false
  priv : Bool := true
  tie : Bool := false
  mie : Bool := false
  dbie : Bool := false
  tcause : Nat := 0
  tval : Word := 0
  levels : List Level := []
  aside : List Level := []
  pend : Pend := {}
  after : List AfterWin := []
  lastDmax : Nat := 0
  lexit : Nat := 0
  actor : Nat := 0
  incarn : Nat := 0
  bound : Bool := false
  banks : Nat := 0
  tiles : Nat := 0
  plwin : Word := 0
  own0 : Word := 0
  own1 : Word := 0
  own2 : Word := 0
  own3 : Word := 0
  wgroup : Nat := 0
  wseq : Nat := 0
  sseq : Nat := 0
  hseq : Nat := 0
  sidx : Nat := 0
  members : List Member := []
  left : List Member := []
  markers : List (Nat × Nat) := []
  closing : Option Closing := none
  xdone : SMap W32 := []
  xnext : SMap W32 := []
  outstanding : List Outstanding := []
  evc : SMap Nat := []
  instret : Word := 0
  flushed : List Nat := []
  qr : QrBank := {}
  launches : List Launch := []
  parked : List Item := []
  unacked : List Item := []
  replies : List Reply := []
  gets : List GetDest := []
  stale : List StaleRec := []
  addressed : List (Nat × Nat) := []
  overflowed : List Nat := []
  spillCap : Nat := 0
  spillBase : Nat := 0
  kvClips : Nat := 0
  kvRefusals : List KvRefusal := []
  kvSeq : Nat := 0
  reduceCells : List (Nat × Nat) := []
  act : Option Act := none
  firing : Bool := false
  retain : Bool := false
  pageFailed : Option Nat := none
  stopped : Bool := false
  halting : Bool := false
  used : List Launch := []
  preemptAt : Option Word := none
  taken : Bool := false
  begun : Bool := false
  early : List (Nat × Byte) := []
  late : Option (Nat × Word) := none
  brd : Option Brd := none
  drains : List Nat := []
  deriving DecidableEq, Repr

/-! ### The handler bank (spec/11 R226, R227; spec/13 R263, R265) -/

/-- What a running handler serves. -/
inductive HSource where
  | item | launch | control
  deriving DecidableEq, Repr

/-- The handler context of a berth: the tagged slip, the bank, its queue, the steps taken. -/
structure Handler where
  slip : Nat
  source : HSource
  g : SMap Word := []
  w : SMap Wide := []
  live : Queue := {}
  steps : Nat := 0
  deriving DecidableEq, Repr

/-! ### Memory marks (spec/13, 15, 16) -/

/-- The hidden part of a defined sync word (R306, R307, R310, R319): AQ, overlaps (generation, granule key) that are still to be raised, those
that an SWAIT or SWDEF has raised (R320), marks. -/
structure SyncWord where
  aq : Nat := 0
  overlaps : List (Nat × Nat) := []
  raised : List (Nat × Nat) := []
  overflow : Bool := false
  error : Bool := false
  absent : Option Word := none
  deriving DecidableEq, Repr

/-- The hidden marks of a 32-byte granule (R308, R319): landing records (sync word key, generation) and the touch mark. -/
structure Gran where
  records : List (Nat × Nat) := []
  touch : Bool := false
  deriving DecidableEq, Repr

/-- The hidden tag of a cell (R298, R299). An exact cell's counts lie in its bytes (R88). -/
structure CellTag where
  exact : Bool := false
  count : Nat := 0
  expect : Nat := 0
  misuse : Bool := false
  deriving DecidableEq, Repr

/-- The operations of the bank units (R302, R303). -/
inductive BOp where
  | define (exact : Bool) (init expect : Nat)
  | add | and | or | xor | min (u : Bool) | max (u : Bool) | minf | maxf
  | fxa (bf : Bool)
  | vsa (lane e : Nat)
  deriving DecidableEq, Repr

/-- A bank operation on its way to its cell (R301): the key of the addressed byte, the operation, its value, its issuer, the address space
it was translated under, the marks of the FLUSHAS that found it under way (R287), and whether a migration of its page waits for it (R292). -/
structure BankOp where
  key : Nat
  op : BOp
  value : Word
  berth : Nat
  slip : Nat
  asid : Option Nat := none
  flushers : List Nat := []
  early : Bool := false
  deriving DecidableEq, Repr

/-- A fault notice to the Harbourmaster, until its completion notice (R288, R289): the package, the root table, the
address space, the 64 KiB virtual page, and the slips, as berth and index, whose accesses wait. -/
structure Notice where
  pkg : Nat
  root : Nat
  asid : Nat
  vpage : Nat
  started : Bool := false
  waiters : List (Nat × Nat) := []
  deriving DecidableEq, Repr

/-- A cached leaf (R283): address space, virtual base, page size, the entry. -/
structure TlbEntry where
  asid : Nat
  base : Nat
  size : Nat
  leaf : Nat
  deriving DecidableEq, Repr

/-- The structures that cache leaves for a berth (R283): its instruction TLB, its data TLB, its harbour's second level. -/
inductive TlbName where
  | inst | data | second
  deriving DecidableEq, Repr

/-! ### Copies (spec/17) -/

/-- Where a copy stands: in its berth's FIFO, walking, walked, retired (R327, R331, R335). -/
inductive CopyStage where
  | queued | active | retired
  deriving DecidableEq, Repr

/-- A copy from acceptance to retirement: request words, the geometry record read at acceptance, the walk's position (element index), the bits
set in the mask before it (R327), an element read and held for its sync word (R318), the address spaces it has translated under (R287), the error
reason, the scratchpad granules it has landed on, the page it waits for, the EXCHANGE lines it has landed, the marks of the FLUSHAS that found it
under way (R287), and the memory key that its code could not correct (R328 reason 12). -/
structure Copy where
  berth : Nat
  slip : Nat
  tag : Nat
  priv : Bool
  src : Word
  dst : Word
  kind : Nat
  len : Nat
  sync : Nat
  chan : Nat
  arr : Bool
  pv : Bool
  pref : Nat
  id : Nat
  geo : List Byte
  prefRec : List Byte
  stage : CopyStage := .queued
  pos : Nat := 0
  ones : Nat := 0
  buf : Option (List Byte) := none
  spaces : List Nat := []
  reason : Nat := 0
  landed : List Nat := []
  waitPage : Option Nat := none
  lines : List Nat := []
  flushers : List Nat := []
  bad : Option Nat := none
  deriving DecidableEq, Repr

/-! ### Packets between berths (spec/13, 25 R455) -/

/-- A fault domain's name (R416): package, root block, effective FDOM. -/
structure DomKey where
  pkg : Nat
  root : Nat
  fdom : Nat
  deriving DecidableEq, Repr

/-- Whose a fault is (R417, R419): the fault domain, the region's block, the actor. -/
structure Owner where
  dom : DomKey
  region : Nat
  actor : Nat
  deriving DecidableEq, Repr

/-- What travels between two berths: items, replies, acknowledgements, notices, CHST data, arrivals, launches. -/
inductive Body where
  | item (i : Item)
  | reply (slip tag : Nat) (r : Reply)
  | ack (slip tag : Nat) (reason : AckReason) (i : Item)
  | advance (slip handle tag n : Nat)
  | freed (slip handle tag n : Nat)
  | chst (slip handle tag ring p : Nat) (data : Wide) (srcSlip srcTag : Nat)
  | arrival (addr : Word) (srcSlip : Nat) (owner : Option Owner)
  | launch (slip tag : Nat) (l : Launch)
  deriving DecidableEq, Repr

/-- A packet in flight (R455): in order for its source and destination; busy counts its BUSY replies, waiting says that
it is refused and backing off (R267). -/
structure Packet where
  src : Nat
  dst : Nat
  body : Body
  busy : Nat := 0
  waiting : Bool := false
  deriving DecidableEq, Repr

/-! ### Valley units (spec/20) -/

/-- States of a key-value page (R373). -/
inductive KvState where
  | unalloc | free | opened | sealed
  deriving DecidableEq, Repr

/-- The header of a page (R373, R374), with its owner and whether it is resident (R393). -/
structure KvHdr where
  st : KvState := .unalloc
  asid : Nat := 0
  actor : Nat := 0
  dh : Nat := 0
  fmt : Bool := false
  fix : Bool := false
  xk : Nat := 0
  xv : Nat := 0
  len : Nat := 0
  clip : Nat := 0
  err : Nat := 0
  resident : Bool := true
  deriving DecidableEq, Repr

/-- An append with its policy, successor page, DH code and BF16 elements (R378); a query with its record's fields and its
FP32 elements (R385, R386). -/
inductive KvOp where
  | append (policy succ : Nat) (succAddr : Word) (dh : Nat) (elems : List Nat)
  | query (dest : Word) (sync : Nat) (arr : Bool) (amode dh : Nat) (fmt : Bool) (sigma len tag : Nat) (q : List Nat)
  deriving DecidableEq, Repr

/-- A valley command from issue to its effect (R391): its issuer and owner, the page's key and address, its issue order,
whether the unit holds it waiting (R388), its BUSY replies, whether it backs off, and whether its sender holds it behind a refused one
(R267). -/
structure KvCmd where
  berth : Nat
  slip : Nat
  owner : Option Owner
  asid : Nat
  actor : Nat
  page : Nat
  addr : Word
  seq : Nat
  op : KvOp
  waits : Bool := false
  busy : Nat := 0
  backoff : Bool := false
  held : Bool := false
  deriving DecidableEq, Repr

/-- A triple on its way (R387, R390): its issuer, where it lands and counts, its bytes, the absent mark it sets (R393). -/
structure Triple where
  berth : Nat
  slip : Nat
  page : Nat
  owner : Option Owner
  dest : Word
  sync : Nat
  arr : Bool
  data : List Byte
  absent : Option Word := none
  deriving DecidableEq, Repr

/-! ### The crane (spec/18) -/

/-- The tags of a weight plane (R338, R346): FMT, SP, N, and K in units of 32. -/
structure PlaneTag where
  fmt : Nat
  sp : Nat
  n : Nat
  kg : Nat
  deriving DecidableEq, Repr

/-- A weight plane (R338): its tags, none where EMPTY, and its column records (R347). -/
structure Plane where
  tag : Option PlaneTag := none
  cols : List (List Byte) := []
  deriving DecidableEq, Repr

/-- A tile (R338): its words, word (r, c) at 32 r + c; its latched pair; whether its kind is INT32; its pending set. -/
structure Tile where
  words : SMap Nat := []
  latch : Option (W32 × W32) := none
  int32 : Bool := false
  pending : List Nat := []
  deriving DecidableEq, Repr

/-- What a queued command does (R353 to R356): a plane load with its tags, image, column stride and checked masks; a swap;
a clear; a multiply of m rows at an offset and stride by n columns of depth k. -/
inductive CraneOp where
  | load (toActive : Bool) (tag : PlaneTag) (off stride : Nat) (masks : List (List Byte))
  | swap
  | clear (z : Nat)
  | mma (z pair off stride m n k : Nat)
  deriving DecidableEq, Repr

/-- A command with its sequence number (R340), its issuing slip, and whether its events count (R93). -/
structure CraneCmd where
  seq : Nat
  slip : Nat
  op : CraneOp
  counts : Bool := true
  deriving DecidableEq, Repr

/-- A completed command until a CZWAIT or HALT covers it: its tile, its events (R358), its error as cause and TVAL (R363). -/
structure CraneDone where
  seq : Nat
  tile : Option Nat
  ev : Ev := {}
  err : Option (Nat × Word) := none
  deriving DecidableEq, Repr

/-- The crane state of a berth (R338): the queue, the command the crane is executing, completed commands, the planes and
which is active; the mirror's tags and active plane; tiles; the last sequence number; whether the next command fails. -/
structure Crane where
  queue : List CraneCmd := []
  running : Option CraneCmd := none
  finished : List CraneDone := []
  p0 : Plane := {}
  p1 : Plane := {}
  active : Bool := false
  m0 : Option PlaneTag := none
  m1 : Option PlaneTag := none
  mactive : Bool := false
  tiles : SMap Tile := []
  seq : Nat := 0
  fails : Bool := false
  deriving DecidableEq, Repr

/-- The arbiter of a quay's crane (R364): the berth whose turn it is, commands it has received this turn. -/
structure Arbiter where
  turn : Nat := 0
  used : Nat := 0
  deriving DecidableEq, Repr

/-! ### Fault domains and checkpoints (spec/23) -/

/-- The tag of an EXCHANGE line (R330): actor, channel, identifier. -/
structure LineTag where
  actor : Nat
  chan : Nat
  id : Nat
  deriving DecidableEq, Repr

/-- The units of R424. -/
inductive Unit' where
  | scratch (key : Nat)
  | cell (key : Nat)
  | kv (key : Nat)
  | line (key : Nat)
  | page (key : Nat)
  deriving DecidableEq, Repr

/-- A scratchpad bank in the save area (R434): its actor and number; its bytes, marks, sync words, poisoned words and held
arrivals by scratchpad offset. -/
structure SavedBank where
  actor : Nat
  bank : Nat
  listed : List (Nat × Byte)
  grans : SMap Gran
  syncs : SMap SyncWord
  poison : List Nat
  held : List Nat
  deriving DecidableEq, Repr

/-- What a region has done to a unit since the checkpoint, so that the commit of its DONE can keep it (R426): bytes it has stored or landed, an
operation on a cell. -/
inductive Change where
  | bytes (key len : Nat)
  | op (o : BankOp)
  deriving DecidableEq, Repr

/-- A journal record (R424): the unit, the range of keys it covers, the bytes listed there, the hidden state, the regions that have
changed the unit, and their changes in order (R426). -/
structure JRec where
  unit : Unit'
  base : Nat
  len : Nat
  listed : List Host.Cell
  grans : SMap Gran := []
  syncs : SMap SyncWord := []
  tag : Option CellTag := none
  lineTag : Option LineTag := none
  kv : Option KvHdr := none
  regions : List Nat := []
  changes : List (Nat × Change) := []
  deriving DecidableEq, Repr

/-- A member's slip, and its crane state where it holds tiles, as its WINDOW.K completed (R422, R423). -/
structure Snap where
  berth : Nat
  index : Nat
  slip : Slip
  crane : Option Crane
  deriving DecidableEq, Repr

/-- A slip of a checkpoint that has halted since (R428): its region, its tag, its berth's environment, the launches it used, its count of
instructions (R445), and its banks as they stood at the checkpoint. -/
structure Halted where
  berth : Nat
  index : Nat
  region : Nat
  tag : Nat
  asid : Nat
  root : Nat
  hbase : Word
  hlimit : Word
  tvec : Word
  upvec : Word
  used : List Launch
  charge : Nat
  banks : List SavedBank
  instret : Word := 0
  deriving DecidableEq, Repr

/-- A checkpoint (R422 to R425): its window, the members still to complete, the snapshots, the journal, whether void,
the members that have counted its being void, the arrivals held in its banks, the items of the next window and the arrivals that were on
their way as the last member completed, its slips that have halted since, and the regions that have been suspended since before it. -/
structure Ckpt where
  window : Nat
  waiting : List Member
  snaps : List Snap
  journal : List JRec := []
  void : Bool := false
  counted : List Nat := []
  held : List Nat := []
  items : List Item := []
  arrivals : List Packet := []
  halted : List Halted := []
  asleep : List Nat := []
  deriving DecidableEq, Repr

/-- A fault domain's state: its checkpoint, the one being taken between its first and last member's completion (R422),
the shadow pages its regions were granted, whether a rollback's replay has not reached its next checkpoint (R429). -/
structure Dom where
  key : DomKey
  ckpt : Option Ckpt := none
  next : Option Ckpt := none
  shadow : Nat := 0
  replaying : Bool := false
  deriving DecidableEq, Repr

/-! ### The berth (R17) -/

/-- A region's banks left in place while it is suspended (R434). -/
structure Victim where
  banks : Nat
  pkg : Nat
  region : Nat
  actor : Nat
  deriving DecidableEq, Repr

/-- One berth (R17): its four slips and what they share, its instruction and data TLBs among it (R283). -/
structure Berth where
  s0 : Slip := {}
  s1 : Slip := {}
  s2 : Slip := {}
  s3 : Slip := {}
  handler : Option Handler := none
  tvec : Word := 0
  upvec : Word := 0
  hbase : Word := 0
  hlimit : Word := 0
  asid : Nat := 0
  root : Nat := 0
  evcHi : SMap Nat := []
  cycle : Word := 0
  tcmp : Word := 0
  ipMsg : Bool := false
  ipDbell : Bool := false
  serrlog : Word := 0
  stamps : Nat := 0
  fenced : Bool := false
  retained : Nat := 0
  victims : List Victim := []
  itlb : List TlbEntry := []
  tlb : List TlbEntry := []
  inbox : Nat := 0
  refused : List Nat := []
  controlLaunches : List Launch := []
  crane : Crane := {}
  deriving DecidableEq, Repr

/-! ### The Harbourmaster of a package (spec/12, 24, 25, 28) -/

/-- What a blocked pilot engine waits for (R237, R235, R244). -/
inductive PilotWait where
  | launch | waitr | event
  deriving DecidableEq, Repr

/-- An open LOOPN of the pilot engine: the offsets of its body and of the instruction after it, passes left. -/
structure PilotLoop where
  start : Nat
  stop : Nat
  left : Nat
  deriving DecidableEq, Repr

/-- The pilot engine at work on a packet (R234 to R239): the packet's bytes, registers, offset, loops, wait, whether a
LAUNCH has recorded the class, the host units it has fetched, the last unit that LDI fetched (R239), the page that a LAUNCH's translation
waits for, and whether its service failed (R291). -/
structure Engine where
  packet : List Byte
  x : SMap Word := []
  off : Nat := 0
  loops : List PilotLoop := []
  blocked : Option PilotWait := none
  launched : Bool := false
  units : SMap (List Byte) := []
  last : Option Nat := none
  page : Option Nat := none
  pageBad : Bool := false
  deriving DecidableEq, Repr

/-- A host queue (R229, R231): st is 0 DISABLED, 1 RUNNING, 2 STOPPED. image is the pilot image that passed the checks of
ENABLE, none before (R236). -/
structure HQueue where
  qbase : Word := 0
  qpilot : Word := 0
  qroot : Word := 0
  qiwbase : Word := 0
  qiwsize : Word := 0
  enable : Bool := false
  size : Nat := 4
  head : Nat := 0
  tail : Nat := 0
  err : Nat := 0
  st : Nat := 0
  fclass : Option Nat := none
  image : List Byte := []
  engine : Option Engine := none
  deriving DecidableEq, Repr

/-- A flit (R454): 16 bytes of header, 232 of payload, 8 of CRC, which a link sends in 4 beats of 64. -/
structure Flit where
  header : List Byte
  payload : List Byte
  crc : Word
  deriving DecidableEq, Repr

/-- A pass-link port (R456, R458), with its replay buffer: the last 64 flits it has sent, the newest first. -/
structure Port where
  peer : Nat := 0
  pport : Nat := 0
  replays : Nat := 0
  down : Bool := true
  trained : Bool := false
  failed : Nat := 0
  retraining : Bool := false
  sent : List Flit := []
  deriving DecidableEq, Repr

/-- An amount charged to a block's pool, which the pool's byte offset in the block names (R210, R212). -/
structure Charge where
  block : Nat
  pool : Nat
  amount : Nat
  deriving DecidableEq, Repr

/-- A node that owns a pool, admitted: its budget is charged to a block above it; groups says that it runs no pipeline (R212). -/
structure Admission where
  node : Nat
  pool : Nat
  parent : Nat
  amount : Nat
  groups : Bool
  deriving DecidableEq, Repr

/-- A suspended slip (R433): where it ran, its state with what it was doing, and its crane state where it holds tiles. -/
structure SavedSlip where
  berth : Nat
  index : Nat
  slip : Slip
  crane : Option Crane
  deriving DecidableEq, Repr

/-- A bound or suspended region as the distributor keeps it, so that no later change of its block alters the run (R215): its block, root
and domain; its address space, table and handler range; the actors that the owner table names, by slot, and those that take launches
(R213, R237); its actors not halted (LIVE); the blocks whose pools it draws on (R212); its cell window and the charges of its demands
(R224, R275); where its actors were placed; the REDUCE cells of halted slips (R299); and what is saved of it while it is suspended
(R433, R434), or came in a container and has not been bound here yet (R467). -/
structure Region where
  block : Nat
  root : Nat
  fdom : Nat
  queue : Nat
  asid : Nat := 0
  ptroot : Nat := 0
  hbase : Nat := 0
  hlimit : Nat := 0
  owners : List Nat := []
  launches : List Nat := []
  live : Nat := 0
  chain : List (Nat × Nat) := []
  first : Nat := 0
  ncell : Nat := 0
  nshadow : Nat := 0
  actors : List Member := []
  reduce : List (Nat × Nat) := []
  charges : List Charge := []
  suspended : Bool := false
  moved : Bool := false
  slips : List SavedSlip := []
  banks : List SavedBank := []
  deriving DecidableEq, Repr

/-- Lines that a completed producing transfer has landed (R426, R462): its domain and region, address space and root table, tag, line
names. -/
structure Landed where
  dom : DomKey
  region : Nat
  asid : Nat
  root : Nat
  tag : LineTag
  lines : List Nat
  deriving DecidableEq, Repr

/-- What arrives of a transfer from a peer domain (R462): page, tag, the lines that have landed, the number its record names. -/
structure Transfer where
  page : Nat
  tag : LineTag
  seen : List Nat := []
  count : Option Nat := none
  deriving DecidableEq, Repr

/-- A scale-out frame (R462): the peer domain, its page, the tag, and a line with its data or a record with its count. -/
structure Frame where
  peer : Nat
  page : Nat
  tag : LineTag
  line : Option (Nat × List Byte)
  count : Nat := 0
  lost : Bool := false
  deriving DecidableEq, Repr

/-- A migration in progress (R292): the page's name, leaf entry address, old and new page, lines copied. -/
structure Migration where
  page : Nat
  leafAddr : Nat
  old : Nat
  new : Nat
  copied : Nat := 0
  deriving DecidableEq, Repr

/-- A channel that the translator lowers an edge of a Synonast graph to (R482, R483): producing and consuming actor, their handles, slot
size, capacity, production rate, ring; its CRATE is 0. -/
structure SynChan where
  prod : Nat
  cons : Nat
  ph : Nat
  ch : Nat
  slotb : Nat
  cap : Nat
  prate : Nat
  ring : Nat
  deriving DecidableEq, Repr

/-- An actor record (R216) that the translator lowers a node of a Synonast graph to (R483, R484), with the bytes of its stack and the words
of its firing. -/
structure SynActor where
  entry : Nat
  number : Nat
  succ : Nat
  pred : Nat
  banks : Nat
  tiles : Nat
  wgrp : Nat
  limg : Nat
  llen : Nat
  launch : Bool
  stack : Nat
  code : List Nat
  deriving DecidableEq, Repr

/-- A record of a saved-state container (R465): TYPE, VER, MUST, body. -/
structure CRec where
  type : Nat
  ver : Nat
  must : Bool
  body : List Byte
  deriving DecidableEq, Repr

/-- The Harbourmaster of a package and what else is held once for each package. -/
structure Pkg where
  ready : Bool := false
  takeover : Bool := false
  actcb : Nat := 0
  opclass : Nat := 1
  changing : Bool := false
  evbase : Word := 0
  evEn : Bool := false
  esize : Nat := 3
  evhead : Nat := 0
  evtail : Nat := 0
  ovf : Bool := false
  lost : Nat := 0
  latched : List Nat := []
  msix0 : Nat := 0
  msix1 : Nat := 0
  resyncst : Bool := false
  resyncAddr : Nat := 0
  resyncImage : List Byte := []
  queues : SMap HQueue := []
  tko : Bool := false
  failed : Nat := 0
  fcause : Nat := 0
  jheld : Nat := 0
  jposted : Nat := 0
  jbase : Nat := 0
  dbpend : Nat := 0
  ports : SMap Port := []
  xregbase : Word := 0
  xregSeen : SMap (List Byte) := []
  kverr : SMap Word := []
  failcode : Nat := 0
  agecap : Nat := 2
  pwrcap : Nat := 2
  phase : Nat := 0
  powered : Bool := false
  ageplan : Word := 0
  agemargin : Word := 0
  meas : List Byte := List.replicate 32 0
  digests : List (List Byte) := []
  keys : SMap Nat := []
  fuses : List Byte := List.replicate 32 0
  firmware : List (List Byte) := []
  staged : Option (List Byte) := none
  response : List Byte := []
  report : List Byte := []
  program : List SynActor := []
  graph : List SynChan := []
  faultRecords : SMap (List Byte) := []
  routes : SMap Nat := []
  ageSeq : Nat := 0
  regions : List Region := []
  selected : List Nat := []
  snaps : SMap Nat := []
  admitted : List Admission := []
  asleep : List Nat := []
  cellIdle : SMap Nat := []
  lines : SMap LineTag := []
  uncovered : List Landed := []
  outgoing : List Landed := []
  transfers : List Transfer := []
  migrations : List Migration := []
  gone : List (Nat × Nat) := []
  deriving DecidableEq, Repr

/-- A fault on its way to its fault domain (R417, R419, R427): the slip, the kind, cause, TVAL or CODE, saved PCQ0, and whether the stop
has begun, so that only landings in flight are to drain (R418); the package that reports a pass-link fault (R457). -/
structure Stop where
  berth : Nat
  slip : Nat
  kind : Nat
  cause : Nat
  tval : Word
  pcq0 : Word
  owner : Option Owner
  begun : Bool := false
  seenAt : Option Nat := none
  word : Option Nat := none
  deriving DecidableEq, Repr

/-! ### The machine -/

/-- An array that has failed for good (R11, R428, R441): the 64 KiB page of a memory key, a berth's own arrays, a quay's crane. -/
inductive Broken where
  | page (key : Nat)
  | berth (b : Nat)
  | quay (q : Nat)
  deriving DecidableEq, Repr

/-- What happens next, as timing, the network and the host decide (assumption log 2): an instruction step of a berth, an event, a change of a
timing counter (R442), cycles passing, a TLB fill or eviction (R283), a word found uncorrectable (R296), an array that fails for good (R441), an
entry of a route table that the firmware changes (R455), an uncorrectable error of a berth's translation or network arrays (R440), a berth that
the distributor fences (R441), cycles without access to a bank of the Plain (R438), arrivals at a berth that its interface will answer BUSY
(R266), a racing read that takes bytes before its instruction, or those of a racing write that follows it (R313), a parity or header error of a
valley unit (R396), a failure of the crane's own storage under a berth's next command (R363), a scale-out frame from a peer domain, the loss of
one (R462), the host writing its own memory (R463), the prefetch of an indirect-buffer unit (R239), an access of the host to BAR0 with its size
(R229), a class change beginning or ending (R490), signed firmware that installs an owner pilot key (R491), a management request that has no
event of its own (R493, R494). -/
inductive Turn where
  | berth (b : Nat)
  | event (i : Instr)
  | timing (b k n : Nat)
  | cycles (b n : Nat)
  | tlbFill (b : Nat) (t : TlbName) (va : Word)
  | tlbEvict (b : Nat) (t : TlbName) (n : Nat)
  | failWord (key : Nat)
  | breaks (x : Broken)
  | arrayError (b array entry : Nat)
  | fence (b : Nat)
  | route (pkg src dst port : Nat)
  | plainIdle (pkg bank n : Nat)
  | inbox (b n : Nat)
  | craneFail (b : Nat)
  | readEarly (b i key n : Nat)
  | readLate (b i key : Nat) (v : Byte) (n : Nat)
  | kvError (key cls : Nat)
  | frame (f : Frame)
  | lose (n : Nat)
  | hostWrite (a : Nat) (bs : List Byte)
  | prefetch (pkg q a : Nat)
  | barAccess (pkg size off v : Nat)
  | classChange (pkg : Nat)
  | installKey (pkg key m : Nat)
  | request (pkg : Nat) (bs : List Byte)
  deriving DecidableEq, Repr

/-- The state of the machine. Memory is one list of (key, byte) pairs: the scratchpad byte at offset o of berth b of
package p has key 2 · 2^60 + p · 2^40 + b · 2^27 + o (its REMOTE address, R271), the byte at physical address a of package p
has key 15 · 2^60 + p · 2^52 + a (R276), byte o of the Plain of package p key 3 · 2^60 + p · 2^52 + o (R273), the host's
byte at a key 2^64 + a (R463). marks counts the FLUSHAS, each of which marks what it finds under way (R287). -/
structure State where
  cur : Nat := 0
  agenda : List Turn := []
  tick : Nat := 1
  fresh : Nat := 0
  domain : List Nat := [0]
  cables : SMap (Nat × Nat) := []
  mem : List Host.Cell := []
  poison : List Nat := []
  sleptBad : List Nat := []
  broken : List Broken := []
  berths : SMap Berth := []
  syncs : SMap SyncWord := []
  grans : SMap Gran := []
  cells : SMap CellTag := []
  net : List Packet := []
  heldArrivals : List Nat := []
  bankOps : List BankOp := []
  copies : List Copy := []
  notices : List Notice := []
  cxl : SMap Nat := []
  doms : List Dom := []
  stops : List Stop := []
  rollbacks : List Stop := []
  takeovers : List (Nat × Nat) := []
  pkgs : SMap Pkg := []
  arbiters : SMap Arbiter := []
  tlb2 : SMap (List TlbEntry) := []
  scaleId : Nat := 0
  wire : List Frame := []
  kv : SMap KvHdr := []
  kvCmds : List KvCmd := []
  kvRefused : SMap (List Nat) := []
  triples : List Triple := []
  marks : Nat := 0
  deriving DecidableEq, Repr

/-- A berth as memory initialisation leaves it (R38). -/
def Berth.reset : Berth := {}

/-- The machine right after reset (R38, R487): nothing listed, every register at the value its log entry names. -/
def State.reset : State := {}

/-- Why the machine stops with a fault. No path of this model ends so: every fault of the spec is a trap, an event or a
mark that the machine goes on from. The constructor stands for an access to a memory key of no address space, which no
meaning makes (safe). -/
inductive Fault where
  /-- A memory key outside every address space; raised by none of the meanings. Safe. -/
  | noSuchAddress
  deriving DecidableEq, Repr

/-- Why a step has no meaning. -/
inductive Refusal where
  /-- The arm of Dispatch.lean of an instruction without a meaning; raised there only. Safe: nothing is claimed of it. -/
  | notModelled (mnemonic : String)
  deriving DecidableEq, Repr

end Sys2Proof.Machine
end

