-- ==== Sys2Proof/Machine/Mem.lean ====
section
/-! DEFINITION. Memory: the byte of a key, ranges of bytes, the keys of the address spaces (spec/14 R269 to R276, spec/25 R463). -/
namespace Sys2Proof.Machine
open Sys2Proof

/-- What a byte that nothing has written reads as: zero, as memory initialisation leaves it (R38, R487; host memory: log 11). -/
def Memory.blank : Byte := 0

/-- The canonical form: keys strictly rising, no entry equal to what an unlisted key reads as. -/
abbrev Memory.wf (m : List Host.Cell) : Prop := SMap.wf Memory.blank m = true

/-- One byte. -/
def Memory.read (m : List Host.Cell) (k : Nat) : Byte := SMap.get Memory.blank m k

/-- Write one byte. -/
def Memory.write (m : List Host.Cell) (k : Nat) (v : Byte) : List Host.Cell := SMap.set Memory.blank m k v

/-- The n bytes from a key on. -/
def Memory.readBytes (m : List Host.Cell) (k : Nat) : Nat → List Byte
  | 0 => []
  | n + 1 => Memory.read m k :: Memory.readBytes m (k + 1) n

/-- Write bytes from a key on. -/
def Memory.writeBytes (m : List Host.Cell) (k : Nat) : List Byte → List Host.Cell
  | [] => m
  | b :: bs => Memory.writeBytes (Memory.write m k b) (k + 1) bs

/-- The package and the berth in it of a berth key (R31). -/
def pkgOf (b : Nat) : Nat := b / 8192
def berthIn (b : Nat) : Nat := b % 8192
/-- The die, harbour, quay of a berth key, each within the domain (R31). -/
def dieOf (b : Nat) : Nat := pkgOf b * 8 + berthIn b / 576
def harbourOf (b : Nat) : Nat := pkgOf b * 48 + berthIn b / 96
def quayOf (b : Nat) : Nat := pkgOf b * 576 + berthIn b / 8

/-- The key of a scratchpad byte: its REMOTE address (R271). -/
def scratchKey (b off : Nat) : Nat := (2 <<< 60) + (pkgOf b <<< 40) + (berthIn b <<< 27) + off
/-- The key of a physical byte of a package (R276). -/
def physKey (pkg pa : Nat) : Nat := (15 <<< 60) + (pkg <<< 52) + pa
/-- The key of a byte of a package's Plain (R273). -/
def plainKey (pkg o : Nat) : Nat := (3 <<< 60) + (pkg <<< 52) + o
/-- The key of a byte of host memory (R463). -/
def hostKey (a : Nat) : Nat := (1 <<< 64) + a

/-- The LOCAL address of a scratchpad offset (R34). -/
def localAddr (off : Nat) : Word := natWord ((1 <<< 60) + off)
/-- The REMOTE address of an offset of a berth (R271). -/
def remoteAddr (b off : Nat) : Word := natWord (scratchKey b off)

/-- Bytes, and the little-endian number of them, at a key of the machine's memory. -/
def State.bytesAt (s : State) (k n : Nat) : List Byte := Memory.readBytes s.mem k n
def State.natAt (s : State) (k n : Nat) : Nat := leNat (s.bytesAt k n)
/-- The byte at a key. -/
def State.byteAt (s : State) (k : Nat) : Byte := Memory.read s.mem k
/-- Memory with bytes stored at a key; nothing else changes. -/
def State.poke (s : State) (k : Nat) (bs : List Byte) : State := { s with mem := Memory.writeBytes s.mem k bs }
/-- Memory with a little-endian number of n bytes stored at a key. -/
def State.pokeNat (s : State) (k n v : Nat) : State := s.poke k (leBytes n v)
/-- Memory with n zero bytes at a key. -/
def State.zero (s : State) (k n : Nat) : State :=
  { s with mem := s.mem.filter (fun c => !(decide (k ≤ c.1) && decide (c.1 < k + n))) }

/-! ### Berths and slips -/

def Berth.slip (b : Berth) (i : Nat) : Slip :=
  match i with
  | 0 => b.s0
  | 1 => b.s1
  | 2 => b.s2
  | _ => b.s3

def Berth.setSlip (b : Berth) (i : Nat) (p : Slip) : Berth :=
  match i with
  | 0 => { b with s0 := p }
  | 1 => { b with s1 := p }
  | 2 => { b with s2 := p }
  | _ => { b with s3 := p }

/-- A berth; one that nothing has changed is as reset left it. -/
def State.berth (s : State) (b : Nat) : Berth := SMap.get Berth.reset s.berths b
def State.setBerth (s : State) (b : Nat) (x : Berth) : State := { s with berths := SMap.put s.berths b x }
def State.modBerth (s : State) (b : Nat) (f : Berth → Berth) : State := s.setBerth b (f (s.berth b))
/-- A slip of a berth. -/
def State.slip (s : State) (b i : Nat) : Slip := (s.berth b).slip i
def State.setSlip (s : State) (b i : Nat) (p : Slip) : State := s.setBerth b ((s.berth b).setSlip i p)
def State.modSlip (s : State) (b i : Nat) (f : Slip → Slip) : State := s.setSlip b i (f (s.slip b i))

/-- The four slips of a berth in index order. -/
def Berth.slips (b : Berth) : List (Nat × Slip) := [(0, b.s0), (1, b.s1), (2, b.s2), (3, b.s3)]

/-- The index of the RUNNING slip (R218). -/
def Berth.running (b : Berth) : Option Nat :=
  firstSome (fun p => if p.2.st = .running then some p.1 else none) b.slips

/-- The slip that holds a scratchpad bank (R36). -/
def Berth.holder (b : Berth) (bank : Nat) : Option Nat :=
  firstSome (fun p => if bitOf p.2.banks bank then some p.1 else none) b.slips

/-- The bound slip of a berth that carries an actor with a tag (R266). -/
def Berth.tagged (b : Berth) (tag : Nat) : Option Nat :=
  firstSome (fun p => if p.2.bound && p.2.actor * (1 <<< 32) + p.2.incarn == tag then some p.1 else none) b.slips

/-- SLIPTAG of a slip (R30). -/
def Slip.tag (p : Slip) : Nat := p.actor * (1 <<< 32) + p.incarn

/-- Take a free value: the counter advances (log 4). -/
def State.freshened (s : State) : State := { s with fresh := s.fresh + 1 }

end Sys2Proof.Machine
end

