-- ==== Sys2Proof/Machine/Operands.lean ====
section
/-! DEFINITION. Registers: versions and distances (spec/01 R13 to R23, spec/06 R155 to R165, R495), the handler bank
(spec/11 R226), and the decode checks that depend on context (spec/02 R62 steps 4 and 5). -/
namespace Sys2Proof.Machine
open Sys2Proof

/-- Who executes: berth key, slip index (in a handler the tagged slip), and whether the berth's handler runs. -/
structure Ctx where
  b : Nat
  i : Nat
  hnd : Bool
  deriving DecidableEq, Repr

/-- The number of a set in R161. -/
def RSet.num : RSet → Nat
  | .g => 0
  | .f => 1
  | .w => 2
  | .q => 3
  | .m => 4

/-- The registers that hold constants and ignore writes: g0, q0, m0 (R13). -/
def isConst (set : RSet) (r : Nat) : Bool :=
  r == 0 && (match set with
    | .g => true
    | .q => true
    | .m => true
    | .f => false
    | .w => false)

/-- Does a loop's mask name a register? Bits for g0, q0 and m0 are ignored (R150). -/
def Masks.has (k : Masks) (set : RSet) (r : Nat) : Bool :=
  !isConst set r && bitOf (match set with
    | .g => k.g
    | .f => k.f
    | .w => k.w
    | .q => k.q
    | .m => k.m) r

/-- The levels R174 keeps: those active, or those a trap holds aside (R495), innermost first. -/
def Slip.allLevels (p : Slip) : List Level := p.levels ++ p.aside

/-- LCTL.DMAX (R23). -/
def Slip.dmax (p : Slip) : Nat :=
  match p.allLevels with
  | l :: _ => l.dmax
  | [] => p.lastDmax

/-- The current version of a register (R19, R155), one of its eight. -/
def Slip.curOf (p : Slip) (set : RSet) (r : Nat) : Nat := SMap.get 0 p.cur (set.num * 32 + r) % 8

/-- The level that versions a register, if one does. -/
def Slip.versionedBy (p : Slip) (set : RSet) (r : Nat) : Option Level := p.allLevels.find? (fun l => l.masks.has set r)

/-- The open after-loop window of a register, if one is open (R164). -/
def Slip.windowOf (p : Slip) (set : RSet) (r : Nat) : Option AfterWin := p.after.find? (fun a => a.masks.has set r)

/-- The version that a read at distance d names (R19, R158, R161, R164, R495). -/
def Slip.version (p : Slip) (set : RSet) (r d : Nat) : Nat :=
  let c := p.curOf set r
  if (p.versionedBy set r).isNone && (p.windowOf set r).isNone && !p.allLevels.isEmpty then c
  else (c + 8 - d % 8) % 8

/-- Does a read at distance d raise the distance fault (R23, R165)? -/
def Slip.distanceBad (p : Slip) (set : RSet) (r d : Nat) : Bool :=
  decide (d > p.dmax) ||
  (match p.versionedBy set r with
   | some l => decide (d > l.dmax)
   | none => match p.windowOf set r with
     | some a => decide (d > a.dmax)
     | none => false)

/-- Does a write at distance 0 raise the loop-invariant write fault (R161)? -/
def Slip.writeBad (p : Slip) (set : RSet) (r : Nat) : Bool :=
  match p.levels with
  | l :: _ => decide (l.width > 1) && !isConst set r && !l.masks.has set r
  | [] => false

/-! ### The slip's registers by version -/

def Slip.getG (p : Slip) (r d : Nat) : Word := if r = 0 then 0 else SMap.get 0 p.g (8 * r + p.version .g r d)
def Slip.getF (p : Slip) (r d : Nat) : W32 := SMap.get 0 p.f (8 * r + p.version .f r d)
def Slip.getW (p : Slip) (r d : Nat) : Wide := SMap.get 0 p.w (8 * r + p.version .w r d)
def Slip.getQ (p : Slip) (r d : Nat) : Bool := if r = 0 then true else SMap.get false p.q (8 * r + p.version .q r d)
def Slip.getM (p : Slip) (r d : Nat) : Word := if r = 0 then BitVec.allOnes 64 else SMap.get 0 p.m (8 * r + p.version .m r d)

def Slip.setG (p : Slip) (r : Nat) (v : Word) : Slip :=
  if r = 0 then p else { p with g := SMap.put p.g (8 * r + p.curOf .g r) v }
def Slip.setF (p : Slip) (r : Nat) (v : W32) : Slip := { p with f := SMap.put p.f (8 * r + p.curOf .f r) v }
def Slip.setW (p : Slip) (r : Nat) (v : Wide) : Slip := { p with w := SMap.put p.w (8 * r + p.curOf .w r) v }
def Slip.setQ (p : Slip) (r : Nat) (v : Bool) : Slip :=
  if r = 0 then p else { p with q := SMap.put p.q (8 * r + p.curOf .q r) v }
def Slip.setM (p : Slip) (r : Nat) (v : Word) : Slip :=
  if r = 0 then p else { p with m := SMap.put p.m (8 * r + p.curOf .m r) v }

/-! ### Reads and writes by whoever executes -/

/-- Change the handler of a berth. -/
def State.modHandler (s : State) (b : Nat) (f : Handler → Handler) : State :=
  s.modBerth b (fun x => { x with handler := x.handler.map f })

def State.readG (s : State) (c : Ctx) (r d : Nat) : Word :=
  if c.hnd then
    match (s.berth c.b).handler with
    | some h => if r = 0 then 0 else SMap.get 0 h.g r
    | none => 0
  else (s.slip c.b c.i).getG r d

def State.readW (s : State) (c : Ctx) (r d : Nat) : Wide :=
  if c.hnd then
    match (s.berth c.b).handler with
    | some h => SMap.get 0 h.w r
    | none => 0
  else (s.slip c.b c.i).getW r d

def State.readF (s : State) (c : Ctx) (r d : Nat) : W32 := (s.slip c.b c.i).getF r d
def State.readQ (s : State) (c : Ctx) (r d : Nat) : Bool := if c.hnd then true else (s.slip c.b c.i).getQ r d
def State.readM (s : State) (c : Ctx) (r d : Nat) : Word := if c.hnd then BitVec.allOnes 64 else (s.slip c.b c.i).getM r d

def State.writeG (s : State) (c : Ctx) (r : Nat) (v : Word) : State :=
  if c.hnd then s.modHandler c.b (fun h => if r = 0 then h else { h with g := SMap.put h.g r v })
  else s.modSlip c.b c.i (fun p => p.setG r v)

def State.writeW (s : State) (c : Ctx) (r : Nat) (v : Wide) : State :=
  if c.hnd then s.modHandler c.b (fun h => { h with w := SMap.put h.w r v })
  else s.modSlip c.b c.i (fun p => p.setW r v)

def State.writeF (s : State) (c : Ctx) (r : Nat) (v : W32) : State := s.modSlip c.b c.i (fun p => p.setF r v)
def State.writeQ (s : State) (c : Ctx) (r : Nat) (v : Bool) : State :=
  if c.hnd then s else s.modSlip c.b c.i (fun p => p.setQ r v)
def State.writeM (s : State) (c : Ctx) (r : Nat) (v : Word) : State :=
  if c.hnd then s else s.modSlip c.b c.i (fun p => p.setM r v)

/-- STATUS.PRIV as whoever executes sees it; a handler runs with 0 (R226). -/
def State.privOf (s : State) (c : Ctx) : Bool := !c.hnd && (s.slip c.b c.i).priv

/-! ### What an instruction names, and the checks of R62 steps 4 and 5 -/

/-- A register an instruction names: a source with its distance, a destination, a channel handle, a tile. -/
inductive Use where
  | src (set : RSet) (r d : Nat)
  | dst (set : RSet) (r : Nat)
  | handle (h : Nat)
  | tile (z : Nat)
  deriving DecidableEq, Repr

/-- A register outside the handler's bank (R226). -/
def RSet.outsideBank (set : RSet) (r : Nat) : Bool :=
  match set with
  | .g => decide (r ≥ 16)
  | .w => decide (r ≥ 4)
  | .f => true
  | .q => decide (r ≠ 0)
  | .m => decide (r ≠ 0)

def Use.outsideBank : Use → Bool
  | .src set r _ => set.outsideBank r
  | .dst set r => set.outsideBank r
  | .handle _ => true
  | .tile _ => true

def Use.distance : Use → Nat
  | .src _ _ d => d
  | .dst _ _ => 0
  | .handle _ => 0
  | .tile _ => 0

def Use.distanceBad (p : Slip) : Use → Bool
  | .src set r d => p.distanceBad set r d
  | .dst _ _ => false
  | .handle _ => false
  | .tile _ => false

/-- The loop-invariant write fault of a destination: its TVAL (R161). -/
def Use.writeFault (p : Slip) : Use → Option Word
  | .dst set r => if p.writeBad set r then some (natWord (set.num * 32 + r)) else none
  | .src _ _ _ => none
  | .handle _ => none
  | .tile _ => none

/-- How an instruction stands to modes: privileged, legal in a handler. -/
structure Mode where
  priv : Bool := false
  hnd : Bool := true
  deriving DecidableEq, Repr

/-- Steps 4 and 5 of R62 and the destination check of R161: the first fault, with its TVAL. The spec does not place cause 5 among the
execution faults of step 6; the model raises it before the others (log 98). -/
def State.contextFault (s : State) (c : Ctx) (word : Nat) (md : Mode) (uses : List Use) : Option (Nat × Word) :=
  if c.hnd then
    if !md.hnd || md.priv || uses.any Use.outsideBank then some (17, natWord word)
    else if uses.any (fun u => u.distance != 0) then some (4, natWord word)
    else none
  else
    let p := s.slip c.b c.i
    if md.priv && !p.priv then some (3, natWord word)
    else if uses.any (Use.distanceBad p) then some (4, natWord word)
    else match firstSome (Use.writeFault p) uses with
      | some tv => some (5, tv)
      | none => none

end Sys2Proof.Machine
end

