-- ==== Sys2Proof/Machine/Flags.lean ====
section
/-! DEFINITION. The deterministic event counters (spec/03 R93, spec/23 R442 to R445) and the q results of compares. -/
namespace Sys2Proof.Machine
open Sys2Proof

/-- The largest value of an event counter (R442). -/
def evcMax : Nat := 0xFFFFFFFF

/-- Add to a slip's share of EVCk, saturating (R442, R443). -/
def Slip.addEvc (p : Slip) (k n : Nat) : Slip :=
  if n = 0 then p else { p with evc := SMap.put p.evc k (min evcMax (SMap.get 0 p.evc k + n)) }

/-- Add to a berth-wide counter EVC8 to EVC15, saturating (R442, R443). -/
def Berth.addEvc (x : Berth) (k n : Nat) : Berth :=
  if n = 0 then x else { x with evcHi := SMap.put x.evcHi k (min evcMax (SMap.get 0 x.evcHi k + n)) }

/-- Count arithmetic events in the share of the slip that issued them; nothing counts while its INTRAP = 1 (R93). For a handler that is the
INTRAP of the slip that its tag names (log 97). -/
def Slip.count (p : Slip) (e : Ev) : Slip :=
  if p.intrap then p
  else ((((p.addEvc 0 e.nan).addEvc 1 e.ovf).addEvc 2 e.sat).addEvc 3 e.nscale).addEvc 7 e.udf

/-- Count events for whoever executes; a handler counts in the share of its tagged slip (R93). Iterations run in order, so the count of an
iteration stands as R148 has it (log 99). -/
def State.count (s : State) (c : Ctx) (e : Ev) : State :=
  if e = Ev.zero then s else s.modSlip c.b c.i (fun p => p.count e)

/-- Count one timing event of a berth (R442). -/
def State.timing (s : State) (b k : Nat) : State := s.modBerth b (fun x => x.addEvc k 1)

/-- The relations of the compares (R105). -/
inductive Rel where
  | eq | ne | lt | ltu | ge | geu
  deriving DecidableEq, Repr

/-- Does a relation hold of two words (R105)? -/
def Rel.holds (r : Rel) (a b : Word) : Bool :=
  match r with
  | .eq => a == b
  | .ne => a != b
  | .lt => decide (a.toInt < b.toInt)
  | .ltu => decide (a.toNat < b.toNat)
  | .ge => decide (a.toInt ≥ b.toInt)
  | .geu => decide (a.toNat ≥ b.toNat)

/-- The condition logic of R106. -/
inductive QOp where
  | and | or | xor
  deriving DecidableEq, Repr

def QOp.apply (o : QOp) (a b : Bool) : Bool :=
  match o with
  | .and => a && b
  | .or => a || b
  | .xor => Bool.xor a b

end Sys2Proof.Machine
end

