-- ==== Sys2Proof/Machine/Journal.lean ====
section
/-! DEFINITION. The journal of a checkpointed fault domain (spec/23 R416, R422 to R425). -/
namespace Sys2Proof.Machine
open Sys2Proof

/-- The fault domain of a slip (R416); none while it carries no actor. -/
def Slip.dom (p : Slip) : Option DomKey := p.act.map (fun a => { pkg := a.pkg, root := a.root, fdom := a.fdom })

def State.dom (s : State) (k : DomKey) : Option Dom := s.doms.find? (fun d => d.key = k)

/-- Replace a domain's entry, or add it. -/
def State.setDom (s : State) (d : Dom) : State :=
  { s with doms := d :: s.doms.filter (fun x => x.key ≠ d.key) }

/-- The range of keys a unit covers: base and length (R424). -/
def Unit'.range : Unit' → Nat × Nat
  | .scratch k => (k, 256)
  | .cell k => (k, 64)
  | .kv k => (k, 0)
  | .line k => (k, 0)
  | .page k => (k, 65536)

/-- The journal bytes a record takes; an OWNED part takes a whole shadow page (R424). -/
def Unit'.bytes : Unit' → Nat
  | .scratch _ => 288
  | .cell _ => 96
  | .kv _ => 16
  | .line _ => 16
  | .page _ => 0

def Unit'.isPage : Unit' → Bool
  | .page _ => true
  | .scratch _ => false
  | .cell _ => false
  | .kv _ => false
  | .line _ => false

/-- Shadow pages of 64 KiB that a journal takes, small records packed (R424). -/
def shadowPages (us : List Unit') : Nat :=
  (us.filter Unit'.isPage).length + ((us.map Unit'.bytes).foldl (· + ·) 0 + 65535) / 65536

/-- The record of a unit as it stands (R424). -/
def State.record (s : State) (u : Unit') : JRec :=
  let (b, n) := u.range
  { unit := u
    base := b
    len := n
    listed := s.mem.filter (fun c => decide (b ≤ c.1) && decide (c.1 < b + n))
    grans := s.grans.filter (fun c => decide (b ≤ c.1) && decide (c.1 < b + n))
    syncs := s.syncs.filter (fun c => decide (b ≤ c.1) && decide (c.1 < b + n))
    tag := match u with
      | .cell k => some (SMap.get {} s.cells k)
      | _ => none
    lineTag := match u with
      | .line k => SMap.get? (SMap.get {} s.pkgs (k >>> 80)).lines (k % (1 <<< 80))
      | _ => none
    kv := match u with
      | .kv k => some (SMap.get {} s.kv k)
      | _ => none
  }

/-- Is a place, berth and slip, one that a checkpoint holds? -/
def Ckpt.holds (k : Ckpt) (b i : Nat) : Bool := k.snaps.any (fun n => n.berth == b && n.index == i)

/-- Has a checkpoint begun to journal what a slip changes: is it not void, and has the slip completed its WINDOW.K? -/
def Ckpt.journals (k : Ckpt) (b i : Nat) : Bool := !k.void && !(k.waiting.any (fun m => m.berth == b && m.slip == i))

/-- A record with a change of its unit by a region. -/
def JRec.by (r : JRec) (region : Nat) (ch : Option Change) : JRec :=
  { r with
    regions := if r.regions.contains region then r.regions else region :: r.regions
    changes := match ch with
      | some c => r.changes ++ [(region, c)]
      | none => r.changes }

/-- A checkpoint with the first change of a unit recorded, by a slip of a region; a record that does not fit in the shadow pages voids it
(R424, R425). -/
def Ckpt.note (k : Ckpt) (b i region shadow : Nat) (u : Unit') (ch : Option Change) (r : JRec) : Ckpt :=
  if k.journals b i = false then k
  else if k.journal.any (fun r => r.unit = u) then
    { k with journal := k.journal.map (fun x => if x.unit = u then x.by region ch else x) }
  else if shadowPages (u :: k.journal.map JRec.unit) ≤ shadow then { k with journal := r.by region ch :: k.journal }
  else { k with void := true }

/-- The first change of a unit by, or on behalf of, a slip records the unit's earlier contents in its domain's journals; ch is the change. -/
def State.jot (s : State) (b i : Nat) (u : Unit') (ch : Option Change := none) : State :=
  match (s.slip b i).dom with
  | none => s
  | some key =>
    match s.dom key with
    | none => s
    | some d =>
      if d.ckpt.isNone && d.next.isNone then s
      else
        let region := (((s.slip b i).act).map Act.region).getD 0
        let note (k : Ckpt) : Ckpt := k.note b i region d.shadow u ch (s.record u)
        s.setDom { d with ckpt := d.ckpt.map note, next := d.next.map note }

/-- While a checkpoint is being taken, what a slip that has completed its WINDOW.K sends is held at its destination (R422). -/
def State.heldByCheckpoint (s : State) (b i : Nat) : Bool :=
  match (s.slip b i).dom with
  | none => false
  | some key =>
    match s.dom key with
    | none => false
    | some d => match d.next with
      | none => false
      | some k => !(k.waiting.any (fun m => m.berth == b && m.slip == i))

/-- Record the 256-byte granule of a scratchpad offset for the slip that holds its bank (R424). -/
def State.jotScratch (s : State) (b off : Nat) : State :=
  match (s.berth b).holder (off / 0x8000) with
  | some i => s.jot b i (.scratch (scratchKey b (off / 256 * 256)))
  | none => s

/-- The bytes of the code word at a key (R439): 8 in a scratchpad and in the Plain, elsewhere the array's own (log 105). -/
def codeSize (k : Nat) : Nat := if k >>> 60 = 15 then 8 <<< (Config.dramCode % 4) else 8

/-- Clear the poison of the code words that a store of n bytes at a key writes whole (R439). -/
def State.heal (s : State) (k n : Nat) : State :=
  if s.poison.isEmpty then s
  else { s with poison := s.poison.filter (fun w => !(decide (k ≤ w) && decide (w + codeSize w ≤ k + n))) }

/-- Is a code word that n bytes at a key touch poisoned (R296, R439)? -/
def State.poisoned (s : State) (k n : Nat) : Bool := s.poison.any (fun w => decide (w < k + n) && decide (k < w + codeSize w))

/-- The least of a list. -/
def leastOf (l : List Nat) : Option Nat :=
  l.foldl (fun best w => match best with
    | none => some w
    | some x => some (min x w)) none

/-- The lowest poisoned code word that n bytes at a key touch. -/
def State.badWord (s : State) (k n : Nat) : Option Nat :=
  leastOf (s.poison.filter (fun w => decide (w < k + n) && decide (k < w + codeSize w)))

/-- Does a store of n bytes at a key write only part of a poisoned code word (R439)? -/
def State.partPoisoned (s : State) (k n : Nat) : Bool :=
  s.poison.any (fun w => decide (w < k + n) && decide (k < w + codeSize w) && !(decide (k ≤ w) && decide (w + codeSize w ≤ k + n)))

/-- Record an uncorrectable error read by a berth in SERRLOG (R440): the first after VALID was cleared, else OVF. -/
def Berth.logError (x : Berth) (array addr : Nat) : Berth :=
  if bitOf x.serrlog.toNat 63 then { x with serrlog := x.serrlog ||| natWord (1 <<< 62) }
  else { x with serrlog := natWord ((1 <<< 63) + (x.serrlog.toNat &&& (1 <<< 62)) + (array % 16) <<< 58 + addr % (1 <<< 52)) }

/-- Record every 256-byte granule that n bytes at a scratchpad offset touch (R424). -/
def State.jotSpan (s : State) (b off n : Nat) : State :=
  (upTo ((off + n - 1) / 256 - off / 256)).foldl (fun t j => t.jotScratch b ((off / 256 + 1 + j) * 256)) (s.jotScratch b off)

/-- Store bytes in a berth's scratchpad: the granules are journaled, poison is healed. -/
def State.storeScratch (s : State) (b off : Nat) (bs : List Byte) : State :=
  ((s.jotSpan b off bs.length).heal (scratchKey b off) bs.length).poke (scratchKey b off) bs

end Sys2Proof.Machine
end

