-- ==== Sys2Proof/Machine/CraneLayout.lean ====
section
/-! DEFINITION. Crane formats, shapes and operand layouts (spec/18 R342 to R347), and what queued commands still read (R366). -/
namespace Sys2Proof.Machine
open Sys2Proof

/-! ### Formats and shapes (R342, R343) -/

/-- The element type of a plane FMT code, in the same numbering for activations. -/
def elemFmt (t : Nat) : Option Fmt :=
  match t with
  | 0 => some .bf16
  | 1 => some .fp16
  | 3 => some .e4m3
  | 4 => some .e5m2
  | 5 => some .e3m2
  | 6 => some .e2m3
  | 7 => some .e2m1
  | 8 => some .e2m1
  | _ => none

/-- Bits of an element of a FMT code. -/
def elemWidth (t : Nat) : Nat := match elemFmt t with
  | some f => f.width
  | none => 8

/-- Does a FMT code carry E8M0 scales; is it KF4? -/
def isMx (t : Nat) : Bool := (decide (3 ≤ t) && decide (t ≤ 7)) || t == 9
def isKf4 (t : Nat) : Bool := t == 8

/-- Kmax of a FMT code (R342). -/
def kmaxOf (t : Nat) : Nat :=
  match t with
  | 0 => 256
  | 1 => 256
  | 5 => 640
  | 6 => 640
  | 7 => 1024
  | 8 => 1024
  | _ => 512

/-- The activation type, the plane FMT and the shape table (0 H, 1 E, 2 S, 3 Q) of a pair index (R342). -/
def pairAct (p : Nat) : Nat := [0, 1, 2, 3, 3, 4, 4, 5, 6, 5, 7, 8, 3, 9].getD p 0
def pairPlane (p : Nat) : Nat := [0, 1, 2, 3, 4, 3, 4, 5, 6, 6, 7, 8, 8, 9].getD p 0
def pairTable (p : Nat) : Nat := [0, 0, 1, 1, 1, 1, 1, 2, 2, 2, 3, 3, 1, 1].getD p 0

/-- Dense K and the SP it needs for a K code in a table (R343). -/
def shapeK (table code : Nat) : Option (Nat × Nat) :=
  match code with
  | 0 => some (32, 0)
  | 1 => some (64, 0)
  | 2 => some (128, 0)
  | 3 => some (256, 0)
  | 4 => some (512, if table = 0 then 1 else 0)
  | 5 => (match table with
    | 0 => some (1024, 2)
    | 1 => some (1024, 1)
    | 2 => some (640, 0)
    | _ => some (1024, 0))
  | 6 => (match table with
    | 0 => none
    | 1 => some (2048, 2)
    | 2 => some (1280, 1)
    | _ => some (2048, 1))
  | _ => (match table with
    | 0 => none
    | 1 => none
    | 2 => some (2560, 2)
    | _ => some (4096, 2))

/-- N of an N code; 3 is unassigned. -/
def shapeN (code : Nat) : Option Nat := if code < 3 then some (8 <<< code) else none

/-- N, K and the SP needed of a shape code in a pair's table. -/
def shapeOf (pair code : Nat) : Option (Nat × Nat × Nat) :=
  match shapeN (code / 8), shapeK (pairTable pair) (code % 8) with
  | some n, some (k, sp) => some (n, k, sp)
  | _, _ => none

/-- The factor f of an SP code (R346). -/
def spFactor (sp : Nat) : Nat := 1 <<< sp

/-! ### Layouts (R345, R347) -/

/-- The bytes of the elements of k positions. -/
def elemBytes (t k : Nat) : Nat := if isKf4 t then k / 32 * 20 else k * elemWidth t / 8

/-- The bytes of an activation row, and of a stored column without masks, of k elements. -/
def rowBytes (t k : Nat) : Nat := elemBytes t k + (if isMx t then k / 32 else 0)

/-- The bytes of a column record. -/
def colBytes (g : PlaneTag) : Nat :=
  let k := 32 * g.kg
  rowBytes g.fmt (k / spFactor g.sp) + (if g.sp = 0 then 0 else k / 8)

/-- The exact value of element i of a row or column held as a little-endian number: its KF4 microscale included. -/
def elemVal (t v i : Nat) : Val :=
  if isKf4 t then
    let g := v >>> (160 * (i / 32))
    vmul (exact .e2m1 ((g >>> (4 * (i % 32))) % 16)) (exactE3M5 (g >>> (128 + 8 * (i % 32 / 8))))
  else
    let code := (v >>> (elemWidth t * i)) % (1 <<< elemWidth t)
    match elemFmt t with
    | some f => exact f code
    | none => if t = 9 then exactMxInt8 code else Val.ofInt (sext code 8)

/-- Is the microscale of element i NaN? -/
def microNan (t v i : Nat) : Bool := isKf4 t && (v >>> (160 * (i / 32) + 128 + 8 * (i % 32 / 8))) % 256 == 255

/-- The E8M0 scale of block j of a row or column of k elements, 1 for a type without. -/
def scaleVal (t k v j : Nat) : Val := if isMx t then exactE8 (v >>> (8 * (elemBytes t k + j))) else .fin false 1 0 false

/-- The commands not yet complete. -/
def Crane.open_ (k : Crane) : List CraneCmd := k.queue ++ k.running.toList

/-- The rows of bytes that a command reads: offset and length of each. -/
def CraneOp.reads (o : CraneOp) : List (Nat × Nat) :=
  match o with
  | .load _ g off stride _ => (upTo g.n).map (fun c => (off + c * stride, colBytes g))
  | .mma _ pair off stride m _ k => (upTo m).map (fun r => (off + r * stride, rowBytes (pairAct pair) k))
  | .swap => []
  | .clear _ => []

/-- Does a queued command of the berth still read a byte of [off, off + n) of the scratchpad (R316, R366)? -/
def State.craneBars (s : State) (b off n : Nat) : Bool :=
  (s.berth b).crane.open_.any (fun c => c.op.reads.any (fun r => decide (r.1 < off + n) && decide (off < r.1 + r.2)))

end Sys2Proof.Machine
end

