-- ==== Sys2Proof/Machine/Walks.lean ====
section
/-! DEFINITION. The walks of the lighter: the elements of a copy, their sources and destinations (spec/17 R323 to R327). -/
namespace Sys2Proof.Machine
open Sys2Proof

/-- The n-byte field at an offset of a record. -/
def fieldAt (bs : List Byte) (off n : Nat) : Nat := leNat ((bs.drop off).take n)

/-- The element size in bytes. -/
def Copy.esize (c : Copy) : Nat :=
  if c.kind = 0 then 1 else if c.kind = 1 then fieldAt c.geo 0 4 else fieldAt c.geo 8 1

/-- The counts CNT0 to CNT5 of an affine record (R324). -/
def Copy.counts (c : Copy) : List Nat := (upTo 6).map (fun j => fieldAt c.geo (8 + 4 * j) 4)

/-- Elements in a dense row of a bitmap copy (R327). -/
def Copy.rowLen (c : Copy) : Nat := fieldAt c.geo 4 4 / c.esize

/-- The number of elements of the walk (R327); 0 for a copy of zero extent. -/
def Copy.total (c : Copy) : Nat :=
  if c.kind = 0 then c.len
  else if c.kind = 1 then c.counts.foldl (· * ·) 1
  else fieldAt c.geo 0 4 * c.rowLen

/-- The bytes a copy contributes (R327). -/
def Copy.bytes (c : Copy) : Nat := c.total * c.esize

/-- Σ ij × stride j over the levels from j on, i the index left, innermost level first. -/
def strideSum (geo : List Byte) (base : Nat) : List Nat → Nat → Nat → Int
  | [], _, _ => 0
  | n :: ns, j, i => Int.ofNat (i % n) * sext (fieldAt geo (base + 8 * j) 8) 64 + strideSum geo base ns (j + 1) (i / n)

/-- The destination address of element i. -/
def Copy.dstOf (c : Copy) (i : Nat) : Word :=
  if c.kind = 0 then c.dst + natWord i
  else if c.kind = 1 then c.dst + toWord (strideSum c.geo 80 c.counts 0 i)
  else c.dst + toWord (Int.ofNat (i / c.rowLen) * sext (fieldAt c.geo 24 8) 64 + Int.ofNat (i % c.rowLen * c.esize))

/-- Do two ranges of addresses overlap? -/
def rangesMeet (a n b m : Nat) : Bool := decide (a < b + m) && decide (b < a + n)

/-- Is a copy still to move its elements? -/
def Copy.walking (c : Copy) : Bool := c.stage != .retired && c.reason == 0

/-- The key of the mask byte that holds the bit of element i of a bitmap copy: rows padded to 64 bits (R325, R327). -/
def Copy.maskKey (c : Copy) (i : Nat) : Nat :=
  let n := c.rowLen
  scratchKey c.berth (fieldAt c.geo 16 8 % 0x80000) + (i / n * (64 * ((n + 63) / 64)) + i % n) / 8

/-- The mask bit of element i, as the walk finds it when it reaches the element (R327). -/
def State.elemBit (s : State) (c : Copy) (i : Nat) : Bool := bitOf (s.byteAt (c.maskKey i)).toNat (i % c.rowLen % 8)

/-- How many of n elements from index i on have their bit set. -/
def State.onesFrom (s : State) (c : Copy) (i : Nat) : Nat → Nat
  | 0 => 0
  | n + 1 => b2n (s.elemBit c i) + s.onesFrom c (i + 1) n

/-- The source address of element i, at or after the walk's position; none for a zero of a bitmap copy, which reads nothing. The ones passed
count the element whose landing is held, which has been read. -/
def State.srcOf (s : State) (c : Copy) (i : Nat) : Option Word :=
  let next := c.pos + b2n c.buf.isSome
  if c.kind = 0 then some (c.src + natWord i)
  else if c.kind = 1 then some (c.src + toWord (strideSum c.geo 32 c.counts 0 i))
  else if s.elemBit c i then some (c.src + natWord ((c.ones + s.onesFrom c next (i - next)) * c.esize)) else none

end Sys2Proof.Machine
end

