-- ==== Sys2Proof/Machine/Access.lean ====
section
/-! DEFINITION. Paths, page walks, classes, and the checks that loads, stores and fetches make (spec/04 R119, spec/13 R251, R261,
spec/14 R269 to R281, spec/15 R295, spec/16 R319). -/
namespace Sys2Proof.Machine
open Sys2Proof

/-! ### The physical map and the page walk -/

/-- Is a physical range of a package bonded DRAM or attached CXL memory (R276)? -/
def State.inMemory (s : State) (pkg pa n : Nat) : Bool :=
  decide (pa + n ≤ 0x8000000000) ||
  (decide (0x8000000000000 ≤ pa) && decide (pa + n ≤ 0x8000000000000 + min (SMap.get 0 s.cxl pkg) 0x80000000000))

/-- Is a physical address a device register (R276)? -/
def isDevice (pa : Nat) : Bool := decide (0xF000000000000 ≤ pa) && decide (pa < 0x10000000000000)

/-- Is a berth one of its package's two control berths (R446, R452)? -/
def isControl (b : Nat) : Bool := berthIn b == Config.controlBerth 0 || berthIn b == Config.controlBerth 1

/-- The outcome of a translation: a leaf entry with the virtual base and size of its page, no entry, a bad entry. -/
inductive Xlat where
  | leaf (e base size : Nat)
  | absent
  | malformed
  deriving DecidableEq, Repr

/-- The lowest virtual-address bit that indexes a level, and its number of bits (R277). -/
def levelShift : Nat → Nat
  | 0 => 16
  | 1 => 21
  | 2 => 30
  | 3 => 39
  | _ => 48
def levelBits (l : Nat) : Nat := if l = 0 then 5 else 9

/-- Page classes (R280). -/
inductive Class where
  | none | const | owned | exchange | reduce | hostio | bad
  deriving DecidableEq, Repr

/-- CLASS of an entry (R278). -/
def classOf (e : Nat) : Class :=
  match bitsOf e 5 3 with
  | 0 => .none
  | 1 => .const
  | 2 => .owned
  | 3 => .exchange
  | 4 => .reduce
  | 5 => .hostio
  | _ => .bad

/-- ADDR of an entry: bits 51:8 in place (R278). -/
def addrOf (e : Nat) : Nat := bitsOf e 51 8 <<< 8

/-- Is a leaf at a level malformed (R279)? -/
def State.badLeaf (s : State) (pkg l e : Nat) : Bool :=
  decide (l ≥ 3) || bitsOf e 55 52 != 0 || addrOf e % (1 <<< levelShift l) != 0 ||
  (bitOf e 7 && classOf e != .const) || classOf e == .bad ||
  (bitsOf e 63 56 != 0 && classOf e != .owned) ||
  (classOf e != .hostio && !s.inMemory pkg (addrOf e) (1 <<< levelShift l))

/-- The walk from a table of level l down (R277, R279). -/
def State.walk (s : State) (pkg va : Nat) : Nat → Nat → Xlat
  | l, table =>
    let sh := levelShift l
    let e := s.natAt (physKey pkg (table + 8 * bitsOf va (sh + levelBits l - 1) sh)) 8
    if !bitOf e 0 then .absent
    else if bitsOf e 2 1 = 1 then
      if classOf e = .none then .absent
      else if s.badLeaf pkg l e then .malformed
      else .leaf e (va >>> sh <<< sh) (1 <<< sh)
    else if bitsOf e 2 1 ≠ 0 || bitsOf e 63 52 ≠ 0 || bitsOf e 7 3 ≠ 0 then .malformed
    else match l with
      | 0 => .malformed
      | l' + 1 => if l' ≠ 0 && addrOf e % 4096 ≠ 0 then .malformed else s.walk pkg va l' (addrOf e)

/-- Translate a virtual address under a root table; root 0 means no page table (R277). -/
def State.walkFrom (s : State) (pkg root va : Nat) : Xlat :=
  if root = 0 then .absent else s.walk pkg va 4 (root <<< 12)

/-- The cached leaf of a structure for a virtual address of an address space (R283). -/
def lookup (l : List TlbEntry) (asid va : Nat) : Option TlbEntry :=
  l.find? (fun t => t.asid == asid && decide (t.base ≤ va) && decide (va < t.base + t.size))

/-- Translate for a berth. With no page table no entry is found (R277); else a leaf that the berth's TLB of the access or its harbour's second
level holds may be used in place of a walk until it is flushed (R283, R284). -/
def State.translate (s : State) (b : Nat) (fetch : Bool) (va : Nat) : Xlat :=
  let x := s.berth b
  if x.root = 0 then .absent
  else match (lookup (if fetch then x.itlb else x.tlb) x.asid va).or (lookup (SMap.get [] s.tlb2 (harbourOf b)) x.asid va) with
  | some t => .leaf t.leaf t.base t.size
  | none => s.walkFrom (pkgOf b) x.root va

/-- The physical address of the leaf entry that a walk from a table of level l down ends at, and its level (R277). -/
def State.leafPlace (s : State) (pkg va : Nat) : Nat → Nat → Option (Nat × Nat)
  | l, table =>
    let sh := levelShift l
    let at_ := table + 8 * bitsOf va (sh + levelBits l - 1) sh
    let e := s.natAt (physKey pkg at_) 8
    if !bitOf e 0 then none
    else if bitsOf e 2 1 = 1 then some (at_, l)
    else match l with
      | 0 => none
      | l' + 1 => s.leafPlace pkg va l' (addrOf e)

/-- The physical address, or the host address of a HOSTIO page, that a leaf gives an address. -/
def leafAddr (e base va : Nat) : Nat := addrOf e + (va - base)

/-! ### Classes -/

/-- Means of access (R280). -/
inductive Acc where
  | fetch | load | store | copyIn | copyOut | bank
  deriving DecidableEq, Repr

/-- Does the class allow the access (R280, R281)? own says that the OWNER bit is set, ctl that a control berth asks. -/
def classAdmits (e : Nat) (a : Acc) (own ctl : Bool) : Bool :=
  match classOf e with
  | .const => match a with
    | .fetch => bitOf e 7
    | .load => true
    | .copyIn => true
    | .store => false
    | .copyOut => false
    | .bank => false
  | .owned => match a with
    | .fetch => false
    | .bank => false
    | .load => own
    | .store => own
    | .copyIn => own
    | .copyOut => own
  | .exchange => match a with
    | .copyIn => true
    | .copyOut => true
    | .fetch => false
    | .load => false
    | .store => false
    | .bank => false
  | .reduce => a == .bank
  | .hostio => ctl && a != .bank
  | .none => false
  | .bad => false

/-- Bit n of OWNMASK0 to OWNMASK3 of a slip (R281). -/
def Slip.owns (p : Slip) (n : Nat) : Bool :=
  bitOf (match n / 64 with
    | 0 => p.own0
    | 1 => p.own1
    | 2 => p.own2
    | _ => p.own3).toNat (n % 64)

/-- The leaf's OWNER (R278). -/
def ownerOf (e : Nat) : Nat := bitsOf e 63 56

/-! ### Where an access of one slip goes -/

/-- The outcome of the checks: the key of the first byte and whether the page is OWNED; a trap; the access held at the
walker (R293); a page that is not resident, with its 64 KiB page; a device register. -/
inductive Reach where
  | hit (k : Nat) (owned : Bool)
  | trap (cause : Nat)
  | held
  | absent (vpage : Nat)
  | device (pa : Nat)
  deriving DecidableEq, Repr

/-- The checks of a GLOBAL access of size z (R270, R295 steps 3 to 7). -/
def State.reachGlobal (s : State) (c : Ctx) (a : Acc) (ea z : Nat) : Reach :=
  if bitsOf ea 59 57 ≠ 0 then .trap 9
  else if ea % z ≠ 0 then .trap 8
  else
    let va := bitsOf ea 56 0
    match s.translate c.b (a == .fetch) va with
    | .absent => .absent (va / 65536)
    | .malformed => .trap 10
    | .leaf e base _ =>
      if !classAdmits e a ((s.slip c.b c.i).owns (ownerOf e)) (isControl c.b) then .trap 10
      else if bitOf e 6 then .held
      else if classOf e = .hostio then .hit (hostKey (leafAddr e base va)) false
      else .hit (physKey (pkgOf c.b) (leafAddr e base va)) (classOf e == .owned)

/-- The checks of a SYSTEM access of size z (R276, R295 steps 2 to 4). -/
def State.reachSystem (s : State) (c : Ctx) (ea z : Nat) : Reach :=
  let pa := bitsOf ea 51 0
  if !s.privOf c then .trap 3
  else if bitsOf ea 59 52 ≠ 0 || !(s.inMemory (pkgOf c.b) pa 1 || isDevice pa) then .trap 9
  else if ea % z ≠ 0 then .trap 8
  else if isDevice pa then .device pa
  else .hit (physKey (pkgOf c.b) pa) false

/-- Bank held (R36). -/
def State.holdsBank (s : State) (c : Ctx) (off : Nat) : Bool := bitOf (s.slip c.b c.i).banks (off / 0x8000)

/-- The checks of a fetch of a halfword (R40, R269). -/
def State.reachFetch (s : State) (c : Ctx) (ea : Nat) : Reach :=
  match bitsOf ea 63 60 with
  | 0 => s.reachGlobal c .fetch ea 2
  | 1 =>
    if bitsOf ea 59 19 ≠ 0 then .trap 9
    else if ea % 2 ≠ 0 then .trap 8
    else if !s.holdsBank c (bitsOf ea 18 0) then .trap 12
    else .hit (scratchKey c.b (bitsOf ea 18 0)) false
  | _ => .trap 9

/-- The halfword at an address, where its fetch succeeds. -/
def State.fetchHalf (s : State) (c : Ctx) (a : Word) : Option Nat :=
  match s.reachFetch c a.toNat with
  | .hit k _ => if s.poisoned k 2 then none else some (s.natAt k 2)
  | _ => none

/-- The length of the instruction at an address (R24, R39). -/
def State.lenAt (s : State) (c : Ctx) (a : Word) : Option Nat :=
  (s.fetchHalf c a).map (fun h => if h % 2 = 1 then 4 else 2)

/-! ### Copies in progress (R316, R332) -/

/-- The memory key that an address of a berth's slips names; two names of one byte have one key. A GLOBAL address that no leaf translates
stands for itself. -/
def State.byteKey (s : State) (b : Nat) (a : Nat) : Nat :=
  match bitsOf a 63 60 with
  | 0 => match s.translate b false (bitsOf a 56 0) with
    | .leaf e base _ =>
      let x := leafAddr e base (bitsOf a 56 0)
      if classOf e = .hostio then hostKey x else physKey (pkgOf b) x
    | .absent => a
    | .malformed => a
  | 1 => scratchKey b (bitsOf a 18 0)
  | 15 => physKey (pkgOf b) (bitsOf a 51 0)
  | _ => a

/-- Does some element from index i on, n of them, read a byte of the m at a key, its source or its mask bit? -/
def State.readsFrom (s : State) (c : Copy) (key m : Nat) (i : Nat) : Nat → Bool
  | 0 => false
  | n + 1 =>
    (match s.srcOf c i with
     | some x => rangesMeet (s.byteKey c.berth x.toNat) c.esize key m
     | none => false) || (c.kind == 2 && rangesMeet (c.maskKey i) 1 key m) || s.readsFrom c key m (i + 1) n

/-- Does some element from index i on, n of them, land on a byte of the m at a key? -/
def State.landsFrom (s : State) (c : Copy) (key m : Nat) (i : Nat) : Nat → Bool
  | 0 => false
  | n + 1 => rangesMeet (s.byteKey c.berth (c.dstOf i).toNat) c.esize key m || s.landsFrom c key m (i + 1) n

/-- Does a copy still read a byte of the m at a key? An element whose landing is held has been read (R318). -/
def State.stillReads (s : State) (c : Copy) (key m : Nat) : Bool :=
  let next := c.pos + b2n c.buf.isSome
  c.walking && s.readsFrom c key m next (c.total - next)

/-- Does a copy still land on a byte of the m at a key? -/
def State.stillLands (s : State) (c : Copy) (key m : Nat) : Bool := c.walking && s.landsFrom c key m c.pos (c.total - c.pos)

/-- A store of a slip waits while an earlier copy of the slip still reads the byte (R316), or still lands on a GLOBAL or
SYSTEM byte of it (R332); a load waits for the landing only. -/
def State.copyBars (s : State) (c : Ctx) (store : Bool) (ea n : Nat) : Bool :=
  s.copies.any (fun x => x.berth == c.b && x.slip == c.i &&
    ((store && s.stillReads x (s.byteKey c.b ea) n) || (bitsOf ea 63 60 != 1 && s.stillLands x (s.byteKey c.b ea) n)))

/-! ### Racing reads (R312, R313) -/

/-- May a read of whoever executes at a memory key race: privileged code, on the SYSTEM path or at host memory (R313)? -/
def State.mayRace (s : State) (c : Ctx) (sys : Bool) (key : Nat) : Bool := s.privOf c && !c.hnd && (sys || decide (key ≥ 1 <<< 64))

/-- Does a byte that a racing read is to return lie among n at a key? -/
def earlyIn (key n : Nat) (e : Nat × Byte) : Bool := decide (key ≤ e.1) && decide (e.1 < key + n)

/-- A store of the slip to n bytes at a key, or its read of them: a later read does not return what was taken before it (R312). -/
def Slip.dropEarly (p : Slip) (key n : Nat) : Slip := { p with early := p.early.filter (fun e => !earlyIn key n e) }

/-- The bytes that a racing read of a slip returns: each that it took from other writes, else the latest (R313). -/
def State.racingBytes (s : State) (b i key n : Nat) : List Byte :=
  (upTo n).map (fun j => match (s.slip b i).early.find? (fun e => e.1 == key + j) with
    | some e => e.2
    | none => s.byteAt (key + j))

/-- What a load finds at a key: where it may race, byte by byte what it took from other writes, if it did so since the slip's last acquire; else
the latest ones (R312, R313, log 6). -/
def State.loadBytes (s : State) (c : Ctx) (sys : Bool) (key n : Nat) : State × List Byte :=
  if s.mayRace c sys key && (s.slip c.b c.i).early.any (earlyIn key n) then
    (s.modSlip c.b c.i (fun p => p.dropEarly key n), s.racingBytes c.b c.i key n)
  else (s, s.bytesAt key n)

/-- What a slip's racing reads took at bytes that the slip, or a copy of it, now writes is dropped (R312). -/
def State.storedOver (s : State) (b i key n : Nat) : State :=
  if (s.slip b i).early.any (earlyIn key n) then s.modSlip b i (fun p => p.dropEarly key n) else s

/-- The slip acquires: a later read does not return what was taken before it (R311, R314). -/
def State.acquired (s : State) (c : Ctx) : State :=
  if (s.slip c.b c.i).early.isEmpty then s else s.modSlip c.b c.i (fun p => { p with early := [] })

/-- The racing reads of a slip are to return these bytes of SYSTEM or host memory (R313), each its own (log 6). -/
def State.readBytes (s : State) (b i key : Nat) (bs : List Byte) : State :=
  if key >>> 60 = 15 || decide (key ≥ 1 <<< 64) then
    s.modSlip b i (fun p => { p with early := (upTo bs.length).map (fun j => (key + j, bs.getD j 0)) ++ p.early })
  else s

/-- The racing reads of a slip take n bytes before their instruction (R313). -/
def State.readEarly (s : State) (b i key n : Nat) : State := s.readBytes b i key (s.bytesAt key n)

/-! ### LOCAL accesses: sync words, rings, GET destinations, touch marks -/

/-- TVAL of cause 16 (R250). -/
def channelTval (reason handle off : Nat) : Word := natWord (reason + handle <<< 8 + off <<< 32)

/-- The consumer handles of a berth whose rings hold one of n bytes at a scratchpad offset: slip, handle, channel. -/
def Berth.ringsIn (x : Berth) (off n : Nat) : List (Nat × Nat × Chan) :=
  x.slips.flatMap (fun p => (p.2.chans.filter (fun e =>
    decide (e.2.role = .consumer) && rangesMeet e.2.base (e.2.cap * e.2.slotb) off n)).map (fun e => (p.1, e.1, e.2)))

/-- Of each 32-byte granule of a ring that n bytes at an offset touch, the first byte touched. The granules of a ring are counted from
its base, as its granted window is (R251, log 100). -/
def Chan.touched (ch : Chan) (off n : Nat) : List Nat :=
  let a := max off ch.base
  ((upTo (n / 32 + 2)).map (fun j => max a (ch.base + ((a - ch.base) / 32 + j) * 32))).filter
    (fun o => decide (o < min (off + n) (ch.base + ch.cap * ch.slotb)))

/-- The entry of least offset. -/
def lowest (l : List (Nat × Nat)) : Option (Nat × Nat) :=
  l.foldl (fun best o => match best with
    | none => some o
    | some x => if o.1 < x.1 then some o else best) none

/-- Is the 32-byte granule of a ring at offset off within the consumer's granted window (R251)? -/
def Chan.granted32 (ch : Chan) (off : Nat) : Bool :=
  let n := ch.cap * ch.slotb
  let start := ch.ri * ch.slotb % n
  decide ((((off - ch.base) / 32 * 32 + n - start) % n) < ch.granted * ch.slotb)

/-- The granules of 32 bytes that z bytes at an offset touch. -/
def granulesOf (off z : Nat) : List Nat := (upTo ((off + z - 1) / 32 - off / 32 + 1)).map (fun j => off / 32 * 32 + 32 * j)

/-- A plain access of a slip to n bytes breaks the ring rule (R251): its TVAL, with the ring's handle and the offset of the first byte touched
that is not granted. -/
def State.ringFault (s : State) (c : Ctx) (off n : Nat) : Option Word :=
  (lowest (((s.berth c.b).ringsIn off n).flatMap (fun r =>
    ((r.2.2.touched off n).filter (fun o => !(r.1 == c.i && r.2.2.granted32 o))).map (fun o => (o, r.2.1))))).map
    (fun e => channelTval 4 e.2 e.1)

/-- A plain access of a requester to a granule of an open GET's destination (R261): its TVAL. -/
def State.getFault (s : State) (c : Ctx) (off : Nat) : Option Word :=
  if (s.slip c.b c.i).gets.any (fun g => rangesMeet (g.off / 32 * 32) ((g.off + g.size + 31) / 32 * 32 - g.off / 32 * 32) off 32)
  then some (localAddr off) else none

/-- The checks of a LOCAL load or store of size z: a fault, or none. Those of the ring rule (R251) and of open GETs (R261), which the spec does
not place among the steps of R119, follow them in this order (log 98). -/
def State.localFault (s : State) (c : Ctx) (ea z : Nat) : Option (Nat × Word) :=
  let off := bitsOf ea 18 0
  let tv := natWord ea
  if bitsOf ea 59 19 ≠ 0 then some (9, tv)
  else if ea % z ≠ 0 then some (8, tv)
  else if !s.holdsBank c off then some (12, tv)
  else if (upTo ((z + 15) / 16)).any (fun j => (SMap.get? s.syncs (scratchKey c.b (off / 16 * 16 + 16 * j))).isSome) then some (21, tv)
  else match s.ringFault c off z with
    | some t => some (16, t)
    | none => match firstSome (s.getFault c) (granulesOf off z) with
      | some t => some (20, t)
      | none => none

/-- Is generation a at or before generation b, modulo 2^32? -/
def genLe (a b : Nat) : Bool := decide ((b + (1 <<< 32) - a % (1 <<< 32)) % (1 <<< 32) < 1 <<< 31)

/-- The hidden part of a defined sync word changes. -/
def State.setSync (s : State) (key : Nat) (w : SyncWord) : State := { s with syncs := SMap.put s.syncs key w }
def State.gran (s : State) (key : Nat) : Gran := SMap.get {} s.grans key
def State.setGran (s : State) (key : Nat) (g : Gran) : State := { s with grans := SMap.set {} s.grans key g }

/-- Mark an overlap on a sync word at a generation, for a granule (R308, R319); EVC13 of its berth counts it (R442). -/
def State.markOverlap (s : State) (b key gen granule : Nat) : State :=
  match SMap.get? s.syncs key with
  | none => s
  | some w => ((s.jotScratch b (key - scratchKey b 0)).setSync key { w with overlaps := w.overlaps ++ [(gen, granule)] }).timing b 13

/-- A plain access of the holder to a granule outside the rings: landing records not yet acquired mark an overlap, and the
touch mark is set (R319, R424). -/
def State.touch (s : State) (c : Ctx) (off : Nat) : State :=
  if !((s.berth c.b).ringsIn off 32).isEmpty then s
  else
    let key := scratchKey c.b off
    let g := s.gran key
    let s1 := g.records.foldl (fun t r => match SMap.get? t.syncs r.1 with
      | some w => if genLe w.aq r.2 then t.markOverlap c.b r.1 r.2 key else t
      | none => t) s
    if g.touch then s1 else (s1.jotScratch c.b off).setGran key { g with touch := true }

/-- Touch every granule of an access. -/
def State.touchAll (s : State) (c : Ctx) (off z : Nat) : State := (granulesOf off z).foldl (fun t g => t.touch c g) s

/-- A release of the holder clears its touch marks: those of the banks it holds (R319). -/
def State.clearTouch (s : State) (b i : Nat) : State :=
  let banks := (s.slip b i).banks
  { s with grans := (s.grans.map (fun e =>
      if decide (scratchKey b 0 ≤ e.1) && decide (e.1 < scratchKey b 0 + 0x80000) && bitOf banks ((e.1 - scratchKey b 0) / 0x8000)
      then (e.1, { e.2 with touch := false }) else e)).filter (fun e => decide (e.2 ≠ {})) }

end Sys2Proof.Machine
end

