-- ==== Sys2Proof/Machine/Queue.lean ====
section
/-! DEFINITION. The PC queue and the loop levels (spec/01 R22, R24, spec/06 R155 to R167, R173, R175). The argument len gives
the length of the instruction at an address, none where its first halfword cannot be fetched. -/
namespace Sys2Proof.Machine
open Sys2Proof

/-- The registers a mask names, as keys 32 × set + number. -/
def Masks.keys (k : Masks) : List (RSet × Nat) :=
  ((upTo 32).filter (fun r => k.has .g r)).map (fun r => (RSet.g, r)) ++
  ((upTo 32).filter (fun r => k.has .f r)).map (fun r => (RSet.f, r)) ++
  ((upTo 32).filter (fun r => k.has .w r)).map (fun r => (RSet.w, r)) ++
  ((upTo 8).filter (fun r => k.has .q r)).map (fun r => (RSet.q, r)) ++
  ((upTo 8).filter (fun r => k.has .m r)).map (fun r => (RSet.m, r))

/-- Copy one version of a register to another. -/
def Slip.copyVersion (p : Slip) (set : RSet) (r from_ to_ : Nat) : Slip :=
  match set with
  | .g => { p with g := SMap.put p.g (8 * r + to_) (SMap.get 0 p.g (8 * r + from_)) }
  | .f => { p with f := SMap.put p.f (8 * r + to_) (SMap.get 0 p.f (8 * r + from_)) }
  | .w => { p with w := SMap.put p.w (8 * r + to_) (SMap.get 0 p.w (8 * r + from_)) }
  | .q => { p with q := SMap.put p.q (8 * r + to_) (SMap.get false p.q (8 * r + from_)) }
  | .m => { p with m := SMap.put p.m (8 * r + to_) (SMap.get 0 p.m (8 * r + from_)) }

/-- Set the current version of a register. -/
def Slip.setCur (p : Slip) (set : RSet) (r v : Nat) : Slip := { p with cur := SMap.put p.cur (set.num * 32 + r) v }

/-- All eight versions of a register take the value of its current one (R155). -/
def Slip.spread (p : Slip) (set : RSet) (r : Nat) : Slip :=
  (upTo 8).foldl (fun q v => q.copyVersion set r (p.curOf set r) v) p

/-- A register moves to the next version, which starts as a copy of the one before: carry-forward and the read before any
write (R20, R158, R160). -/
def Slip.nextVersion (p : Slip) (set : RSet) (r : Nat) : Slip :=
  let c := p.curOf set r
  (p.copyVersion set r c ((c + 1) % 8)).setCur set r ((c + 1) % 8)

/-- Every register of a mask moves to its next version. -/
def Slip.nextVersions (p : Slip) (k : Masks) : Slip := k.keys.foldl (fun q x => q.nextVersion x.1 x.2) p

/-- Iteration idx of the innermost loop retires and the next begins (R162, R163). -/
def Slip.nextIteration (p : Slip) : Slip :=
  match p.levels with
  | l :: t => { p.nextVersions l.masks with levels := { l with idx := l.idx + 1 } :: t }
  | [] => p

/-- The innermost loop ends with n iterations retired (R162, R164). -/
def Slip.endLevel (p : Slip) (n : Nat) (left : Bool) : Slip :=
  match p.levels with
  | l :: t =>
    { p with
      levels := t
      after := { masks := l.masks, dmax := l.dmax } :: p.after
      lastDmax := if t.isEmpty then l.dmax else p.lastDmax
      lexit := n % (1 <<< 32) + withBit left 32 }
  | [] => p

/-- End every active level from the innermost outward, counting the executing iteration (R175). -/
def Slip.endLevels : Nat → Slip → Slip
  | 0, p => p
  | fuel + 1, p =>
    match p.levels with
    | l :: _ => Slip.endLevels fuel (p.endLevel (l.idx + 1) false)
    | [] => p

/-! ### The queue -/

/-- The entry for a sequential successor, by the tail rule of R163; ahead counts the iteration starts still in the queue. -/
def Slip.tailEntry (p : Slip) (ahead : Nat) (seq : Option Word) : QE :=
  match seq with
  | none => { addr := none }
  | some a =>
    match p.levels with
    | l :: _ =>
      if a = l.stop then
        if l.idx + ahead + 1 < l.count then { addr := some l.start, tag := .iter } else { addr := some a, tag := .exit }
      else { addr := some a }
    | [] => { addr := some a }

/-- The address after an entry. -/
def QE.after (e : QE) (len : Word → Option Nat) : Option Word :=
  match e.addr with
  | none => none
  | some a => (len a).map (fun n => a + natWord n)

/-- How many of the entries start an iteration. -/
def aheadOf (es : List QE) : Nat := (es.filter (fun e => e.tag = .iter)).length

/-- Fill in the addresses that a length not readable before left open, keeping flags and slot marks. -/
def Slip.resolve (p : Slip) (len : Word → Option Nat) : Slip :=
  let q := p.live
  let q1 := if q.q1.addr.isSome then q.q1 else
    let e := p.tailEntry 0 (q.q0.after len)
    { e with nf := q.q1.nf, slot := q.q1.slot, taken := q.q1.taken }
  let q2 := if q.q2.addr.isSome then q.q2 else
    let e := p.tailEntry (aheadOf [q1]) (q1.after len)
    { e with nf := q.q2.nf, slot := q.q2.slot, taken := q.q2.taken }
  { p with live := { q with q1 := q1, q2 := q2 } }

/-- Refill the queue with an address and the two that follow it, flags clear (R163, R180); an address that ends enclosing
iterations or loops does so (R173). fuel bounds the levels that can end at one address. -/
def Slip.refill (len : Word → Option Nat) : Nat → Slip → Word → Slip
  | 0, p, a => { p with live := { q0 := { addr := some a }, q1 := { addr := none }, q2 := { addr := none } } }
  | fuel + 1, p, a =>
    let e := p.tailEntry 0 (some a)
    match e.tag with
    | .iter => Slip.refill len fuel p.nextIteration (e.addr.getD a)
    | .exit =>
      match p.levels with
      | l :: _ => Slip.refill len fuel (p.endLevel (l.idx + 1) false) a
      | [] => p
    | .leave => p
    | .plain =>
      let q0 : QE := { addr := some a }
      let q1 := p.tailEntry 0 (q0.after len)
      let q2 := p.tailEntry (aheadOf [q1]) (q1.after len)
      { p with live := { q0 := q0, q1 := q1, q2 := q2 } }

/-- Fuel for refill: two steps for each level that can end at one address, and the fill. -/
def refillFuel : Nat := 16

/-- The entry now at PCQ0 takes effect on the loops: an iteration begins, or a loop ends (R162, R163, R167). -/
def Slip.arrive (p : Slip) (len : Word → Option Nat) : Slip :=
  let q := p.live
  let p0 := { p with live := { q with q0 := { q.q0 with tag := .plain } } }
  match q.q0.tag, p.levels with
  | .iter, _ :: _ => p0.nextIteration
  | .exit, l :: _ => Slip.refill len refillFuel (p0.endLevel (l.idx + 1) false) l.stop
  | .leave, l :: _ => Slip.refill len refillFuel (p0.endLevel (l.idx + 1) true) l.stop
  | _, _ => p0

/-- A branch that executed: taken, its target, whether its slots are nullified, whether it is a LEAVE. -/
structure Branch where
  taken : Bool
  target : Word
  nullify : Bool
  leave : Bool
  deriving DecidableEq, Repr

/-- One step of the queue (R24): shift, append the tail, set the nullify flags, mark the slots; then R162 and R163. -/
def Slip.advance (p0 : Slip) (len : Word → Option Nat) (br : Option Branch) : Slip :=
  let p := p0.resolve len
  let q := p.live
  match br with
  | none =>
    let tail := p.tailEntry (aheadOf [q.q1, q.q2]) (q.q2.after len)
    ({ p with live := { q0 := q.q1, q1 := q.q2, q2 := tail } }).arrive len
  | some x =>
    let mark (e : QE) : QE := { e with nf := e.nf || x.nullify, slot := true, taken := e.taken || x.taken }
    let tail : QE := if x.taken then { addr := some x.target, tag := if x.leave then .leave else .plain }
      else p.tailEntry (aheadOf [q.q1, q.q2]) (q.q2.after len)
    ({ p with live := { q0 := mark q.q1, q1 := mark q.q2, q2 := tail } }).arrive len

/-- The handler's queue has no loops: R24 alone. -/
def Queue.advance (q0 : Queue) (len : Word → Option Nat) (br : Option Branch) : Queue :=
  let blank : Slip := { live := q0 }
  (blank.advance len br).live

/-- A queue that starts at an address. -/
def Queue.start (len : Word → Option Nat) (a : Word) : Queue :=
  let q0 : QE := { addr := some a }
  let q1 : QE := { addr := q0.after len }
  { q0 := q0, q1 := q1, q2 := { addr := q1.after len } }

end Sys2Proof.Machine
end

