-- ==== Sys2Proof/Machine/Ops.lean ====
section
/-! DEFINITION. The shared operations: taking a trap and returning from one (spec/07 R180 to R188), faults that reach a fault
domain (spec/23 R417, R427, spec/24 R446), waiting, and how an instruction ends (spec/01 R24). -/
namespace Sys2Proof.Machine
open Sys2Proof

/-- The outcome of a step. -/
abbrev Out := Host.Outcome State Fault Refusal

/-! ### Packages and what a berth shows -/

def State.pkg (s : State) (p : Nat) : Pkg := SMap.get {} s.pkgs p
def State.setPkg (s : State) (p : Nat) (x : Pkg) : State := { s with pkgs := SMap.put s.pkgs p x }
def State.modPkg (s : State) (p : Nat) (f : Pkg → Pkg) : State := s.setPkg p (f (s.pkg p))

/-- IPEND of a berth, TIM among it (R190, R191). -/
def Berth.tim (x : Berth) : Bool := x.tcmp != 0 && decide (x.cycle.toNat ≥ x.tcmp.toNat)
def Berth.ipend (x : Berth) : Nat := withBit x.tim 0 + withBit x.ipMsg 1 + withBit x.ipDbell 2

/-- The enables of a slip as IPEND orders its sources (R192). -/
def Slip.enables (p : Slip) : Nat := withBit p.tie 0 + withBit p.mie 1 + withBit p.dbie 2

/-- The sources pending and enabled (R192). -/
def State.pendingFor (s : State) (b i : Nat) : Nat := (s.berth b).ipend &&& (s.slip b i).enables

/-! ### Traps -/

/-- Is a cause answered by rollback instead of a trap (R427)? Cause 30 is when its reason is 12 (R328). -/
def rollbackClass (cause : Nat) (tval : Word) : Bool :=
  cause == 25 || cause == 29 || (cause == 30 && bitsOf tval.toNat 7 0 == 12)

/-- The address at a slip's PCQ0. -/
def Slip.pc (p : Slip) : Word := p.live.q0.addr.getD 0

/-- TCAUSE at entry (R27, R180, R181). -/
def Slip.causeWord (p : Slip) (cause : Nat) : Nat :=
  cause % 64 + withBit p.live.q0.slot 6 + withBit (!p.levels.isEmpty) 7

/-- Trap entry, as one step (R180, R183): the queue and flags are saved, the enables cleared, the mode raised unless this is
an upcall, the levels held aside (R174, R495), and the queue restarted at the vector. -/
def Slip.enterTrap (p : Slip) (len : Word → Option Nat) (cause : Nat) (tval vec : Word) (upcall : Bool) : Slip :=
  { p with
    saved := p.live
    ppriv := p.priv
    pie := withBit p.dbie 0 + withBit p.mie 1 + withBit p.tie 2
    tie := false
    mie := false
    dbie := false
    priv := !upcall
    intrap := true
    tcause := p.causeWord cause
    tval := tval
    aside := p.levels
    levels := []
    begun := false
    live := Queue.start len vec }

/-- Return from a trap (R188): the saved queue, mode and enables come back, and the levels (R495). -/
def Slip.leaveTrap (p : Slip) (len : Word → Option Nat) : Slip :=
  Slip.arrive
    { p with
      live := p.saved
      priv := p.ppriv
      dbie := bitOf p.pie 0
      mie := bitOf p.pie 1
      tie := bitOf p.pie 2
      intrap := false
      levels := p.aside
      aside := [] } len

/-- Whose the faults of a slip are (R416, R417). -/
def Slip.owner (p : Slip) : Option Owner :=
  p.act.map (fun a => { dom := { pkg := a.pkg, root := a.root, fdom := a.fdom }, region := a.region, actor := p.actor })

/-- The saved PCQ0 that a fault record of a slip gives (R419): the one its trap saved, outside a trap the one it is at. -/
def Slip.recordPc (p : Slip) : Word := if p.intrap then p.saved.q0.addr.getD 0 else p.pc

/-- A stop of a domain on its way (R417), for what a slip did on behalf of an owner. -/
def State.stopFor (s : State) (b i kind cause : Nat) (tval : Word) (owner : Option Owner) : State :=
  { s with stops := s.stops ++
      [{ berth := b, slip := i, kind := kind, cause := cause, tval := tval, pcq0 := (s.slip b i).recordPc, owner := owner }] }

/-- Report a fault of a slip to its fault domain (R417). -/
def State.report (s : State) (b i kind cause : Nat) (tval : Word) : State := s.stopFor b i kind cause tval (s.slip b i).owner

/-- Is a berth the active control berth of its package (R230, R446)? -/
def State.isActive (s : State) (b : Nat) : Bool := berthIn b == Config.controlBerth (s.pkg (pkgOf b)).actcb

/-- A double fault (R182): the slip stops with its saved state; the active control berth's starts a takeover (R446). -/
def State.doubleFault (s : State) (b i cause : Nat) (tval : Word) : State :=
  if s.isActive b then
    { s.modSlip b i (fun p => { p with stopped := true }) with takeovers := s.takeovers ++ [(b, cause)] }
  else (s.modSlip b i (fun p => { p with stopped := true })).report b i 2 cause tval

/-- A rollback-class fault (R427): TCAUSE and TVAL are kept in the slip, its domain rolls back; on the active control berth cause 25
starts a takeover (R446). word is the failing word, where TVAL does not name it: that of a key-value page (R395). -/
def State.rollbackFault (s : State) (b i cause : Nat) (tval : Word) (word : Option Nat := none) : State :=
  let s1 := s.modSlip b i (fun p => { p with tcause := p.causeWord cause, tval := tval, stopped := true })
  if s.isActive b && cause == 25 then { s1 with takeovers := s1.takeovers ++ [(b, cause)] }
  else
    { s1 with rollbacks := s1.rollbacks ++
        [{ berth := b, slip := i, kind := 3, cause := cause, tval := tval, pcq0 := (s.slip b i).recordPc, owner := (s.slip b i).owner, word := word }] }

/-- A rollback-class fault on behalf of a slip that has gone on (R427, R439): the slip keeps cause and TVAL where it is still the owner's. -/
def State.rollbackFor (s : State) (b i cause : Nat) (tval : Word) (owner : Option Owner) : State :=
  if (s.slip b i).owner = owner then s.rollbackFault b i cause tval
  else { s with rollbacks := s.rollbacks ++
    [{ berth := b, slip := i, kind := 3, cause := cause, tval := tval, pcq0 := (s.slip b i).recordPc, owner := owner }] }

/-- Causes that a user program with UPVEC takes as an upcall (R183, R393). -/
def upcallCause (cause : Nat) : Bool := cause == 11 || cause == 23

/-- Raise a cause in a slip (R180, R182, R183, R427). hard sends a page fault to TVEC in any case (R289). A rollback-class cause is no double
fault, though INTRAP is 1 or TVEC is 0; an upcall needs no TVEC (log 19). -/
def State.raiseSlip (s : State) (b i cause : Nat) (tval : Word) (hard : Bool) : State :=
  let x := s.berth b
  let p := s.slip b i
  let len := s.lenAt { b := b, i := i, hnd := false }
  if rollbackClass cause tval then s.rollbackFault b i cause tval
  else if p.intrap then s.doubleFault b i cause tval
  else if upcallCause cause && !hard && !p.priv && x.upvec != 0 then
    s.setSlip b i (p.enterTrap len cause tval x.upvec true)
  else if x.tvec = 0 then s.doubleFault b i cause tval
  else s.setSlip b i (p.enterTrap len cause tval x.tvec false)

/-- Raise a cause for whoever executes; a handler's fault stops the handler and goes to the domain (R227). -/
def State.raise (s : State) (c : Ctx) (cause : Nat) (tval : Word) (hard : Bool) : State :=
  if c.hnd then
    let s1 := s.modBerth c.b (fun x => { x with handler := none })
    if rollbackClass cause tval then s1.rollbackFault c.b c.i cause tval else s1.report c.b c.i 4 cause tval
  else s.raiseSlip c.b c.i cause tval hard

/-! ### How an instruction ends -/

/-- What an instruction's meaning answers: it completes in order; it is a branch; nothing moves (a stall, or a wait); it has
replaced the flow of control itself; it raises a cause; it completes and then raises one; it has no meaning. -/
inductive Res where
  | ok (s : State)
  | branch (s : State) (br : Branch)
  | stay (s : State)
  | gone (s : State)
  | trap (s : State) (cause : Nat) (tval : Word)
  | hard (s : State) (cause : Nat) (tval : Word)
  | after (s : State) (cause : Nat) (tval : Word)
  | refuse (r : Refusal)

/-- The slip blocks (R218); its queue stays at the waiting instruction. -/
def State.block (s : State) (c : Ctx) (w : Wait) : State :=
  if c.hnd then s else s.modSlip c.b c.i (fun p => { p with st := .blocked, wait := some w })

/-- The open entries of the queue take the addresses that can be read now: an instruction that an event of its own completes fixes its
successor as it issues, so that no migration under way at its completion shows (R7, R24). -/
def State.fixQueue (s : State) (c : Ctx) : State := s.modSlip c.b c.i (fun p => p.resolve (s.lenAt c))

/-- The instruction at PCQ0 has issued and has not completed (R209). -/
def State.began (s : State) (c : Ctx) : State := if c.hnd then s else s.modSlip c.b c.i (fun p => { p with begun := true })

/-- Advance the queue of whoever executes (R24); INSTRET counts what a slip executes and does not nullify (R445), and a
handler's steps are counted (R227). -/
def State.advance (s : State) (c : Ctx) (br : Option Branch) (executed : Bool) : State :=
  let len := s.lenAt c
  if c.hnd then s.modHandler c.b (fun h => { h with live := h.live.advance len br, steps := h.steps + 1 })
  else s.modSlip c.b c.i (fun p =>
    let q := p.advance len br
    { q with instret := if executed then q.instret + 1 else q.instret, begun := false })

/-- The step's outcome from an instruction's answer. -/
def finish (c : Ctx) : Res → Out
  | .ok s => .next (s.advance c none true)
  | .branch s br => .next (s.advance c (some br) true)
  | .stay s => .next (s.began c)
  | .gone s => .next (if c.hnd then s else s.modSlip c.b c.i (fun p => { p with instret := p.instret + 1, begun := false }))
  | .trap s cause tv => .next (s.raise c cause tv false)
  | .hard s cause tv => .next (s.raise c cause tv true)
  | .after s cause tv => .next ((s.advance c none true).raise c cause tv false)
  | .refuse r => .refused r

/-- Who executes on the current berth: its handler if one runs, else its RUNNING slip (R218, R226). -/
def State.ctx (s : State) : Option Ctx :=
  let x := s.berth s.cur
  match x.handler with
  | some h => some { b := s.cur, i := h.slip, hnd := true }
  | none => x.running.map (fun i => { b := s.cur, i := i, hnd := false })

/-- The address of the instruction that whoever executes is at (PCQ0). -/
def State.pcOf (s : State) (c : Ctx) : Word :=
  if c.hnd then
    match (s.berth c.b).handler with
    | some h => h.live.q0.addr.getD 0
    | none => 0
  else (s.slip c.b c.i).pc

/-- One instruction: the checks of R62 steps 4 and 5, then its own meaning; word is its TVAL for decode causes (R63). With
nothing RUNNING on the current berth an instruction has no effect. -/
def instr (word : Nat) (md : Mode) (uses : List Use) (body : Ctx → State → Res) (s : State) : Out :=
  match s.ctx with
  | none => .next s
  | some c =>
    match s.contextFault c word md uses with
    | some (cause, tv) => .next (s.raise c cause tv false)
    | none => finish c (body c s)

/-! ### Page faults -/

/-- The name of a 64 KiB page of an address space. -/
def pageName (asid vpage : Nat) : Nat := asid <<< 48 + vpage

/-- Is a notice the one for a page of a berth's address space? -/
def Notice.names (n : Notice) (pkg asid vpage : Nat) : Bool := n.pkg == pkg && n.asid == asid && n.vpage == vpage

/-- Post a notice for a page of a berth's address space, or join its waiters; who is the slip that waits (R288, R291). -/
def State.noticeFor (s : State) (b vpage : Nat) (who : Option Nat) : State :=
  let x := s.berth b
  let w : List (Nat × Nat) := match who with
    | some i => [(b, i)]
    | none => []
  if s.notices.any (fun n => n.names (pkgOf b) x.asid vpage) then
    { s with notices := s.notices.map (fun n =>
        if n.names (pkgOf b) x.asid vpage && !(w.all (fun e => n.waiters.contains e)) then { n with waiters := n.waiters ++ w } else n) }
  else
    { s with notices := s.notices ++ [{ pkg := pkgOf b, root := x.root, asid := x.asid, vpage := vpage, waiters := w }] }

/-- An access to a page that is not resident (R288, R289): while the page's service runs the slip is BLOCKED; after a failed
service cause 11 goes to TVEC; otherwise cause 11 is raised and the walker posts a notice. A handler, which cannot block, stalls. -/
def State.absentRes (s : State) (c : Ctx) (vpage : Nat) (tval : Word) : Res :=
  let x := s.berth c.b
  let name := pageName x.asid vpage
  if (s.slip c.b c.i).pageFailed = some name then
    .hard (s.modSlip c.b c.i (fun p => { p with pageFailed := none })) 11 tval
  else if s.notices.any (fun n => n.names (pkgOf c.b) x.asid vpage) then
    .stay ((s.noticeFor c.b vpage (some c.i)).block c (.page name))
  else .trap ((s.noticeFor c.b vpage none).timing c.b 12) 11 tval

/-- The array code of SERRLOG for a memory key (R440). -/
def arrayOf (k : Nat) : Nat := match k >>> 60 with
  | 2 => 1
  | 3 => 2
  | _ => 3

/-- Record an uncorrectable word at a memory key in SERRLOG (R440). -/
def Berth.logKey (x : Berth) (k : Nat) : Berth := x.logError (arrayOf k) (k % (1 <<< (if k >>> 60 = 2 then 19 else 52)))

/-- A berth records the uncorrectable word that n bytes at a key meet (R440). -/
def State.logBad (s : State) (b k n : Nat) : State := s.modBerth b (fun x => x.logKey ((s.badWord k n).getD k))

/-- An access of n bytes at a memory key met a word that its code cannot correct (R296, R440): the berth records the word and cause 25 is
raised. -/
def State.poisonRes (s : State) (c : Ctx) (k n : Nat) (tval : Word) : Res :=
  .trap (s.logBad c.b k n) 25 tval

end Sys2Proof.Machine
end

