-- ==== Sys2Proof/Machine/Hm.lean ====
section
/-! DEFINITION. The Harbourmaster's queues, event ring, held completions and registers (spec/12 R229 to R245, spec/24 R446 to R450). -/
namespace Sys2Proof.Machine
open Sys2Proof

def Pkg.queue (p : Pkg) (q : Nat) : HQueue := SMap.get {} p.queues q
def Pkg.setQueue (p : Pkg) (q : Nat) (x : HQueue) : Pkg := { p with queues := SMap.put p.queues q x }

/-- HM_STATUS (R230); CAP is the smaller of AGECAP and PWRCAP (R488). -/
def Pkg.cap (p : Pkg) : Nat := min p.agecap p.pwrcap
def Pkg.hmStatus (p : Pkg) : Nat :=
  b2n p.ready + withBit (p.actcb == 1) 1 + withBit p.takeover 2 + p.opclass <<< 8 + p.cap <<< 12

/-- QSTATE and QCTL of a queue (R231). -/
def HQueue.qstate (q : HQueue) : Nat := q.st + q.err <<< 8 + q.tail <<< 23 + q.head <<< 40
def HQueue.qctl (q : HQueue) : Nat := q.size + withBit q.enable 8

/-- The queue number of packets and events counts modulo 2^17 (R232, R240). -/
def mod17 (n : Nat) : Nat := n % (1 <<< 17)
def diff17 (a b : Nat) : Nat := (a + (1 <<< 17) - b % (1 <<< 17)) % (1 <<< 17)

/-! ### The event ring -/

/-- The ring is full, or counts as full while EN = 0 (R240, R241). -/
def Pkg.ringFull (p : Pkg) : Bool := !p.evEn || diff17 p.evtail p.evhead == 1 <<< p.esize

/-- A 64-byte event: word 0 and the bytes from 8 on, padded with zeros (R240, R242). -/
def eventBytes (code q err : Nat) (rest : List Byte) : List Byte :=
  leBytes 8 (code + q <<< 8 + err <<< 16) ++ (rest ++ List.replicate (56 - rest.length) 0)

/-- Write an event at the tail: its bytes, EVTAIL, MSI-X vector 0 (R240, R463). -/
def State.writeEvent (s : State) (pk : Nat) (bs : List Byte) : State :=
  let p := s.pkg pk
  let a := p.evbase.toNat + 64 * (p.evtail % (1 <<< p.esize))
  (s.poke (hostKey a) bs).modPkg pk (fun p => { p with evtail := mod17 (p.evtail + 1), msix0 := p.msix0 + 1 })

/-- The bitmap of R244 and R245, bit q set for each queue of a list, as bytes. -/
def queueBitmap (l : List Nat) : List Byte := leBytes 32 (ofBits ((upTo 256).map (fun q => l.contains q)))

/-- A slot is free while OVF = 1: the coalesced event is written, OVF and LOST clear (R244). It is of no one queue: its queue and ERR
fields are 0 (log 113). -/
def State.drainRing (s : State) (pk : Nat) : State :=
  let p := s.pkg pk
  if p.ovf && !p.ringFull then
    (s.writeEvent pk (eventBytes 3 0 0 (leBytes 4 p.lost ++ List.replicate 20 0 ++ queueBitmap p.latched))).modPkg pk
      (fun p => { p with ovf := false, lost := 0, latched := [] })
  else s

/-- Post a queue-error event, or latch it while the ring is full (R233, R242, R243, R244). -/
def State.postError (s : State) (pk q err : Nat) (rest : List Byte) : State :=
  let p := s.pkg pk
  if p.ringFull then
    s.setPkg pk { p with
      ovf := true
      lost := if p.ovf then min 0xFFFF (p.lost + 1) else 1
      latched := if p.ovf then q :: p.latched else [q]
      msix1 := if p.ovf then p.msix1 else p.msix1 + 1 }
  else s.writeEvent pk (eventBytes 2 q err rest)

/-- A queue error with its event's bytes 8 on (R233): ERR, STOPPED, HEAD stays, the packet's program is abandoned. -/
def State.queueErrorWith (s : State) (pk q err : Nat) (rest : List Byte) : State :=
  (s.modPkg pk (fun p => p.setQueue q { p.queue q with err := err, st := 2, engine := none })).postError pk q err rest

/-- A queue error whose event names the failing packet (R242). -/
def State.queueError (s : State) (pk q err : Nat) : State :=
  s.queueErrorWith pk q err (leBytes 4 ((s.pkg pk).queue q).head)

/-- Stop every one of the 256 queues with ERR 3 and clear READY: the module needs a reset (R446, R489). -/
def State.stopModule (s : State) (pk : Nat) : State :=
  s.modPkg pk (fun p => { p with
    ready := false
    queues := (upTo 256).map (fun q => (q, { p.queue q with err := 3, st := 2, engine := none })) })

/-! ### Held completions (R449) -/

/-- Write the records of a commit to the record ring; JHELD counts them. -/
def State.writeRecords (s : State) (pk : Nat) (recs : List (List Byte)) : State :=
  recs.foldl (fun t r =>
    let p := t.pkg pk
    (t.poke (physKey pk (p.jbase + 64 * (p.jheld % 256))) r).modPkg pk (fun p => { p with jheld := p.jheld + 1 })) s

/-- May a commit of n records be made: does it leave at most 256 unposted? Else it waits, and with it the WINDOW or the HALT that makes it
(R426, R449). -/
def Pkg.commitFits (p : Pkg) (n : Nat) : Bool := decide (p.jheld - p.jposted + n ≤ 256)

/-- A region-completion record (R242 CODE 4): kind 0 DONE, 1 checkpoint with its window. -/
def completionRecord (q block kind window : Nat) : List Byte :=
  eventBytes 4 q 0 (leBytes 8 block ++ leBytes 4 kind ++ leBytes 4 window)

/-- A store of k to EVPUSH (R449): none while it waits for the ring; any k but JPOSTED, and one with no record held, is
ignored. -/
def State.evpush (s : State) (pk k : Nat) : Option State :=
  let p := s.pkg pk
  if k ≠ p.jposted || p.jposted ≥ p.jheld then some s
  else if p.ringFull then none
  else
    let r := s.bytesAt (physKey pk (p.jbase + 64 * (k % 256))) 64
    some ((s.writeEvent pk r).modPkg pk (fun p => { p with jposted := p.jposted + 1 }))

/-! ### Doorbells and packets (R232, R234, R450) -/

/-- The Harbourmaster takes the packet at HEAD and starts the queue's pilot program, where the queue may run. -/
def State.packetStart (s : State) (pk q : Nat) : State :=
  let p := s.pkg pk
  let x := p.queue q
  if !p.ready || x.st != 1 || x.engine.isSome || x.head == x.tail then s
  else if decide (diff17 x.tail x.head > 1 <<< x.size) then s.queueError pk q 2
  else
    let bs := s.bytesAt (hostKey (x.qbase.toNat + 64 * (x.head % (1 <<< x.size)))) 64
    if fieldAt bs 0 8 >>> 11 ≠ 0 then s.queueError pk q 3
    else s.setPkg pk (p.setQueue q { x with engine := some { packet := bs } })

/-- The physical key of the active control berth (R229, R452). -/
def activeControl (pk : Nat) (p : Pkg) : Nat := pk * 8192 + Config.controlBerth p.actcb

/-- A doorbell write (R232, R450). While READY = 0 it is ignored (R230). Error 2 is raised here, at once, or when the packet at HEAD is taken
(R233, log 113). -/
def State.doorbell (s : State) (pk q v : Nat) : State :=
  let p := s.pkg pk
  let x := p.queue q
  if !p.ready || (v >>> 17 ≠ 0 && x.st ≠ 1) then s
  else
    let s1 := (s.modPkg pk (fun p => { p with dbpend := p.dbpend ||| 1 <<< q })).modBerth (activeControl pk p)
      (fun b => { b with ipDbell := true })
    if v >>> 17 ≠ 0 then s1.queueError pk q 8
    else
      let s2 := s1.modPkg pk (fun p => p.setQueue q { p.queue q with tail := v })
      if x.st = 1 && decide (diff17 v x.head > 1 <<< x.size) then s2.queueError pk q 2 else s2

/-- CBSTAT (R448). -/
def Pkg.cbstat (p : Pkg) : Nat := b2n p.tko + withBit (p.failed == 1) 1 + p.fcause <<< 8

/-- HKSTAT (R488). -/
def Pkg.hkstat (p : Pkg) : Nat := p.phase + p.pwrcap <<< 8 + p.agecap <<< 12 + p.failcode <<< 24

/-- PLSTAT of a port (R458). -/
def Port.plstat (x : Port) : Nat :=
  withBit x.trained 1 + withBit x.down 2 + x.replays <<< 16 + x.pport <<< 32 + x.peer <<< 40

def Pkg.port (p : Pkg) (n : Nat) : Port := SMap.get {} p.ports n
def Pkg.setPort (p : Pkg) (n : Nat) (x : Port) : Pkg := { p with ports := SMap.put p.ports n x }

/-- Writing one clears a KVERR's VALID or OVF (R396). Reserved bits of this write and of the two below say nothing here: the store that
makes it is checked by DevReg.reserved, the event that stands for it is not (log 80). -/
def State.kverrWrite (s : State) (pk k v : Nat) : State :=
  s.modPkg pk (fun p =>
    let o := (SMap.get 0 p.kverr k).toNat
    let n := (if bitOf v 63 then o % (1 <<< 63) else o)
    let n2 := if bitOf v 62 && bitOf n 62 then n - 1 <<< 62 else n
    { p with kverr := SMap.put p.kverr k (natWord n2) })

/-- Writing CLR clears a port's REPLAYS (R458). -/
def State.plstatWrite (s : State) (pk n v : Nat) : State :=
  if bitOf v 0 then s.modPkg pk (fun p => p.setPort n { p.port n with replays := 0 }) else s

/-- Writing one clears TKO (R448). -/
def State.cbstatWrite (s : State) (pk v : Nat) : State := if bitOf v 0 then s.modPkg pk (fun p => { p with tko := false }) else s

/-- Writing ones clears pending-doorbell bits of word k (R447). -/
def State.dbpendWrite (s : State) (pk k v : Nat) : State :=
  s.modPkg pk (fun p => { p with dbpend := p.dbpend ^^^ (p.dbpend &&& ((v % (1 <<< 64)) <<< (64 * k))) })

/-! ### Device registers on the SYSTEM path (R276, R396, R447, R458, R488, R490, R492) -/

/-- The registers of the device range that the spec gives. -/
inductive DevReg where
  | cbstat | jheld | jposted | evpush | dbpend (k : Nat) | dbkick | jbase
  | plstat (p : Nat) | hkstat | ageplan | agemargin | meas (k : Nat) | kverr (k : Nat)
  deriving DecidableEq, Repr

/-- The register at a device address, an 8-byte unit; none where the spec gives none. -/
def devReg (pa : Nat) : Option DevReg :=
  let o := pa - 0xF000000000000
  let w := o / 8
  if o < 0x50 then
    match w with
    | 0 => some .cbstat
    | 1 => some .jheld
    | 2 => some .jposted
    | 3 => some .evpush
    | 8 => some .dbkick
    | 9 => some .jbase
    | _ => some (.dbpend (w - 4))
  else if 0x10000000 ≤ o && o < 0x10000000 + 8 * 36 then some (.plstat ((o - 0x10000000) / 8))
  else if 0x20000000 ≤ o && o < 0x20000018 then
    (match (o - 0x20000000) / 8 with
     | 0 => some .hkstat
     | 1 => some .ageplan
     | _ => some .agemargin)
  else if 0x20000040 ≤ o && o < 0x20000060 then some (.meas ((o - 0x20000040) / 8))
  else if 0x40000000 ≤ o && o < 0x40000000 + 8 * 4096 then some (.kverr ((o - 0x40000000) / 8))
  else none

/-- KVERR is any privileged code's; the others are the control berths' (R396, R447, R458, R488). -/
def DevReg.anyBerth : DevReg → Bool
  | .kverr _ => true
  | _ => false

/-- The reserved bits of a device register (R396, R448, R458, R488, R490): a store of one to them raises cause 2 (R6). A write of MEAS is
ignored (R492), and the rest name no reserved field. -/
def DevReg.reserved : DevReg → Nat
  | .cbstat => 0xFFFFFFFFFFFF00FC
  | .plstat _ => 0xFFFF00000000FFF8
  | .hkstat => 0xFFFFFFFF00FF00F8
  | .ageplan => 0xFFFF000000000000
  | .agemargin => 0xFFFF000000000000
  | .kverr _ => 0x0FFFC0000007FFFF
  | .jheld => 0
  | .jposted => 0
  | .evpush => 0
  | .dbpend _ => 0
  | .dbkick => 0
  | .jbase => 0
  | .meas _ => 0

/-- What an 8-byte read of a device register returns; none for a write-only one. -/
def State.devRead (s : State) (pk : Nat) (r : DevReg) : Option Nat :=
  let p := s.pkg pk
  match r with
  | .cbstat => some p.cbstat
  | .jheld => some p.jheld
  | .jposted => some p.jposted
  | .evpush => none
  | .dbpend k => some ((p.dbpend >>> (64 * k)) % (1 <<< 64))
  | .dbkick => none
  | .jbase => some p.jbase
  | .plstat n => some (p.port n).plstat
  | .hkstat => some p.hkstat
  | .ageplan => some p.ageplan.toNat
  | .agemargin => some p.agemargin.toNat
  | .meas k => some (fieldAt p.meas (8 * k) 8)
  | .kverr k => some (SMap.get 0 p.kverr k).toNat

/-- An 8-byte write of a device register; none while it waits. Read-only registers ignore it. -/
def State.devWrite (s : State) (pk : Nat) (r : DevReg) (v : Nat) : Option State :=
  match r with
  | .cbstat => some (s.cbstatWrite pk v)
  | .jheld => some s
  | .jposted => some s
  | .evpush => s.evpush pk v
  | .dbpend k => some (s.dbpendWrite pk k v)
  | .dbkick => some (s.packetStart pk (v % 256))
  | .jbase => some s
  | .plstat n => some (s.plstatWrite pk n v)
  | .hkstat => some s
  | .ageplan => some s
  | .agemargin => some s
  | .meas _ => some s
  | .kverr k => some (s.kverrWrite pk k v)

end Sys2Proof.Machine
end

