-- ==== Sys2Proof/Machine/LoadStore.lean ====
section
/-! DEFINITION. One load and one store of a slip on any path, and the scalar loads and stores (spec/04 R116 to R122, spec/15 R295 to
R297, spec/23 R439). -/
namespace Sys2Proof.Machine
open Sys2Proof

/-- A load or store of n bytes at a device register (R276, R447, R458, R488): an access of another size is ignored, and what it loads is a
free value; so is one where the spec gives no register (log 27). -/
def State.deviceRes (s : State) (c : Ctx) (ea : Word) (pa n : Nat) (act : DevReg → Res) (ignored : Res) : Res :=
  match devReg pa with
  | none => ignored
  | some r =>
    if !r.anyBerth && !isControl c.b then .trap s 9 ea
    else if n ≠ 8 then ignored
    else act r

/-- A store that must not pass an earlier command which still reads its bytes waits; the queues of commands are in State. -/
def State.commandBars (s : State) (c : Ctx) (ea n : Nat) : Bool :=
  s.copyBars c true ea n || (bitsOf ea 63 60 == 1 && s.craneBars c.b (bitsOf ea 18 0) n)

/-- Load n bytes at an address and go on with them: every check of R119 and R295, the marks of R319, cause 25 of R296. -/
def State.loadK (s : State) (c : Ctx) (word : Nat) (ea : Word) (n : Nat) (k : State → List Byte → Res) : Res :=
  let a := ea.toNat
  match bitsOf a 63 60 with
  | 1 =>
    match s.localFault c a n with
    | some (cause, tv) => .trap s cause tv
    | none =>
      let key := scratchKey c.b (bitsOf a 18 0)
      if s.poisoned key n then s.poisonRes c key n ea
      else k (s.touchAll c (bitsOf a 18 0) n) (s.bytesAt key n)
  | 0 =>
    match s.reachGlobal c .load a n with
    | .trap cause => .trap s cause ea
    | .held => .stay s
    | .absent v => s.absentRes c v ea
    | .device _ => .stay s
    | .hit key _ =>
      if s.copyBars c false a n then .stay s
      else if s.poisoned key n then s.poisonRes c key n ea
      else
        let r := s.loadBytes c false key n
        k r.1 r.2
  | 15 =>
    match s.reachSystem c a n with
    | .trap cause => .trap s cause (if cause = 3 then natWord word else ea)
    | .held => .stay s
    | .absent _ => .stay s
    | .device pa =>
      if s.copyBars c false a n then .stay s
      else s.deviceRes c ea pa n
        (fun r => match s.devRead (pkgOf c.b) r with
          | some v => k s (leBytes n v)
          | none => k s.freshened (leBytes n (Config.freeWord s.fresh).toNat))
        (k s.freshened (leBytes n (Config.freeWide s.fresh).toNat))
    | .hit key _ =>
      if s.copyBars c false a n then .stay s
      else if s.poisoned key n then s.poisonRes c key n ea
      else
        let r := s.loadBytes c true key n
        k r.1 r.2
  | _ => .trap s 9 ea

/-- Store bytes at an address and go on: the checks of R119 and R295, cause 25 of a partial store on a poisoned word (R439), cause 2 of a
one in a reserved field of a device register (R6), the journal (R424), the marks of R319. -/
def State.storeK (s : State) (c : Ctx) (word : Nat) (ea : Word) (bs : List Byte) (k : State → Res) : Res :=
  let a := ea.toNat
  let n := bs.length
  match bitsOf a 63 60 with
  | 1 =>
    match s.localFault c a n with
    | some (cause, tv) => .trap s cause tv
    | none =>
      let off := bitsOf a 18 0
      let key := scratchKey c.b off
      if s.commandBars c a n then .stay s
      else if s.partPoisoned key n then s.poisonRes c key n ea
      else k ((s.touchAll c off n).storeScratch c.b off bs)
  | 0 =>
    match s.reachGlobal c .store a n with
    | .trap cause => .trap s cause ea
    | .held => .stay s
    | .absent v => s.absentRes c v ea
    | .device _ => .stay s
    | .hit key owned =>
      if s.commandBars c a n then .stay s
      else if s.partPoisoned key n then s.poisonRes c key n ea
      else
        let s0 := s.storedOver c.b c.i key n
        let s1 := if owned then s0.jot c.b c.i (.page (key / 65536 * 65536)) (some (.bytes key n)) else s0
        k ((s1.heal key n).poke key bs)
  | 15 =>
    match s.reachSystem c a n with
    | .trap cause => .trap s cause (if cause = 3 then natWord word else ea)
    | .held => .stay s
    | .absent _ => .stay s
    | .device pa =>
      if s.commandBars c a n then .stay s
      else s.deviceRes c ea pa n
        (fun r =>
          if leNat bs &&& r.reserved ≠ 0 then .trap s 2 (natWord word)
          else match s.devWrite (pkgOf c.b) r (leNat bs) with
            | some t => k t
            | none => .stay s)
        (k s)
    | .hit key _ =>
      if s.commandBars c a n then .stay s
      else if s.partPoisoned key n then s.poisonRes c key n ea
      else k (((s.storedOver c.b c.i key n).heal key n).poke key bs)
  | _ => .trap s 9 ea

/-- gD := the z bytes at an address, sign- or zero-extended (R118). -/
def extendBytes (signed : Bool) (z : Nat) (bs : List Byte) : Word :=
  if signed then signExt (leNat bs) (8 * z) else natWord (leNat bs)

/-- A load at gA at dA plus an offset (R117, R118). -/
def loadOff (word d a x : Nat) (off : Word) (z : Nat) (signed : Bool) (s : State) : Out :=
  instr word {} [.src .g a x, .dst .g d]
    (fun c s => s.loadK c word (s.readG c a x + off) z (fun t bs => .ok (t.writeG c d (extendBytes signed z bs)))) s

/-- A load at gA at dA plus gB at dB (R117, R118). -/
def loadIdx (word d a x b y z : Nat) (signed : Bool) (s : State) : Out :=
  instr word {} [.src .g a x, .src .g b y, .dst .g d]
    (fun c s => s.loadK c word (s.readG c a x + s.readG c b y) z (fun t bs => .ok (t.writeG c d (extendBytes signed z bs)))) s

/-- A store of the low z bytes of gS (R117, R118). -/
def storeOff (word r a x : Nat) (off : Word) (z : Nat) (s : State) : Out :=
  instr word {} [.src .g a x, .src .g r 0]
    (fun c s => s.storeK c word (s.readG c a x + off) (leBytes z (s.readG c r 0).toNat) .ok) s

/-- An indexed store (R117, R118). -/
def storeIdx (word r a x b y z : Nat) (s : State) : Out :=
  instr word {} [.src .g a x, .src .g b y, .src .g r 0]
    (fun c s => s.storeK c word (s.readG c a x + s.readG c b y) (leBytes z (s.readG c r 0).toNat) .ok) s

/-- imm9 × z, sign-extended (R117). -/
def off9 (i : BitVec 9) (z : Nat) : Word := toWord (i.toInt * Int.ofNat z)

/-- LB (R118): gD := 1 byte(s), sign-extended. -/
def execLb (d : BitVec 5) (a : BitVec 5) (x : BitVec 3) (i : BitVec 9) (s : State) : Out :=
  loadOff (Enc.lb d a x i) d.toNat a.toNat x.toNat (off9 i 1) 1 true s

/-- LBU (R118): gD := 1 byte(s), zero-extended. -/
def execLbu (d : BitVec 5) (a : BitVec 5) (x : BitVec 3) (i : BitVec 9) (s : State) : Out :=
  loadOff (Enc.lbu d a x i) d.toNat a.toNat x.toNat (off9 i 1) 1 false s

/-- LH (R118): gD := 2 byte(s), sign-extended. -/
def execLh (d : BitVec 5) (a : BitVec 5) (x : BitVec 3) (i : BitVec 9) (s : State) : Out :=
  loadOff (Enc.lh d a x i) d.toNat a.toNat x.toNat (off9 i 2) 2 true s

/-- LHU (R118): gD := 2 byte(s), zero-extended. -/
def execLhu (d : BitVec 5) (a : BitVec 5) (x : BitVec 3) (i : BitVec 9) (s : State) : Out :=
  loadOff (Enc.lhu d a x i) d.toNat a.toNat x.toNat (off9 i 2) 2 false s

/-- LW (R118): gD := 4 byte(s), sign-extended. -/
def execLw (d : BitVec 5) (a : BitVec 5) (x : BitVec 3) (i : BitVec 9) (s : State) : Out :=
  loadOff (Enc.lw d a x i) d.toNat a.toNat x.toNat (off9 i 4) 4 true s

/-- LWU (R118): gD := 4 byte(s), zero-extended. -/
def execLwu (d : BitVec 5) (a : BitVec 5) (x : BitVec 3) (i : BitVec 9) (s : State) : Out :=
  loadOff (Enc.lwu d a x i) d.toNat a.toNat x.toNat (off9 i 4) 4 false s

/-- LD (R118): gD := 8 byte(s), unchanged. -/
def execLd (d : BitVec 5) (a : BitVec 5) (x : BitVec 3) (i : BitVec 9) (s : State) : Out :=
  loadOff (Enc.ld d a x i) d.toNat a.toNat x.toNat (off9 i 8) 8 false s

/-- SB (R118): stores the low 1 byte(s) of gS. -/
def execSb (r : BitVec 5) (a : BitVec 5) (x : BitVec 3) (i : BitVec 9) (s : State) : Out :=
  storeOff (Enc.sb r a x i) r.toNat a.toNat x.toNat (off9 i 1) 1 s

/-- SH (R118): stores the low 2 byte(s) of gS. -/
def execSh (r : BitVec 5) (a : BitVec 5) (x : BitVec 3) (i : BitVec 9) (s : State) : Out :=
  storeOff (Enc.sh r a x i) r.toNat a.toNat x.toNat (off9 i 2) 2 s

/-- SW (R118): stores the low 4 byte(s) of gS. -/
def execSw (r : BitVec 5) (a : BitVec 5) (x : BitVec 3) (i : BitVec 9) (s : State) : Out :=
  storeOff (Enc.sw r a x i) r.toNat a.toNat x.toNat (off9 i 4) 4 s

/-- SD (R118): stores the low 8 byte(s) of gS. -/
def execSd (r : BitVec 5) (a : BitVec 5) (x : BitVec 3) (i : BitVec 9) (s : State) : Out :=
  storeOff (Enc.sd r a x i) r.toNat a.toNat x.toNat (off9 i 8) 8 s

/-- LX_B (R118): gD := 1 byte(s) at gA + gB, sign-extended. -/
def execLxB (d : BitVec 5) (a : BitVec 5) (x : BitVec 3) (b : BitVec 5) (y : BitVec 3) (s : State) : Out :=
  loadIdx (Enc.lxB d a x b y) d.toNat a.toNat x.toNat b.toNat y.toNat 1 true s

/-- LX_BU (R118): gD := 1 byte(s) at gA + gB, zero-extended. -/
def execLxBu (d : BitVec 5) (a : BitVec 5) (x : BitVec 3) (b : BitVec 5) (y : BitVec 3) (s : State) : Out :=
  loadIdx (Enc.lxBu d a x b y) d.toNat a.toNat x.toNat b.toNat y.toNat 1 false s

/-- LX_H (R118): gD := 2 byte(s) at gA + gB, sign-extended. -/
def execLxH (d : BitVec 5) (a : BitVec 5) (x : BitVec 3) (b : BitVec 5) (y : BitVec 3) (s : State) : Out :=
  loadIdx (Enc.lxH d a x b y) d.toNat a.toNat x.toNat b.toNat y.toNat 2 true s

/-- LX_HU (R118): gD := 2 byte(s) at gA + gB, zero-extended. -/
def execLxHu (d : BitVec 5) (a : BitVec 5) (x : BitVec 3) (b : BitVec 5) (y : BitVec 3) (s : State) : Out :=
  loadIdx (Enc.lxHu d a x b y) d.toNat a.toNat x.toNat b.toNat y.toNat 2 false s

/-- LX_W (R118): gD := 4 byte(s) at gA + gB, sign-extended. -/
def execLxW (d : BitVec 5) (a : BitVec 5) (x : BitVec 3) (b : BitVec 5) (y : BitVec 3) (s : State) : Out :=
  loadIdx (Enc.lxW d a x b y) d.toNat a.toNat x.toNat b.toNat y.toNat 4 true s

/-- LX_WU (R118): gD := 4 byte(s) at gA + gB, zero-extended. -/
def execLxWu (d : BitVec 5) (a : BitVec 5) (x : BitVec 3) (b : BitVec 5) (y : BitVec 3) (s : State) : Out :=
  loadIdx (Enc.lxWu d a x b y) d.toNat a.toNat x.toNat b.toNat y.toNat 4 false s

/-- LX_D (R118): gD := 8 byte(s) at gA + gB, unchanged. -/
def execLxD (d : BitVec 5) (a : BitVec 5) (x : BitVec 3) (b : BitVec 5) (y : BitVec 3) (s : State) : Out :=
  loadIdx (Enc.lxD d a x b y) d.toNat a.toNat x.toNat b.toNat y.toNat 8 false s

/-- SX_B (R118): stores the low 1 byte(s) of gS at gA + gB. -/
def execSxB (r : BitVec 5) (a : BitVec 5) (x : BitVec 3) (b : BitVec 5) (y : BitVec 3) (s : State) : Out :=
  storeIdx (Enc.sxB r a x b y) r.toNat a.toNat x.toNat b.toNat y.toNat 1 s

/-- SX_H (R118): stores the low 2 byte(s) of gS at gA + gB. -/
def execSxH (r : BitVec 5) (a : BitVec 5) (x : BitVec 3) (b : BitVec 5) (y : BitVec 3) (s : State) : Out :=
  storeIdx (Enc.sxH r a x b y) r.toNat a.toNat x.toNat b.toNat y.toNat 2 s

/-- SX_W (R118): stores the low 4 byte(s) of gS at gA + gB. -/
def execSxW (r : BitVec 5) (a : BitVec 5) (x : BitVec 3) (b : BitVec 5) (y : BitVec 3) (s : State) : Out :=
  storeIdx (Enc.sxW r a x b y) r.toNat a.toNat x.toNat b.toNat y.toNat 4 s

/-- SX_D (R118): stores the low 8 byte(s) of gS at gA + gB. -/
def execSxD (r : BitVec 5) (a : BitVec 5) (x : BitVec 3) (b : BitVec 5) (y : BitVec 3) (s : State) : Out :=
  storeIdx (Enc.sxD r a x b y) r.toNat a.toNat x.toNat b.toNat y.toNat 8 s

/-- C_LD (R60): LD gD, uimm6 × 8 (g2). -/
def execCLd (d : BitVec 5) (i : BitVec 6) (s : State) : Out :=
  loadOff (Enc.cLd d i) d.toNat 2 0 (natWord (i.toNat * 8)) 8 false s

/-- C_SD (R60): SD gS, uimm6 × 8 (g2). -/
def execCSd (r : BitVec 5) (i : BitVec 6) (s : State) : Out :=
  storeOff (Enc.cSd r i) r.toNat 2 0 (natWord (i.toNat * 8)) 8 s

/-- C_LW (R60): LW gD, uimm6 × 4 (g2). -/
def execCLw (d : BitVec 5) (i : BitVec 6) (s : State) : Out :=
  loadOff (Enc.cLw d i) d.toNat 2 0 (natWord (i.toNat * 4)) 4 true s

/-- C_SW (R60): SW gS, uimm6 × 4 (g2). -/
def execCSw (r : BitVec 5) (i : BitVec 6) (s : State) : Out :=
  storeOff (Enc.cSw r i) r.toNat 2 0 (natWord (i.toNat * 4)) 4 s

end Sys2Proof.Machine
end

