-- ==== Sys2Proof/Machine/FpScalar.lean ====
section
/-! DEFINITION. Scalar floating-point instructions (spec/05 R126 to R130). -/
namespace Sys2Proof.Machine
open Sys2Proof

/-- fD := f of fA at dA and fB at dB, with its events (R127). -/
def fpRR (word d a x b y : Nat) (f : Nat → Nat → Nat × Ev) (s : State) : Out :=
  instr word {} [.src .f a x, .src .f b y, .dst .f d]
    (fun c s =>
      let r := f (s.readF c a x).toNat (s.readF c b y).toNat
      .ok ((s.writeF c d (BitVec.ofNat 32 r.1)).count c r.2)) s

/-- fD := f of fA at dA (R127, R128). -/
def fpR (word d a x : Nat) (f : Nat → Nat × Ev) (s : State) : Out :=
  instr word {} [.src .f a x, .dst .f d]
    (fun c s =>
      let r := f (s.readF c a x).toNat
      .ok ((s.writeF c d (BitVec.ofNat 32 r.1)).count c r.2)) s

/-- fD := ±(a × b) ± c at distance 0, rounded once (R127). -/
def fpFused (word d a b r : Nat) (negP negC : Bool) (s : State) : Out :=
  instr word {} [.src .f a 0, .src .f b 0, .src .f r 0, .dst .f d]
    (fun c s =>
      let v := fpFma .fp32 negP negC (s.readF c a 0).toNat (s.readF c b 0).toNat (s.readF c r 0).toNat
      .ok ((s.writeF c d (BitVec.ofNat 32 v.1)).count c v.2)) s

/-- gD := f of fA at dA (R128). -/
def fpToG (word d a x : Nat) (f : Nat → Word × Ev) (s : State) : Out :=
  instr word {} [.src .f a x, .dst .g d]
    (fun c s =>
      let r := f (s.readF c a x).toNat
      .ok ((s.writeG c d r.1).count c r.2)) s

/-- fD := f of gA at dA (R128). -/
def gToFp (word d a x : Nat) (f : Word → Nat × Ev) (s : State) : Out :=
  instr word {} [.src .g a x, .dst .f d]
    (fun c s =>
      let r := f (s.readG c a x)
      .ok ((s.writeF c d (BitVec.ofNat 32 r.1)).count c r.2)) s

/-- qD := a relation of fA at dA and fB at dB (R82, R128). -/
def fpCmp (word q a x b y : Nat) (f : Val → Val → Bool) (s : State) : Out :=
  instr word {} [.src .f a x, .src .f b y, .dst .q q]
    (fun c s => .ok (s.writeQ c q (f (exact .fp32 (s.readF c a x).toNat) (exact .fp32 (s.readF c b y).toNat)))) s

/-- RM codes (R56, R57). -/
def rmOf (n : Nat) : Rm :=
  match n with
  | 0 => .ne
  | 1 => .rz
  | 2 => .up
  | 3 => .down
  | _ => .sr

/-- imm11 × 4, sign-extended (R130). -/
def off11 (i : BitVec 11) : Word := toWord (i.toInt * 4)

/-! ### The instructions -/

/-- FADD (R127): fD := a + b, rounded once. -/
def execFadd (d : BitVec 5) (a : BitVec 5) (x : BitVec 3) (b : BitVec 5) (y : BitVec 3) (s : State) : Out :=
  fpRR (Enc.fadd d a x b y) d.toNat a.toNat x.toNat b.toNat y.toNat (fpAdd .fp32) s

/-- FSUB (R127): fD := a − b, rounded once. -/
def execFsub (d : BitVec 5) (a : BitVec 5) (x : BitVec 3) (b : BitVec 5) (y : BitVec 3) (s : State) : Out :=
  fpRR (Enc.fsub d a x b y) d.toNat a.toNat x.toNat b.toNat y.toNat (fpSub .fp32) s

/-- FMUL (R127): fD := a × b, rounded once. -/
def execFmul (d : BitVec 5) (a : BitVec 5) (x : BitVec 3) (b : BitVec 5) (y : BitVec 3) (s : State) : Out :=
  fpRR (Enc.fmul d a x b y) d.toNat a.toNat x.toNat b.toNat y.toNat (fpMul .fp32) s

/-- FDIV (R127): fD := a / b, rounded once. -/
def execFdiv (d : BitVec 5) (a : BitVec 5) (x : BitVec 3) (b : BitVec 5) (y : BitVec 3) (s : State) : Out :=
  fpRR (Enc.fdiv d a x b y) d.toNat a.toNat x.toNat b.toNat y.toNat (fpDiv .fp32) s

/-- FMIN (R127): R82. -/
def execFmin (d : BitVec 5) (a : BitVec 5) (x : BitVec 3) (b : BitVec 5) (y : BitVec 3) (s : State) : Out :=
  fpRR (Enc.fmin d a x b y) d.toNat a.toNat x.toNat b.toNat y.toNat (fpMinMax .fp32 false) s

/-- FMAX (R127): R82. -/
def execFmax (d : BitVec 5) (a : BitVec 5) (x : BitVec 3) (b : BitVec 5) (y : BitVec 3) (s : State) : Out :=
  fpRR (Enc.fmax d a x b y) d.toNat a.toNat x.toNat b.toNat y.toNat (fpMinMax .fp32 true) s

/-- FSQRT (R127): fD := √a, rounded once. -/
def execFsqrt (d : BitVec 5) (a : BitVec 5) (x : BitVec 3) (s : State) : Out :=
  fpR (Enc.fsqrt d a x) d.toNat a.toNat x.toNat (fpSqrt .fp32) s

/-- FABS (R127): fD := a with bit 31 cleared. -/
def execFabs (d : BitVec 5) (a : BitVec 5) (x : BitVec 3) (s : State) : Out :=
  fpR (Enc.fabs d a x) d.toNat a.toNat x.toNat (fun v => (fpAbs .fp32 v, {})) s

/-- FNEG (R127): fD := a with bit 31 inverted. -/
def execFneg (d : BitVec 5) (a : BitVec 5) (x : BitVec 3) (s : State) : Out :=
  fpR (Enc.fneg d a x) d.toNat a.toNat x.toNat (fun v => (fpNeg .fp32 v, {})) s

/-- FMA (R127): fused, one rounding. -/
def execFma (d : BitVec 5) (a : BitVec 5) (b : BitVec 5) (c : BitVec 5) (s : State) : Out :=
  fpFused (Enc.fma d a b c) d.toNat a.toNat b.toNat c.toNat false false s

/-- FMS (R127): fused, one rounding. -/
def execFms (d : BitVec 5) (a : BitVec 5) (b : BitVec 5) (c : BitVec 5) (s : State) : Out :=
  fpFused (Enc.fms d a b c) d.toNat a.toNat b.toNat c.toNat false true s

/-- FNMA (R127): fused, one rounding. -/
def execFnma (d : BitVec 5) (a : BitVec 5) (b : BitVec 5) (c : BitVec 5) (s : State) : Out :=
  fpFused (Enc.fnma d a b c) d.toNat a.toNat b.toNat c.toNat true false s

/-- FNMS (R127): fused, one rounding. -/
def execFnms (d : BitVec 5) (a : BitVec 5) (b : BitVec 5) (c : BitVec 5) (s : State) : Out :=
  fpFused (Enc.fnms d a b c) d.toNat a.toNat b.toNat c.toNat true true s

/-- FCVTI (R128): gD := Round(a, INT64, rm, sat). -/
def execFcvti (d : BitVec 5) (a : BitVec 5) (x : BitVec 3) (r : BitVec 2) (h : BitVec 1) (s : State) : Out :=
  fpToG (Enc.fcvti d a x r h) d.toNat a.toNat x.toNat (fun v =>
    let r := roundToInt 64 (rmOf r.toNat) (h == 1) 0 (exact .fp32 v)
    (toWord r.1, r.2)) s

/-- FCVTF (R128): fD := Round(s(gA), FP32, rm, 0); sat has no effect. -/
def execFcvtf (d : BitVec 5) (a : BitVec 5) (x : BitVec 3) (r : BitVec 2) (h : BitVec 1) (s : State) : Out :=
  gToFp (Enc.fcvtf d a x r h) d.toNat a.toNat x.toNat (fun v => roundTo .fp32 (rmOf r.toNat) false 0 (Val.ofInt v.toInt)) s

/-- FCVTB (R128): fD := the FP32 value of Round(a, BF16, rm, sat). -/
def execFcvtb (d : BitVec 5) (a : BitVec 5) (x : BitVec 3) (r : BitVec 2) (h : BitVec 1) (s : State) : Out :=
  fpR (Enc.fcvtb d a x r h) d.toNat a.toNat x.toNat (fun v =>
    let r := roundTo .bf16 (rmOf r.toNat) (h == 1) 0 (exact .fp32 v)
    (r.1 <<< 16, r.2)) s

/-- FMVGF (R128): gD := the bits of a, zero-extended. -/
def execFmvgf (d : BitVec 5) (a : BitVec 5) (x : BitVec 3) (s : State) : Out :=
  fpToG (Enc.fmvgf d a x) d.toNat a.toNat x.toNat (fun v => (natWord v, {})) s

/-- FMVFG (R128): fD := bits 31:0 of gA. -/
def execFmvfg (d : BitVec 5) (a : BitVec 5) (x : BitVec 3) (s : State) : Out :=
  gToFp (Enc.fmvfg d a x) d.toNat a.toNat x.toNat (fun v => (v.toNat % (1 <<< 32), {})) s

/-- FCEQ (R128): qD := eq of a and b. -/
def execFceq (q : BitVec 3) (a : BitVec 5) (x : BitVec 3) (b : BitVec 5) (y : BitVec 3) (s : State) : Out :=
  fpCmp (Enc.fceq q a x b y) q.toNat a.toNat x.toNat b.toNat y.toNat veq s

/-- FCLT (R128): qD := lt of a and b. -/
def execFclt (q : BitVec 3) (a : BitVec 5) (x : BitVec 3) (b : BitVec 5) (y : BitVec 3) (s : State) : Out :=
  fpCmp (Enc.fclt q a x b y) q.toNat a.toNat x.toNat b.toNat y.toNat vlt s

/-- FCLE (R128): qD := le of a and b. -/
def execFcle (q : BitVec 3) (a : BitVec 5) (x : BitVec 3) (b : BitVec 5) (y : BitVec 3) (s : State) : Out :=
  fpCmp (Enc.fcle q a x b y) q.toNat a.toNat x.toNat b.toNat y.toNat vle s

/-- FCLASS (R129): gD := the one-hot class of a. -/
def execFclass (d : BitVec 5) (a : BitVec 5) (x : BitVec 3) (s : State) : Out :=
  fpToG (Enc.fclass d a x) d.toNat a.toNat x.toNat (fun v => (natWord (1 <<< fpClass .fp32 v), {})) s

/-- FLW (R130): fD := the four bytes at EA. -/
def execFlw (d : BitVec 5) (a : BitVec 5) (x : BitVec 3) (i : BitVec 11) (s : State) : Out :=
  instr (Enc.flw d a x i) {} [.src .g a.toNat x.toNat, .dst .f d.toNat]
    (fun c s => s.loadK c (Enc.flw d a x i) (s.readG c a.toNat x.toNat + off11 i) 4
      (fun t bs => .ok (t.writeF c d.toNat (BitVec.ofNat 32 (leNat bs))))) s

/-- FSW (R130): the four bytes at EA := fS. -/
def execFsw (h : BitVec 5) (a : BitVec 5) (x : BitVec 3) (i : BitVec 11) (s : State) : Out :=
  instr (Enc.fsw h a x i) {} [.src .g a.toNat x.toNat, .src .f h.toNat 0]
    (fun c s => s.storeK c (Enc.fsw h a x i) (s.readG c a.toNat x.toNat + off11 i) (leBytes 4 (s.readF c h.toNat 0).toNat) .ok) s

end Sys2Proof.Machine
end

