-- ==== Sys2Proof/Machine/Scalar.lean ====
section
/-! DEFINITION. Scalar integer, compare and condition instructions and their compact forms (spec/04 R95 to R106, spec/02 R60, R61). -/
namespace Sys2Proof.Machine
open Sys2Proof

/-! ### The functions of R98 and R99 -/

/-- The low six bits of a shift amount. -/
def sh6 (b : Word) : Nat := b.toNat % 64

namespace Alu
def andn (a b : Word) : Word := a &&& ~~~b
def orn (a b : Word) : Word := a ||| ~~~b
def xnor (a b : Word) : Word := ~~~(a ^^^ b)
def sll (a b : Word) : Word := a <<< sh6 b
def srl (a b : Word) : Word := a >>> sh6 b
def sra (a b : Word) : Word := a.sshiftRight (sh6 b)
def rol (a b : Word) : Word := a <<< sh6 b ||| a >>> (64 - sh6 b)
def ror (a b : Word) : Word := a >>> sh6 b ||| a <<< (64 - sh6 b)
def min (a b : Word) : Word := if a.toInt ≤ b.toInt then a else b
def max (a b : Word) : Word := if a.toInt ≤ b.toInt then b else a
def minu (a b : Word) : Word := if a.toNat ≤ b.toNat then a else b
def maxu (a b : Word) : Word := if a.toNat ≤ b.toNat then b else a
/-- The number of zero bits above the highest one bit. -/
def clz (a : Word) : Word := natWord (if a.toNat = 0 then 64 else 63 - a.toNat.log2)
/-- The number of zero bits below the lowest one bit, counted over n bits. -/
def trailing : Nat → Nat → Nat
  | 0, _ => 0
  | n + 1, v => if v % 2 = 1 then 0 else 1 + trailing n (v / 2)
def ctz (a : Word) : Word := natWord (trailing 64 a.toNat)
/-- The number of one bits among the low n. -/
def ones : Nat → Nat → Nat
  | 0, _ => 0
  | n + 1, v => v % 2 + ones n (v / 2)
def popc (a : Word) : Word := natWord (ones 64 a.toNat)
def brev (a : Word) : Word := natWord (ofBits ((upTo 64).map (fun i => bitOf a.toNat (63 - i))))
def sx (n : Nat) (a : Word) : Word := signExt (a.toNat % (1 <<< n)) n
def zx (n : Nat) (a : Word) : Word := natWord (a.toNat % (1 <<< n))
def mulh (a b : Word) : Word := toWord ((a.toInt * b.toInt) / Int.ofNat (1 <<< 64))
def mulhu (a b : Word) : Word := natWord ((a.toNat * b.toNat) >>> 64)
/-- The saturating sum and difference (R68), and whether they clamped. -/
def adds (a b : Word) : Word × Bool := let r := satS (a.toInt + b.toInt) 64; (toWord r.1, r.2)
def subs (a b : Word) : Word × Bool := let r := satS (a.toInt - b.toInt) 64; (toWord r.1, r.2)
/-- The signed quotient rounded toward zero (R99). -/
def div (a b : Word) : Word := if b = 0 then BitVec.allOnes 64 else toWord (a.toInt.tdiv b.toInt)
def divu (a b : Word) : Word := if b = 0 then BitVec.allOnes 64 else natWord (a.toNat / b.toNat)
def rem (a b : Word) : Word := if b = 0 then a else toWord (a.toInt.tmod b.toInt)
def remu (a b : Word) : Word := if b = 0 then a else natWord (a.toNat % b.toNat)
end Alu

/-! ### The shared shapes -/

/-- gD := f of gA at dA and gB at dB (R97, R98). -/
def aluRR (word d a x b y : Nat) (f : Word → Word → Word) (s : State) : Out :=
  instr word {} [.src .g a x, .src .g b y, .dst .g d]
    (fun c s => .ok (s.writeG c d (f (s.readG c a x) (s.readG c b y)))) s

/-- As aluRR, with a saturation event when the result clamped (R100). -/
def aluSat (word d a x b y : Nat) (f : Word → Word → Word × Bool) (s : State) : Out :=
  instr word {} [.src .g a x, .src .g b y, .dst .g d]
    (fun c s =>
      let r := f (s.readG c a x) (s.readG c b y)
      .ok ((s.writeG c d r.1).count c { sat := b2n r.2 })) s

/-- gD := f of gA at dA (R97, R102). -/
def aluR (word d a x : Nat) (f : Word → Word) (s : State) : Out :=
  instr word {} [.src .g a x, .dst .g d] (fun c s => .ok (s.writeG c d (f (s.readG c a x)))) s

/-- gD := a value that depends on the instruction's own address alone (R102). -/
def aluPc (word d : Nat) (f : Word → Word) (s : State) : Out :=
  instr word {} [.dst .g d] (fun c s => .ok (s.writeG c d (f (s.pcOf c)))) s

/-- qD := a relation of gA at dA and gB at dB (R105). -/
def cmpRR (word q a x b y : Nat) (r : Rel) (s : State) : Out :=
  instr word {} [.src .g a x, .src .g b y, .dst .q q]
    (fun c s => .ok (s.writeQ c q (r.holds (s.readG c a x) (s.readG c b y)))) s

/-- qD := a relation of gA at dA and an immediate (R105). -/
def cmpRI (word q a x : Nat) (v : Word) (r : Rel) (s : State) : Out :=
  instr word {} [.src .g a x, .dst .q q] (fun c s => .ok (s.writeQ c q (r.holds (s.readG c a x) v))) s

/-- qD := a condition of qA at dA and qB at dB (R106). -/
def condRR (word q a x b y : Nat) (o : QOp) (s : State) : Out :=
  instr word {} [.src .q a x, .src .q b y, .dst .q q]
    (fun c s => .ok (s.writeQ c q (o.apply (s.readQ c a x) (s.readQ c b y)))) s

/-- A 12-bit immediate, sign-extended (R45). -/
def imm12 (i : BitVec 12) : Word := i.signExtend 64
/-- An imm20 in bits 31:12, sign-extended (R45, R102). -/
def imm20 (i : BitVec 20) : Word := (i ++ (0 : BitVec 12)).signExtend 64
/-- A 9-bit immediate, sign-extended (R105). -/
def imm9 (i : BitVec 9) : Word := i.signExtend 64
/-- A 6-bit immediate of a compact form, sign-extended (R60). -/
def imm6 (i : BitVec 6) : Word := i.signExtend 64

/-! ### The instructions -/

/-- ADD (R98): gD := a + b modulo 2^64. -/
def execAdd (d : BitVec 5) (a : BitVec 5) (x : BitVec 3) (b : BitVec 5) (y : BitVec 3) (s : State) : Out :=
  aluRR (Enc.add d a x b y) d.toNat a.toNat x.toNat b.toNat y.toNat (fun a b => a + b) s

/-- SUB (R98): gD := a − b modulo 2^64. -/
def execSub (d : BitVec 5) (a : BitVec 5) (x : BitVec 3) (b : BitVec 5) (y : BitVec 3) (s : State) : Out :=
  aluRR (Enc.sub d a x b y) d.toNat a.toNat x.toNat b.toNat y.toNat (fun a b => a - b) s

/-- AND (R98): gD := a AND b. -/
def execAnd (d : BitVec 5) (a : BitVec 5) (x : BitVec 3) (b : BitVec 5) (y : BitVec 3) (s : State) : Out :=
  aluRR (Enc.and d a x b y) d.toNat a.toNat x.toNat b.toNat y.toNat (fun a b => a &&& b) s

/-- OR (R98): gD := a OR b. -/
def execOr (d : BitVec 5) (a : BitVec 5) (x : BitVec 3) (b : BitVec 5) (y : BitVec 3) (s : State) : Out :=
  aluRR (Enc.or d a x b y) d.toNat a.toNat x.toNat b.toNat y.toNat (fun a b => a ||| b) s

/-- XOR (R98): gD := a XOR b. -/
def execXor (d : BitVec 5) (a : BitVec 5) (x : BitVec 3) (b : BitVec 5) (y : BitVec 3) (s : State) : Out :=
  aluRR (Enc.xor d a x b y) d.toNat a.toNat x.toNat b.toNat y.toNat (fun a b => a ^^^ b) s

/-- MUL (R98): gD := the low 64 bits of the product. -/
def execMul (d : BitVec 5) (a : BitVec 5) (x : BitVec 3) (b : BitVec 5) (y : BitVec 3) (s : State) : Out :=
  aluRR (Enc.mul d a x b y) d.toNat a.toNat x.toNat b.toNat y.toNat (fun a b => a * b) s

/-- ANDN (R98): gD := a AND NOT b. -/
def execAndn (d : BitVec 5) (a : BitVec 5) (x : BitVec 3) (b : BitVec 5) (y : BitVec 3) (s : State) : Out :=
  aluRR (Enc.andn d a x b y) d.toNat a.toNat x.toNat b.toNat y.toNat Alu.andn s

/-- ORN (R98): gD := a OR NOT b. -/
def execOrn (d : BitVec 5) (a : BitVec 5) (x : BitVec 3) (b : BitVec 5) (y : BitVec 3) (s : State) : Out :=
  aluRR (Enc.orn d a x b y) d.toNat a.toNat x.toNat b.toNat y.toNat Alu.orn s

/-- XNOR (R98): gD := NOT (a XOR b). -/
def execXnor (d : BitVec 5) (a : BitVec 5) (x : BitVec 3) (b : BitVec 5) (y : BitVec 3) (s : State) : Out :=
  aluRR (Enc.xnor d a x b y) d.toNat a.toNat x.toNat b.toNat y.toNat Alu.xnor s

/-- SLL (R98): gD := a shifted left by b[5:0]. -/
def execSll (d : BitVec 5) (a : BitVec 5) (x : BitVec 3) (b : BitVec 5) (y : BitVec 3) (s : State) : Out :=
  aluRR (Enc.sll d a x b y) d.toNat a.toNat x.toNat b.toNat y.toNat Alu.sll s

/-- SRL (R98): gD := a shifted right by b[5:0], zero-filled. -/
def execSrl (d : BitVec 5) (a : BitVec 5) (x : BitVec 3) (b : BitVec 5) (y : BitVec 3) (s : State) : Out :=
  aluRR (Enc.srl d a x b y) d.toNat a.toNat x.toNat b.toNat y.toNat Alu.srl s

/-- SRA (R98): gD := a shifted right by b[5:0], sign-filled. -/
def execSra (d : BitVec 5) (a : BitVec 5) (x : BitVec 3) (b : BitVec 5) (y : BitVec 3) (s : State) : Out :=
  aluRR (Enc.sra d a x b y) d.toNat a.toNat x.toNat b.toNat y.toNat Alu.sra s

/-- ROL (R98): gD := a rotated left by b[5:0]. -/
def execRol (d : BitVec 5) (a : BitVec 5) (x : BitVec 3) (b : BitVec 5) (y : BitVec 3) (s : State) : Out :=
  aluRR (Enc.rol d a x b y) d.toNat a.toNat x.toNat b.toNat y.toNat Alu.rol s

/-- ROR (R98): gD := a rotated right by b[5:0]. -/
def execRor (d : BitVec 5) (a : BitVec 5) (x : BitVec 3) (b : BitVec 5) (y : BitVec 3) (s : State) : Out :=
  aluRR (Enc.ror d a x b y) d.toNat a.toNat x.toNat b.toNat y.toNat Alu.ror s

/-- MIN (R98): gD := the signed smaller. -/
def execMin (d : BitVec 5) (a : BitVec 5) (x : BitVec 3) (b : BitVec 5) (y : BitVec 3) (s : State) : Out :=
  aluRR (Enc.min d a x b y) d.toNat a.toNat x.toNat b.toNat y.toNat Alu.min s

/-- MAX (R98): gD := the signed larger. -/
def execMax (d : BitVec 5) (a : BitVec 5) (x : BitVec 3) (b : BitVec 5) (y : BitVec 3) (s : State) : Out :=
  aluRR (Enc.max d a x b y) d.toNat a.toNat x.toNat b.toNat y.toNat Alu.max s

/-- MINU (R98): gD := the unsigned smaller. -/
def execMinu (d : BitVec 5) (a : BitVec 5) (x : BitVec 3) (b : BitVec 5) (y : BitVec 3) (s : State) : Out :=
  aluRR (Enc.minu d a x b y) d.toNat a.toNat x.toNat b.toNat y.toNat Alu.minu s

/-- MAXU (R98): gD := the unsigned larger. -/
def execMaxu (d : BitVec 5) (a : BitVec 5) (x : BitVec 3) (b : BitVec 5) (y : BitVec 3) (s : State) : Out :=
  aluRR (Enc.maxu d a x b y) d.toNat a.toNat x.toNat b.toNat y.toNat Alu.maxu s

/-- MULH (R98): gD := bits 127:64 of the signed product. -/
def execMulh (d : BitVec 5) (a : BitVec 5) (x : BitVec 3) (b : BitVec 5) (y : BitVec 3) (s : State) : Out :=
  aluRR (Enc.mulh d a x b y) d.toNat a.toNat x.toNat b.toNat y.toNat Alu.mulh s

/-- MULHU (R98): gD := bits 127:64 of the unsigned product. -/
def execMulhu (d : BitVec 5) (a : BitVec 5) (x : BitVec 3) (b : BitVec 5) (y : BitVec 3) (s : State) : Out :=
  aluRR (Enc.mulhu d a x b y) d.toNat a.toNat x.toNat b.toNat y.toNat Alu.mulhu s

/-- DIV (R99): gD := the signed quotient toward zero; all ones for a zero divisor. -/
def execDiv (d : BitVec 5) (a : BitVec 5) (x : BitVec 3) (b : BitVec 5) (y : BitVec 3) (s : State) : Out :=
  aluRR (Enc.div d a x b y) d.toNat a.toNat x.toNat b.toNat y.toNat Alu.div s

/-- DIVU (R99): gD := the unsigned quotient; all ones for a zero divisor. -/
def execDivu (d : BitVec 5) (a : BitVec 5) (x : BitVec 3) (b : BitVec 5) (y : BitVec 3) (s : State) : Out :=
  aluRR (Enc.divu d a x b y) d.toNat a.toNat x.toNat b.toNat y.toNat Alu.divu s

/-- REM (R99): gD := the signed remainder; the dividend for a zero divisor. -/
def execRem (d : BitVec 5) (a : BitVec 5) (x : BitVec 3) (b : BitVec 5) (y : BitVec 3) (s : State) : Out :=
  aluRR (Enc.rem d a x b y) d.toNat a.toNat x.toNat b.toNat y.toNat Alu.rem s

/-- REMU (R99): gD := the unsigned remainder; the dividend for a zero divisor. -/
def execRemu (d : BitVec 5) (a : BitVec 5) (x : BitVec 3) (b : BitVec 5) (y : BitVec 3) (s : State) : Out :=
  aluRR (Enc.remu d a x b y) d.toNat a.toNat x.toNat b.toNat y.toNat Alu.remu s

/-- ADDS (R98): gD := the signed sum, saturated. -/
def execAdds (d : BitVec 5) (a : BitVec 5) (x : BitVec 3) (b : BitVec 5) (y : BitVec 3) (s : State) : Out :=
  aluSat (Enc.adds d a x b y) d.toNat a.toNat x.toNat b.toNat y.toNat Alu.adds s

/-- SUBS (R98): gD := the signed difference, saturated. -/
def execSubs (d : BitVec 5) (a : BitVec 5) (x : BitVec 3) (b : BitVec 5) (y : BitVec 3) (s : State) : Out :=
  aluSat (Enc.subs d a x b y) d.toNat a.toNat x.toNat b.toNat y.toNat Alu.subs s

/-- CLZ (R98): gD := the leading zero bits of a. -/
def execClz (d : BitVec 5) (a : BitVec 5) (x : BitVec 3) (s : State) : Out :=
  aluR (Enc.clz d a x) d.toNat a.toNat x.toNat Alu.clz s

/-- CTZ (R98): gD := the trailing zero bits of a. -/
def execCtz (d : BitVec 5) (a : BitVec 5) (x : BitVec 3) (s : State) : Out :=
  aluR (Enc.ctz d a x) d.toNat a.toNat x.toNat Alu.ctz s

/-- POPC (R98): gD := the one bits of a. -/
def execPopc (d : BitVec 5) (a : BitVec 5) (x : BitVec 3) (s : State) : Out :=
  aluR (Enc.popc d a x) d.toNat a.toNat x.toNat Alu.popc s

/-- BREV (R98): gD := a with its bits reversed. -/
def execBrev (d : BitVec 5) (a : BitVec 5) (x : BitVec 3) (s : State) : Out :=
  aluR (Enc.brev d a x) d.toNat a.toNat x.toNat Alu.brev s

/-- SXB (R98): gD := the low byte sign-extended. -/
def execSxb (d : BitVec 5) (a : BitVec 5) (x : BitVec 3) (s : State) : Out :=
  aluR (Enc.sxb d a x) d.toNat a.toNat x.toNat (Alu.sx 8) s

/-- SXH (R98): gD := the low half sign-extended. -/
def execSxh (d : BitVec 5) (a : BitVec 5) (x : BitVec 3) (s : State) : Out :=
  aluR (Enc.sxh d a x) d.toNat a.toNat x.toNat (Alu.sx 16) s

/-- SXW (R98): gD := the low word sign-extended. -/
def execSxw (d : BitVec 5) (a : BitVec 5) (x : BitVec 3) (s : State) : Out :=
  aluR (Enc.sxw d a x) d.toNat a.toNat x.toNat (Alu.sx 32) s

/-- ZXB (R98): gD := the low byte zero-extended. -/
def execZxb (d : BitVec 5) (a : BitVec 5) (x : BitVec 3) (s : State) : Out :=
  aluR (Enc.zxb d a x) d.toNat a.toNat x.toNat (Alu.zx 8) s

/-- ZXH (R98): gD := the low half zero-extended. -/
def execZxh (d : BitVec 5) (a : BitVec 5) (x : BitVec 3) (s : State) : Out :=
  aluR (Enc.zxh d a x) d.toNat a.toNat x.toNat (Alu.zx 16) s

/-- ZXW (R98): gD := the low word zero-extended. -/
def execZxw (d : BitVec 5) (a : BitVec 5) (x : BitVec 3) (s : State) : Out :=
  aluR (Enc.zxw d a x) d.toNat a.toNat x.toNat (Alu.zx 32) s

/-- ADDI (R102): gD := a + imm12. -/
def execAddi (d : BitVec 5) (a : BitVec 5) (x : BitVec 3) (i : BitVec 12) (s : State) : Out :=
  aluR (Enc.addi d a x i) d.toNat a.toNat x.toNat (fun v => v + imm12 i) s

/-- ANDI (R102): gD := a AND imm12. -/
def execAndi (d : BitVec 5) (a : BitVec 5) (x : BitVec 3) (i : BitVec 12) (s : State) : Out :=
  aluR (Enc.andi d a x i) d.toNat a.toNat x.toNat (fun v => v &&& imm12 i) s

/-- ORI (R102): gD := a OR imm12. -/
def execOri (d : BitVec 5) (a : BitVec 5) (x : BitVec 3) (i : BitVec 12) (s : State) : Out :=
  aluR (Enc.ori d a x i) d.toNat a.toNat x.toNat (fun v => v ||| imm12 i) s

/-- XORI (R102): gD := a XOR imm12. -/
def execXori (d : BitVec 5) (a : BitVec 5) (x : BitVec 3) (i : BitVec 12) (s : State) : Out :=
  aluR (Enc.xori d a x i) d.toNat a.toNat x.toNat (fun v => v ^^^ imm12 i) s

/-- SLLI (R102): gD := a shifted by sh, left. -/
def execSlli (d : BitVec 5) (a : BitVec 5) (x : BitVec 3) (h : BitVec 6) (s : State) : Out :=
  aluR (Enc.slli d a x h) d.toNat a.toNat x.toNat (fun v => Alu.sll v (natWord h.toNat)) s

/-- SRLI (R102): gD := a shifted by sh, right, zero-filled. -/
def execSrli (d : BitVec 5) (a : BitVec 5) (x : BitVec 3) (h : BitVec 6) (s : State) : Out :=
  aluR (Enc.srli d a x h) d.toNat a.toNat x.toNat (fun v => Alu.srl v (natWord h.toNat)) s

/-- SRAI (R102): gD := a shifted by sh, right, sign-filled. -/
def execSrai (d : BitVec 5) (a : BitVec 5) (x : BitVec 3) (h : BitVec 6) (s : State) : Out :=
  aluR (Enc.srai d a x h) d.toNat a.toNat x.toNat (fun v => Alu.sra v (natWord h.toNat)) s

/-- RORI (R102): gD := a shifted by sh, right, rotating. -/
def execRori (d : BitVec 5) (a : BitVec 5) (x : BitVec 3) (h : BitVec 6) (s : State) : Out :=
  aluR (Enc.rori d a x h) d.toNat a.toNat x.toNat (fun v => Alu.ror v (natWord h.toNat)) s

/-- UPIM (R102): gD := imm20 in bits 31:12, sign-extended. -/
def execUpim (d : BitVec 5) (i : BitVec 20) (s : State) : Out :=
  aluPc (Enc.upim d i) d.toNat (fun _ => imm20 i) s

/-- PCADD (R102): gD := the address of the PCADD + imm20 in bits 31:12. -/
def execPcadd (d : BitVec 5) (i : BitVec 20) (s : State) : Out :=
  aluPc (Enc.pcadd d i) d.toNat (fun pc => pc + imm20 i) s

/-- CEQ (R105): qD := relation eq of a and b. -/
def execCeq (q : BitVec 3) (a : BitVec 5) (x : BitVec 3) (b : BitVec 5) (y : BitVec 3) (s : State) : Out :=
  cmpRR (Enc.ceq q a x b y) q.toNat a.toNat x.toNat b.toNat y.toNat .eq s

/-- CNE (R105): qD := relation ne of a and b. -/
def execCne (q : BitVec 3) (a : BitVec 5) (x : BitVec 3) (b : BitVec 5) (y : BitVec 3) (s : State) : Out :=
  cmpRR (Enc.cne q a x b y) q.toNat a.toNat x.toNat b.toNat y.toNat .ne s

/-- CLT (R105): qD := relation lt of a and b. -/
def execClt (q : BitVec 3) (a : BitVec 5) (x : BitVec 3) (b : BitVec 5) (y : BitVec 3) (s : State) : Out :=
  cmpRR (Enc.clt q a x b y) q.toNat a.toNat x.toNat b.toNat y.toNat .lt s

/-- CLTU (R105): qD := relation ltu of a and b. -/
def execCltu (q : BitVec 3) (a : BitVec 5) (x : BitVec 3) (b : BitVec 5) (y : BitVec 3) (s : State) : Out :=
  cmpRR (Enc.cltu q a x b y) q.toNat a.toNat x.toNat b.toNat y.toNat .ltu s

/-- CGE (R105): qD := relation ge of a and b. -/
def execCge (q : BitVec 3) (a : BitVec 5) (x : BitVec 3) (b : BitVec 5) (y : BitVec 3) (s : State) : Out :=
  cmpRR (Enc.cge q a x b y) q.toNat a.toNat x.toNat b.toNat y.toNat .ge s

/-- CGEU (R105): qD := relation geu of a and b. -/
def execCgeu (q : BitVec 3) (a : BitVec 5) (x : BitVec 3) (b : BitVec 5) (y : BitVec 3) (s : State) : Out :=
  cmpRR (Enc.cgeu q a x b y) q.toNat a.toNat x.toNat b.toNat y.toNat .geu s

/-- CEQI (R105): qD := relation eq of a and imm9. -/
def execCeqi (q : BitVec 3) (a : BitVec 5) (x : BitVec 3) (i : BitVec 9) (s : State) : Out :=
  cmpRI (Enc.ceqi q a x i) q.toNat a.toNat x.toNat (imm9 i) .eq s

/-- CNEI (R105): qD := relation ne of a and imm9. -/
def execCnei (q : BitVec 3) (a : BitVec 5) (x : BitVec 3) (i : BitVec 9) (s : State) : Out :=
  cmpRI (Enc.cnei q a x i) q.toNat a.toNat x.toNat (imm9 i) .ne s

/-- CLTI (R105): qD := relation lt of a and imm9. -/
def execClti (q : BitVec 3) (a : BitVec 5) (x : BitVec 3) (i : BitVec 9) (s : State) : Out :=
  cmpRI (Enc.clti q a x i) q.toNat a.toNat x.toNat (imm9 i) .lt s

/-- CLTUI (R105): qD := relation ltu of a and imm9. -/
def execCltui (q : BitVec 3) (a : BitVec 5) (x : BitVec 3) (i : BitVec 9) (s : State) : Out :=
  cmpRI (Enc.cltui q a x i) q.toNat a.toNat x.toNat (imm9 i) .ltu s

/-- CGEI (R105): qD := relation ge of a and imm9. -/
def execCgei (q : BitVec 3) (a : BitVec 5) (x : BitVec 3) (i : BitVec 9) (s : State) : Out :=
  cmpRI (Enc.cgei q a x i) q.toNat a.toNat x.toNat (imm9 i) .ge s

/-- CGEUI (R105): qD := relation geu of a and imm9. -/
def execCgeui (q : BitVec 3) (a : BitVec 5) (x : BitVec 3) (i : BitVec 9) (s : State) : Out :=
  cmpRI (Enc.cgeui q a x i) q.toNat a.toNat x.toNat (imm9 i) .geu s

/-- QAND (R106): qD := qA and qB. -/
def execQand (q : BitVec 3) (a : BitVec 3) (x : BitVec 3) (b : BitVec 3) (y : BitVec 3) (s : State) : Out :=
  condRR (Enc.qand q a x b y) q.toNat a.toNat x.toNat b.toNat y.toNat .and s

/-- QOR (R106): qD := qA or qB. -/
def execQor (q : BitVec 3) (a : BitVec 3) (x : BitVec 3) (b : BitVec 3) (y : BitVec 3) (s : State) : Out :=
  condRR (Enc.qor q a x b y) q.toNat a.toNat x.toNat b.toNat y.toNat .or s

/-- QXOR (R106): qD := qA xor qB. -/
def execQxor (q : BitVec 3) (a : BitVec 3) (x : BitVec 3) (b : BitVec 3) (y : BitVec 3) (s : State) : Out :=
  condRR (Enc.qxor q a x b y) q.toNat a.toNat x.toNat b.toNat y.toNat .xor s

/-- QNOT (R106): qD := NOT qA. -/
def execQnot (q : BitVec 3) (a : BitVec 3) (x : BitVec 3) (s : State) : Out :=
  instr (Enc.qnot q a x) {} [.src .q a.toNat x.toNat, .dst .q q.toNat]
    (fun c s => .ok (s.writeQ c q.toNat (!s.readQ c a.toNat x.toNat))) s

/-! ### Compact forms (R60): the expansion, with the halfword as TVAL -/

/-- C_MV (R60): ADDI gD, gA, 0. -/
def execCMv (d : BitVec 5) (a : BitVec 5) (s : State) : Out :=
  aluR (Enc.cMv d a) d.toNat a.toNat 0 (fun v => v + 0) s

/-- C_ADD (R60): ADD gD, gD, gA. -/
def execCAdd (d : BitVec 5) (a : BitVec 5) (s : State) : Out :=
  aluRR (Enc.cAdd d a) d.toNat d.toNat 0 a.toNat 0 (fun a b => a + b) s

/-- C_ADDI (R60): ADDI gD, gD, imm6. -/
def execCAddi (d : BitVec 5) (i : BitVec 6) (s : State) : Out :=
  aluR (Enc.cAddi d i) d.toNat d.toNat 0 (fun v => v + imm6 i) s

/-- C_SUB (R60): SUB gD, gD, gA. -/
def execCSub (d : BitVec 5) (a : BitVec 5) (s : State) : Out :=
  aluRR (Enc.cSub d a) d.toNat d.toNat 0 a.toNat 0 (fun a b => a - b) s

/-- C_AND (R60): AND gD, gD, gA. -/
def execCAnd (d : BitVec 5) (a : BitVec 5) (s : State) : Out :=
  aluRR (Enc.cAnd d a) d.toNat d.toNat 0 a.toNat 0 (fun a b => a &&& b) s

/-- C_LI (R60): ADDI gD, g0, imm6. -/
def execCLi (d : BitVec 5) (i : BitVec 6) (s : State) : Out :=
  aluR (Enc.cLi d i) d.toNat 0 0 (fun v => v + imm6 i) s

/-- C_SLLI (R60): SLLI gD, gD, sh6. -/
def execCSlli (d : BitVec 5) (i : BitVec 6) (s : State) : Out :=
  aluR (Enc.cSlli d i) d.toNat d.toNat 0 (fun v => Alu.sll v (natWord i.toNat)) s

/-- C_SRLI (R60): SRLI gD, gD, sh6. -/
def execCSrli (d : BitVec 5) (i : BitVec 6) (s : State) : Out :=
  aluR (Enc.cSrli d i) d.toNat d.toNat 0 (fun v => Alu.srl v (natWord i.toNat)) s

end Sys2Proof.Machine
end

