-- ==== Sys2Proof/Machine/Vector.lean ====
section
/-! DEFINITION. Vector arithmetic, select, reductions, permutes, masks and vector memory (spec/05 R123 to R139, R144 to R147). -/
namespace Sys2Proof.Machine
open Sys2Proof

/-! ### Element functions -/

/-- The element width in bits of an integer view (R54, R124). -/
def intWidth (e : Nat) : Nat := 8 <<< e
/-- The float format of a view of major 0x1B (R54). -/
def fltFmt (e : Nat) : Fmt := if e = 0 then .fp32 else .bf16
/-- The element width of a view of major 0x1D (R54). -/
def viewWidth (e : Nat) : Nat := if e = 4 then 32 else if e = 5 then 16 else 8 <<< e
/-- The float format of a view of major 0x1D, where it has one. -/
def viewFmt (e : Nat) : Option Fmt := if e = 4 then some .fp32 else if e = 5 then some .bf16 else none

/-- An integer modulo 2^k. -/
def wrap (k : Nat) (i : Int) : Nat := (i % Int.ofNat (1 <<< k)).toNat

namespace VAlu
def add (k a b : Nat) : Nat × Ev := (wrap k (Int.ofNat a + Int.ofNat b), {})
def sub (k a b : Nat) : Nat × Ev := (wrap k (Int.ofNat a - Int.ofNat b), {})
def mul (k a b : Nat) : Nat × Ev := (wrap k (sext a k * sext b k), {})
def mulh (k a b : Nat) : Nat × Ev := (wrap k (sext a k * sext b k / Int.ofNat (1 <<< k)), {})
def min (k a b : Nat) : Nat × Ev := (if sext a k ≤ sext b k then a else b, {})
def max (k a b : Nat) : Nat × Ev := (if sext a k ≤ sext b k then b else a, {})
def minu (_ a b : Nat) : Nat × Ev := (if a ≤ b then a else b, {})
def maxu (_ a b : Nat) : Nat × Ev := (if a ≤ b then b else a, {})
def and (_ a b : Nat) : Nat × Ev := (a &&& b, {})
def or (_ a b : Nat) : Nat × Ev := (a ||| b, {})
def xor (_ a b : Nat) : Nat × Ev := (a ^^^ b, {})
def sll (k a b : Nat) : Nat × Ev := ((a <<< (b % k)) % (1 <<< k), {})
def srl (k a b : Nat) : Nat × Ev := (a >>> (b % k), {})
def sra (k a b : Nat) : Nat × Ev := (wrap k (sext a k / Int.ofNat (1 <<< (b % k))), {})
def adds (k a b : Nat) : Nat × Ev := let r := satS (sext a k + sext b k) k; (wrap k r.1, { sat := b2n r.2 })
def subs (k a b : Nat) : Nat × Ev := let r := satS (sext a k - sext b k) k; (wrap k r.1, { sat := b2n r.2 })
end VAlu

/-- The results of a lane function over two values, and the sum of the events (R93). -/
def lanes2 (k : Nat) (f : Nat → Nat → Nat × Ev) (v u : Wide) : Wide × Ev :=
  let rs := (upTo (512 / k)).map (fun i => f (elemOf v k i) (elemOf u k i))
  (wideOf k (rs.map (fun r => r.1)), Ev.sum (rs.map (fun r => r.2)))

/-! ### Shapes -/

/-- wD := f of each element of wA at dA and wB (R125, R131 to R133). -/
def vecRR (word d a x b k : Nat) (f : Nat → Nat → Nat × Ev) (s : State) : Out :=
  instr word {} [.src .w a x, .src .w b 0, .dst .w d]
    (fun c s =>
      let r := lanes2 k f (s.readW c a x) (s.readW c b 0)
      .ok ((s.writeW c d r.1).count c r.2)) s

/-- wD := f of each element of wA at dA (R133). -/
def vecR (word d a x k : Nat) (f : Nat → Nat × Ev) (s : State) : Out :=
  instr word {} [.src .w a x, .dst .w d]
    (fun c s =>
      let r := lanes2 k (fun v _ => f v) (s.readW c a x) 0
      .ok ((s.writeW c d r.1).count c r.2)) s

/-- wD := a × b ± c in each lane, at distance 0, rounded once (R134). -/
def vecFused (word d a b r : Nat) (f : Fmt) (negC : Bool) (s : State) : Out :=
  instr word {} [.src .w a 0, .src .w b 0, .src .w r 0, .dst .w d]
    (fun c s =>
      let k := f.width
      let va := s.readW c a 0
      let vb := s.readW c b 0
      let vc := s.readW c r 0
      let rs := (upTo (512 / k)).map (fun i => fpFma f false negC (elemOf va k i) (elemOf vb k i) (elemOf vc k i))
      .ok ((s.writeW c d (wideOf k (rs.map (fun r => r.1)))).count c (Ev.sum (rs.map (fun r => r.2))))) s

/-- wD element i := a(i) where mC bit i is one, else b(i) (R134). -/
def vecSel (word d a b m k : Nat) (s : State) : Out :=
  instr word {} [.src .w a 0, .src .w b 0, .src .m m 0, .dst .w d]
    (fun c s =>
      let va := s.readW c a 0
      let vb := s.readW c b 0
      let vm := (s.readM c m 0).toNat
      .ok (s.writeW c d (wideOf k ((upTo (512 / k)).map (fun i => if bitOf vm i then elemOf va k i else elemOf vb k i))))) s

/-! ### Reductions (R84, R136) -/

/-- The three reductions. -/
inductive Red where
  | sum | max | min
  deriving DecidableEq, Repr

/-- The identity of a reduction in a float view (R84): −0, −∞, +∞. -/
def Red.fltId (r : Red) (f : Fmt) : Nat :=
  match r with
  | .sum => 1 <<< (f.width - 1)
  | .max => (f.infCode.getD 0) + 1 <<< (f.width - 1)
  | .min => f.infCode.getD 0

/-- The operation of a reduction in a float view. -/
def Red.fltOp (r : Red) (f : Fmt) : Nat → Nat → Nat × Ev :=
  match r with
  | .sum => fpAdd f
  | .max => fpMinMax f true
  | .min => fpMinMax f false

/-- The identity and the operation in an integer view of k bits (R136). -/
def Red.intId (r : Red) (k : Nat) : Nat :=
  match r with
  | .sum => 0
  | .max => 1 <<< (k - 1)
  | .min => (1 <<< (k - 1)) - 1
def Red.intOp (r : Red) (k a b : Nat) : Nat :=
  match r with
  | .sum => (VAlu.add k a b).1
  | .max => (VAlu.max k a b).1
  | .min => (VAlu.min k a b).1

/-- The result of a reduction over a value under a mask, in the view e (R136). -/
def Red.apply (r : Red) (e : Nat) (v : Wide) (mask : Nat) : Nat × Ev :=
  let k := viewWidth e
  let elems (id : Nat) := (upTo (512 / k)).map (fun i => if bitOf mask i then elemOf v k i else id)
  match viewFmt e with
  | some f =>
    let t := pairTree (r.fltOp f) 5 (elems (r.fltId f))
    (t.1, t.2.once)
  | none => ((elems (r.intId k)).foldl (r.intOp k) (r.intId k), {})

/-- A reduction into element 0 of wD, zero elsewhere (R136). -/
def vecRed (word d a x m e : Nat) (r : Red) (s : State) : Out :=
  instr word {} [.src .w a x, .src .m m 0, .dst .w d]
    (fun c s =>
      let t := r.apply e (s.readW c a x) (s.readM c m 0).toNat
      .ok ((s.writeW c d (BitVec.ofNat 512 (t.1 % (1 <<< viewWidth e)))).count c t.2)) s

/-! ### Compares and masks (R138, R139) -/

/-- mD bit i := the relation of element i (R139). -/
def vecCmp (word m a x b k : Nat) (f : Nat → Nat → Bool) (s : State) : Out :=
  instr word {} [.src .w a x, .src .w b 0, .dst .m m]
    (fun c s =>
      let va := s.readW c a x
      let vb := s.readW c b 0
      .ok (s.writeM c m (natWord (ofBits ((upTo (512 / k)).map (fun i => f (elemOf va k i) (elemOf vb k i))))))) s

/-- A relation of two k-bit integers. -/
def Rel.ofElems (r : Rel) (k a b : Nat) : Bool :=
  match r with
  | .eq => a == b
  | .ne => a != b
  | .lt => decide (sext a k < sext b k)
  | .ltu => decide (a < b)
  | .ge => decide (sext a k ≥ sext b k)
  | .geu => decide (a ≥ b)

/-- mD := f of mA at dA and mB at dB (R139). -/
def maskRR (word d a x b y : Nat) (f : Word → Word → Word) (s : State) : Out :=
  instr word {} [.src .m a x, .src .m b y, .dst .m d]
    (fun c s => .ok (s.writeM c d (f (s.readM c a x) (s.readM c b y)))) s

/-- gD := f of mA at dA (R139). -/
def maskToG (word d a x : Nat) (f : Word → Word) (s : State) : Out :=
  instr word {} [.src .m a x, .dst .g d] (fun c s => .ok (s.writeG c d (f (s.readM c a x)))) s

/-! ### Vector memory (R144 to R147) -/

/-- imm10 × 64, sign-extended (R145). -/
def off10 (i : BitVec 10) : Word := toWord (i.toInt * 64)

/-- The active elements of a vector access of z bytes, in ascending order, with their addresses (R146). -/
def activeElems (z mask : Nat) (ea : Nat → Word) : List (Nat × Word) :=
  ((upTo (64 / z)).filter (bitOf mask)).map (fun i => (i, ea i))

/-- The checks of one element (R146): a path other than LOCAL is the path fault. Those of R251 and R261, with the TVAL that each gives,
follow the element's own (log 98). -/
def State.elemFault (s : State) (c : Ctx) (z : Nat) (ea : Word) : Option (Nat × Word) :=
  if bitsOf ea.toNat 63 60 ≠ 1 then some (9, ea)
  else match s.localFault c ea.toNat z with
    | some (cause, tv) => some (cause, if cause = 16 || cause = 20 then tv else ea)
    | none => none

/-- The scratchpad offset and key of an element's address. -/
def elemOff (ea : Word) : Nat := bitsOf ea.toNat 18 0
def elemKey (c : Ctx) (ea : Word) : Nat := scratchKey c.b (elemOff ea)

/-- A strided load or a gather: every check before any byte, inactive elements zero (R146). -/
def State.vecLoad (s : State) (c : Ctx) (d z mask : Nat) (ea : Nat → Word) : Res :=
  let es := activeElems z mask ea
  match firstSome (fun e => s.elemFault c z e.2) es with
  | some (cause, tv) => .trap s cause tv
  | none =>
    match firstSome (fun e => if s.poisoned (elemKey c e.2) z then some e.2 else none) es with
    | some a => s.poisonRes c (elemKey c a) z a
    | none =>
      let v := wideOf (8 * z) ((upTo (64 / z)).map (fun i => if bitOf mask i then s.natAt (elemKey c (ea i)) z else 0))
      .ok ((es.foldl (fun t e => t.touchAll c (elemOff e.2) z) s).writeW c d v)

/-- A strided store or a scatter: every check before any byte, then ascending order (R146, R147). Each element is a store of its own to a
poisoned code word (R439), whatever the other elements cover of it (log 114). -/
def State.vecStore (s : State) (c : Ctx) (z mask : Nat) (ea : Nat → Word) (v : Wide) : Res :=
  let es := activeElems z mask ea
  match firstSome (fun e => s.elemFault c z e.2) es with
  | some (cause, tv) => .trap s cause tv
  | none =>
    if es.any (fun e => s.commandBars c e.2.toNat z) then .stay s
    else match firstSome (fun e => if s.partPoisoned (elemKey c e.2) z then some e.2 else none) es with
    | some a => s.poisonRes c (elemKey c a) z a
    | none =>
      .ok (es.foldl (fun t e =>
        (t.touchAll c (elemOff e.2) z).storeScratch c.b (elemOff e.2) (leBytes z (elemOf v (8 * z) e.1))) s)

/-- EA(i) of the strided forms (R146). -/
def strided (base step : Word) (i : Nat) : Word := toWord (base.toInt + Int.ofNat i * step.toInt)
/-- EA(i) of the indexed forms (R146). -/
def indexed (base : Word) (idx : Wide) (z i : Nat) : Word := base + natWord (elemOf idx (8 * z) i * z)

/-! ### The instructions -/

/-- VADD (R132): each element := add of a and b. -/
def execVadd (d : BitVec 5) (a : BitVec 5) (x : BitVec 3) (b : BitVec 5) (e : BitVec 3) (s : State) : Out :=
  vecRR (Enc.vadd d a x b e) d.toNat a.toNat x.toNat b.toNat (intWidth e.toNat) (VAlu.add (intWidth e.toNat)) s

/-- VSUB (R132): each element := sub of a and b. -/
def execVsub (d : BitVec 5) (a : BitVec 5) (x : BitVec 3) (b : BitVec 5) (e : BitVec 3) (s : State) : Out :=
  vecRR (Enc.vsub d a x b e) d.toNat a.toNat x.toNat b.toNat (intWidth e.toNat) (VAlu.sub (intWidth e.toNat)) s

/-- VMUL (R132): each element := mul of a and b. -/
def execVmul (d : BitVec 5) (a : BitVec 5) (x : BitVec 3) (b : BitVec 5) (e : BitVec 3) (s : State) : Out :=
  vecRR (Enc.vmul d a x b e) d.toNat a.toNat x.toNat b.toNat (intWidth e.toNat) (VAlu.mul (intWidth e.toNat)) s

/-- VMULH (R132): each element := mulh of a and b. -/
def execVmulh (d : BitVec 5) (a : BitVec 5) (x : BitVec 3) (b : BitVec 5) (e : BitVec 3) (s : State) : Out :=
  vecRR (Enc.vmulh d a x b e) d.toNat a.toNat x.toNat b.toNat (intWidth e.toNat) (VAlu.mulh (intWidth e.toNat)) s

/-- VMIN (R132): each element := min of a and b. -/
def execVmin (d : BitVec 5) (a : BitVec 5) (x : BitVec 3) (b : BitVec 5) (e : BitVec 3) (s : State) : Out :=
  vecRR (Enc.vmin d a x b e) d.toNat a.toNat x.toNat b.toNat (intWidth e.toNat) (VAlu.min (intWidth e.toNat)) s

/-- VMAX (R132): each element := max of a and b. -/
def execVmax (d : BitVec 5) (a : BitVec 5) (x : BitVec 3) (b : BitVec 5) (e : BitVec 3) (s : State) : Out :=
  vecRR (Enc.vmax d a x b e) d.toNat a.toNat x.toNat b.toNat (intWidth e.toNat) (VAlu.max (intWidth e.toNat)) s

/-- VMINU (R132): each element := minu of a and b. -/
def execVminu (d : BitVec 5) (a : BitVec 5) (x : BitVec 3) (b : BitVec 5) (e : BitVec 3) (s : State) : Out :=
  vecRR (Enc.vminu d a x b e) d.toNat a.toNat x.toNat b.toNat (intWidth e.toNat) (VAlu.minu (intWidth e.toNat)) s

/-- VMAXU (R132): each element := maxu of a and b. -/
def execVmaxu (d : BitVec 5) (a : BitVec 5) (x : BitVec 3) (b : BitVec 5) (e : BitVec 3) (s : State) : Out :=
  vecRR (Enc.vmaxu d a x b e) d.toNat a.toNat x.toNat b.toNat (intWidth e.toNat) (VAlu.maxu (intWidth e.toNat)) s

/-- VAND (R132): each element := and of a and b. -/
def execVand (d : BitVec 5) (a : BitVec 5) (x : BitVec 3) (b : BitVec 5) (e : BitVec 3) (s : State) : Out :=
  vecRR (Enc.vand d a x b e) d.toNat a.toNat x.toNat b.toNat (intWidth e.toNat) (VAlu.and (intWidth e.toNat)) s

/-- VOR (R132): each element := or of a and b. -/
def execVor (d : BitVec 5) (a : BitVec 5) (x : BitVec 3) (b : BitVec 5) (e : BitVec 3) (s : State) : Out :=
  vecRR (Enc.vor d a x b e) d.toNat a.toNat x.toNat b.toNat (intWidth e.toNat) (VAlu.or (intWidth e.toNat)) s

/-- VXOR (R132): each element := xor of a and b. -/
def execVxor (d : BitVec 5) (a : BitVec 5) (x : BitVec 3) (b : BitVec 5) (e : BitVec 3) (s : State) : Out :=
  vecRR (Enc.vxor d a x b e) d.toNat a.toNat x.toNat b.toNat (intWidth e.toNat) (VAlu.xor (intWidth e.toNat)) s

/-- VSLL (R132): each element := sll of a and b. -/
def execVsll (d : BitVec 5) (a : BitVec 5) (x : BitVec 3) (b : BitVec 5) (e : BitVec 3) (s : State) : Out :=
  vecRR (Enc.vsll d a x b e) d.toNat a.toNat x.toNat b.toNat (intWidth e.toNat) (VAlu.sll (intWidth e.toNat)) s

/-- VSRL (R132): each element := srl of a and b. -/
def execVsrl (d : BitVec 5) (a : BitVec 5) (x : BitVec 3) (b : BitVec 5) (e : BitVec 3) (s : State) : Out :=
  vecRR (Enc.vsrl d a x b e) d.toNat a.toNat x.toNat b.toNat (intWidth e.toNat) (VAlu.srl (intWidth e.toNat)) s

/-- VSRA (R132): each element := sra of a and b. -/
def execVsra (d : BitVec 5) (a : BitVec 5) (x : BitVec 3) (b : BitVec 5) (e : BitVec 3) (s : State) : Out :=
  vecRR (Enc.vsra d a x b e) d.toNat a.toNat x.toNat b.toNat (intWidth e.toNat) (VAlu.sra (intWidth e.toNat)) s

/-- VADDS (R132): each element := adds of a and b. -/
def execVadds (d : BitVec 5) (a : BitVec 5) (x : BitVec 3) (b : BitVec 5) (e : BitVec 3) (s : State) : Out :=
  vecRR (Enc.vadds d a x b e) d.toNat a.toNat x.toNat b.toNat (intWidth e.toNat) (VAlu.adds (intWidth e.toNat)) s

/-- VSUBS (R132): each element := subs of a and b. -/
def execVsubs (d : BitVec 5) (a : BitVec 5) (x : BitVec 3) (b : BitVec 5) (e : BitVec 3) (s : State) : Out :=
  vecRR (Enc.vsubs d a x b e) d.toNat a.toNat x.toNat b.toNat (intWidth e.toNat) (VAlu.subs (intWidth e.toNat)) s

/-- VFADD (R133): each lane as FADD. -/
def execVfadd (d : BitVec 5) (a : BitVec 5) (x : BitVec 3) (b : BitVec 5) (e : BitVec 3) (s : State) : Out :=
  vecRR (Enc.vfadd d a x b e) d.toNat a.toNat x.toNat b.toNat (fltFmt e.toNat).width (fpAdd (fltFmt e.toNat)) s

/-- VFSUB (R133): each lane as FSUB. -/
def execVfsub (d : BitVec 5) (a : BitVec 5) (x : BitVec 3) (b : BitVec 5) (e : BitVec 3) (s : State) : Out :=
  vecRR (Enc.vfsub d a x b e) d.toNat a.toNat x.toNat b.toNat (fltFmt e.toNat).width (fpSub (fltFmt e.toNat)) s

/-- VFMUL (R133): each lane as FMUL. -/
def execVfmul (d : BitVec 5) (a : BitVec 5) (x : BitVec 3) (b : BitVec 5) (e : BitVec 3) (s : State) : Out :=
  vecRR (Enc.vfmul d a x b e) d.toNat a.toNat x.toNat b.toNat (fltFmt e.toNat).width (fpMul (fltFmt e.toNat)) s

/-- VFDIV (R133): each lane as FDIV. -/
def execVfdiv (d : BitVec 5) (a : BitVec 5) (x : BitVec 3) (b : BitVec 5) (e : BitVec 3) (s : State) : Out :=
  vecRR (Enc.vfdiv d a x b e) d.toNat a.toNat x.toNat b.toNat (fltFmt e.toNat).width (fpDiv (fltFmt e.toNat)) s

/-- VFMIN (R133): each lane as FMIN. -/
def execVfmin (d : BitVec 5) (a : BitVec 5) (x : BitVec 3) (b : BitVec 5) (e : BitVec 3) (s : State) : Out :=
  vecRR (Enc.vfmin d a x b e) d.toNat a.toNat x.toNat b.toNat (fltFmt e.toNat).width (fpMinMax (fltFmt e.toNat) false) s

/-- VFMAX (R133): each lane as FMAX. -/
def execVfmax (d : BitVec 5) (a : BitVec 5) (x : BitVec 3) (b : BitVec 5) (e : BitVec 3) (s : State) : Out :=
  vecRR (Enc.vfmax d a x b e) d.toNat a.toNat x.toNat b.toNat (fltFmt e.toNat).width (fpMinMax (fltFmt e.toNat) true) s

/-- VFEXP2 (R133): each lane, correctly rounded. -/
def execVfexp2 (d : BitVec 5) (a : BitVec 5) (x : BitVec 3) (e : BitVec 3) (s : State) : Out :=
  vecR (Enc.vfexp2 d a x e) d.toNat a.toNat x.toNat (fltFmt e.toNat).width (fpExp2 (fltFmt e.toNat)) s

/-- VFRCP (R133): each lane, correctly rounded. -/
def execVfrcp (d : BitVec 5) (a : BitVec 5) (x : BitVec 3) (e : BitVec 3) (s : State) : Out :=
  vecR (Enc.vfrcp d a x e) d.toNat a.toNat x.toNat (fltFmt e.toNat).width (fpRcp (fltFmt e.toNat)) s

/-- VFRSQ (R133): each lane, correctly rounded. -/
def execVfrsq (d : BitVec 5) (a : BitVec 5) (x : BitVec 3) (e : BitVec 3) (s : State) : Out :=
  vecR (Enc.vfrsq d a x e) d.toNat a.toNat x.toNat (fltFmt e.toNat).width (fpRsq (fltFmt e.toNat)) s

/-- VFABS (R133): bits only, no event. -/
def execVfabs (d : BitVec 5) (a : BitVec 5) (x : BitVec 3) (e : BitVec 3) (s : State) : Out :=
  vecR (Enc.vfabs d a x e) d.toNat a.toNat x.toNat (fltFmt e.toNat).width (fun v => (fpAbs (fltFmt e.toNat) v, {})) s

/-- VFNEG (R133): bits only, no event. -/
def execVfneg (d : BitVec 5) (a : BitVec 5) (x : BitVec 3) (e : BitVec 3) (s : State) : Out :=
  vecR (Enc.vfneg d a x e) d.toNat a.toNat x.toNat (fltFmt e.toNat).width (fun v => (fpNeg (fltFmt e.toNat) v, {})) s

/-- VFMA_S (R134): fused, one rounding. -/
def execVfmaS (d : BitVec 5) (a : BitVec 5) (b : BitVec 5) (c : BitVec 5) (s : State) : Out :=
  vecFused (Enc.vfmaS d a b c) d.toNat a.toNat b.toNat c.toNat .fp32 false s

/-- VFMA_BF (R134): fused, one rounding. -/
def execVfmaBf (d : BitVec 5) (a : BitVec 5) (b : BitVec 5) (c : BitVec 5) (s : State) : Out :=
  vecFused (Enc.vfmaBf d a b c) d.toNat a.toNat b.toNat c.toNat .bf16 false s

/-- VFMS_S (R134): fused, one rounding. -/
def execVfmsS (d : BitVec 5) (a : BitVec 5) (b : BitVec 5) (c : BitVec 5) (s : State) : Out :=
  vecFused (Enc.vfmsS d a b c) d.toNat a.toNat b.toNat c.toNat .fp32 true s

/-- VFMS_BF (R134): fused, one rounding. -/
def execVfmsBf (d : BitVec 5) (a : BitVec 5) (b : BitVec 5) (c : BitVec 5) (s : State) : Out :=
  vecFused (Enc.vfmsBf d a b c) d.toNat a.toNat b.toNat c.toNat .bf16 true s

/-- VSEL_B (R134): select by mC. -/
def execVselB (d : BitVec 5) (a : BitVec 5) (b : BitVec 5) (c : BitVec 3) (s : State) : Out :=
  vecSel (Enc.vselB d a b c) d.toNat a.toNat b.toNat c.toNat 8 s

/-- VSEL_H (R134): select by mC. -/
def execVselH (d : BitVec 5) (a : BitVec 5) (b : BitVec 5) (c : BitVec 3) (s : State) : Out :=
  vecSel (Enc.vselH d a b c) d.toNat a.toNat b.toNat c.toNat 16 s

/-- VSEL_W (R134): select by mC. -/
def execVselW (d : BitVec 5) (a : BitVec 5) (b : BitVec 5) (c : BitVec 3) (s : State) : Out :=
  vecSel (Enc.vselW d a b c) d.toNat a.toNat b.toNat c.toNat 32 s

/-- VSEL_D (R134): select by mC. -/
def execVselD (d : BitVec 5) (a : BitVec 5) (b : BitVec 5) (c : BitVec 3) (s : State) : Out :=
  vecSel (Enc.vselD d a b c) d.toNat a.toNat b.toNat c.toNat 64 s

/-- VRSUM (R136): the sum of the active elements. -/
def execVrsum (d : BitVec 5) (a : BitVec 5) (x : BitVec 3) (b : BitVec 3) (e : BitVec 3) (s : State) : Out :=
  vecRed (Enc.vrsum d a x b e) d.toNat a.toNat x.toNat b.toNat e.toNat .sum s

/-- VRMAX (R136): the max of the active elements. -/
def execVrmax (d : BitVec 5) (a : BitVec 5) (x : BitVec 3) (b : BitVec 3) (e : BitVec 3) (s : State) : Out :=
  vecRed (Enc.vrmax d a x b e) d.toNat a.toNat x.toNat b.toNat e.toNat .max s

/-- VRMIN (R136): the min of the active elements. -/
def execVrmin (d : BitVec 5) (a : BitVec 5) (x : BitVec 3) (b : BitVec 3) (e : BitVec 3) (s : State) : Out :=
  vecRed (Enc.vrmin d a x b e) d.toNat a.toNat x.toNat b.toNat e.toNat .min s

/-- VPERM (R137): element i := element (b(i) mod n) of wA. -/
def execVperm (d : BitVec 5) (a : BitVec 5) (x : BitVec 3) (b : BitVec 5) (e : BitVec 3) (s : State) : Out :=
  let k := viewWidth e.toNat
  instr (Enc.vperm d a x b e) {} [.src .w a.toNat x.toNat, .src .w b.toNat 0, .dst .w d.toNat]
    (fun c s =>
      let va := s.readW c a.toNat x.toNat
      let vb := s.readW c b.toNat 0
      .ok (s.writeW c d.toNat (wideOf k ((upTo (512 / k)).map (fun i => elemOf va k (elemOf vb k i % (512 / k))))))) s

/-- VBCAST (R137): every element := element (gB mod n) of wA. -/
def execVbcast (d : BitVec 5) (a : BitVec 5) (x : BitVec 3) (b : BitVec 5) (e : BitVec 3) (s : State) : Out :=
  let k := viewWidth e.toNat
  instr (Enc.vbcast d a x b e) {} [.src .w a.toNat x.toNat, .src .g b.toNat 0, .dst .w d.toNat]
    (fun c s =>
      let v := elemOf (s.readW c a.toNat x.toNat) k ((s.readG c b.toNat 0).toNat % (512 / k))
      .ok (s.writeW c d.toNat (wideOf k ((upTo (512 / k)).map (fun _ => v))))) s

/-- VSPLAT (R137): every element := the low bits of gA. -/
def execVsplat (d : BitVec 5) (a : BitVec 5) (x : BitVec 3) (e : BitVec 3) (s : State) : Out :=
  let k := viewWidth e.toNat
  instr (Enc.vsplat d a x e) {} [.src .g a.toNat x.toNat, .dst .w d.toNat]
    (fun c s =>
      let v := (s.readG c a.toNat x.toNat).toNat % (1 <<< k)
      .ok (s.writeW c d.toNat (wideOf k ((upTo (512 / k)).map (fun _ => v))))) s

/-- VCMP_EQ (R139): mD := relation eq of each element. -/
def execVcmpEq (m : BitVec 3) (a : BitVec 5) (x : BitVec 3) (b : BitVec 5) (e : BitVec 3) (s : State) : Out :=
  vecCmp (Enc.vcmpEq m a x b e) m.toNat a.toNat x.toNat b.toNat (intWidth e.toNat) (Rel.ofElems .eq (intWidth e.toNat)) s

/-- VCMP_NE (R139): mD := relation ne of each element. -/
def execVcmpNe (m : BitVec 3) (a : BitVec 5) (x : BitVec 3) (b : BitVec 5) (e : BitVec 3) (s : State) : Out :=
  vecCmp (Enc.vcmpNe m a x b e) m.toNat a.toNat x.toNat b.toNat (intWidth e.toNat) (Rel.ofElems .ne (intWidth e.toNat)) s

/-- VCMP_LT (R139): mD := relation lt of each element. -/
def execVcmpLt (m : BitVec 3) (a : BitVec 5) (x : BitVec 3) (b : BitVec 5) (e : BitVec 3) (s : State) : Out :=
  vecCmp (Enc.vcmpLt m a x b e) m.toNat a.toNat x.toNat b.toNat (intWidth e.toNat) (Rel.ofElems .lt (intWidth e.toNat)) s

/-- VCMP_LTU (R139): mD := relation ltu of each element. -/
def execVcmpLtu (m : BitVec 3) (a : BitVec 5) (x : BitVec 3) (b : BitVec 5) (e : BitVec 3) (s : State) : Out :=
  vecCmp (Enc.vcmpLtu m a x b e) m.toNat a.toNat x.toNat b.toNat (intWidth e.toNat) (Rel.ofElems .ltu (intWidth e.toNat)) s

/-- VCMP_GE (R139): mD := relation ge of each element. -/
def execVcmpGe (m : BitVec 3) (a : BitVec 5) (x : BitVec 3) (b : BitVec 5) (e : BitVec 3) (s : State) : Out :=
  vecCmp (Enc.vcmpGe m a x b e) m.toNat a.toNat x.toNat b.toNat (intWidth e.toNat) (Rel.ofElems .ge (intWidth e.toNat)) s

/-- VCMP_GEU (R139): mD := relation geu of each element. -/
def execVcmpGeu (m : BitVec 3) (a : BitVec 5) (x : BitVec 3) (b : BitVec 5) (e : BitVec 3) (s : State) : Out :=
  vecCmp (Enc.vcmpGeu m a x b e) m.toNat a.toNat x.toNat b.toNat (intWidth e.toNat) (Rel.ofElems .geu (intWidth e.toNat)) s

/-- VFCMP_EQ (R139): mD := relation eq of each lane. -/
def execVfcmpEq (m : BitVec 3) (a : BitVec 5) (x : BitVec 3) (b : BitVec 5) (e : BitVec 3) (s : State) : Out :=
  vecCmp (Enc.vfcmpEq m a x b e) m.toNat a.toNat x.toNat b.toNat (fltFmt e.toNat).width
    (fun u v => veq (exact (fltFmt e.toNat) u) (exact (fltFmt e.toNat) v)) s

/-- VFCMP_LT (R139): mD := relation lt of each lane. -/
def execVfcmpLt (m : BitVec 3) (a : BitVec 5) (x : BitVec 3) (b : BitVec 5) (e : BitVec 3) (s : State) : Out :=
  vecCmp (Enc.vfcmpLt m a x b e) m.toNat a.toNat x.toNat b.toNat (fltFmt e.toNat).width
    (fun u v => vlt (exact (fltFmt e.toNat) u) (exact (fltFmt e.toNat) v)) s

/-- VFCMP_LE (R139): mD := relation le of each lane. -/
def execVfcmpLe (m : BitVec 3) (a : BitVec 5) (x : BitVec 3) (b : BitVec 5) (e : BitVec 3) (s : State) : Out :=
  vecCmp (Enc.vfcmpLe m a x b e) m.toNat a.toNat x.toNat b.toNat (fltFmt e.toNat).width
    (fun u v => vle (exact (fltFmt e.toNat) u) (exact (fltFmt e.toNat) v)) s

/-- MAND (R139): bitwise. -/
def execMand (d : BitVec 3) (a : BitVec 3) (x : BitVec 3) (b : BitVec 3) (y : BitVec 3) (s : State) : Out :=
  maskRR (Enc.mand d a x b y) d.toNat a.toNat x.toNat b.toNat y.toNat (fun u v => u &&& v) s

/-- MOR (R139): bitwise. -/
def execMor (d : BitVec 3) (a : BitVec 3) (x : BitVec 3) (b : BitVec 3) (y : BitVec 3) (s : State) : Out :=
  maskRR (Enc.mor d a x b y) d.toNat a.toNat x.toNat b.toNat y.toNat (fun u v => u ||| v) s

/-- MXOR (R139): bitwise. -/
def execMxor (d : BitVec 3) (a : BitVec 3) (x : BitVec 3) (b : BitVec 3) (y : BitVec 3) (s : State) : Out :=
  maskRR (Enc.mxor d a x b y) d.toNat a.toNat x.toNat b.toNat y.toNat (fun u v => u ^^^ v) s

/-- MNOT (R139): mD := NOT mA. -/
def execMnot (d : BitVec 3) (a : BitVec 3) (x : BitVec 3) (s : State) : Out :=
  instr (Enc.mnot d a x) {} [.src .m a.toNat x.toNat, .dst .m d.toNat]
    (fun c s => .ok (s.writeM c d.toNat (~~~(s.readM c a.toNat x.toNat)))) s

/-- MPOP (R139): gD := the one bits of mA. -/
def execMpop (d : BitVec 5) (a : BitVec 3) (x : BitVec 3) (s : State) : Out :=
  maskToG (Enc.mpop d a x) d.toNat a.toNat x.toNat Alu.popc s

/-- MFIRST (R139): gD := the index of the lowest one bit, 64 if none. -/
def execMfirst (d : BitVec 5) (a : BitVec 3) (x : BitVec 3) (s : State) : Out :=
  maskToG (Enc.mfirst d a x) d.toNat a.toNat x.toNat Alu.ctz s

/-- VL (R145): wD := the 64 bytes at EA. -/
def execVl (d : BitVec 5) (a : BitVec 5) (x : BitVec 3) (i : BitVec 10) (s : State) : Out :=
  instr (Enc.vl d a x i) {} [.src .g a.toNat x.toNat, .dst .w d.toNat]
    (fun c s => s.loadK c (Enc.vl d a x i) (s.readG c a.toNat x.toNat + off10 i) 64
      (fun t bs => .ok (t.writeW c d.toNat (BitVec.ofNat 512 (leNat bs))))) s

/-- VS (R145): the 64 bytes at EA := wS. -/
def execVs (h : BitVec 5) (a : BitVec 5) (x : BitVec 3) (i : BitVec 10) (s : State) : Out :=
  instr (Enc.vs h a x i) {} [.src .g a.toNat x.toNat, .src .w h.toNat 0]
    (fun c s => s.storeK c (Enc.vs h a x i) (s.readG c a.toNat x.toNat + off10 i) (leBytes 64 (s.readW c h.toNat 0).toNat) .ok) s

/-- VLS (R146): a strided load. -/
def execVls (d : BitVec 5) (a : BitVec 5) (x : BitVec 3) (b : BitVec 5) (m : BitVec 3) (e : BitVec 2) (s : State) : Out :=
  instr (Enc.vls d a x b m e) {} [.src .g a.toNat x.toNat, .src .g b.toNat 0, .src .m m.toNat 0, .dst .w d.toNat]
    (fun c s => s.vecLoad c d.toNat (1 <<< e.toNat) (s.readM c m.toNat 0).toNat
      (strided (s.readG c a.toNat x.toNat) (s.readG c b.toNat 0))) s

/-- VSS (R147): a strided store. -/
def execVss (h : BitVec 5) (a : BitVec 5) (x : BitVec 3) (b : BitVec 5) (m : BitVec 3) (e : BitVec 2) (s : State) : Out :=
  instr (Enc.vss h a x b m e) {} [.src .g a.toNat x.toNat, .src .g b.toNat 0, .src .m m.toNat 0, .src .w h.toNat 0]
    (fun c s => s.vecStore c (1 <<< e.toNat) (s.readM c m.toNat 0).toNat
      (strided (s.readG c a.toNat x.toNat) (s.readG c b.toNat 0)) (s.readW c h.toNat 0)) s

/-- VLG (R146): a gather. -/
def execVlg (d : BitVec 5) (a : BitVec 5) (x : BitVec 3) (b : BitVec 5) (m : BitVec 3) (e : BitVec 2) (s : State) : Out :=
  instr (Enc.vlg d a x b m e) {} [.src .g a.toNat x.toNat, .src .w b.toNat 0, .src .m m.toNat 0, .dst .w d.toNat]
    (fun c s => s.vecLoad c d.toNat (1 <<< e.toNat) (s.readM c m.toNat 0).toNat
      (indexed (s.readG c a.toNat x.toNat) (s.readW c b.toNat 0) (1 <<< e.toNat))) s

/-- VSG (R147): a scatter. -/
def execVsg (h : BitVec 5) (a : BitVec 5) (x : BitVec 3) (b : BitVec 5) (m : BitVec 3) (e : BitVec 2) (s : State) : Out :=
  instr (Enc.vsg h a x b m e) {} [.src .g a.toNat x.toNat, .src .w b.toNat 0, .src .m m.toNat 0, .src .w h.toNat 0]
    (fun c s => s.vecStore c (1 <<< e.toNat) (s.readM c m.toNat 0).toNat
      (indexed (s.readG c a.toNat x.toNat) (s.readW c b.toNat 0) (1 <<< e.toNat)) (s.readW c h.toNat 0)) s

end Sys2Proof.Machine
end

