-- ==== Sys2Proof/Machine/Bank.lean ====
section
/-! DEFINITION. Cells and bank operations (spec/15 R298 to R305, spec/03 R88 to R91, spec/14 R273, R274, R291, R294). -/
namespace Sys2Proof.Machine
open Sys2Proof

/-! ### Cells -/

def State.cellTag (s : State) (k : Nat) : CellTag := SMap.get {} s.cells k
def State.setCellTag (s : State) (k : Nat) (t : CellTag) : State := { s with cells := SMap.set {} s.cells k t }

/-- COUNT and EXPECT of a cell (R88, R298): an exact cell's lie in its bytes. -/
def State.cellCount (s : State) (k : Nat) : Nat := if (s.cellTag k).exact then s.natAt (k + 40) 4 else (s.cellTag k).count
def State.cellExpect (s : State) (k : Nat) : Nat := if (s.cellTag k).exact then s.natAt (k + 44) 4 else (s.cellTag k).expect

/-- SEALED (R298). -/
def State.sealed (s : State) (k : Nat) : Bool := decide (s.cellCount k ≥ s.cellExpect k)

/-- The INIT patterns (R300). -/
def initPattern (i : Nat) : Nat :=
  match i with
  | 0 => 0
  | 1 => 0xFFFFFFFFFFFFFFFF
  | 2 => 0x7FFFFFFFFFFFFFFF
  | 3 => 0x8000000000000000
  | 4 => 0x000000007F800000
  | _ => 0x00000000FF800000

/-- BDEF at the cell (R302): MISUSE is set when the cell was OPEN, and persists (R299). All 64 bytes are written, which clears their poison
(R439). -/
def State.defineCell (s0 : State) (k : Nat) (exact_ : Bool) (init expect : Nat) : State :=
  let s := s0.heal k 64
  let t := s.cellTag k
  let misuse := t.misuse || !s.sealed k
  if exact_ then
    (s.poke k (leBytes 44 0 ++ leBytes 4 expect ++ leBytes 16 0)).setCellTag k { exact := true, count := 0, expect := 0, misuse := misuse }
  else
    (s.poke k ((upTo 8).flatMap (fun _ => leBytes 8 (initPattern init)))).setCellTag k
      { exact := false, count := 0, expect := expect % (1 <<< 32), misuse := misuse }

/-- A value as an integer multiple of 2^-149, to nearest even on that grid (R89, R303). -/
def gridInt (v : Val) : Int :=
  match v with
  | .fin s n e _ => roundInt .ne s n (e + 149) false 0
  | .nan => 0
  | .inf _ => 0

/-- CellAdd (R89). -/
def State.cellAdd (s : State) (k : Nat) (v : Val) : State :=
  let flag := match v with
    | .nan => 1
    | .inf n => if n then 4 else 2
    | .fin _ _ _ _ => 0
  let acc := wrap 320 (sext (s.natAt k 40) 320 + gridInt v)
  let flags := s.natAt (k + 48) 1
  (((s.pokeNat k 40 acc).pokeNat (k + 40) 4 (s.natAt (k + 40) 4 + 1))).pokeNat (k + 48) 1 (flags ||| flag)

/-- The new doubleword under an integer contribution (R302). -/
def BOp.combine (o : BOp) (x v : Nat) : Nat :=
  match o with
  | .add => (x + v) % (1 <<< 64)
  | .and => x &&& v
  | .or => x ||| v
  | .xor => x ^^^ v
  | .min u => if u then Nat.min x v else (VAlu.min 64 x v).1
  | .max u => if u then Nat.max x v else (VAlu.max 64 x v).1
  | .minf => (fpMinMax .fp32 false (x % (1 <<< 32)) (v % (1 <<< 32))).1
  | .maxf => (fpMinMax .fp32 true (x % (1 <<< 32)) (v % (1 <<< 32))).1
  | .define _ _ _ => x
  | .fxa _ => x
  | .vsa _ _ => x

/-- The value that an exact contribution adds, where the operation is one (R302, R303). -/
def BOp.exactValue (o : BOp) (v : Nat) : Option Val :=
  match o with
  | .fxa bf => some (if bf then exact .bf16 (v % (1 <<< 16)) else exact .fp32 (v % (1 <<< 32)))
  | .vsa _ e => some ((exact .fp32 (v % (1 <<< 32))).scale (sext e 4))
  | .define _ _ _ => none
  | .add => none
  | .and => none
  | .or => none
  | .xor => none
  | .min _ => none
  | .max _ => none
  | .minf => none
  | .maxf => none

/-- An operation at its cell (R298, R302): a contribution to a SEALED cell, or to one of the other kind, only sets MISUSE. -/
def State.applyBankOp (s : State) (o : BankOp) : State :=
  let k := o.key / 64 * 64
  let t := s.cellTag k
  let misuse : State := s.setCellTag k { t with misuse := true }
  match o.op with
  | .define exact_ init expect => s.defineCell k exact_ init expect
  | op =>
    match op.exactValue o.value.toNat with
    | some v => if !t.exact || s.sealed k then misuse else s.cellAdd k v
    | none =>
      if t.exact || s.sealed k then misuse
      else (s.pokeNat o.key 8 (op.combine (s.natAt o.key 8) o.value.toNat)).setCellTag k { t with count := t.count + 1 }

/-- CellRound (R90): the code, and the events it counts in the reading slip. -/
def State.cellRound (s : State) (k : Nat) (f : Fmt) : Nat × Ev :=
  let flags := s.natAt (k + 48) 1
  let acc := sext (s.natAt k 40) 320
  if bitOf flags 0 || (bitOf flags 1 && bitOf flags 2) then (f.canonNaN, Ev.oneNan)
  else if bitOf flags 1 then (f.infCode.getD 0, {})
  else if bitOf flags 2 then (signCode f true (f.infCode.getD 0), {})
  else roundNE f (if acc = 0 then Val.zero false else (Val.ofInt acc).scale (-149))

/-! ### Issue (R301) -/

/-- The outcome of the issue checks of a bank operation. -/
inductive CellReach where
  | hit (k : Nat)
  | trap (cause : Nat)
  | held
  | absent (vpage : Nat)
  deriving DecidableEq, Repr

/-- The checks of R301 for an operation on n bytes aligned to z; brd holds at a page in migration (R294). -/
def State.cellReach (s : State) (c : Ctx) (ea z n : Nat) (brd : Bool) : CellReach :=
  match bitsOf ea 63 60 with
  | 3 =>
    let o := bitsOf ea 31 0
    let w := (s.slip c.b c.i).plwin.toNat
    if bitsOf ea 59 32 ≠ 0 then .trap 9
    else if ea % z ≠ 0 then .trap 8
    else if (o + n - 1) / 64 ≥ w >>> 32 then .trap 9
    else .hit (plainKey (pkgOf c.b) (64 * (w % (1 <<< 32)) + o))
  | 0 =>
    if bitsOf ea 59 57 ≠ 0 then .trap 9
    else if ea % z ≠ 0 then .trap 8
    else
      let va := bitsOf ea 56 0
      match s.translate c.b false va with
      | .absent => .absent (va / 65536)
      | .malformed => .trap 10
      | .leaf e base size =>
        if classOf e ≠ .reduce || va + n > base + size then .trap 10
        else if brd && bitOf e 6 then .held
        else .hit (physKey (pkgOf c.b) (leafAddr e base va))
  | _ => .trap 9

/-- Checked issue of a bank operation at gA (R301): an absent page is waited for with the slip RUNNING; after a failed
service cause 11 goes to TVEC (R291). -/
def State.cellK (s : State) (c : Ctx) (ea : Word) (z n : Nat) (brd : Bool) (k : Nat → Res) : Res :=
  match s.cellReach c ea.toNat z n brd with
  | .trap cause => .trap s cause ea
  | .held => .stay s
  | .absent v =>
    if (s.slip c.b c.i).pageFailed = some (pageName (s.berth c.b).asid v) then
      .hard (s.modSlip c.b c.i (fun p => { p with pageFailed := none })) 11 ea
    else .stay (s.noticeFor c.b v (some c.i))
  | .hit key => k key

/-- The REDUCE cells that a slip's operations name are its region's to answer for (R299). A BRD is none of them (log 44). -/
def State.noteReduce (s : State) (c : Ctx) (ea k : Nat) : State :=
  if k >>> 60 = 3 then s
  else s.modSlip c.b c.i (fun p =>
    if p.reduceCells.any (fun e => e.1 == k / 64 * 64) then p
    else { p with reduceCells := p.reduceCells ++ [(k / 64 * 64, ea / 64 * 64)] })

/-- Send one operation to a cell; the slip goes on (R301). -/
def State.sendBankOp (s : State) (c : Ctx) (ea k : Nat) (op : BOp) (v : Word) : State :=
  let space : Option Nat := if k >>> 60 = 3 then none else some (s.berth c.b).asid
  { s.noteReduce c ea k with
    bankOps := s.bankOps ++ [{ key := k, op := op, value := v, berth := c.b, slip := c.i, asid := space }] }

/-- A bank operation with a value in gB at dB (R302). -/
def bankOp (word a x b y z : Nat) (op : BOp) (s : State) : Out :=
  instr word {} [.src .g a x, .src .g b y]
    (fun c s => s.cellK c (s.readG c a x) z z false (fun k => .ok (s.sendBankOp c (s.readG c a x).toNat k op (s.readG c b y)))) s

/-- The bank of the Plain that holds a cell, within its package (R273): 192 banks a die. -/
def plainBank (k : Nat) : Nat :=
  let g := bitsOf k 51 0 / 64
  g / 1572864 * 192 + g % 1572864 % 192

/-- Is a cell's bank in retention (R438)? -/
def State.cellAsleep (s : State) (k : Nat) : Bool :=
  k >>> 60 == 3 && (SMap.get {} s.pkgs (bitsOf k 59 52) : Pkg).asleep.contains (plainBank k)

/-- A bank of the Plain has been accessed: its idle cycles count anew (R438). -/
def State.usedCell (s : State) (k : Nat) : State :=
  if k >>> 60 == 3 && SMap.get 0 (s.pkg (bitsOf k 59 52)).cellIdle (plainBank k) != 0 then
    s.modPkg (bitsOf k 59 52) (fun p => { p with cellIdle := SMap.erase p.cellIdle (plainBank k) })
  else s

/-- Is an operation of the slip to the cell still on its way (R305)? -/
def State.cellQueued (s : State) (b i k : Nat) : Bool :=
  s.bankOps.any (fun o => o.berth == b && o.slip == i && o.key / 64 == k / 64)

/-! ### The instructions -/

/-- BDEF (R302): defines a cell. -/
def execBdef (i : BitVec 3) (k : BitVec 1) (a : BitVec 5) (x : BitVec 3) (b : BitVec 5) (y : BitVec 3) (s : State) : Out :=
  instr (Enc.bdef i k a x b y) {} [.src .g a.toNat x.toNat, .src .g b.toNat y.toNat]
    (fun c s => s.cellK c (s.readG c a.toNat x.toNat) 64 64 false (fun key =>
      let v := s.readG c b.toNat y.toNat
      .ok (s.sendBankOp c (s.readG c a.toNat x.toNat).toNat key (.define (k == 1) i.toNat (bitsOf v.toNat 31 0)) v))) s

/-- BADD (R302): one contribution. -/
def execBadd (a : BitVec 5) (x : BitVec 3) (b : BitVec 5) (y : BitVec 3) (s : State) : Out :=
  bankOp (Enc.badd a x b y) a.toNat x.toNat b.toNat y.toNat 8 .add s

/-- BAND (R302): one contribution. -/
def execBand (a : BitVec 5) (x : BitVec 3) (b : BitVec 5) (y : BitVec 3) (s : State) : Out :=
  bankOp (Enc.band a x b y) a.toNat x.toNat b.toNat y.toNat 8 .and s

/-- BOR (R302): one contribution. -/
def execBor (a : BitVec 5) (x : BitVec 3) (b : BitVec 5) (y : BitVec 3) (s : State) : Out :=
  bankOp (Enc.bor a x b y) a.toNat x.toNat b.toNat y.toNat 8 .or s

/-- BXOR (R302): one contribution. -/
def execBxor (a : BitVec 5) (x : BitVec 3) (b : BitVec 5) (y : BitVec 3) (s : State) : Out :=
  bankOp (Enc.bxor a x b y) a.toNat x.toNat b.toNat y.toNat 8 .xor s

/-- BMIN (R302): one contribution. -/
def execBmin (u : BitVec 1) (a : BitVec 5) (x : BitVec 3) (b : BitVec 5) (y : BitVec 3) (s : State) : Out :=
  bankOp (Enc.bmin u a x b y) a.toNat x.toNat b.toNat y.toNat 8 (.min (u == 1)) s

/-- BMAX (R302): one contribution. -/
def execBmax (u : BitVec 1) (a : BitVec 5) (x : BitVec 3) (b : BitVec 5) (y : BitVec 3) (s : State) : Out :=
  bankOp (Enc.bmax u a x b y) a.toNat x.toNat b.toNat y.toNat 8 (.max (u == 1)) s

/-- BFXA (R302): one contribution. -/
def execBfxa (f : BitVec 1) (a : BitVec 5) (x : BitVec 3) (b : BitVec 5) (y : BitVec 3) (s : State) : Out :=
  bankOp (Enc.bfxa f a x b y) a.toNat x.toNat b.toNat y.toNat 64 (.fxa (f == 1)) s

/-- BMINF (R302): one contribution. -/
def execBminf (a : BitVec 5) (x : BitVec 3) (b : BitVec 5) (y : BitVec 3) (s : State) : Out :=
  bankOp (Enc.bminf a x b y) a.toNat x.toNat b.toNat y.toNat 8 .minf s

/-- BMAXF (R302): one contribution. -/
def execBmaxf (a : BitVec 5) (x : BitVec 3) (b : BitVec 5) (y : BitVec 3) (s : State) : Out :=
  bankOp (Enc.bmaxf a x b y) a.toNat x.toNat b.toNat y.toNat 8 .maxf s

/-- BVSA (R303): one contribution to each of 16 cells. -/
def execBvsa (e : BitVec 4) (a : BitVec 5) (x : BitVec 3) (b : BitVec 5) (y : BitVec 3) (s : State) : Out :=
  instr (Enc.bvsa e a x b y) {} [.src .g a.toNat x.toNat, .src .w b.toNat y.toNat]
    (fun c s => s.cellK c (s.readG c a.toNat x.toNat) 64 1024 false (fun key =>
      let v := s.readW c b.toNat y.toNat
      .ok ((upTo 16).foldl (fun t l => t.sendBankOp c ((s.readG c a.toNat x.toNat).toNat + 64 * l) (key + 64 * l) (.vsa l e.toNat) (natWord (elemOf v 32 l))) s))) s

/-- A BRD has been translated and waits: it is not translated again (R287). -/
def State.brdWaits (s : State) (c : Ctx) (key : Nat) : State :=
  s.modSlip c.b c.i (fun p =>
    if p.brd.isSome then p else { p with brd := some { key := key, asid := if key >>> 60 = 3 then none else some (s.berth c.b).asid } })

/-- A BRD is over. -/
def State.brdEnds (s : State) (c : Ctx) : State := if (s.slip c.b c.i).brd.isNone then s else s.modSlip c.b c.i (fun p => { p with brd := none })

/-- A translated BRD of the byte at a key (R304): it waits for its bank, then for its cell to be SEALED, then reads the addressed doubleword, or
the whole of an exact cell. TVAL of cause 25 is the failing word's address (R179). -/
def State.brdAt (s : State) (c : Ctx) (d : Nat) (ea : Word) (o : BitVec 2) (key : Nat) : Res :=
  let k := key / 64 * 64
  if s.cellAsleep k then .stay (s.brdWaits c key)
  else if s.cellQueued c.b c.i k || !s.sealed k then .stay ((s.brdWaits c key).block c (.cell k))
  else
    let t := s.brdEnds c
    match (if o = 0 then s.badWord key 8 else s.badWord k 64) with
    | some w => t.poisonRes c w 8 (natWord (ea.toNat / 64 * 64 + (w - k)))
    | none =>
      if (s.cellTag k).exact ≠ decide (o ≠ 0) then .trap t 10 ea
      else if o = 0 then .ok (((t.acquired c).writeG c d (natWord (s.natAt key 8))).usedCell k)
      else
        let r := s.cellRound k (if o = 1 then .fp32 else .bf16)
        .ok ((((t.acquired c).writeG c d (natWord r.1)).count c r.2).usedCell k)

/-- BRD (R304): blocks until the cell is SEALED, then reads it. -/
def execBrd (d : BitVec 5) (a : BitVec 5) (x : BitVec 3) (o : BitVec 2) (s : State) : Out :=
  instr (Enc.brd d a x o) { hnd := false } [.src .g a.toNat x.toNat, .dst .g d.toNat]
    (fun c s =>
      let ea := s.readG c a.toNat x.toNat
      match (s.slip c.b c.i).brd with
      | some w => s.brdAt c d.toNat ea o w.key
      | none => s.cellK c ea (if o = 0 then 8 else 64) (if o = 0 then 8 else 64) true (s.brdAt c d.toNat ea o)) s

/-- Where an operation is applied while its page migrates (R294): at the new page once its line has been copied. -/
def State.forwardKey (s : State) (k : Nat) : Nat :=
  if k >>> 60 ≠ 15 then k
  else
    let pkg := bitsOf k 59 52
    let pa := bitsOf k 51 0
    match (s.pkg pkg).migrations.find? (fun m => m.old == pa / 65536 * 65536) with
    | some m => if pa % 65536 / 64 < m.copied then physKey pkg (m.new + pa % 65536) else k
    | none => k

/-- The word that a contribution to a cell would read and that its code cannot correct (R439): of an exact cell any, else the addressed
doubleword. BDEF reads none. -/
def State.bankOpBad (s : State) (o : BankOp) : Option Nat :=
  let k := o.key / 64 * 64
  match o.op with
  | .define _ _ _ => none
  | op => match op.exactValue o.value.toNat with
    | some _ => if (s.cellTag k).exact then s.badWord k 64 else none
    | none => if (s.cellTag k).exact || s.sealed k then none else s.badWord o.key 8

/-- The address by which the issuer of an operation named byte j of its cell. -/
def State.cellAddr (s : State) (o : BankOp) (j : Nat) : Word :=
  let p := s.slip o.berth o.slip
  let k := o.key / 64 * 64
  if k >>> 60 = 3 then natWord (3 <<< 60 + (k + j - plainKey (pkgOf o.berth) (64 * (p.plwin.toNat % (1 <<< 32)))))
  else natWord (((p.reduceCells.find? (fun e => e.1 == k)).map (fun e => e.2)).getD 0 + j)

/-- BANK_OP_APPLY (R298, R302, R305): operation n reaches its cell, behind its slip's earlier ones to the same cell. Where it meets a word that
its code cannot correct, nothing changes and its issuer's domain rolls back (R427, R439, log 115). -/
def execBankOpApply (n : Nat) (s : State) : Out :=
  match s.bankOps[n]? with
  | none => .next s
  | some o =>
    if (s.bankOps.take n).any (fun e => e.berth == o.berth && e.slip == o.slip && e.key / 64 == o.key / 64) ||
      s.heldByCheckpoint o.berth o.slip || s.cellAsleep o.key then .next s
    else
      let o1 := { o with key := s.forwardKey o.key }
      match s.bankOpBad o1 with
      | some w => .next ((({ s with bankOps := dropAt s.bankOps n }.logBad o.berth w 8).rollbackFault o.berth o.slip 25
          (s.cellAddr o (w - o1.key / 64 * 64))))
      | none => .next ((({ s with bankOps := dropAt s.bankOps n }.jot o.berth o.slip (.cell (o1.key / 64 * 64)) (some (.op o1))).applyBankOp o1).usedCell o1.key)

end Sys2Proof.Machine
end

