-- ==== Sys2Proof/Machine/Hash.lean ====
section
/-! DEFINITION. SHA-256, and the check of an RSASSA-PSS signature (spec/28 R491, R492, spec/25 R465). The spec names the
algorithms; their definitions are those of FIPS 180-4 and RFC 8017 (log 30). -/
namespace Sys2Proof

/-! ### SHA-256 -/

/-- The 64 round constants. -/
def shaK : List Nat :=
  [0x428a2f98, 0x71374491, 0xb5c0fbcf, 0xe9b5dba5, 0x3956c25b, 0x59f111f1, 0x923f82a4, 0xab1c5ed5] ++
  [0xd807aa98, 0x12835b01, 0x243185be, 0x550c7dc3, 0x72be5d74, 0x80deb1fe, 0x9bdc06a7, 0xc19bf174] ++
  [0xe49b69c1, 0xefbe4786, 0x0fc19dc6, 0x240ca1cc, 0x2de92c6f, 0x4a7484aa, 0x5cb0a9dc, 0x76f988da] ++
  [0x983e5152, 0xa831c66d, 0xb00327c8, 0xbf597fc7, 0xc6e00bf3, 0xd5a79147, 0x06ca6351, 0x14292967] ++
  [0x27b70a85, 0x2e1b2138, 0x4d2c6dfc, 0x53380d13, 0x650a7354, 0x766a0abb, 0x81c2c92e, 0x92722c85] ++
  [0xa2bfe8a1, 0xa81a664b, 0xc24b8b70, 0xc76c51a3, 0xd192e819, 0xd6990624, 0xf40e3585, 0x106aa070] ++
  [0x19a4c116, 0x1e376c08, 0x2748774c, 0x34b0bcb5, 0x391c0cb3, 0x4ed8aa4a, 0x5b9cca4f, 0x682e6ff3] ++
  [0x748f82ee, 0x78a5636f, 0x84c87814, 0x8cc70208, 0x90befffa, 0xa4506ceb, 0xbef9a3f7, 0xc67178f2]

/-- Rotation of a 32-bit number to the right. -/
def ror32 (x n : Nat) : Nat := (x >>> n) ||| ((x <<< (32 - n)) % (1 <<< 32))

/-- The eight words of the chaining value. -/
structure ShaState where
  a : Nat
  b : Nat
  c : Nat
  d : Nat
  e : Nat
  f : Nat
  g : Nat
  h : Nat
  deriving DecidableEq, Repr

def shaInit : ShaState :=
  { a := 0x6a09e667, b := 0xbb67ae85, c := 0x3c6ef372, d := 0xa54ff53a
    e := 0x510e527f, f := 0x9b05688c, g := 0x1f83d9ab, h := 0x5be0cd19 }

/-- The big-endian number of a byte list. -/
def beNat (bs : List Byte) : Nat := leNat bs.reverse
/-- A number as n big-endian bytes. -/
def beBytes (n v : Nat) : List Byte := (leBytes n v).reverse

/-- The message schedule: each window of sixteen words gives the next word; n words follow. -/
def shaSchedule : Nat → List Nat → List Nat
  | 0, w => w
  | n + 1, w =>
    let at_ (k : Nat) : Nat := w.getD (w.length - k) 0
    let s0 := ror32 (at_ 15) 7 ^^^ ror32 (at_ 15) 18 ^^^ (at_ 15 >>> 3)
    let s1 := ror32 (at_ 2) 17 ^^^ ror32 (at_ 2) 19 ^^^ (at_ 2 >>> 10)
    shaSchedule n (w ++ [(at_ 16 + s0 + at_ 7 + s1) % (1 <<< 32)])

/-- One round. -/
def shaRound (t : ShaState) (kw : Nat × Nat) : ShaState :=
  let s1 := ror32 t.e 6 ^^^ ror32 t.e 11 ^^^ ror32 t.e 25
  let ch := (t.e &&& t.f) ^^^ ((t.e ^^^ 0xFFFFFFFF) &&& t.g)
  let t1 := t.h + s1 + ch + kw.1 + kw.2
  let s0 := ror32 t.a 2 ^^^ ror32 t.a 13 ^^^ ror32 t.a 22
  let maj := (t.a &&& t.b) ^^^ (t.a &&& t.c) ^^^ (t.b &&& t.c)
  { a := (t1 + s0 + maj) % (1 <<< 32), b := t.a, c := t.b, d := t.c
    e := (t.d + t1) % (1 <<< 32), f := t.e, g := t.f, h := t.g }

/-- One block of sixteen words. -/
def shaBlock (t : ShaState) (w : List Nat) : ShaState :=
  let u := (shaK.zip (shaSchedule 48 w)).foldl shaRound t
  let m := 1 <<< 32
  { a := (t.a + u.a) % m, b := (t.b + u.b) % m, c := (t.c + u.c) % m, d := (t.d + u.d) % m
    e := (t.e + u.e) % m, f := (t.f + u.f) % m, g := (t.g + u.g) % m, h := (t.h + u.h) % m }

/-- The sixteen words of a block of bytes. -/
def shaWords (bs : List Byte) : List Nat := (upTo 16).map (fun j => beNat ((bs.drop (4 * j)).take 4))

/-- All blocks, n of them. -/
def shaBlocks : Nat → ShaState → List Byte → ShaState
  | 0, t, _ => t
  | n + 1, t, bs => shaBlocks n (shaBlock t (shaWords bs)) (bs.drop 64)

/-- The padded message. -/
def shaPad (bs : List Byte) : List Byte :=
  bs ++ [0x80] ++ List.replicate ((119 - bs.length % 64) % 64) 0 ++ beBytes 8 (8 * bs.length)

/-- SHA-256 of a byte list: 32 bytes. -/
def sha256 (bs : List Byte) : List Byte :=
  let m := shaPad bs
  let t := shaBlocks (m.length / 64) shaInit m
  [t.a, t.b, t.c, t.d, t.e, t.f, t.g, t.h].flatMap (beBytes 4)

/-! ### RSASSA-PSS with RSA-3072, SHA-256, MGF1 SHA-256, salt 32 (R491) -/

/-- The mask generation function: blocks of SHA-256 from a seed and a counter. -/
def mgf1 (seed : List Byte) (n : Nat) : List Byte :=
  ((upTo ((n + 31) / 32)).flatMap (fun c => sha256 (seed ++ beBytes 4 c))).take n

/-- x raised to 2^k, modulo m. -/
def squarings (m : Nat) : Nat → Nat → Nat
  | 0, x => x % m
  | k + 1, x => squarings m k (x * x % m)

/-- The public operation; the public exponent is 65,537 (log 30). -/
def rsaPublic (n sig : Nat) : Nat := squarings n 16 sig * (sig % n) % n

/-- Exclusive or of byte lists. -/
def xorBytes (x y : List Byte) : List Byte := (x.zip y).map (fun p => p.1 ^^^ p.2)

/-- Does a 384-byte signature hold for a message under a modulus? -/
def pssVerify (n : Nat) (msg sig : List Byte) : Bool :=
  let s := beNat sig
  let em := beBytes 384 (rsaPublic n s)
  let masked := em.take 351
  let h := (em.drop 351).take 32
  let db := xorBytes masked (mgf1 h 351)
  let db1 := match db with
    | [] => []
    | b :: bs => (b &&& 0x7F) :: bs
  let salt := db1.drop 319
  decide (s < n) && sig.length == 384 && em.drop 383 == [0xBC] && (masked.take 1).all (fun b => decide (b.toNat < 128)) &&
    db1.take 319 == List.replicate 318 0 ++ [1] &&
    sha256 (List.replicate 8 0 ++ sha256 msg ++ salt) == h

/-- x raised to e, modulo m, by the bits of e from the highest of n. -/
def powMod (m x e : Nat) : Nat → Nat
  | 0 => 1 % m
  | n + 1 =>
    let y := powMod m x (e / 2) n
    y * y % m * (if e % 2 = 1 then x % m else 1) % m

/-- The encoded message that a signature holds, of a salt of 32 bytes: what pssVerify asks of it. -/
def pssEncode (msg salt : List Byte) : List Byte :=
  let h := sha256 (List.replicate 8 0 ++ sha256 msg ++ salt)
  let masked := xorBytes (List.replicate 318 0 ++ [1] ++ salt) (mgf1 h 351)
  (match masked with
    | [] => []
    | b :: bs => (b &&& 0x7F) :: bs) ++ h ++ [0xBC]

/-- The signature of a message under a modulus and a private exponent. -/
def pssSign (n d : Nat) (msg salt : List Byte) : List Byte := beBytes 384 (powMod n (beNat (pssEncode msg salt)) d 3072)

end Sys2Proof
end

