-- ==== Sys2Proof/Machine/Control.lean ====
section
/-! DEFINITION. Branches, jumps and loops (spec/04 R107 to R115, spec/06 R148 to R176, R495). -/
namespace Sys2Proof.Machine
open Sys2Proof

/-- The queue of whoever executes, with the addresses that can be read filled in. -/
def State.queueOf (s : State) (c : Ctx) : Queue :=
  if c.hnd then
    match (s.berth c.b).handler with
    | some h => (({ live := h.live } : Slip).resolve (s.lenAt c)).live
    | none => {}
  else ((s.slip c.b c.i).resolve (s.lenAt c)).live

/-- What keeps the length of an entry of the queue from being read for now: its page is in migration (R293), or not resident and not
found without backing (R288, R289). -/
def State.lengthWait (s : State) (c : Ctx) (e : QE) : Option (Option Nat) :=
  match e.addr with
  | none => none
  | some a => match s.reachFetch c a.toNat with
    | .held => some none
    | .absent v => if (s.slip c.b c.i).pageFailed = some (pageName (s.berth c.b).asid v) then none else some (some v)
    | .hit _ _ => none
    | .trap _ => none
    | .device _ => none

/-- Go on once the lengths of entries of the queue can be read, so that no answer depends on residency (R7, R8): the slip waits for a page
as a blocked access does. -/
def State.awaitLengths (s : State) (c : Ctx) (es : List QE) (k : State → Res) : Res :=
  match firstSome (s.lengthWait c) es with
  | none => k s
  | some none => .stay s
  | some (some v) => .stay ((s.noticeFor c.b v (some c.i)).block c (.page (pageName (s.berth c.b).asid v)))

/-- Does an address lie in the body [start, stop) of a level (R166)? -/
def Level.covers (l : Level) (a : Word) : Bool := decide (l.start.toNat ≤ a.toNat) && decide (a.toNat < l.stop.toNat)

/-- An entry that R166's first row accepts: in the body, and of this iteration. One whose place no length gives, since the entry before it
raises a fault when it is fetched, breaks no rule of the body. -/
def QE.inBody (e : QE) (l : Level) : Bool :=
  e.tag == .plain && (match e.addr with
    | some a => l.covers a
    | none => true)

/-- R166 for a branch or jump: row 1, then row 2; in a handler the rule of R227. -/
def State.branchRes (s : State) (c : Ctx) (br : Branch) (k : State → State) : Res :=
  if c.hnd then
    if br.taken && decide (br.target.toNat ≤ (s.pcOf c).toNat) then .trap s 17 br.target else .branch (k s) br
  else
    match (s.slip c.b c.i).levels with
    | [] => .branch (k s) br
    | l :: _ =>
      s.awaitLengths c [(s.queueOf c).q1] (fun s =>
        let q := s.queueOf c
        if !(q.q1.inBody l && q.q2.inBody l) then .trap s 7 (s.pcOf c)
        else if br.taken && !l.covers br.target then .trap s 6 br.target
        else .branch (k s) br)

/-- The nullify decision of BR, LEAVE and LEAVEQ (R109, R167): mode 1 if not taken, mode 2 if taken. -/
def nullifies (mode : Nat) (taken : Bool) : Bool := (mode == 1 && !taken) || (mode == 2 && taken)

/-- An offset of n bits in halfwords (R45). -/
def halfOff {n : Nat} (o : BitVec n) : Word := toWord (o.toInt * 2)

/-- A conditional branch on q at distance 0 (R109). -/
def branchOn (word : Nat) (off : Word) (mode : Nat) (sense : Bool) (q : Nat) (s : State) : Out :=
  instr word {} [.src .q q 0]
    (fun c s =>
      let taken := Bool.xor (s.readQ c q 0) sense
      s.branchRes c { taken := taken, target := s.pcOf c + off, nullify := nullifies mode taken, leave := false } id) s

/-- A jump to an address relative to its own (R109). -/
def jumpRel (word : Nat) (off : Word) (s : State) : Out :=
  instr word {} [] (fun c s => s.branchRes c { taken := true, target := s.pcOf c + off, nullify := false, leave := false } id) s

/-- The link (R109, R110): PCQ2 + Length(PCQ2), after a loop body's last instruction the body's end (log 98); a free value where the
instruction at PCQ2 has no length, since its fetch faults. -/
def State.writeLink (s : State) (c : Ctx) : State :=
  match (s.queueOf c).q2.after (s.lenAt c) with
  | some a => s.writeG c 1 a
  | none => (s.writeG c 1 (Config.freeWord s.fresh)).freshened

/-- A jump that links: it waits until the lengths that the link needs can be read (R7). -/
def State.linkRes (s : State) (c : Ctx) (br : Branch) : Res :=
  s.awaitLengths c [(s.queueOf c).q1, (s.queueOf c).q2] (fun t => t.branchRes c br (fun u => u.writeLink c))

/-- A jump through gA at dA (R109, R112, R115), with or without a link. An odd target, cause 8, comes before causes 6, 7 and 17 (log 15). -/
def jumpReg (word a x : Nat) (off : Word) (uses : List Use) (link : Bool) (s : State) : Out :=
  instr word {} (.src .g a x :: uses)
    (fun c s =>
      let t := s.readG c a x + off
      let br : Branch := { taken := true, target := t, nullify := false, leave := false }
      if t.toNat % 2 = 1 then .trap s 8 t
      else if link then s.linkRes c br else s.branchRes c br id) s

/-- BR (R109): a branch on qN, its slots nullified by mode. -/
def execBr (q : BitVec 3) (t : BitVec 1) (n : BitVec 2) (o : BitVec 19) (s : State) : Out :=
  branchOn (Enc.br q t n o) (halfOff o) n.toNat (t == 1) q.toNat s

/-- J (R109). -/
def execJ (o : BitVec 25) (s : State) : Out := jumpRel (Enc.j o) (halfOff o) s

/-- JL (R109 to R111): the link is written before the slots execute. -/
def execJl (o : BitVec 25) (s : State) : Out :=
  instr (Enc.jl o) {} [.dst .g 1]
    (fun c s => s.linkRes c { taken := true, target := s.pcOf c + halfOff o, nullify := false, leave := false }) s

/-- JR (R109). -/
def execJr (a : BitVec 5) (x : BitVec 3) (i : BitVec 12) (s : State) : Out :=
  jumpReg (Enc.jr a x i) a.toNat x.toNat (i.signExtend 64) [] false s

/-- JLR (R109, R112): gA is read before g1 is written. -/
def execJlr (a : BitVec 5) (x : BitVec 3) (i : BitVec 12) (s : State) : Out :=
  jumpReg (Enc.jlr a x i) a.toNat x.toNat (i.signExtend 64) [.dst .g 1] true s

/-- C.J (R60): J with offset11. -/
def execCJ (o : BitVec 11) (s : State) : Out := jumpRel (Enc.cJ o) (halfOff o) s

/-- C.BRQ (R60): BR on q1, sense 0, nullify 0b00. -/
def execCBrq (o : BitVec 11) (s : State) : Out := branchOn (Enc.cBrq o) (halfOff o) 0 false 1 s

/-- C.RET (R60): JR g1, 0. -/
def execCRet (s : State) : Out := jumpReg Enc.cRet 1 0 0 [] false s

/-! ### Loops -/

/-- The loop group is illegal while a trap holds levels aside (R495). -/
def State.loopBarred (s : State) (c : Ctx) : Bool := !(s.slip c.b c.i).aside.isEmpty

/-- LSET (R150): the pending loop descriptor, from the masks in gA and gB at distance 0. -/
def execLset (w : BitVec 3) (m : BitVec 3) (a : BitVec 5) (b : BitVec 5) (s : State) : Out :=
  let word := Enc.lset w m a b
  instr word { hnd := false } [.src .g a.toNat 0, .src .g b.toNat 0]
    (fun c s =>
      if s.loopBarred c then .trap s 1 (natWord word)
      else
        let ga := (s.readG c a.toNat 0).toNat
        let gb := (s.readG c b.toNat 0).toNat
        .ok (s.modSlip c.b c.i (fun p => { p with pend :=
          { width := w.toNat + 1
            dmax := m.toNat
            masks := { g := bitsOf ga 31 0, f := bitsOf ga 63 32, w := bitsOf gb 31 0, q := bitsOf gb 39 32, m := bitsOf gb 47 40 } } }))) s

/-- The checks of R154 that come before the record read: a cause with its TVAL. -/
def Slip.loopFault (p : Slip) (word offset : Nat) (pc : Word) : Option (Nat × Word) :=
  let stop := pc + natWord (2 * offset)
  if offset < 5 then some (7, pc)
  else if p.live.q0.taken then some (7, pc)
  else if p.levels.length ≥ 4 then some (1, natWord word)
  else if (match p.levels with
    | l :: _ => decide (stop.toNat > l.stop.toNat)
    | [] => false) then some (7, pc)
  else if p.pend.masks.keys.any (fun x => (p.versionedBy x.1 x.2).isSome) then some (1, natWord word)
  else none

/-- Entry of a loop (R155): the level is pushed, the windows close, every masked register spreads its value to all eight
versions, and iteration 0 takes version B. -/
def Slip.enterLoop (p : Slip) (start stop : Word) (n : Nat) : Slip :=
  let k := p.pend.masks
  let p1 := k.keys.foldl (fun q x => q.spread x.1 x.2) { p with after := [] }
  { p1 with
    pend := {}
    levels := { width := p.pend.width, dmax := p.pend.dmax, masks := k, start := start, stop := stop, count := n, idx := 0 } :: p.levels }

/-- Start a loop of n iterations (R155, R162, R163). -/
def State.startLoop (s : State) (c : Ctx) (offset n : Nat) : Res :=
  let pc := s.pcOf c
  let stop := pc + natWord (2 * offset)
  let p := (s.slip c.b c.i).enterLoop (pc + 4) stop n
  if n = 0 then
    .gone (s.setSlip c.b c.i ((p.endLevel 0 false).refill (s.lenAt c) refillFuel stop))
  else
    .ok (s.setSlip c.b c.i (match p.levels with
      | l :: _ => p.nextVersions l.masks
      | [] => p))

/-- LOOP and LOOPS share their checks (R154); n comes from gC, or from the record at gS as LD reads it (R153). -/
def loopWith (word r offset : Nat) (rec_ : Bool) (s : State) : Out :=
  instr word { hnd := false } [.src .g r 0]
    (fun c s =>
      if s.loopBarred c then .trap s 1 (natWord word)
      else match (s.slip c.b c.i).loopFault word offset (s.pcOf c) with
        | some (cause, tv) => .trap s cause tv
        | none =>
          if rec_ then s.loadK c word (s.readG c r 0) 8 (fun t bs => t.startLoop c offset (leNat (bs.take 4)))
          else s.startLoop c offset (bitsOf (s.readG c r 0).toNat 31 0)) s

/-- LOOP (R153 to R155). -/
def execLoop (r : BitVec 5) (o : BitVec 16) (s : State) : Out := loopWith (Enc.loop r o) r.toNat o.toNat false s

/-- LOOPS (R153 to R155). -/
def execLoops (r : BitVec 5) (o : BitVec 16) (s : State) : Out := loopWith (Enc.loops r o) r.toNat o.toNat true s

/-- LEAVE and LEAVEQ (R166, R167): outside a body, cause 6; the slots' positions; then the exit or the untaken branch. -/
def leaveWith (word mode : Nat) (uses : List Use) (exit : Ctx → State → Bool) (s : State) : Out :=
  instr word { hnd := false } uses
    (fun c s =>
      let pc := s.pcOf c
      if s.loopBarred c then .trap s 1 (natWord word)
      else match (s.slip c.b c.i).levels with
        | [] => .trap s 6 pc
        | l :: _ =>
          if !l.covers pc then .trap s 6 pc
          else s.awaitLengths c [(s.queueOf c).q1] (fun s =>
            let q := s.queueOf c
            if q.q0.taken || !(q.q1.inBody l && q.q2.inBody l) then .trap s 7 pc
            else
              let e := exit c s
              .branch s { taken := e, target := l.stop, nullify := nullifies mode e, leave := true })) s

/-- LEAVE (R167): always exits. -/
def execLeave (n : BitVec 2) (s : State) : Out := leaveWith (Enc.leave n) n.toNat [] (fun _ _ => true) s

/-- LEAVEQ (R167): exits when q at distance 0, inverted by sense, is 1. -/
def execLeaveq (q : BitVec 3) (t : BitVec 1) (n : BitVec 2) (s : State) : Out :=
  leaveWith (Enc.leaveq q t n) n.toNat [.src .q q.toNat 0] (fun c s => Bool.xor (s.readQ c q.toNat 0) (t == 1)) s

end Sys2Proof.Machine
end

