-- ==== Sys2Proof/Machine/System.lean ====
section
/-! DEFINITION. Control registers, system instructions, interrupts (spec/01 R26 to R32, spec/07 R184 to R192). -/
namespace Sys2Proof.Machine
open Sys2Proof

/-! ### Reading control registers -/

/-- STATUS of a slip (R28). OVL is that of a loop that runs, not of a level held aside (R495). In a handler every field but HND and
PRIV is that of the slip that the message's tag names (log 97). -/
def Slip.status (p : Slip) (i : Nat) (hnd : Bool) : Nat :=
  withBit p.dbie 8 + withBit p.mie 9 + withBit p.tie 10 + withBit (p.priv && !hnd) 11 + withBit p.intrap 12 + withBit hnd 13 +
  i <<< 14 +
  withBit (match p.levels with
    | l :: _ => decide (l.width > 1)
    | [] => false) 16 +
  p.allLevels.length <<< 17 + (p.prio % 16) <<< 20

/-- LCTL of a slip (R23, R27); DMAX reads 0 in a handler (R226). -/
def Slip.lctl (p : Slip) (hnd : Bool) : Nat :=
  (match p.allLevels with
   | l :: _ => l.width - 1
   | [] => 0) + (if hnd then 0 else p.dmax) <<< 3

/-- LIDX of a slip (R27, R162). -/
def Slip.lidx (p : Slip) : Nat :=
  match p.allLevels with
  | l :: _ => l.idx % (1 <<< 32)
  | [] => 0

/-- The saved queue of a slip, with the addresses that a length not readable at the trap left open filled in as far as they can be read
now: an entry is an address whatever page was resident when the trap was taken (R7, R186). -/
def Slip.savedQueue (p : Slip) (len : Word → Option Nat) : Queue := (({ p with live := p.saved, levels := p.aside } : Slip).resolve len).live

/-- The queue that PCQ0 to PCQ2 and PCQF.NF name: the saved one while STATUS.INTRAP, as whoever executes reads it, is 1 (R186). -/
def State.csrQueue (s : State) (c : Ctx) : Queue :=
  if (s.slip c.b c.i).intrap then (s.slip c.b c.i).savedQueue (s.lenAt c) else s.queueOf c

/-- The entries whose lengths a read of control register n needs: those before the entry of PCQ1 or PCQ2. -/
def State.csrLengths (s : State) (c : Ctx) (n : Nat) : List QE :=
  match n with
  | 0x004 => [(s.csrQueue c).q0]
  | 0x005 => [(s.csrQueue c).q0, (s.csrQueue c).q1]
  | _ => []

/-- The flags of a queue (R29). -/
def Queue.nf (q : Queue) : Nat := withBit q.q0.nf 0 + withBit q.q1.nf 1 + withBit q.q2.nf 2

/-- The sum of the four shares of EVCk, saturating (R443). -/
def Berth.evcSum (x : Berth) (k : Nat) : Nat := min evcMax ((x.slips.map (fun p => SMap.get 0 p.2.evc k)).foldl (· + ·) 0)

/-- Is a control register number assigned (R26, R27, R275, R281, R282, R420, R440, R445, R461, R190, R191)? -/
def csrKnown (n : Nat) : Bool :=
  decide (n ≤ 0x23) || (decide (0x30 ≤ n) && decide (n ≤ 0x33)) || n == 0x40 ||
  (decide (0x100 ≤ n) && decide (n ≤ 0x10B) && n != 0x103) || n == 0x110 || n == 0x111

/-- Is a register one that only privileged code may use: 0x100 and above, or marked — (R26, R27)? -/
def csrPriv (n : Nat) : Bool := decide (n ≥ 0x100) || (decide (0x18 ≤ n) && decide (n ≤ 0x20))

/-- The access faults of R26, in a handler under R62 step 4: cause 17, 3 or 1. -/
def State.csrFault (s : State) (c : Ctx) (n : Nat) : Option Nat :=
  if csrPriv n && c.hnd then some 17
  else if csrPriv n && !s.privOf c then some 3
  else if !csrKnown n then some 1
  else none

/-- The value of an assigned control register as whoever executes reads it (R185). A handler reads the per-slip registers, TCAUSE,
TVAL, SLIPTAG, LIDX, LEXIT and XDONE among them, of the slip that the message's tag names (log 97). -/
def State.csrRead (s : State) (c : Ctx) (n : Nat) : Word :=
  let x := s.berth c.b
  let p := s.slip c.b c.i
  let q := s.csrQueue c
  match n with
  | 0x000 => natWord (p.status c.i c.hnd)
  | 0x001 => natWord p.tcause
  | 0x002 => p.tval
  | 0x003 => q.q0.addr.getD (Config.freeWord s.fresh)
  | 0x004 => q.q1.addr.getD (Config.freeWord s.fresh)
  | 0x005 => q.q2.addr.getD (Config.freeWord (s.fresh + 1))
  | 0x006 => natWord (q.nf + p.pie <<< 4 + withBit p.ppriv 7)
  | 0x007 => x.tvec
  | 0x008 => x.upvec
  | 0x009 => x.hbase
  | 0x00A => x.hlimit
  | 0x00B => natWord p.tag
  | 0x00C => natWord (p.lctl c.hnd)
  | 0x00D => natWord p.lidx
  | 0x00E => natWord p.lexit
  | 0x00F => natWord (p.banks + p.tiles <<< 16)
  | 0x020 => x.cycle
  | 0x021 => natWord c.b
  | 0x022 => natWord p.wgroup
  | 0x023 => natWord p.wseq
  | 0x040 => p.qr.ctl
  | 0x100 => natWord x.asid
  | 0x101 => natWord (x.root <<< 12)
  | 0x102 => p.plwin
  | 0x104 => p.own0
  | 0x105 => p.own1
  | 0x106 => p.own2
  | 0x107 => p.own3
  | 0x108 => 0
  | 0x109 => x.serrlog
  | 0x10A => (s.pkg (pkgOf c.b)).xregbase
  | 0x10B => p.instret
  | 0x110 => x.tcmp
  | 0x111 => natWord x.ipend
  | _ =>
    if 0x010 ≤ n && n ≤ 0x017 then
      natWord (if s.privOf c then x.evcSum (n - 0x10) else SMap.get 0 p.evc (n - 0x10))
    else if 0x018 ≤ n && n ≤ 0x01F then natWord (SMap.get 0 x.evcHi (n - 0x10))
    else natWord (SMap.get 0 p.xdone (n - 0x30)).toNat

/-! ### Writing control registers -/

/-- The reserved bits of a register that a privileged write must leave zero (R6, R26, R28, R29, R32, R282, R404, R420,
R440, R191). -/
def csrReserved (n : Nat) : Nat :=
  match n with
  | 0x000 => 0xFFFFFFFFFF0000FF
  | 0x006 => 0xFFFFFFFFFFFFFF08
  | 0x00F => 0xFFFFFFFFFF000000
  | 0x040 => 0xFFFFFFFF0000FFFE
  | 0x100 => 0xFFFFFFFFFFFF0000
  | 0x101 => 0xFFF0000000000FFF
  | 0x108 => 0x00000000FFFFFFC0
  | 0x109 => 0x03F0000000000000
  | 0x111 => 0xFFFFFFFFFFFFFFF8
  | _ => 0

/-- Registers that every access finds read-only, SLIPTAG among them, both of whose fields are RO (R30): writes are ignored (R26, R27;
log 96). -/
def csrReadOnly (n : Nat) : Bool :=
  n == 0x00B || n == 0x00C || n == 0x00D || n == 0x00E || (decide (0x020 ≤ n) && decide (n ≤ 0x023)) || (decide (0x030 ≤ n) && decide (n ≤ 0x033))

/-- Registers that user code may write (R27). -/
def csrUserWrite (n : Nat) : Bool := n == 0x008 || (decide (0x010 ≤ n) && decide (n ≤ 0x017)) || n == 0x040

/-- The address and marks of a saved queue entry that software writes: those of the saved entry that holds the address
already, else a plain entry (R186). -/
def Queue.savedEntry (q : Queue) (a : Word) (nf : Bool) : QE :=
  match [q.q0, q.q1, q.q2].find? (fun e => e.addr = some a) with
  | some e => { e with nf := nf }
  | none => { addr := some a, nf := nf }

/-- A saved entry is an address of its own from here on: one that no length gives is a free value (log 16). -/
def QE.closed (e : QE) (free : Word) : QE := if e.addr.isSome then e else { e with addr := some free }

/-- Write PCQk of a saved queue (R186); the other entries keep the addresses they had. -/
def Queue.writeSaved (q : Queue) (k : Nat) (a : Word) (free1 free2 : Word) : Queue :=
  let r : Queue := { q with q1 := q.q1.closed free1, q2 := q.q2.closed free2 }
  match k with
  | 0 => { r with q0 := q.savedEntry a q.q0.nf }
  | 1 => { r with q1 := q.savedEntry a q.q1.nf }
  | _ => { r with q2 := q.savedEntry a q.q2.nf }

/-- A write of PCQk by whoever executes: ignored outside a trap (R186). -/
def State.writePcq (s : State) (c : Ctx) (k : Nat) (a : Word) : State :=
  if (s.slip c.b c.i).intrap then
    (s.modSlip c.b c.i (fun p =>
      { p with saved := (p.savedQueue (s.lenAt c)).writeSaved k a (Config.freeWord s.fresh) (Config.freeWord (s.fresh + 1)) })).freshened.freshened
  else s

/-- Set the flags of a queue (R29). -/
def Queue.setNf (q : Queue) (v : Nat) : Queue :=
  { q0 := { q.q0 with nf := bitOf v 0 }, q1 := { q.q1 with nf := bitOf v 1 }, q2 := { q.q2 with nf := bitOf v 2 } }

/-- A write of TCMP (R190): the compare; TIM follows from it. -/
def State.writeTcmp (s : State) (b : Nat) (v : Word) : State := s.modBerth b (fun x => { x with tcmp := v })

/-- A write of IPEND (R191): ones clear MSG and DBELL. -/
def State.writeIpend (s : State) (b v : Nat) : State :=
  s.modBerth b (fun x => { x with ipMsg := x.ipMsg && !bitOf v 1, ipDbell := x.ipDbell && !bitOf v 2 })

/-- A write of SERRLOG (R440): ones clear VALID and OVF. -/
def State.writeSerrlog (s : State) (b v : Nat) : State :=
  s.modBerth b (fun x => { x with serrlog := x.serrlog &&& ~~~(natWord (v &&& 0xC000000000000000)) })

/-- A write of FDSTOP (R420): a nonzero CAUSE stops the slip's domain with kind 5 and the CODE. -/
def State.writeFdstop (s : State) (c : Ctx) (v : Nat) : State :=
  if bitsOf v 5 0 = 0 then s else s.report c.b c.i 5 (bitsOf v 5 0) (natWord (bitsOf v 63 32))

/-- A write of QRCTL (R404, R414): WBASE and NS of the running slip's bank. -/
def State.writeQrctl (s : State) (c : Ctx) (v : Word) : State :=
  s.modSlip c.b c.i (fun p => { p with qr := { p.qr with ctl := v &&& 0xFFFF0001 } })

/-- The effect of a permitted write of a register (R185, R186). GRANT keeps its value: BANKS and TILES are RO fields (R26, R32). What the
spec leaves open is log 96: bits 63:8 of a write of TCAUSE are dropped, and a write of EVC0 to EVC15 is taken modulo 2^32. -/
def State.csrSet (s : State) (c : Ctx) (n : Nat) (v : Word) : State :=
  let u := v.toNat
  match n with
  | 0x000 => s.modSlip c.b c.i (fun p => { p with dbie := bitOf u 8, mie := bitOf u 9, tie := bitOf u 10 })
  | 0x001 => s.modSlip c.b c.i (fun p => { p with tcause := u % 256 })
  | 0x002 => s.modSlip c.b c.i (fun p => { p with tval := v })
  | 0x003 => s.writePcq c 0 v
  | 0x004 => s.writePcq c 1 v
  | 0x005 => s.writePcq c 2 v
  | 0x006 => s.modSlip c.b c.i (fun p =>
      { p with
        saved := if p.intrap then p.saved.setNf u else p.saved
        pie := bitsOf u 6 4
        ppriv := bitOf u 7 })
  | 0x007 => s.modBerth c.b (fun x => { x with tvec := natWord (u / 2 * 2) })
  | 0x008 => s.modBerth c.b (fun x => { x with upvec := v })
  | 0x009 => s.modBerth c.b (fun x => { x with hbase := v })
  | 0x00A => s.modBerth c.b (fun x => { x with hlimit := v })
  | 0x040 => s.writeQrctl c v
  | 0x100 => s.modBerth c.b (fun x => { x with asid := u })
  | 0x101 => s.modBerth c.b (fun x => { x with root := bitsOf u 51 12 })
  | 0x102 => s.modSlip c.b c.i (fun p => { p with plwin := v })
  | 0x104 => s.modSlip c.b c.i (fun p => { p with own0 := v })
  | 0x105 => s.modSlip c.b c.i (fun p => { p with own1 := v })
  | 0x106 => s.modSlip c.b c.i (fun p => { p with own2 := v })
  | 0x107 => s.modSlip c.b c.i (fun p => { p with own3 := v })
  | 0x108 => s.writeFdstop c u
  | 0x109 => s.writeSerrlog c.b u
  | 0x10A => s.modPkg (pkgOf c.b) (fun x => { x with xregbase := v })
  | 0x10B => s.modSlip c.b c.i (fun p => { p with instret := v })
  | 0x110 => s.writeTcmp c.b v
  | 0x111 => s.writeIpend c.b u
  | _ =>
    if 0x010 ≤ n && n ≤ 0x017 then
      s.modSlip c.b c.i (fun p => { p with evc := SMap.put p.evc (n - 0x10) (u % (1 <<< 32)) })
    else if 0x018 ≤ n && n ≤ 0x01F then
      s.modBerth c.b (fun x => { x with evcHi := SMap.put x.evcHi (n - 0x10) (u % (1 <<< 32)) })
    else s

/-- A write of a control register by whoever executes (R26, R185): a fault's cause, or the new state. A write that is ignored as a whole,
because the register is RO for the writer, raises no cause 2, whatever reserved bits it sets (log 96). -/
def State.csrWrite (s : State) (c : Ctx) (n : Nat) (v : Word) : State ⊕ Nat :=
  match s.csrFault c n with
  | some cause => .inr cause
  | none =>
    if csrReadOnly n || (!s.privOf c && !csrUserWrite n) then .inl s
    else if v.toNat &&& csrReserved n ≠ 0 then .inr 2
    else .inl (s.csrSet c n v)

/-! ### The instructions -/

/-- CRD (R185): gD := the register. A privileged register is checked as a privileged instruction is (R62 step 4). -/
def execCrd (d : BitVec 5) (i : BitVec 12) (s : State) : Out :=
  instr (Enc.crd d i) { priv := csrPriv i.toNat } [.dst .g d.toNat]
    (fun c s =>
      match s.csrFault c i.toNat with
      | some cause => .trap s cause (natWord (Enc.crd d i))
      | none =>
        let read (t : State) : State := t.writeG c d.toNat (t.csrRead c i.toNat)
        if i.toNat < 3 || 5 < i.toNat then .ok (read s)
        else s.awaitLengths c (s.csrLengths c i.toNat) (fun t => .ok (read t).freshened.freshened)) s

/-- What a write into the saved queue waits for: the lengths that its open entries need (R7); none where it has all, or writes no saved entry. -/
def State.pcqWait (s : State) (c : Ctx) (n : Nat) : Option (Option Nat) :=
  if 3 ≤ n && n ≤ 5 && s.privOf c && (s.slip c.b c.i).intrap then firstSome (s.lengthWait c) (s.csrLengths c 5) else none

/-- CWR (R185): the register := gA at distance 0; privilege as for CRD. A write into the saved queue waits for the lengths that its open
entries need (R7). -/
def execCwr (a : BitVec 5) (i : BitVec 12) (s : State) : Out :=
  instr (Enc.cwr a i) { priv := csrPriv i.toNat } [.src .g a.toNat 0]
    (fun c s =>
      match s.csrWrite c i.toNat (s.readG c a.toNat 0) with
      | .inr cause => .trap s cause (natWord (Enc.cwr a i))
      | .inl t =>
        if 3 ≤ i.toNat && i.toNat ≤ 5 && s.privOf c && (s.slip c.b c.i).intrap then s.awaitLengths c (s.csrLengths c 5) (fun _ => .ok t)
        else .ok t) s

/-- TRAP (R187): completes, then raises cause 26. -/
def execTrap (i : BitVec 12) (s : State) : Out := instr (Enc.trap i) {} [] (fun _ s => .after s 26 (i.setWidth 64)) s

/-- BRK (R187): raises cause 27 without executing. -/
def execBrk (i : BitVec 12) (s : State) : Out := instr (Enc.brk i) {} [] (fun _ s => .trap s 27 (i.setWidth 64)) s

/-- RFT (R188, R495): illegal outside a trap, and while the handler's own loop is active. -/
def execRft (s : State) : Out :=
  instr Enc.rft { hnd := false } []
    (fun c s =>
      let p := s.slip c.b c.i
      if !p.intrap || !p.levels.isEmpty then .trap s 1 (natWord Enc.rft)
      else .gone (s.setSlip c.b c.i (p.leaveTrap (s.lenAt c)))) s

/-- IDLE (R189): waits for a pending enabled source; with none enabled it is a no-op. -/
def execIdle (s : State) : Out :=
  instr Enc.idle { priv := true, hnd := false } []
    (fun c s =>
      if (s.slip c.b c.i).enables = 0 || s.pendingFor c.b c.i ≠ 0 then .ok s
      else .stay ((s.fixQueue c).block c .idle)) s

/-! ### Interrupts and the timer -/

/-- A stamp is taken afresh when a slip enters READY (R219). -/
def State.makeReady (s : State) (b i : Nat) : State :=
  let x := s.berth b
  (s.setBerth b { x with stamps := x.stamps + 1 }).modSlip b i (fun p => { p with st := .ready, wait := none, stamp := x.stamps })

/-- INTERRUPT_ENTRY (R192, R209): the RUNNING slip of the current berth takes cause 28 for every source pending and enabled, at a
boundary of its instructions. -/
def execInterruptEntry (s : State) : Out :=
  match s.ctx with
  | none => .next s
  | some c =>
    if c.hnd || (s.slip c.b c.i).intrap || (s.slip c.b c.i).begun || s.pendingFor c.b c.i = 0 then .next s
    else .next (s.raise c 28 (natWord (s.pendingFor c.b c.i)) false)

/-- TIMER_EXPIRY (R190): cycles pass until CYCLE reaches TCMP, and TIM is set. -/
def execTimerExpiry (b : Nat) (s : State) : Out :=
  let x := s.berth b
  if x.tcmp = 0 || x.tim then .next s else .next (s.setBerth b { x with cycle := x.tcmp })

/-- IDLE_WAKE (R189, R192): an IDLE whose enables match a pending source completes, and its slip is READY. -/
def execIdleWake (b i : Nat) (s : State) : Out :=
  let p := s.slip b i
  if p.st = .blocked && p.wait = some .idle && s.pendingFor b i ≠ 0 then
    .next ((s.advance { b := b, i := i, hnd := false } none true).makeReady b i)
  else .next s

/-- The context of the RUNNING slip of a berth, outside any handler. -/
def State.runningCtx (s : State) (b : Nat) : Option Ctx := (s.berth b).running.map (fun i => { b := b, i := i, hnd := false })

/-- TCMP_WRITE (R190). -/
def execTcmpWrite (b v : Nat) (s : State) : Out := .next (s.writeTcmp b (natWord v))

/-- IPEND_WRITE (R191): a write of ones to bits 2:1 clears them. The other bits say nothing here, nor do the reserved bits of the three
writes below: CWR makes the checks of its word (log 80). -/
def execIpendWrite (b v : Nat) (s : State) : Out := .next (s.writeIpend b v)

/-- QRCTL_WRITE (R414): the bank of the slip that runs on the current berth. -/
def execQrctlWrite (v : Nat) (s : State) : Out :=
  match s.runningCtx s.cur with
  | none => .next s
  | some c => .next (s.writeQrctl c (natWord v))

/-- FDSTOP_WRITE (R420): by the slip that runs on the current berth. -/
def execFdstopWrite (v : Nat) (s : State) : Out :=
  match s.runningCtx s.cur with
  | none => .next s
  | some c => .next (s.writeFdstop c v)

/-- SERRLOG_WRITE (R440). -/
def execSerrlogWrite (b v : Nat) (s : State) : Out := .next (s.writeSerrlog b v)

/-! ### Words that are no instruction (R40, R62 to R65) -/

/-- The cause of a decode failure. -/
def decodeCause : DecodeError → Nat
  | .illegal => 1
  | .reserved => 2
  | .short => 1

/-- ILLEGAL_INSTRUCTION (R62, R63, R65): a word with no decoding raises cause 1 or 2 with the word as TVAL; a nullified
word is only passed over. cause is the decoder's answer. -/
def execIllegalInstruction (w cause : Nat) (s : State) : Out :=
  match s.ctx with
  | none => .next s
  | some c =>
    let nf := if c.hnd then false else (s.slip c.b c.i).live.q0.nf
    if nf then .next (s.advance c none false) else .next (s.raise c cause (natWord w) false)

/-- FETCH_FAULT (R40, R288): the address of PCQ0, or of its second halfword, cannot be fetched; its fault is raised,
nullified or not. -/
def execFetchFault (s : State) : Out :=
  match s.ctx with
  | none => .next s
  | some c =>
    let pc := s.pcOf c
    let a := match s.fetchHalf c pc with
      | some _ => pc + 2
      | none => pc
    match s.reachFetch c a.toNat with
    | .trap cause => .next (s.raise c cause a false)
    | .held => .next s
    | .absent v => match s.absentRes c v a with
      | .stay t => .next t
      | r => finish c r
    | .device _ => .next s
    | .hit k _ => if s.poisoned k 2 then finish c (s.poisonRes c k 2 a) else .next s

end Sys2Proof.Machine
end

