-- ==== Sys2Proof/Machine/Channel.lean ====
section
/-! DEFINITION. Channels (spec/13 R246 to R252) and what travels between berths (spec/25 R455). -/
namespace Sys2Proof.Machine
open Sys2Proof

/-! ### Traffic -/

/-- The key of a pair of berths in a route table (R455). -/
def pairKey (src dst : Nat) : Nat := src * (1 <<< 21) + dst

/-- The port over which a package sends what goes from one berth to another (R455, R456): that of its route table, in place of one that is
down another up to the same neighbour; without an entry, the lowest port that is up to the package itself. -/
def Pkg.routePort (p : Pkg) (src dst : Nat) : Option Nat :=
  let up (peer : Nat) : Option Nat := (p.ports.find? (fun (e : Nat × Port) => !e.2.down && e.2.peer == peer)).map (fun e => e.1)
  match SMap.get? p.routes (pairKey src dst) with
  | some n => if (p.port n).down then (up (p.port n).peer).or (some n) else some n
  | none => up (pkgOf dst)

/-- A flit's first 248 bytes, its 256 bytes, and whether 256 bytes are a flit with a right CRC (R454, R456). -/
def Flit.front (f : Flit) : List Byte := f.header ++ f.payload
def Flit.bytes (f : Flit) : List Byte := f.front ++ leBytes 8 f.crc.toNat
def flitOk (bs : List Byte) : Bool := bs.length == 256 && natWord (fieldAt bs 248 8) == Config.flitCrc (bs.take 248)

/-- A flit whose header and payload the spec does not lay out: free values, with their CRC (log 111). -/
def freeFlit (n : Nat) : Flit :=
  let h := (upTo 16).map (fun j => Config.freeByte (64 * n + j))
  let d := (upTo 232).map (fun j => Config.freeByte (64 * n + 16 + j))
  { header := h, payload := d, crc := Config.flitCrc (h ++ d) }

/-- A flit goes from package to package along the route of its pair of berths; every port that sends it keeps it for a replay (R455, R456). The
number bounds the route. -/
def flitAlong (src dst : Nat) (f : Flit) : Nat → Nat → State → State
  | 0, _, s => s
  | n + 1, at_, s =>
    if at_ = pkgOf dst then s
    else match (s.pkg at_).routePort src dst with
      | none => s
      | some q => flitAlong src dst f n ((s.pkg at_).port q).peer
          (s.modPkg at_ (fun p => p.setPort q { p.port q with sent := (f :: (p.port q).sent).take 64 }))

/-- What n bytes from a berth to another package take: flits of 232 bytes of payload (R454). -/
def State.linkFlits (s : State) (src dst n : Nat) : State :=
  if pkgOf src = pkgOf dst then s
  else (upTo ((n + 231) / 232)).foldl (fun (t : State) _ =>
    { flitAlong src dst (freeFlit t.fresh) 256 (pkgOf src) t with fresh := t.fresh + 4 }) s

/-- What goes to another package in one flit, as every item of up to 64 bytes does (R454). -/
def State.linkFlit (s : State) (src dst : Nat) : State := s.linkFlits src dst 64

/-- Put a packet on its way (R455). -/
def State.transmit (s : State) (src dst : Nat) (body : Body) : State :=
  let t := s.linkFlit src dst
  { t with net := t.net ++ [{ src := src, dst := dst, body := body }] }

/-- Is a packet of a pair of berths in flight, in front of what the pair sends now (R455)? One that backs off is not. -/
def State.pairBusy (s : State) (src dst : Nat) : Bool := s.net.any (fun p => p.src == src && p.dst == dst && !p.waiting)

/-- Has a pair of berths sent anything that has not been taken, though it back off: what an item of the pair, a close marker among them, stays
behind (R253, R267, R455)? -/
def State.pairHolds (s : State) (src dst : Nat) : Bool := s.net.any (fun p => p.src == src && p.dst == dst)

/-- Is a body an item, which a receiver may refuse and a refused item holds back (R253, R267)? -/
def Body.isItem : Body → Bool
  | .item _ => true
  | .arrival _ _ _ => true
  | .launch _ _ _ => true
  | .reply _ _ _ => true
  | .advance _ _ _ _ => true
  | .freed _ _ _ _ => true
  | .ack _ _ _ _ => false
  | .chst _ _ _ _ _ _ _ _ => false

/-- The slip on whose behalf a packet changes its destination, where there is one: berth and slip. -/
def Packet.issuer (p : Packet) : Option (Nat × Nat) :=
  match p.body with
  | .item i => some (p.src, i.srcSlip)
  | .arrival _ srcSlip _ => some (p.src, srcSlip)
  | .chst _ _ _ _ _ _ srcSlip _ => some (p.src, srcSlip)
  | .reply _ _ _ => none
  | .ack _ _ _ _ => none
  | .advance _ _ _ _ => none
  | .freed _ _ _ _ => none
  | .launch _ _ _ => none

/-- Does a checkpoint being taken hold a channel notice at its destination: has the end that sent it completed its WINDOW.K
(R422)? -/
def State.noticeHeld (s : State) (p : Packet) : Bool :=
  let sender (i h : Nat) : Nat := (SMap.get {} (s.slip p.dst i).chans h : Chan).peerSlip
  match p.body with
  | .advance i h _ _ => s.heldByCheckpoint p.src (sender i h)
  | .freed i h _ _ => s.heldByCheckpoint p.src (sender i h)
  | .item _ => false
  | .reply _ _ _ => false
  | .ack _ _ _ _ => false
  | .chst _ _ _ _ _ _ _ _ => false
  | .arrival _ _ _ => false
  | .launch _ _ _ => false

/-- Does a checkpoint being taken hold an arrival at its destination, whose sender had completed its WINDOW.K as it sent it, though it may have
halted since (R369, R422)? -/
def State.arrivalHeld (s : State) (p : Packet) : Bool :=
  match p.body with
  | .arrival _ i (some o) => ((s.dom o.dom).bind Dom.next).any (fun k => k.holds p.src i)
  | .arrival _ _ none => false
  | .item _ => false
  | .reply _ _ _ => false
  | .ack _ _ _ _ => false
  | .advance _ _ _ _ => false
  | .freed _ _ _ _ => false
  | .chst _ _ _ _ _ _ _ _ => false
  | .launch _ _ _ => false

/-- Packet n may arrive: it is not backing off, nothing of its pair is in front of it (R455), no refused item holds it back
(R267), no checkpoint holds it (R422). -/
def State.mayArrive (s : State) (n : Nat) (p : Packet) : Bool :=
  !p.waiting && !s.noticeHeld p && !s.arrivalHeld p &&
  !((s.net.take n).any (fun e => e.src == p.src && e.dst == p.dst && (!e.waiting || (p.body.isItem && e.body.isItem)))) &&
  (match p.issuer with
   | some (b, i) => !s.heldByCheckpoint b i
   | none => true)

/-- The packet in place n, if it may arrive. -/
def State.arriving (s : State) (n : Nat) : Option Packet :=
  match s.net[n]? with
  | some p => if s.mayArrive n p then some p else none
  | none => none

/-- Packet n has arrived. -/
def State.dropPacket (s : State) (n : Nat) : State := { s with net := dropAt s.net n }

/-- Packet n is answered BUSY (R266, R267): it backs off; EVC10 of the sender's berth counts. -/
def State.busyReply (s : State) (n : Nat) (p : Packet) : State :=
  { s with net := setAt s.net n { p with busy := p.busy + 1, waiting := true } }.timing p.src 10

/-- A full input queue refuses packet n (R267): its sender joins the receiver's list of up to 64. -/
def State.refuseBusy (s : State) (n : Nat) (p : Packet) : State :=
  (s.modBerth p.dst (fun x => { x with
    inbox := x.inbox - 1
    refused := if x.refused.contains p.src || decide (x.refused.length ≥ 64) then x.refused else x.refused ++ [p.src] })).busyReply n p

/-- The oldest of the refused senders that still has an item for the berth. -/
def State.oldestRefused (s : State) (b : Nat) : Option Nat :=
  (s.berth b).refused.find? (fun q => s.net.any (fun e => e.src == q && e.dst == b && decide (e.busy > 0)))

/-- Is an entry of its receiver's input queue for a packet to take (R266, R267)? A free one is the oldest refused sender's. -/
def State.entryFree (s : State) (p : Packet) : Bool :=
  (s.berth p.dst).inbox == 0 && (match s.oldestRefused p.dst with
    | some q => q == p.src
    | none => true)

/-- An item at its receiver (R266): the interface takes it, or refuses it. -/
def State.takeItem (s : State) (n : Nat) (p : Packet) (k : State → State) : State :=
  if s.entryFree p then
    k (if (s.berth p.dst).refused.contains p.src then
        (s.dropPacket n).modBerth p.dst (fun x => { x with refused := x.refused.erase p.src })
      else s.dropPacket n)
  else s.refuseBusy n p

/-! ### Handles -/

def Slip.chan (p : Slip) (h : Nat) : Chan := SMap.get {} p.chans h
def Slip.setChan (p : Slip) (h : Nat) (x : Chan) : Slip := { p with chans := SMap.put p.chans h x }

/-- Indices wrap modulo 2^32 (R246). -/
def mod32 (n : Nat) : Nat := n % (1 <<< 32)
def diff32 (a b : Nat) : Nat := (a + (1 <<< 32) - b % (1 <<< 32)) % (1 <<< 32)

/-- Slots filled at the consumer; slots free at the producer (R246). -/
def Chan.filled (x : Chan) : Nat := diff32 x.tk x.ri
def Chan.free (x : Chan) : Nat := x.cap - diff32 x.wi x.hk

/-- The TVAL of a misuse (R250). -/
def misuse (reason h : Nat) : Word := channelTval reason h 0

/-- A channel instruction on handle h in a role: misuse 1 in another (R249). -/
def chanOp (word h : Nat) (uses : List Use) (role : Option ChRole) (k : Ctx → Chan → State → Res) (s : State) : Out :=
  instr word { hnd := false } (.handle h :: uses)
    (fun c s =>
      let x := (s.slip c.b c.i).chan h
      let fits : Bool := match role with
        | some r => decide (x.role = r)
        | none => decide (x.role ≠ .unbound)
      if fits then k c x s else .trap s 16 (misuse 1 h)) s

/-- A wait for n slots (R249): the grant grows to n once they are there, an acquire. -/
def chanWait (h n : Nat) (have_ : Chan → Nat) (w : Wait) (c : Ctx) (x : Chan) (s : State) : Res :=
  if n > x.cap then .trap s 16 (misuse 2 h)
  else if have_ x ≥ n then .ok ((s.modSlip c.b c.i (fun p => p.setChan h { x with granted := max x.granted n })).acquired c)
  else .stay (s.block c w)

/-- Is a CHST of the slip on a handle still to land, or a copy of the slip still to land in the ring at its end (R249)? -/
def State.ringPending (s : State) (c : Ctx) (x : Chan) : Bool :=
  s.net.any (fun p => p.src == c.b && p.dst == x.peer && (match p.body with
    | .chst slip handle _ _ _ _ srcSlip _ => slip == x.peerSlip && handle == x.peerHandle && srcSlip == c.i
    | .item _ => false
    | .reply _ _ _ => false
    | .ack _ _ _ _ => false
    | .advance _ _ _ _ => false
    | .freed _ _ _ _ => false
    | .arrival _ _ _ => false
    | .launch _ _ _ => false)) ||
  s.copies.any (fun k => k.berth == c.b && k.slip == c.i &&
    s.stillLands k (scratchKey x.peer x.base) (x.cap * x.slotb))

/-- The ring byte that a unit of 32 bytes after an index names (R249). -/
def Chan.ringByte (x : Chan) (index u : Nat) : Nat := (index * x.slotb + u * 32) % (x.cap * x.slotb)

/-! ### The instructions -/

/-- CHWAITF (R249, R252): blocks until n slots are filled, and takes the grant. -/
def execChwaitf (c : BitVec 4) (n : BitVec 12) (s : State) : Out :=
  chanOp (Enc.chwaitf c n) c.toNat [] (some .consumer) (chanWait c.toNat n.toNat Chan.filled (.filled c.toNat n.toNat)) s

/-- CHWAITE (R249): blocks until n slots are free, and takes the grant. -/
def execChwaite (c : BitVec 4) (n : BitVec 12) (s : State) : Out :=
  chanOp (Enc.chwaite c n) c.toNat [] (some .producer) (chanWait c.toNat n.toNat Chan.free (.space c.toNat n.toNat)) s

/-- Does a copy or a queued crane command of the slip still read one of n slots from RI on (R252, R316)? -/
def State.slotsRead (s : State) (c : Ctx) (x : Chan) (n : Nat) : Bool :=
  let p := x.ringByte x.ri 0
  let first := min (n * x.slotb) (x.cap * x.slotb - p)
  n != 0 && (s.commandBars c (localAddr (x.base + p)).toNat first ||
    (decide (first < n * x.slotb) && s.commandBars c (localAddr x.base).toNat (n * x.slotb - first)))

/-- CHADVC (R249): once no command of the slip reads them (R252), frees n slots and tells the producer; clears the touch marks (R319). -/
def execChadvc (c : BitVec 4) (n : BitVec 12) (s : State) : Out :=
  chanOp (Enc.chadvc c n) c.toNat [] (some .consumer)
    (fun k x s =>
      if n.toNat > x.granted then .trap s 16 (misuse 3 c.toNat)
      else
        let s0 := s.clearTouch k.b k.i
        if s0.slotsRead k x n.toNat then .stay s0
        else
          let s1 := s0.modSlip k.b k.i (fun p =>
            p.setChan c.toNat { x with ri := mod32 (x.ri + n.toNat), granted := x.granted - n.toNat })
          .ok (s1.transmit k.b x.peer (.freed x.peerSlip x.peerHandle x.peerTag n.toNat))) s

/-- CHADVP (R249): once its CHST and copies into the ring have landed, advances n slots and tells the consumer. -/
def execChadvp (c : BitVec 4) (n : BitVec 12) (s : State) : Out :=
  chanOp (Enc.chadvp c n) c.toNat [] (some .producer)
    (fun k x s =>
      if n.toNat > x.granted then .trap s 16 (misuse 3 c.toNat)
      else
        let s1 := s.clearTouch k.b k.i
        if s1.ringPending k x then .stay s1
        else
          let s2 := s1.modSlip k.b k.i (fun p =>
            p.setChan c.toNat { x with wi := mod32 (x.wi + n.toNat), granted := x.granted - n.toNat })
          .ok (s2.transmit k.b x.peer (.advance x.peerSlip x.peerHandle x.peerTag n.toNat))) s

/-- CHST (R249): the 64 bytes of wS go to granted ring bytes at the consumer. -/
def execChst (r : BitVec 5) (c : BitVec 4) (u : BitVec 12) (s : State) : Out :=
  chanOp (Enc.chst r c u) c.toNat [.src .w r.toNat 0] (some .producer)
    (fun k x s =>
      if u.toNat * 32 + 64 > x.granted * x.slotb then .trap s 16 (misuse 3 c.toNat)
      else
        .ok (s.transmit k.b x.peer (.chst x.peerSlip x.peerHandle x.peerTag x.base (x.ringByte x.wi u.toNat)
          (s.readW k r.toNat 0) k.i (s.slip k.b k.i).tag))) s

/-- CHADDR (R249): the address of a granted ring byte, LOCAL at the consumer, REMOTE at the producer. -/
def execChaddr (d : BitVec 5) (c : BitVec 4) (u : BitVec 12) (s : State) : Out :=
  chanOp (Enc.chaddr d c u) c.toNat [.dst .g d.toNat] none
    (fun k x s =>
      if u.toNat * 32 ≥ x.granted * x.slotb then .trap s 16 (misuse 3 c.toNat)
      else
        let a := if x.role = .consumer then localAddr (x.base + x.ringByte x.ri u.toNat)
          else remoteAddr x.peer (x.base + x.ringByte x.wi u.toNat)
        .ok (s.writeG k d.toNat a)) s

/-! ### Arrivals -/

/-- A notice changes the handle it names, if the slip still carries the actor it was sent to. -/
def State.noticeTo (s : State) (b i tag h : Nat) (f : Chan → Chan) : State :=
  let p := s.slip b i
  if p.bound && p.tag == tag && (p.chan h).role ≠ .unbound then s.setSlip b i (p.setChan h (f (p.chan h))) else s

/-- ADVANCE_NOTICE_ARRIVAL (R249, R266): the consumer adds n to TK; a full input queue refuses the notice. -/
def execAdvanceNoticeArrival (n : Nat) (s : State) : Out :=
  match s.arriving n with
  | some { src := a, dst := b, body := .advance i h tag k, busy := y, waiting := w } =>
    .next (s.takeItem n { src := a, dst := b, body := .advance i h tag k, busy := y, waiting := w }
      (fun t => t.noticeTo b i tag h (fun x => { x with tk := mod32 (x.tk + k) })))
  | _ => .next s

/-- FREE_NOTICE_ARRIVAL (R249, R266): the producer adds n to HK; a full input queue refuses the notice. -/
def execFreeNoticeArrival (n : Nat) (s : State) : Out :=
  match s.arriving n with
  | some { src := a, dst := b, body := .freed i h tag k, busy := y, waiting := w } =>
    .next (s.takeItem n { src := a, dst := b, body := .freed i h tag k, busy := y, waiting := w }
      (fun t => t.noticeTo b i tag h (fun x => { x with hk := mod32 (x.hk + k) })))
  | _ => .next s

/-- Store ring bytes from ring byte p on, wrapping at the ring's end (R249). -/
def State.storeRing (s : State) (b base size p : Nat) (bs : List Byte) : State :=
  let first := bs.take (size - p)
  let rest := bs.drop (size - p)
  let s1 := s.storeScratch b (base + p) first
  if rest.isEmpty then s1 else s1.storeScratch b base rest

/-- The offset of the first bank of n ring bytes from ring byte p on that a slip's GRANT does not hold (R36). -/
def Slip.ringOutside (y : Slip) (x : Chan) (p n : Nat) : Option Nat :=
  let size := x.cap * x.slotb
  let off (j : Nat) : Nat := x.base + (p + j) % size
  ((upTo n).find? (fun j => !bitOf y.banks (off j / 0x8000))).map off

/-- The first of the two pieces of n ring bytes from ring byte p on that would write only part of an uncorrectable word (R439): its offset and its
length. -/
def State.ringBad (s : State) (b base size p n : Nat) : Option (Nat × Nat) :=
  [(base + p, min n (size - p)), (base, n - (size - p))].find? (fun e => s.partPoisoned (scratchKey b e.1) e.2)

/-- A landing of a slip, while it carries the actor that issued it, meets an uncorrectable word of n bytes at an offset of a berth (R439, R440).
-/
def State.landingBad (s : State) (a j tag b off n : Nat) : State :=
  let t := s.logBad b (scratchKey b off) n
  if (t.slip a j).bound && (t.slip a j).tag == tag then t.rollbackFault a j 25 (localAddr off) (s.badWord (scratchKey b off) n) else t

/-- A fault of a landing on behalf of a slip that has gone on (R36, log 101): the slip takes it at the instruction it is at, a BLOCKED or HALTING
one READY at its handler, one between its firings as its next firing begins. -/
def State.lateRaise (s : State) (b i tag cause : Nat) (tval : Word) : State :=
  let p := s.slip b i
  if !p.bound || p.tag != tag || p.stopped then s
  else if !p.firing then s.modSlip b i (fun q => { q with late := q.late.or (some (cause, tval)) })
  else if p.st = .blocked || p.st = .halting then
    ((s.modSlip b i (fun q => { q with closing := none, brd := none })).makeReady b i).raiseSlip b i cause tval false
  else s.raiseSlip b i cause tval false

/-- CHST_LANDING (R249): the 64 bytes reach the ring. A landing in a bank that the consumer does not hold is dropped, and the producer takes
cause 12 with the bank's LOCAL address (R36, log 101); one that would write only part of an uncorrectable word is cause 25 (R439). -/
def execChstLanding (n : Nat) (s : State) : Out :=
  match s.arriving n with
  | some { src := a, dst := b, body := .chst i h tag _ p data j from_, busy := _, waiting := _ } =>
    let x := (s.slip b i).chan h
    if (s.slip b i).bound && (s.slip b i).tag == tag && x.role = .consumer then
      match (s.slip b i).ringOutside x p 64 with
      | some o => .next ((s.dropPacket n).lateRaise a j from_ 12 (localAddr o))
      | none => match s.ringBad b x.base (x.cap * x.slotb) p 64 with
        | some e => .next ((s.dropPacket n).landingBad a j from_ b e.1 e.2)
        | none => .next ((s.dropPacket n).storeRing b x.base (x.cap * x.slotb) p (leBytes 64 data.toNat))
    else .next (s.dropPacket n)
  | _ => .next s

end Sys2Proof.Machine
end

