-- ==== Sys2Proof/Machine/Sync.lean ====
section
/-! DEFINITION. Sync words and arrivals, FENCE, FLUSHAS and DRAIN (spec/15 R306 to R310, spec/16 R317 to R320, spec/14 R285 to
R287, spec/25 R461). -/
namespace Sys2Proof.Machine
open Sys2Proof

/-! ### Sync words -/

/-- The fields of R306 at a sync word's key. -/
def State.syncBT (s : State) (k : Nat) : Nat := s.natAt k 4
def State.syncBC (s : State) (k : Nat) : Nat := s.natAt (k + 4) 4
def State.syncAT (s : State) (k : Nat) : Nat := s.natAt (k + 8) 2
def State.syncAC (s : State) (k : Nat) : Nat := s.natAt (k + 10) 2
def State.syncGen (s : State) (k : Nat) : Nat := s.natAt (k + 12) 4

/-- Is the sync word at an offset of a berth defined? -/
def State.syncAt (s : State) (b off : Nat) : Option SyncWord := SMap.get? s.syncs (scratchKey b off)

/-- Phases that counts complete: what the loop of R307 closes; a zero target imposes no limit. -/
def phasesOf (bt at_ bc ac : Nat) : Nat :=
  if bt = 0 then ac / at_ else if at_ = 0 then bc / bt else min (bc / bt) (ac / at_)

/-- A contribution of bytes and arrivals to the defined sync word at an offset (R307), err its error mark (R329). -/
def State.contribute (s : State) (b off bytes arrivals : Nat) (err : Bool) : State :=
  let k := scratchKey b off
  match SMap.get? s.syncs k with
  | none => s
  | some w0 =>
    let s0 := s.jotScratch b off
    let w := { w0 with error := w0.error || err }
    let bc := s.syncBC k + bytes
    let ac := s.syncAC k + arrivals
    if w.overflow then s0.setSync k w
    else if bc ≥ 1 <<< 32 || ac ≥ 1 <<< 16 then s0.setSync k { w with overflow := true, error := true }
    else
      let n := phasesOf (s.syncBT k) (s.syncAT k) bc ac
      (((s0.setSync k w).pokeNat (k + 4) 4 (bc - n * s.syncBT k)).pokeNat (k + 10) 2 (ac - n * s.syncAT k)).pokeNat
        (k + 12) 4 ((s.syncGen k + n) % (1 <<< 32))

/-- Is a an earlier generation than b, modulo 2^32? -/
def genLt (a b : Nat) : Bool := genLe a b && a % (1 <<< 32) != b % (1 <<< 32)

/-- The overlap that a fault reports (R320): among those that a test admits the oldest generation, then the lowest granule. -/
def oldestOverlap (l : List (Nat × Nat)) : Option (Nat × Nat) :=
  l.foldl (fun best o => match best with
    | none => some o
    | some x => if genLt o.1 x.1 || (o.1 == x.1 && decide (o.2 < x.2)) then some o else best) none

/-- An overlap has been raised: an SWDEF or HALT does not raise it again (R320). -/
def SyncWord.raise (w : SyncWord) (o : Nat × Nat) : SyncWord :=
  { w with overlaps := w.overlaps.filter (fun e => e ≠ o), raised := if w.raised.contains o then w.raised else o :: w.raised }

/-- The LOCAL address of a granule's key (R308). -/
def granuleAddr (b k : Nat) : Word := localAddr (k - scratchKey b 0)

/-- Clear the landing records (a, ·) of every granule (R310). -/
def State.dropRecords (s : State) (k : Nat) : State :=
  let gs : SMap Gran := s.grans.map (fun e => (e.1, { e.2 with records := e.2.records.filter (fun r => r.1 ≠ k) }))
  { s with grans := gs.filter (fun e => decide (e.2 ≠ {})) }

/-- Journal the granules that hold a landing record of a sync word (R424). -/
def State.jotRecords (s : State) (b k : Nat) : State :=
  s.grans.foldl (fun t e => if e.2.records.any (fun r => r.1 == k) then t.jotScratch b (e.1 - scratchKey b 0) else t) s

/-- The checks of a that SWDEF and SWAIT share (R310): LOCAL, bank held, aligned. -/
def State.syncFault (s : State) (c : Ctx) (a : Word) : Option Nat :=
  let off := bitsOf a.toNat 18 0
  if bitsOf a.toNat 63 60 ≠ 1 || bitsOf a.toNat 59 19 ≠ 0 then some 9
  else if !s.holdsBank c off then some 12
  else if off % 16 ≠ 0 then some 8
  else none

/-- The marks of a landing under sync word sk on the granule at an offset outside the rings (R308, R319). -/
def State.landGranule (s : State) (b sk g : Nat) : State :=
  let key := scratchKey b g
  let gen := s.syncGen sk
  let x := s.gran key
  let s1 := if x.touch || x.records.contains (sk, gen) then s.markOverlap b sk gen key else s
  s1.setGran key { x with records := [(sk, gen)] }

/-- SWDEF's effect: the 16 bytes, the hidden part, the records cleared, the held arrivals of R318 counted. -/
def State.defineSync (s : State) (b off bt at_ : Nat) : State :=
  let k := scratchKey b off
  let s1 := ((s.jotRecords b k).storeScratch b off (leBytes 4 bt ++ leBytes 4 0 ++ leBytes 2 at_ ++ leBytes 6 0)).dropRecords k
  if bt = 0 && at_ = 0 then { s1 with syncs := SMap.erase s1.syncs k }
  else
    let held := (s1.heldArrivals.filter (fun h => h == k)).length
    let s2 := { s1.setSync k {} with heldArrivals := s1.heldArrivals.filter (fun h => h != k) }
    (upTo held).foldl (fun t _ => t.contribute b off 0 1 false) s2

/-! ### The instructions -/

/-- SWDEF (R310, R318 to R320): defines or undefines a sync word; an overlap that nothing has raised yet is raised first. -/
def execSwdef (a : BitVec 5) (x : BitVec 3) (b : BitVec 5) (y : BitVec 3) (s : State) : Out :=
  instr (Enc.swdef a x b y) {} [.src .g a.toNat x.toNat, .src .g b.toNat y.toNat]
    (fun c s =>
      let ea := s.readG c a.toNat x.toNat
      let v := (s.readG c b.toNat y.toNat).toNat
      let off := bitsOf ea.toNat 18 0
      let k := scratchKey c.b off
      match s.syncFault c ea with
      | some cause => .trap s cause ea
      | none =>
        let old := (SMap.get? s.syncs k).getD {}
        let counting : Bool := (SMap.get? s.syncs k).isSome && (s.syncBC k != 0 || s.syncAC k != 0)
        if (SMap.get? s.syncs k).isSome && s.poisoned k 16 then s.poisonRes c k 16 ea
        else if counting then .trap s 21 ea
        else match oldestOverlap old.overlaps with
          | some o => .trap ((s.jotScratch c.b off).setSync k (old.raise o)) 20 (granuleAddr c.b o.2)
          | none =>
            if s.commandBars c ea.toNat 16 then .stay s
            else .ok (s.defineSync c.b off (bitsOf v 31 0) (bitsOf v 47 32))) s

/-- The berth that a REMOTE address names, where R271 admits the address. -/
def State.remoteBerth (s : State) (a : Nat) : Option Nat :=
  let b := bitsOf a 39 27
  let p := bitsOf a 47 40
  if bitsOf a 63 60 ≠ 2 || bitsOf a 59 48 ≠ 0 || bitsOf a 26 19 ≠ 0 || b ≥ 4608 || !s.domain.contains p then none
  else some (p * 8192 + b)

/-- The berth and offset that an ARRIVE's address names (R310). -/
def State.arriveTarget (s : State) (b : Nat) (a : Nat) : Option Nat :=
  if bitsOf a 63 60 = 1 then (if bitsOf a 59 19 = 0 then some b else none) else s.remoteBerth a

/-- Are bank operations of a slip still on their way? -/
def State.bankPending (s : State) (b i : Nat) : Bool := s.bankOps.any (fun o => o.berth == b && o.slip == i)

/-- ARRIVE (R310, R319): once its bank operations are visible, sends one arrival to a sync word. -/
def execArrive (sc : BitVec 3) (a : BitVec 5) (x : BitVec 3) (s : State) : Out :=
  instr (Enc.arrive sc a x) {} [.src .g a.toNat x.toNat]
    (fun c s =>
      let ea := s.readG c a.toNat x.toNat
      match s.arriveTarget c.b ea.toNat with
      | none => .trap s 9 ea
      | some dst =>
        if ea.toNat % 16 ≠ 0 then .trap s 8 ea
        else if sc = 0 then .trap s 21 ea
        else
          let s1 := s.clearTouch c.b c.i
          if s1.bankPending c.b c.i then .stay s1
          else .ok (s1.transmit c.b dst (.arrival ea c.i (s1.slip c.b c.i).owner))) s

/-- The overlap that an SWAIT for a generation raises: one marked at an earlier generation, whether raised before or not (R310, log 102). -/
def SyncWord.overlapFor (w : SyncWord) (v : Nat) : Option (Nat × Nat) :=
  oldestOverlap ((w.overlaps ++ w.raised).filter (fun o => genLt o.1 v))

/-- Has a sync word reached a generation, or an overflow (R310)? -/
def State.syncReached (s : State) (k v : Nat) : Bool :=
  genLe v (s.syncGen k) || (match SMap.get? s.syncs k with
    | some w => w.overflow
    | none => true)

/-- SWAIT (R310, R319, R320, R393): blocks until a generation, then acquires it. -/
def execSwait (sc : BitVec 3) (a : BitVec 5) (x : BitVec 3) (b : BitVec 5) (y : BitVec 3) (s : State) : Out :=
  instr (Enc.swait sc a x b y) { hnd := false } [.src .g a.toNat x.toNat, .src .g b.toNat y.toNat]
    (fun c s =>
      let ea := s.readG c a.toNat x.toNat
      let v := bitsOf (s.readG c b.toNat y.toNat).toNat 31 0
      let off := bitsOf ea.toNat 18 0
      let k := scratchKey c.b off
      match s.syncFault c ea with
      | some cause => .trap s cause ea
      | none =>
        match SMap.get? s.syncs k with
        | none => .trap s 21 ea
        | some w =>
          if s.poisoned k 16 then s.poisonRes c k 16 ea
          else if !s.syncReached k v then .stay (s.block c (.syncWord k v))
          else if w.error then .trap s 21 ea
          else match w.overlapFor v with
            | some o => .trap (if w.overlaps.contains o then (s.jotScratch c.b off).setSync k (w.raise o) else s) 20 (granuleAddr c.b o.2)
            | none =>
              match w.absent with
              | some tv => .trap ((s.jotScratch c.b off).setSync k { w with absent := none }) 23 tv
              | none =>
                let t := s.acquired c
                if genLe w.aq v && w.aq ≠ v then .ok ((t.jotScratch c.b off).setSync k { w with aq := v }) else .ok t) s

/-- Is an earlier CHST of a slip still to land? -/
def State.chstPending (s : State) (b i : Nat) : Bool :=
  s.net.any (fun p => p.src == b && (match p.body with
    | .chst _ _ _ _ _ _ srcSlip _ => srcSlip == i
    | .item _ => false
    | .reply _ _ _ => false
    | .ack _ _ _ _ => false
    | .advance _ _ _ _ => false
    | .freed _ _ _ _ => false
    | .arrival _ _ _ => false
    | .launch _ _ _ => false))

/-- Has a slip a PUT that is not yet acknowledged? -/
def Slip.putPending (p : Slip) : Bool :=
  p.unacked.any (fun i => match i.kind with
    | .put _ _ _ => true
    | .send _ _ => false
    | .get _ _ _ => false)

/-- FENCE (R310, R317): earlier bank operations, PUTs and CHSTs of the slip are done before it completes. -/
def execFence (sc : BitVec 3) (s : State) : Out :=
  instr (Enc.fence sc) {} []
    (fun c s =>
      if s.bankPending c.b c.i || s.chstPending c.b c.i || (s.slip c.b c.i).putPending then .stay s else .ok (s.acquired c)) s

/-! ### Arrivals -/

/-- An arrival that reaches a slip after its WINDOW.K and before the last member's, which an actor that had halted sent (R369, R422): it belongs
to the checkpoint, whose journal records the granule as the slip's WINDOW.K left it, so that a rollback sends it again. -/
def State.noteArrival (s : State) (dst off : Nat) (p : Packet) : State :=
  match (s.berth dst).holder (off / 0x8000) with
  | none => s
  | some j =>
    match (s.slip dst j).dom.bind s.dom with
    | none => s
    | some d => match d.next with
      | none => s
      | some k => if k.waiting.any (fun m => m.berth == dst && m.slip == j) then s
        else s.setDom { d with next := some { k with arrivals := k.arrivals ++ [p] } }

/-- An arrival at its granule (R310, R318): held where the granule is no defined sync word; dropped, with a stop of its
domain, where no slip holds the bank; where the sync word cannot be read, its domain rolls back (R439, log 115). -/
def State.deliverArrival (s : State) (dst src i : Nat) (a : Word) (owner : Option Owner) : State :=
  let off := bitsOf a.toNat 18 0
  if ((s.berth dst).holder (off / 0x8000)).isNone then
    s.stopFor src i 1 21 a owner
  else if (s.syncAt dst off).isNone then { s with heldArrivals := s.heldArrivals ++ [scratchKey dst off] }
  else if s.poisoned (scratchKey dst off) 16 then (s.logBad dst (scratchKey dst off) 16).rollbackFor src i 25 a owner
  else s.contribute dst off 0 1 false

/-- ARRIVAL_DELIVERY (R307, R310): packet n, an arrival, reaches its sync word; a full input queue answers BUSY (R267). -/
def execArrivalDelivery (n : Nat) (s : State) : Out :=
  match s.arriving n with
  | some p =>
    match p.body with
    | .arrival a i owner =>
      .next (s.takeItem n p (fun t => (t.noteArrival p.dst (bitsOf a.toNat 18 0) { p with busy := 0, waiting := false }).deliverArrival p.dst p.src i a owner))
    | .item _ => .next s
    | .reply _ _ _ => .next s
    | .ack _ _ _ _ => .next s
    | .advance _ _ _ _ => .next s
    | .freed _ _ _ _ => .next s
    | .chst _ _ _ _ _ _ _ _ => .next s
    | .launch _ _ _ => .next s
  | none => .next s

/-! ### FLUSHAS and DRAIN (R285 to R287, R461) -/

/-- The name of a 64-byte line of an address space (R330), and of its 64 KiB page. -/
def lineName (asid va : Nat) : Nat := asid <<< 51 + bitsOf va 56 0 / 64
def linePage (line : Nat) : Nat := line / 1024

/-- A registration entry of 32 zero bytes, which is free (R461). -/
def freeEntry : List Byte := List.replicate 32 0

/-- The pages an entry names, as page names; none of a free entry. -/
def entryPages (e : List Byte) : List Nat :=
  if fieldAt e 0 8 = 0 then [] else [linePage (lineName (fieldAt e 12 2) (fieldAt e 0 8))]

/-- The indices of the registration table whose entry may have changed: those listed in memory, and those seen. -/
def State.entryIndices (s : State) (pk : Nat) : List Nat :=
  let base := physKey pk (s.pkg pk).xregbase.toNat
  s.mem.filterMap (fun c => if decide (base ≤ c.1) && decide (c.1 < base + 32 * 4096) then some ((c.1 - base) / 32) else none) ++
    (s.pkg pk).xregSeen.map (fun e => e.1)

/-- Entry j becomes registered as it stands where it names an ASID; where it named it, and names another now, its old page is registered no
more, and the new one waits for the FLUSHAS of its own ASID. The line tags and transfer records of its pages clear. -/
def State.registerEntry (s : State) (pk asid j : Nat) : State :=
  let p := s.pkg pk
  let new := s.bytesAt (physKey pk (p.xregbase.toNat + 32 * j)) 32
  let old := SMap.get freeEntry p.xregSeen j
  if new = old || (fieldAt new 12 2 ≠ asid && fieldAt old 12 2 ≠ asid) then s
  else
    let now := if fieldAt new 12 2 = asid then new else freeEntry
    let pages := entryPages old ++ entryPages now
    s.setPkg pk { p with
      xregSeen := SMap.set freeEntry p.xregSeen j now
      lines := p.lines.filter (fun e => !(pages.contains (linePage e.1)))
      transfers := p.transfers.filter (fun t => !(pages.contains t.page)) }

/-- A slip whose BRD under way takes a mark, where it was translated under an address space (R287). -/
def Slip.markBrd (p : Slip) (asid mark : Nat) : Slip :=
  { p with brd := p.brd.map (fun w => if w.asid = some asid then { w with flushers := mark :: w.flushers } else w) }

/-- Every slip of a berth changed. -/
def Berth.mapSlips (x : Berth) (f : Slip → Slip) : Berth := { x with s0 := f x.s0, s1 := f x.s1, s2 := f x.s2, s3 := f x.s3 }

/-- FLUSHAS's effect (R286, R461): the package's cached leaves of the space go, registrations of the space take effect, and
the accesses under way that were translated under the space take its mark, for which its slip's DRAIN waits. -/
def State.flushSpace (s : State) (c : Ctx) (asid : Nat) : State :=
  let pk := pkgOf c.b
  let s1 : State := { s with
    berths := s.berths.map (fun e => if pkgOf e.1 = pk then (e.1, { e.2 with
      itlb := e.2.itlb.filter (fun t => t.asid ≠ asid)
      tlb := e.2.tlb.filter (fun t => t.asid ≠ asid) }) else e)
    tlb2 := s.tlb2.map (fun e => if e.1 / 48 = pk then (e.1, e.2.filter (fun t => t.asid ≠ asid)) else e) }
  let s2 := (s1.entryIndices pk).foldl (fun t j => t.registerEntry pk asid j) s1
  let s3 : State := { s2 with
    marks := s2.marks + 1
    berths := s2.berths.map (fun e => if pkgOf e.1 = pk then (e.1, e.2.mapSlips (Slip.markBrd · asid s2.marks)) else e)
    bankOps := s2.bankOps.map (fun o =>
      if pkgOf o.berth == pk && o.asid == some asid then { o with flushers := s2.marks :: o.flushers } else o)
    copies := s2.copies.map (fun k =>
      if pkgOf k.berth == pk && k.spaces.contains asid then { k with flushers := s2.marks :: k.flushers } else k) }
  s3.modSlip c.b c.i (fun p =>
    { p with flushed := if p.flushed.contains asid then p.flushed else asid :: p.flushed, drains := s2.marks :: p.drains })

/-- FLUSHAS (R286): invalidates every translation of an address space in the package. -/
def execFlushas (a : BitVec 5) (x : BitVec 3) (s : State) : Out :=
  let word := Enc.flushas a x
  instr word { priv := true, hnd := false } [.src .g a.toNat x.toNat]
    (fun c s =>
      let v := (s.readG c a.toNat x.toNat).toNat
      if v >>> 16 ≠ 0 then .trap s 2 (natWord word) else .ok (s.flushSpace c v)) s

/-- Is an access that a slip's FLUSHAS found under way still under way (R287): a bank operation, a copy, a BRD? Every other access lands in
the step that translates it. -/
def State.draining (s : State) (b i : Nat) : Bool :=
  let mine (l : List Nat) : Bool := (s.slip b i).drains.any l.contains
  s.bankOps.any (fun o => mine o.flushers) || s.copies.any (fun k => mine k.flushers) ||
    s.berths.any (fun e => e.2.slips.any (fun q => q.2.brd.any (fun w => mine w.flushers)))

/-- DRAIN (R287): waits for the accesses translated under the flushed spaces, then empties the set. -/
def execDrain (s : State) : Out :=
  instr Enc.drain { priv := true, hnd := false } []
    (fun c s =>
      if s.draining c.b c.i then .stay s
      else .ok (s.modSlip c.b c.i (fun p => { p with flushed := [], drains := [] }))) s

end Sys2Proof.Machine
end

