-- ==== Sys2Proof/Machine/Copies.lean ====
section
/-! DEFINITION. Copies through the lighter (spec/17 R323 to R337, spec/13 R251, spec/16 R318, R319, spec/25 R461). -/
namespace Sys2Proof.Machine
open Sys2Proof

/-! ### The request and its checks at issue (R323 to R326, R328) -/

/-- A copy request, words 0 to 3 (R323). -/
structure Request where
  w0 : Nat
  w1 : Nat
  w2 : Nat
  w3 : Nat
  deriving DecidableEq, Repr

def Request.ofWide (v : Wide) : Request :=
  { w0 := elemOf v 64 0, w1 := elemOf v 64 1, w2 := elemOf v 64 2, w3 := elemOf v 64 3 }
def Request.kind (r : Request) : Nat := bitsOf r.w2 31 28
def Request.grec (r : Request) : Nat := bitsOf r.w2 63 32
def Request.len (r : Request) : Nat := bitsOf r.w2 27 0
def Request.sync (r : Request) : Nat := bitsOf r.w3 63 48
def Request.chan (r : Request) : Nat := bitsOf r.w3 47 46
def Request.arr (r : Request) : Bool := bitOf r.w3 45
def Request.pv (r : Request) : Bool := bitOf r.w3 44
def Request.pref (r : Request) : Nat := bitsOf r.w3 18 0

/-- The bytes of the geometry record (R324, R325). -/
def Request.recLen (r : Request) : Nat := if r.kind = 0 then 0 else if r.kind = 1 then 128 else 32

/-- Do n bytes at an offset lie in the scratchpad, in banks the slip holds? -/
def State.spanHeld (s : State) (c : Ctx) (off n : Nat) : Bool :=
  decide (off + n ≤ 0x80000) &&
  (n == 0 || (upTo ((off + n - 1) / 0x8000 - off / 0x8000 + 1)).all (fun j => s.holdsBank c ((off / 0x8000 + j) * 0x8000)))

/-- Reason 1 of R328: the word it names. -/
def Request.reserved (r : Request) : Option Nat :=
  if r.kind > 2 || (r.kind == 0 && r.grec != 0) || (r.kind != 0 && (r.len != 0 || r.grec % 32 != 0)) then some 2
  else if (decide (0x8000 ≤ r.sync) && r.sync != 0xFFFF) || bitsOf r.w3 43 19 != 0 || (r.arr && r.sync == 0xFFFF) ||
    (!r.pv && r.pref != 0) || (r.pv && r.pref % 16 != 0) then some 3
  else none

/-- Reason 2: GREC or PREF outside the banks held. -/
def State.recordOutside (s : State) (c : Ctx) (r : Request) : Option Nat :=
  if !s.spanHeld c r.grec r.recLen then some 2
  else if r.pv && !s.spanHeld c r.pref 16 then some 3
  else none

/-- Reason 3: a record that R324 or R325 does not allow. -/
def badRecord (kind : Nat) (g : List Byte) : Bool :=
  let es := fieldAt g 0 4
  let eb := fieldAt g 8 1
  let rowb := fieldAt g 4 4
  if kind = 0 then false
  else if kind = 1 then fieldAt g 4 4 != 0 || !([1, 2, 4, 8, 16, 32, 64].contains es)
  else decide (fieldAt g 0 4 > 1024) || fieldAt g 9 7 != 0 || !([1, 2, 4].contains eb) || rowb % eb != 0 ||
    decide (rowb < eb) || decide (rowb > 512) || fieldAt g 24 8 % eb != 0

/-- Bytes of the mask of a bitmap record (R327). -/
def maskLen (g : List Byte) : Nat := fieldAt g 0 4 * (8 * ((fieldAt g 4 4 / fieldAt g 8 1 + 63) / 64))

/-- Reason 4: the word it names. -/
def State.badBitmap (s : State) (c : Ctx) (r : Request) (g : List Byte) : Option Nat :=
  let m := fieldAt g 16 8
  if r.kind ≠ 2 then none
  else if bitsOf r.w1 63 60 ≠ 1 then some 1
  else if bitsOf m 63 60 ≠ 1 || bitsOf m 59 19 ≠ 0 || m % 8 ≠ 0 || !s.spanHeld c (bitsOf m 18 0) (max 1 (maskLen g)) then some 4
  else none

/-- TVAL of cause 30 (R328). -/
def copyTval (id chan word reason : Nat) : Word := natWord (reason + word <<< 8 + chan <<< 30 + id <<< 32)

/-- Is the geometry record unreadable (R328 reason 12)? -/
def State.geoPoisoned (s : State) (c : Ctx) (r : Request) : Bool := r.kind != 0 && s.poisoned (scratchKey c.b r.grec) r.recLen

/-- Is the geometry record, or the producer reference, unreadable (R328 reason 12)? -/
def State.recordPoisoned (s : State) (c : Ctx) (r : Request) : Bool :=
  s.geoPoisoned c r || (r.pv && s.poisoned (scratchKey c.b r.pref) 16)

/-- The checks at issue in order of their reasons (R328): TVAL of cause 30. Those of a geometry record that cannot be read are not made, but
for the one that word 1 alone decides. -/
def State.requestFault (s : State) (c : Ctx) (r : Request) : Option Word :=
  let bad (reason word : Nat) : Option Word := some (copyTval 0 r.chan word reason)
  match r.reserved with
  | some w => bad 1 w
  | none => match s.recordOutside c r with
    | some w => bad 2 w
    | none =>
      if s.geoPoisoned c r then (if r.kind = 2 && bitsOf r.w1 63 60 ≠ 1 then bad 4 1 else none)
      else
        let g := s.bytesAt (scratchKey c.b r.grec) r.recLen
        if badRecord r.kind g then bad 3 4
        else match s.badBitmap c r g with
          | some w => bad 4 w
          | none => none

/-- The uncorrectable word that a request's records meet. -/
def State.requestBad (s : State) (c : Ctx) (r : Request) : Option Nat :=
  (if r.kind = 0 then none else s.badWord (scratchKey c.b r.grec) r.recLen).or
    (if r.pv then s.badWord (scratchKey c.b r.pref) 16 else none)

/-- The copy that a request becomes at acceptance, with its records read (R326, R333). -/
def State.copyOf (s : State) (c : Ctx) (r : Request) (id : Nat) : Copy :=
  let g := s.bytesAt (scratchKey c.b r.grec) r.recLen
  { berth := c.b
    slip := c.i
    tag := (s.slip c.b c.i).tag
    priv := s.privOf c
    src := natWord r.w0
    dst := natWord r.w1
    kind := r.kind
    len := r.len
    sync := r.sync
    chan := r.chan
    arr := r.arr
    pv := r.pv
    pref := r.pref
    id := id
    geo := g
    prefRec := if r.pv then s.bytesAt (scratchKey c.b r.pref) 16 else []
    reason := if s.recordPoisoned c r then 12 else 0
    bad := s.requestBad c r }

/-! ### Acknowledgement (R333) -/

/-- The result of acknowledging a request: not complete yet, done, or done with an error to raise. -/
inductive Ack where
  | waits
  | done (s : State)
  | error (s : State) (tval : Word)

/-- Acknowledge an outstanding request of a slip. -/
def State.acknowledge (s : State) (b i : Nat) (o : Outstanding) : Ack :=
  if !o.done then .waits
  else
    let s1 := s.modSlip b i (fun p => { p with
      outstanding := p.outstanding.filter (fun x => !(x.chan == o.chan && x.id == o.id))
      xdone := SMap.put p.xdone o.chan (BitVec.ofNat 32 o.id) })
    match o.err with
    | none => .done s1
    | some t => .error s1 t

/-- Acknowledge requests in order; the first that is not complete is waited for, the first error raised. -/
def State.acknowledgeAll (s : State) (c : Ctx) : List Outstanding → Res
  | [] => .ok s
  | o :: os => match s.acknowledge c.b c.i o with
    | .waits => .stay (s.block c (.copies o.chan o.id))
    | .error t tv => .trap t 30 tv
    | .done t => t.acknowledgeAll c os

/-! ### The instructions (R334 to R337) -/

/-- The last identifier assigned on a channel; XDONE of a channel. -/
def Slip.lastId (p : Slip) (k : Nat) : Nat := (SMap.get 0 p.xnext k).toNat
def Slip.xdoneOf (p : Slip) (k : Nat) : Nat := (SMap.get 0 p.xdone k).toNat

/-- Requests waiting in a berth's FIFO of 8 entries (R335). -/
def State.fifoLength (s : State) (b : Nat) : Nat := (s.copies.filter (fun k => k.berth == b && k.stage == .queued)).length

/-- Does an earlier copy of the slip still land on a byte of a request's records, whose reading it comes before (R332)? -/
def State.recordBehind (s : State) (c : Ctx) (r : Request) : Bool :=
  r.reserved.isNone && (s.recordOutside c r).isNone && s.copies.any (fun x => x.berth == c.b && x.slip == c.i &&
    ((r.kind != 0 && s.stillLands x (scratchKey c.b r.grec) r.recLen) || (r.pv && s.stillLands x (scratchKey c.b r.pref) 16)))

/-- Accept a request (R326, R333, R335): the record is read, an identifier assigned. A record that cannot be read rolls the
domain back (R328 reason 12). -/
def State.accept (s : State) (c : Ctx) (d : Nat) (r : Request) : Res :=
  if s.fifoLength c.b ≥ 8 then .stay (s.block c .fifo)
  else
    let id := ((s.slip c.b c.i).lastId r.chan + 1) % (1 <<< 32)
    let k := s.copyOf c r id
    let s1 := s.modSlip c.b c.i (fun p => { p with
      xnext := SMap.put p.xnext r.chan (BitVec.ofNat 32 id)
      outstanding := p.outstanding ++ [{ chan := r.chan, id := id }] })
    .ok ({ s1 with copies := s1.copies ++ [k] }.writeG c d (natWord id))

/-- XFER and XFERQ (R335): the records are read behind the landings of the slip's earlier copies (R332). -/
def transfer (word d a : Nat) (ask : Bool) (s : State) : Out :=
  instr word { hnd := false } [.src .w a 0, .dst .g d]
    (fun c s =>
      let r := Request.ofWide (s.readW c a 0)
      if s.recordBehind c r then .stay s else
      match s.requestFault c r with
      | some tv => .trap s 30 tv
      | none =>
        let outs := (s.slip c.b c.i).outstanding
        if outs.length ≥ 8 then
          if ask then .ok (s.writeG c d (BitVec.allOnes 64))
          else match s.acknowledgeAll c (outs.take 1) with
            | .ok t => t.accept c d r
            | e => e
        else s.accept c d r) s

/-- XFER (R335): requests a copy. -/
def execXfer (d : BitVec 5) (a : BitVec 5) (s : State) : Out := transfer (Enc.xfer d a) d.toNat a.toNat false s

/-- XFERQ (R335): requests a copy, or answers all ones with 8 outstanding. -/
def execXferq (d : BitVec 5) (a : BitVec 5) (s : State) : Out := transfer (Enc.xferq d a) d.toNat a.toNat true s

/-- XWAIT (R336): acknowledges the requests of a channel up to an identifier. -/
def execXwait (a : BitVec 5) (k : BitVec 2) (s : State) : Out :=
  instr (Enc.xwait a k) { hnd := false } [.src .g a.toNat 0]
    (fun c s =>
      let t := bitsOf (s.readG c a.toNat 0).toNat 31 0
      let p := s.slip c.b c.i
      let ch := k.toNat
      if !genLe t (p.lastId ch) then .trap s 30 (copyTval t ch 0 13)
      else if genLe t (p.xdoneOf ch) then .ok (s.acquired c)
      else (s.acquired c).acknowledgeAll c (p.outstanding.filter (fun o => o.chan == ch && genLe o.id t))) s

/-- XSTAT (R337): the last identifier and the outstanding count. -/
def execXstat (d : BitVec 5) (k : BitVec 2) (s : State) : Out :=
  instr (Enc.xstat d k) {} [.dst .g d.toNat]
    (fun c s =>
      let p := s.slip c.b c.i
      .ok (s.writeG c d.toNat (natWord (p.lastId k.toNat + p.outstanding.length <<< 32)))) s

/-! ### Elements (R327, R328) -/

/-- Where one side of an element lies: scratchpad, memory, a device register; a failure's reason; held at a migrating page;
a page that is not resident. -/
inductive Side where
  | scratch (b off : Nat)
  | mem (key : Nat) (cls : Class) (line : Nat)
  | device (pa : Nat)
  | nothing
  | fail (reason : Nat)
  | held
  | absent (vpage : Nat)
  deriving DecidableEq, Repr

def Side.reason : Side → Nat
  | .fail r => r
  | _ => 0
def Side.waits : Side → Bool
  | .held => true
  | .absent _ => true
  | _ => false

/-- The GLOBAL side of an element (R270, R279 to R281, R291, R293). -/
def State.globalSide (s : State) (k : Copy) (a : Nat) (out : Bool) : Side :=
  let va := bitsOf a 56 0
  let p := s.slip k.berth k.slip
  let asid := (s.berth k.berth).asid
  if bitsOf a 59 57 ≠ 0 then .fail 5
  else if a % k.esize ≠ 0 then .fail 6
  else match s.translate k.berth false va with
    | .absent => .absent (va / 65536)
    | .malformed => .fail 7
    | .leaf e base _ =>
      let cls := classOf e
      if !classAdmits e (if out then .copyOut else .copyIn) (p.owns (ownerOf e)) (isControl k.berth) then .fail 7
      else if bitOf e 6 then .held
      else if cls = .hostio then .mem (hostKey (leafAddr e base va)) cls 0
      else .mem (physKey (pkgOf k.berth) (leafAddr e base va)) cls (lineName asid va)

/-- Does a slip of a berth reach a device address: no register that only control berths reach, unless it is one (R447, R458, R488)? -/
def reachesDevice (b pa : Nat) : Bool := isControl b || (match devReg pa with
  | some r => r.anyBerth
  | none => true)

/-- The SYSTEM side (R276). -/
def State.systemSide (s : State) (k : Copy) (a : Nat) : Side :=
  let pa := bitsOf a 51 0
  if !k.priv || bitsOf a 59 52 ≠ 0 || !(s.inMemory (pkgOf k.berth) pa 1 || (isDevice pa && reachesDevice k.berth pa)) then .fail 5
  else if a % k.esize ≠ 0 then .fail 6
  else if isDevice pa then .device pa
  else .mem (physKey (pkgOf k.berth) pa) .none 0

/-- The REMOTE side of a destination (R271, R318, R328). -/
def State.remoteSide (s : State) (k : Copy) (a : Nat) : Side :=
  let b := bitsOf a 39 27
  let p := bitsOf a 47 40
  let off := bitsOf a 18 0
  if bitsOf a 59 48 ≠ 0 || bitsOf a 26 19 ≠ 0 then .fail 5
  else if a % k.esize ≠ 0 then .fail 6
  else if b ≥ 4608 || !s.domain.contains p || ((s.berth (p * 8192 + b)).holder (off / 0x8000)).isNone then .fail 7
  else .scratch (p * 8192 + b) off

/-- One side of an element (R269, R328). A LOCAL address with a one in bits 59:19 gives reason 5 (log 37). -/
def State.copySide (s : State) (k : Copy) (a : Nat) (out : Bool) : Side :=
  match bitsOf a 63 60 with
  | 0 => s.globalSide k a out
  | 1 =>
    if bitsOf a 59 19 ≠ 0 then .fail 5
    else if a % k.esize ≠ 0 then .fail 6
    else if !bitOf (s.slip k.berth k.slip).banks (bitsOf a 18 0 / 0x8000) then .fail 7
    else .scratch k.berth (bitsOf a 18 0)
  | 2 => if out then s.remoteSide k a else .fail 5
  | 15 => s.systemSide k a
  | _ => .fail 5

/-- Does the issuing slip's producer window cover the 32-byte ring granule of an offset of a berth (R251)? -/
def Slip.windowCovers (p : Slip) (b : Nat) (x : Chan) (off : Nat) : Bool :=
  p.chans.any (fun e =>
    let y := e.2
    let n := y.cap * y.slotb
    decide (y.role = .producer) && y.peer == b && y.base == x.base &&
      decide (((off - y.base) / 32 * 32 + n - y.wi * y.slotb % n) % n < y.granted * y.slotb))

/-- Reasons 8 and 9 for a scratchpad landing (R328). -/
def State.landReason (s : State) (k : Copy) (b off : Nat) : Nat :=
  let rings := (s.berth b).ringsIn off k.esize
  if rings.any (fun r => (r.2.2.touched off k.esize).any (fun o => !(s.slip k.berth k.slip).windowCovers b r.2.2 o)) then 8
  else if k.sync = 0xFFFF && (upTo k.esize).any (fun j => ((s.berth b).ringsIn (off + j) 1).isEmpty) then 9
  else 0

/-- The registration entry of a page of an address space, as the last FLUSHAS left it (R461). -/
def State.registration (s : State) (pk asid line : Nat) : Option (List Byte) :=
  ((s.pkg pk).xregSeen.find? (fun e => fieldAt e.2 12 2 == asid && (entryPages e.2).contains (linePage line))).map (fun e => e.2)

/-- The named transfer of a copy-in (R330). -/
def Copy.names (k : Copy) : LineTag :=
  { actor := fieldAt k.prefRec 0 4, chan := fieldAt k.prefRec 8 1 % 4, id := fieldAt k.prefRec 4 4 }

/-- Where an actor of the issuer's region, or of its address space in the package, was placed: berth, slip, tag; and its tag now. -/
def State.actorPlace (s : State) (k : Copy) (actor : Nat) : Option (Nat × Nat × Nat) :=
  let p := s.slip k.berth k.slip
  let region : Option Region := match p.act with
    | none => none
    | some a => (s.pkg a.pkg).regions.find? (fun r => r.block == a.region)
  match (region.bind (fun r => r.actors.find? (fun m => m.actor == actor))) with
  | some m => some (m.berth, m.slip, m.tag)
  | none =>
    firstSome (fun (e : Nat × Berth) =>
      if pkgOf e.1 == pkgOf k.berth && e.2.asid == (s.berth k.berth).asid then
        firstSome (fun (q : Nat × Slip) => if q.2.bound && q.2.actor == actor then some (e.1, q.1, q.2.tag) else none) e.2.slips
      else none) s.berths

/-- Has a placed actor's transfer completed (R330)? A halted actor's has. -/
def State.transferDone (s : State) (b i tag : Nat) (t : LineTag) : Bool :=
  let p := s.slip b i
  !p.bound || p.tag != tag ||
    (genLe t.id (p.lastId t.chan) && !(s.copies.any (fun x => x.berth == b && x.slip == i && x.chan == t.chan && x.id == t.id)))

/-- Has a transfer that a peer domain sent to a page come in whole (R462): its record, and every line that it counts? -/
def Transfer.whole (x : Transfer) : Bool := match x.count with
  | some n => decide (x.seen.length ≥ n)
  | none => false

/-- Has a named transfer of an actor of this domain completed (R330)? -/
def State.localDone (s : State) (k : Copy) : Bool :=
  match s.actorPlace k k.names.actor with
  | some (b, i, tag) => s.transferDone b i tag k.names
  | none => (s.pkg (pkgOf k.berth)).gone.contains ((s.berth k.berth).asid, k.names.actor)

/-- Has a line of a page the tag that a copy-in names? -/
def Pkg.tagOn (p : Pkg) (page : Nat) (t : LineTag) : Bool := p.lines.any (fun (e : Nat × LineTag) => linePage e.1 == page && decide (e.2 = t))

/-- Has a named transfer completed, for a copy-in of a slip of a domain, its lines released by the producer's domain (R330, R426, R462)? One of
which a peer has sent lines or a record is whole when they have come; else it is one of this domain, which on a page with a peer has left its
lines there. -/
def State.transferReady (s : State) (k : Copy) (line : Nat) : Bool :=
  let t := k.names
  let p := s.pkg (pkgOf k.berth)
  let own := (s.slip k.berth k.slip).dom
  let page := linePage line
  let far : Bool := match s.registration (pkgOf k.berth) (s.berth k.berth).asid line with
    | some e => fieldAt e 14 2 != 0xFFFF
    | none => false
  let sent := p.transfers.filter (fun x => x.page == page && decide (x.tag = t))
  let done : Bool := if sent.isEmpty then s.localDone k && (!far || p.tagOn page t) else sent.any Transfer.whole
  done && !(p.uncovered.any (fun u => u.tag == t && u.asid == (s.berth k.berth).asid && decide (some u.dom ≠ own)))

/-- The EXCHANGE line that element i of a copy reads, as its address translates now. -/
def State.sourceLine (s : State) (k : Copy) (i : Nat) : Option Nat :=
  match (s.srcOf k i).map (fun a => s.copySide k a.toNat false) with
  | some (.mem _ cls line) => if cls = .exchange then some line else none
  | _ => none

/-- Does a copy-in wait to start: has the transfer that it names not completed, for an EXCHANGE page that it reads (R330)? -/
def State.awaitsTransfer (s : State) (k : Copy) : Bool :=
  k.pv && k.pos == 0 && k.buf.isNone && (upTo k.total).any (fun i => (s.sourceLine k i).any (fun l => !s.transferReady k l))

/-- Reason 10 for an EXCHANGE landing, 7 for a page with no registration (R330, R461). -/
def State.exchangeOut (s : State) (k : Copy) (line : Nat) : Nat :=
  let pk := pkgOf k.berth
  match s.registration pk (s.berth k.berth).asid line with
  | none => 7
  | some e =>
    if fieldAt e 8 4 ≠ (s.slip k.berth k.slip).actor || ((SMap.get? (s.pkg pk).lines line).isSome && !k.lines.contains line) then 10 else 0

/-- What an EXCHANGE read meets (R330): a wait for the transfer that it names, else a reason. -/
def State.exchangeIn (s : State) (k : Copy) (line : Nat) : Nat × Bool :=
  let pk := pkgOf k.berth
  if k.pv && !s.transferReady k line then (0, true)
  else if (s.registration pk (s.berth k.berth).asid line).isNone then (7, false)
  else if !k.pv then (11, false)
  else if SMap.get? (s.pkg pk).lines line = some k.names then (0, false) else (11, false)

/-- The smallest of the reasons that are not 0. -/
def leastReason (rs : List Nat) : Nat := rs.foldl (fun m r => if m = 0 then r else if r = 0 then m else min m r) 0

/-- Does a destination stay where DST names (R327)? -/
def Copy.strays (k : Copy) (d : Nat) : Bool :=
  bitsOf d 63 60 != bitsOf k.dst.toNat 63 60 || (bitsOf d 63 60 == 2 && bitsOf d 47 27 != bitsOf k.dst.toNat 47 27)

/-- Must an element wait for an earlier copy of the slip (R332)? -/
def State.copyBehind (s : State) (n : Nat) (k : Copy) (src : Option Word) (dst : Word) : Bool :=
  (s.copies.take n).any (fun x => x.berth == k.berth && x.slip == k.slip &&
    let to_ := s.byteKey k.berth dst.toNat
    ((k.buf.isNone && (match src with
      | some a => s.stillLands x (s.byteKey k.berth a.toNat) k.esize
      | none => false)) || (k.buf.isNone && k.kind == 2 && s.stillLands x (k.maskKey k.pos) 1) ||
     s.stillLands x to_ k.esize || s.stillReads x to_ k.esize))

/-- The marks of a landing on one granule outside the rings (R308, R319, R331). -/
def State.landMark (s : State) (k : Copy) (b g : Nat) : State :=
  if !((s.berth b).ringsIn g 32).isEmpty || k.landed.contains (scratchKey b g) then s
  else s.landGranule b (scratchKey b (16 * k.sync)) g

/-- A scratchpad landing (R308, R319). -/
def State.landScratch (s : State) (k : Copy) (b off : Nat) (bs : List Byte) : State :=
  (granulesOf off bs.length).foldl (fun t g => t.landMark k b g) (s.storeScratch b off bs)

/-- The tag of a copy's landings on EXCHANGE lines (R330). -/
def State.tagOf (s : State) (k : Copy) : LineTag := { actor := (s.slip k.berth k.slip).actor, chan := k.chan, id := k.id }

/-- A landing in memory: OWNED parts and line tags are journaled (R424), the line takes its tag (R330). A later racing read of the issuer does
not return what it took before it (R312, R332). -/
def State.landMem (s0 : State) (k : Copy) (key : Nat) (cls : Class) (line : Nat) (bs : List Byte) : State :=
  let pk := pkgOf k.berth
  let s := s0.storedOver k.berth k.slip key bs.length
  let s1 := match cls with
    | .owned => s.jot k.berth k.slip (.page (key / 65536 * 65536)) (some (.bytes key bs.length))
    | .exchange =>
      if k.lines.contains line then s
      else (s.jot k.berth k.slip (.line (pk <<< 80 + line))).modPkg pk (fun p => { p with lines := SMap.put p.lines line (s.tagOf k) })
    | _ => s
  (s1.heal key bs.length).poke key bs

/-- Copy n with its state changed. -/
def State.setCopy (s : State) (n : Nat) (k : Copy) : State := { s with copies := setAt s.copies n k }

/-- The element fails (R328): nothing more lands. Reason 12 rolls the domain back (R427). -/
def State.failCopy (s : State) (n : Nat) (k : Copy) (reason : Nat) : State :=
  let s1 := s.setCopy n { k with reason := reason, buf := none, waitPage := none }
  if reason = 12 then s1.rollbackFault k.berth k.slip 30 (copyTval k.id k.chan 0 12) else s1

/-- An element waits for a page (R291): the walker posts a notice. -/
def State.copyAbsent (s : State) (n : Nat) (k : Copy) (v : Nat) : State :=
  (s.setCopy n { k with waitPage := some (pageName (s.berth k.berth).asid v) }).noticeFor k.berth v none

/-- Does a landing change something that a checkpoint being taken holds (R422)? The slip's own scratchpad and OWNED pages go on. -/
def State.landingHeld (s : State) (k : Copy) (side : Side) : Bool :=
  s.heldByCheckpoint k.berth k.slip && (match side with
    | .scratch b off => !(b == k.berth && (s.berth b).holder (off / 0x8000) == some k.slip)
    | .mem _ cls _ => decide (cls ≠ .owned)
    | .device _ => true
    | .nothing => false
    | .fail _ => false
    | .held => false
    | .absent _ => false)

/-- Is the bytes' code word uncorrectable (R328 reason 12)? Reads see any poison, landings a word they write in part (R439). -/
def State.sidePoison (s : State) (side : Side) (n : Nat) (out : Bool) : Bool :=
  let bad (k : Nat) : Bool := if out then s.partPoisoned k n else s.poisoned k n
  match side with
  | .scratch b off => bad (scratchKey b off)
  | .mem k _ _ => bad k
  | .device _ => false
  | .nothing => false
  | .fail _ => false
  | .held => false
  | .absent _ => false

/-- Is the sync word under which a scratchpad landing counts uncorrectable (R439)? -/
def State.syncPoison (s : State) (k : Copy) (dst : Side) : Bool :=
  match dst with
  | .scratch b _ => k.sync != 0xFFFF && s.poisoned (scratchKey b (16 * k.sync)) 16
  | .mem _ _ _ => false
  | .device _ => false
  | .nothing => false
  | .fail _ => false
  | .held => false
  | .absent _ => false

/-- Is the mask bit of the next element of a bitmap copy uncorrectable? -/
def State.maskPoison (s : State) (k : Copy) : Bool := k.kind == 2 && k.buf.isNone && s.poisoned (k.maskKey k.pos) 1

/-- The uncorrectable word of an element's sides. -/
def State.sidesBad (s : State) (k : Copy) (src dst : Side) : Nat :=
  let key (side : Side) : Nat := match side with
    | .scratch b off => scratchKey b off
    | .mem j _ _ => j
    | _ => 0
  let sync : Nat := match dst with
    | .scratch b _ => scratchKey b (16 * k.sync)
    | _ => 0
  let at_ := if s.sidePoison src k.esize false then key src else if s.syncPoison k dst then sync else key dst
  (s.badWord at_ k.esize).getD at_

/-- A word of an element's sides is uncorrectable: the issuer's berth records it (R440), and the domain rolls back. -/
def State.failSides (s : State) (n : Nat) (k : Copy) (src dst : Side) : State :=
  let w := if s.maskPoison k then k.maskKey k.pos else s.sidesBad k src dst
  (s.modBerth k.berth (fun x => x.logKey w)).failCopy n { k with bad := some w } 12

/-- What an element reads. A privileged copy's source on the SYSTEM path or in host memory may race, byte by byte, as its slip's loads do (R313).
-/
def State.readSide (s : State) (k : Copy) (side : Side) : List Byte :=
  let n := k.esize
  match side with
  | .scratch b off => s.bytesAt (scratchKey b off) n
  | .mem key cls _ => if k.priv && (decide (cls = .none) || decide (key ≥ 1 <<< 64)) then s.racingBytes k.berth k.slip key n else s.bytesAt key n
  | .device pa => match (devReg pa).bind (fun r => if n = 8 then s.devRead (pkgOf k.berth) r else none) with
    | some v => leBytes n v
    | none => leBytes n (Config.freeWide s.fresh).toNat
  | .nothing => List.replicate n 0
  | .fail _ => []
  | .held => []
  | .absent _ => []

/-- Once an element has read its source, the bytes that its racing read took are used up (R313). -/
def State.readDone (s : State) (k : Copy) (side : Side) : State :=
  match side with
  | .mem key cls _ => if k.priv && (decide (cls = .none) || decide (key ≥ 1 <<< 64)) then s.storedOver k.berth k.slip key k.esize else s
  | .device _ => s.freshened
  | .scratch _ _ => s
  | .nothing => s
  | .fail _ => s
  | .held => s
  | .absent _ => s

/-- The lines and granules a copy has landed on, with one more landing. -/
def Copy.noteLanding (k : Copy) (side : Side) : Copy :=
  match side with
  | .scratch b off =>
    { k with landed := k.landed ++ ((granulesOf off k.esize).map (scratchKey b)).filter (fun g => !k.landed.contains g) }
  | .mem _ cls line => if cls = .exchange && !k.lines.contains line then { k with lines := k.lines ++ [line] } else k
  | .device _ => k
  | .nothing => k
  | .fail _ => k
  | .held => k
  | .absent _ => k

/-- Element k.pos lands: the bytes, the marks, the next element. A device register that waits holds the walk. -/
def State.landElement (s : State) (n : Nat) (k : Copy) (side : Side) (bs : List Byte) : State :=
  let done : Copy := { k.noteLanding side with pos := k.pos + 1, buf := none, waitPage := none }
  match side with
  | .scratch b off => (s.landScratch k b off bs).setCopy n done
  | .mem key cls line => (s.landMem k key cls line bs).setCopy n done
  | .device pa =>
    match (devReg pa).bind (fun r => if bs.length = 8 then some r else none) with
    | none => s.setCopy n done
    | some r => match s.devWrite (pkgOf k.berth) r (leNat bs) with
      | some t => t.setCopy n done
      | none => s
  | .nothing => s.setCopy n done
  | .fail _ => s
  | .held => s
  | .absent _ => s

/-- Must a landing through the network, at a REMOTE destination, wait for what its pair of berths has sent before it (R271, R455)? -/
def State.landingBehind (s : State) (k : Copy) (side : Side) : Bool :=
  match side with
  | .scratch b _ => bitsOf k.dst.toNat 63 60 == 2 && s.pairBusy k.berth b
  | .mem _ _ _ => false
  | .device _ => false
  | .nothing => false
  | .fail _ => false
  | .held => false
  | .absent _ => false

/-- The flit in which a landing leaves the package (R454): 64 bytes of a copy go in one. -/
def State.landFlit (s : State) (k : Copy) (side : Side) : State :=
  match side with
  | .scratch b _ => s.linkFlit k.berth b
  | .mem _ _ _ => s
  | .device _ => s
  | .nothing => s
  | .fail _ => s
  | .held => s
  | .absent _ => s

/-- Does a scratchpad landing name a sync word that is not yet defined (R318)? -/
def State.landingUndefined (s : State) (k : Copy) (side : Side) : Bool :=
  match side with
  | .scratch b _ => k.sync != 0xFFFF && (s.syncAt b (16 * k.sync)).isNone
  | .mem _ _ _ => false
  | .device _ => false
  | .nothing => false
  | .fail _ => false
  | .held => false
  | .absent _ => false

/-- Is the bank of the sync word under which a copy lands and counts one that GRANT.BANKS holds (R36): of the issuer, or, at a REMOTE
destination, of a slip there? -/
def State.syncHeld (s : State) (k : Copy) (b : Nat) : Bool :=
  if bitsOf k.dst.toNat 63 60 = 2 then ((s.berth b).holder (16 * k.sync / 0x8000)).isSome
  else bitOf (s.slip k.berth k.slip).banks (16 * k.sync / 0x8000)

/-- The reasons that an element's sides give before any wait is over, and after (R328); a scratchpad landing touches the bank of its sync word too
(R36, log 121). -/
def State.elementReason (s : State) (k : Copy) (src dst : Side) (d : Nat) (inn : Nat) : Nat :=
  leastReason [src.reason, dst.reason,
    match dst with
    | .scratch b off => if k.sync != 0xFFFF && !s.syncHeld k b then 7 else s.landReason k b off
    | .mem _ cls line => if cls = .exchange then s.exchangeOut k line else 0
    | .device _ => 0
    | .nothing => 0
    | .fail _ => 0
    | .held => 0
    | .absent _ => 0,
    inn,
    if s.maskPoison k || (k.buf.isNone && s.sidePoison src k.esize false) || s.sidePoison dst k.esize true || s.syncPoison k dst then 12 else 0,
    if k.strays d then 15 else 0]

/-- A copy as its next element is read: the mask bits passed (R327), and the address space under which a GLOBAL side was translated (R287). -/
def Copy.translated (k : Copy) (asid : Nat) (a : Option Nat) (d : Nat) : Copy :=
  let global : Bool := bitsOf d 63 60 == 0 || a.any (fun x => bitsOf x 63 60 == 0)
  { k with
    ones := if k.kind = 2 && k.buf.isNone && a.isSome then k.ones + 1 else k.ones
    spaces := if global && !k.spaces.contains asid then asid :: k.spaces else k.spaces }

/-- One element of copy n: it waits, fails, or lands (R327 to R332). -/
def State.copyElement (s : State) (n : Nat) (k : Copy) : Out :=
  let a := s.srcOf k k.pos
  let d := k.dstOf k.pos
  let src : Side := if k.buf.isSome then .nothing else match a with
    | none => .nothing
    | some x => s.copySide k x.toNat false
  let dst := s.copySide k d.toNat true
  let early := leastReason ([src.reason, dst.reason].filter (fun r => r == 5 || r == 6))
  let inn : Nat × Bool := match src with
    | .mem _ cls line => if cls = .exchange then s.exchangeIn k line else (0, false)
    | _ => (0, false)
  if s.copyBehind n k a d || s.awaitsTransfer k || inn.2 then .next s
  else if early ≠ 0 then .next (s.failCopy n k early)
  else match src with
    | .absent v => .next (s.copyAbsent n k v)
    | .held => .next s
    | _ => match dst with
      | .absent v => .next (s.copyAbsent n k v)
      | .held => .next s
      | _ =>
        let r := s.elementReason k src dst d.toNat inn.1
        if r ≠ 0 then .next (if r = 12 then s.failSides n k src dst else s.failCopy n k r)
        else
          let bs := k.buf.getD (s.readSide k src)
          let s1 := s.readDone k src
          let k1 := k.translated (s.berth k.berth).asid (a.map BitVec.toNat) d.toNat
          if s.landingHeld k dst || s.landingUndefined k dst || s.landingBehind k dst then .next (s1.setCopy n { k1 with buf := some bs })
          else .next ((s1.landFlit k dst).landElement n k1 dst bs)

/-! ### Events -/

/-- COPY_START (R326, R327): the lighter takes the oldest request of a berth's FIFO. A record it could not read is an
uncorrectable error, which the berth records (R328 reason 12, R440). -/
def execCopyStart (b : Nat) (s : State) : Out :=
  match firstSome (fun (j, k) => if k.berth == b && k.stage == .queued then some (j, k) else none)
    ((upTo s.copies.length).zip s.copies) with
  | none => .next s
  | some (j, k) =>
    let k1 : Copy := { k with stage := .active }
    .next (if k.reason = 12 then (s.modBerth b (fun x => x.logKey (k.bad.getD 0))).failCopy j k1 12 else s.setCopy j k1)

/-- COPY_LANDING (R308, R327): the next element of copy c is checked and lands. -/
def execCopyLanding (c : Nat) (s : State) : Out :=
  match s.copies[c]? with
  | none => .next s
  | some k => if k.stage = .active && k.reason = 0 && k.pos < k.total then s.copyElement c k else .next s

/-- The berth whose scratchpad holds a copy's sync word (R323), where it is one. -/
def State.syncBerth (s : State) (k : Copy) : Option Nat :=
  if bitsOf k.dst.toNat 63 60 = 2 then s.remoteBerth (k.dst.toNat &&& 0xFFFFFFFFF8000000)
  else some k.berth

/-- Where a copy contributes at completion: nowhere, or a berth; none while it waits (R318, R329, R331, R422). -/
def State.contribution (s : State) (k : Copy) : Option (Option Nat) :=
  if k.sync = 0xFFFF || (k.bytes == 0 && !k.arr && k.reason == 0) then some none
  else match s.syncBerth k with
    | none => some none
    | some b =>
      if !s.syncHeld k b then some none
      else if (s.syncAt b (16 * k.sync)).isNone then none
      else if s.heldByCheckpoint k.berth k.slip && (s.berth b).holder (16 * k.sync / 0x8000) != some k.slip then none
      else some (some b)

/-- Does a copy, which lands in no scratchpad, count at a sync word in a bank that GRANT.BANKS does not hold (R36, log 121)? -/
def State.syncOutside (s : State) (k : Copy) : Bool :=
  k.sync != 0xFFFF && k.reason == 0 && (k.bytes != 0 || k.arr) && (s.syncBerth k).any (fun b => !s.syncHeld k b)

/-- Copy n retires (R331): its request is complete, its lines wait for a commit of its domain (R426). -/
def State.retireCopy (s : State) (n : Nat) (k : Copy) : State :=
  let err := if k.reason = 0 then none else some (copyTval k.id k.chan 0 k.reason)
  let s0 : State := { s with copies := dropAt s.copies n }
  let s1 := s0.modSlip k.berth k.slip (fun p =>
    { p with outstanding := p.outstanding.map (fun o => if o.chan == k.chan && o.id == k.id then { o with done := true, err := err } else o) })
  match k.lines, (s.slip k.berth k.slip).owner with
  | _ :: _, some o => s1.modPkg (pkgOf k.berth) (fun p =>
      { p with uncovered := p.uncovered ++ [{ dom := o.dom, region := o.region, asid := (s.berth k.berth).asid,
                                              root := (s.berth k.berth).root, tag := s.tagOf k, lines := k.lines }] })
  | _, _ => s1

/-- COPY_COMPLETE (R329, R331): copy c has landed all it lands; it contributes to its sync word and retires its identifier. A sync word that
cannot be read is reason 12, after which the copy waits for the rollback (R427, R439, log 115). One in a bank not held is not touched, and the
issuer takes cause 12 with its LOCAL address (R36, log 121). -/
def execCopyComplete (c : Nat) (s : State) : Out :=
  match s.copies[c]? with
  | none => .next s
  | some k =>
    if k.stage = .active && k.buf.isNone && (k.reason ≠ 0 || k.pos ≥ k.total) then
      match s.contribution k with
      | none => .next s
      | some none =>
        .next (if s.syncOutside k then (s.retireCopy c k).lateRaise k.berth k.slip k.tag 12 (localAddr (16 * k.sync)) else s.retireCopy c k)
      | some (some b) =>
        let w := scratchKey b (16 * k.sync)
        if s.poisoned w 16 then
          .next (if k.reason = 12 then s else (s.logBad k.berth w 16).failCopy c { k with bad := some ((s.badWord w 16).getD w) } 12)
        else .next ((s.contribute b (16 * k.sync) k.bytes (b2n k.arr) (k.reason ≠ 0)).retireCopy c k)
    else .next s

end Sys2Proof.Machine
end

