-- ==== Sys2Proof/Machine/Crane.lean ====
section
/-! DEFINITION. The crane (spec/18 R338 to R367, spec/03 R85 to R87). -/
namespace Sys2Proof.Machine
open Sys2Proof

/-! ### A pass (R85 to R87, R348) -/

/-- The mask bits of a column record, one for each dense position. -/
def colMask (g : PlaneTag) (v : Nat) : Nat := v >>> (8 * rowBytes g.fmt (32 * g.kg / spFactor g.sp))

/-- The stored position of a dense position of group gr, none where the mask omits it; base counts the stored elements
before the group. -/
def storedPos (g : PlaneTag) (mask gr i : Nat) : Option Nat :=
  if g.sp = 0 then some (32 * gr + i)
  else if bitOf mask (32 * gr + i) then some (32 * gr / spFactor g.sp + (Alu.ones i (mask >>> (32 * gr)))) else none

/-- One group's contribution: G (R86), its events; for INT8 the exact integer P. -/
def groupValue (pair : Nat) (g : PlaneTag) (k row col gr : Nat) : Val × Nat × Ev :=
  let ta := pairAct pair
  let mask := colMask g col
  let kst := 32 * g.kg / spFactor g.sp
  let ps := (upTo 32).filterMap (fun i => (storedPos g mask gr i).map (fun j => (32 * gr + i, j)))
  let prods := ps.map (fun x => vmul (elemVal ta row x.1) (elemVal g.fmt col x.2))
  let p := prods.foldl vadd (Val.zero false)
  let sa := scaleVal ta k row gr
  let sb := scaleVal g.fmt kst col (32 * gr / spFactor g.sp / 32)
  let nanScale := sa.isNaN || sb.isNaN || ps.any (fun x => microNan ta row x.1 || microNan g.fmt col x.2)
  let sum := if p.isZero then Val.zero false else p
  let r := roundNE .fp32 (vmul sum (vmul sa sb))
  (p, (if sum.isZero && !nanScale then 0 else r.1), r.2.add (if nanScale then Ev.oneNScale else {}))

/-- The signed integer of a finite exact integer value. -/
def Val.toIntExact (v : Val) : Int :=
  match v with
  | .fin s n e _ => signedAt s n e 0
  | .nan => 0
  | .inf _ => 0

/-- A tile element after the groups from gr on, n of them, with its events. -/
def passElem (pair : Nat) (g : PlaneTag) (k row col : Nat) : Nat → Nat → Nat → Ev → Nat × Ev
  | 0, _, t, e => (t, e)
  | n + 1, gr, t, e =>
    let v := groupValue pair g k row col gr
    if pair = 2 then
      let r := satS (sext t 32 + v.1.toIntExact) 32
      passElem pair g k row col n (gr + 1) (wrap 32 r.1) (e.add { sat := b2n r.2 })
    else
      let r := fpAdd .fp32 t v.2.1
      passElem pair g k row col n (gr + 1) r.1 ((e.add v.2.2).add r.2)

/-- The tile and the events of a CMMA (R356, R358): rows and cols as little-endian numbers. -/
def passTile (pair : Nat) (g : PlaneTag) (m n k : Nat) (row col : Nat → Nat) (t : SMap Nat) : SMap Nat × Ev :=
  (upTo m).foldl (fun acc r =>
    (upTo n).foldl (fun acc2 c =>
      let x := passElem pair g k (row r) (col c) (k / 32) 0 (SMap.get 0 acc2.1 (32 * r + c)) {}
      (SMap.set 0 acc2.1 (32 * r + c) x.1, acc2.2.add x.2.once)) acc) (t, {})

/-! ### The mirror, tiles and queue of a berth (R338 to R341) -/

def State.modCrane (s : State) (b : Nat) (f : Crane → Crane) : State := s.modBerth b (fun x => { x with crane := f x.crane })
def Crane.tile (k : Crane) (z : Nat) : Tile := SMap.get {} k.tiles z
def Crane.setTile (k : Crane) (z : Nat) (t : Tile) : Crane := { k with tiles := SMap.put k.tiles z t }
/-- The mirror's tags of the active plane. -/
def Crane.activeTag (k : Crane) : Option PlaneTag := if k.mactive then k.m1 else k.m0
def Crane.setTag (k : Crane) (active : Bool) (g : PlaneTag) : Crane :=
  if active = k.mactive then { k with m1 := some g } else { k with m0 := some g }
/-- The crane's planes. -/
def Crane.plane (k : Crane) (active : Bool) : Plane := if active = k.active then k.p1 else k.p0
def Crane.setPlane (k : Crane) (active : Bool) (p : Plane) : Crane :=
  if active = k.active then { k with p1 := p } else { k with p0 := p }

/-- The crane as binding and HALT leave it (R341). -/
def Crane.fresh : Crane := {}

/-- Is every command of the berth complete? -/
def Crane.idle (k : Crane) : Bool := k.queue.isEmpty && k.running.isNone

/-- Enqueue a command (R340, R351): it takes the next number; with a full queue the slip waits, RUNNING. -/
def State.craneEnqueue (s : State) (c : Ctx) (op : CraneOp) (k : Crane → Nat → Crane) : Res :=
  let x := (s.berth c.b).crane
  if x.queue.length ≥ 16 then .stay s
  else
    let n := (x.seq + 1) % (1 <<< 32)
    let y := k { x with seq := n, queue := x.queue ++ [{ seq := n, slip := c.i, op := op, counts := !(s.slip c.b c.i).intrap }] } n
    .ok (s.modCrane c.b (fun _ => y))

/-! ### Issue checks (R351, R352) -/

/-- TVAL of cause 14 (R352). -/
def shapeTval (reason shape pair off : Nat) : Word := natWord (reason + shape <<< 8 + pair <<< 16 + off <<< 32)

/-- Steps 3 to 7 over a span given as rows, off the offset of its first byte: cause and TVAL. addr is the address that
causes 9 and 8 report. -/
def State.spanFault (s : State) (c : Ctx) (addr : Word) (rows : List (Nat × Nat)) : Option (Nat × Word) :=
  let a := addr.toNat
  let units (z : Nat) : List Nat := rows.flatMap (fun r =>
    if r.2 = 0 then [] else (upTo ((r.1 + r.2 - 1) / z - r.1 / z + 1)).map (fun j => max r.1 ((r.1 / z + j) * z)))
  if bitsOf a 63 60 ≠ 1 || bitsOf a 59 19 ≠ 0 || rows.any (fun r => decide (r.1 + r.2 > 0x80000)) then some (9, addr)
  else if a % 32 ≠ 0 then some (8, addr)
  else match firstSome (fun o => if s.holdsBank c o then none else some (localAddr o)) (units 32) with
    | some t => some (12, t)
    | none => match firstSome (fun o => if (SMap.get? s.syncs (scratchKey c.b (o / 16 * 16))).isSome then some (localAddr (o / 16 * 16)) else none) (units 16) with
      | some t => some (21, t)
      | none => (firstSome (fun r => if r.2 = 0 then none else s.ringFault c r.1 r.2) rows).map (fun t => (16, t))

/-- The touch marks and landing records of a span (R367). -/
def State.touchSpan (s : State) (c : Ctx) (rows : List (Nat × Nat)) : State :=
  rows.foldl (fun t r => if r.2 = 0 then t else t.touchAll c r.1 r.2) s

/-- The grant (R339) of a tile, or of an instruction that names none: TVAL of cause 12. -/
def State.grantFault (s : State) (c : Ctx) (z : Option Nat) : Option Word :=
  let t := (s.slip c.b c.i).tiles
  match z with
  | some n => if bitOf t n then none else some (natWord n)
  | none => if t = 0 then some 8 else none

/-- A crane instruction (R350): not in a handler; the grant is the first check. -/
def craneOp (word : Nat) (z : Option Nat) (uses : List Use) (k : Ctx → State → Res) (s : State) : Out :=
  instr word { hnd := false } uses
    (fun c s => match s.grantFault c z with
      | some t => .trap s 12 t
      | none => k c s) s

/-- TVAL of cause 13 on a pending tile (R351 step 9). -/
def Tile.pendingTval (t : Tile) (z : Nat) : Option Word :=
  match t.pending with
  | [] => none
  | n :: _ => some (natWord (z + n <<< 32))

/-! ### Plane loads (R346, R347, R353) -/

/-- Mask j of a column at an offset has not exactly 16 / f ones (R352 reason 8): its offset. -/
def State.badMask (s : State) (b : Nat) (g : PlaneTag) (off stride : Nat) : Option Nat :=
  let base := rowBytes g.fmt (32 * g.kg / spFactor g.sp)
  firstSome (fun c => firstSome (fun j =>
    let o := off + c * stride + base + 2 * j
    if Alu.ones 16 (s.natAt (scratchKey b o) 2) = 16 / spFactor g.sp then none else some o) (upTo (2 * g.kg))) (upTo g.n)

/-- CWLD and CWLDS. -/
def planeLoad (word a b : Nat) (toActive sparse : Bool) (s : State) : Out :=
  craneOp word none [.src .g a 0, .src .g b 0]
    (fun c s =>
      let addr := s.readG c a 0
      let d := (s.readG c b 0).toNat
      let stride := 32 * bitsOf d 26 16
      let kg := bitsOf d 15 8
      let sp := bitsOf d 5 4
      let fmt := bitsOf d 3 0
      let off := bitsOf addr.toNat 18 0
      if d >>> 27 ≠ 0 then .trap s 2 (natWord word)
      else match shapeN (bitsOf d 7 6) with
        | none => .trap s 14 (shapeTval 6 0 0 0)
        | some n =>
          let g : PlaneTag := { fmt := fmt, sp := sp, n := n, kg := kg }
          if fmt > 9 || sp = 3 || kg = 0 then .trap s 14 (shapeTval 6 0 0 0)
          else
            let op (masks : List (List Byte)) : CraneOp := .load toActive g off stride masks
            let rows := (op []).reads
            match s.spanFault c addr rows with
            | some (cause, t) => .trap s cause t
            | none =>
              let kst := 32 * kg / spFactor sp
              if decide (sp ≠ 0) != sparse then .trap s 14 (shapeTval 6 0 0 0)
              else if kst % 32 ≠ 0 || kst > kmaxOf fmt || colBytes g > stride then .trap s 14 (shapeTval 7 0 0 0)
              else
                let base := rowBytes fmt kst
                let maskKey (cc : Nat) := scratchKey c.b (off + cc * stride + base)
                let bad := if sparse then firstSome (fun cc => s.badWord (maskKey cc) (4 * kg)) (upTo n) else none
                match bad with
                | some w => s.poisonRes c w 8 (localAddr (w - scratchKey c.b 0))
                | none =>
                  match (if sparse then s.badMask c.b g off stride else none) with
                  | some o => .trap s 14 (shapeTval 8 0 0 o)
                  | none =>
                    let masks := if sparse then (upTo n).map (fun cc => s.bytesAt (maskKey cc) (4 * kg)) else []
                    if (s.berth c.b).crane.queue.length ≥ 16 then .stay s
                    else (s.touchSpan c rows).craneEnqueue c (op masks) (fun k _ => k.setTag toActive g)) s

/-! ### CMMA (R356, R357) -/

/-- The checks of R351 steps 2 to 10 for a CMMA that come after the shape is known. -/
def State.mmaFault (s : State) (c : Ctx) (pair z code n k need off stride m : Nat) (sa sb : W32) : Option (Nat × Word) :=
  let x := (s.berth c.b).crane
  match s.spanFault c (localAddr off) (CraneOp.mma z pair off stride m n k).reads with
  | some f => some f
  | none =>
    let bad (r : Nat) : Option (Nat × Word) := some (14, shapeTval r code pair 0)
    match x.activeTag with
    | none => bad 2
    | some g =>
      if g.fmt ≠ pairPlane pair then bad 2
      else if g.sp < need then bad 3
      else if k > 32 * g.kg || n > g.n then bad 4
      else if stride = 0 || rowBytes (pairAct pair) k > stride then bad 5
      else match (x.tile z).latch with
        | none => none
        | some (la, lb) =>
          if la ≠ sa || lb ≠ sb then some (15, natWord (z + 1 <<< 4))
          else if (x.tile z).int32 ≠ decide (pair = 2) then some (15, natWord (z + 2 <<< 4))
          else none

/-- CMMA of a pair (R356). -/
def mma (word pair z a f code : Nat) (s : State) : Out :=
  craneOp word (some z) [.tile z, .src .g a 0, .src .f (2 * f) 0, .src .f (2 * f + 1) 0]
    (fun c s =>
      let d := (s.readG c a 0).toNat
      let sa := s.readF c (2 * f) 0
      let sb := s.readF c (2 * f + 1) 0
      let off := bitsOf d 18 0
      let stride := 32 * bitsOf d 39 32
      let m := bitsOf d 25 20 + 1
      if bitsOf d 63 40 ≠ 0 || bitsOf d 31 26 ≠ 0 || bitOf d 19 then .trap s 2 (natWord word)
      else match shapeOf pair code with
        | none => .trap s 14 (shapeTval 1 code pair 0)
        | some (n, k, need) =>
          match s.mmaFault c pair z code n k need off stride m sa sb with
          | some (cause, t) => .trap s cause t
          | none =>
            let op : CraneOp := .mma z pair off stride m n k
            if (s.berth c.b).crane.queue.length ≥ 16 then .stay s
            else (s.touchSpan c op.reads).craneEnqueue c op (fun x seq =>
              let t := x.tile z
              x.setTile z { t with
                latch := t.latch.or (some (sa, sb))
                int32 := if t.latch.isNone then decide (pair = 2) else t.int32
                pending := t.pending ++ [seq] })) s

/-! ### The crane at work (R353 to R358, R363, R364) -/

/-- The command's tile, where it names one. -/
def CraneOp.tile (o : CraneOp) : Option Nat :=
  match o with
  | .clear z => some z
  | .mma z _ _ _ _ _ _ => some z
  | .load _ _ _ _ _ => none
  | .swap => none

/-- The first of n words from an offset on that a test names. -/
def firstAt8 (f : Nat → Bool) : Nat → Nat → Option Nat
  | 0, _ => none
  | n + 1, o => if f o then some (o / 8 * 8) else firstAt8 f n (o + 8)

/-- The first word that the code cannot correct among the rows a command reads (R363). -/
def State.badRow (s : State) (b : Nat) (rows : List (Nat × Nat)) : Option Nat :=
  firstSome (fun r => firstAt8 (fun o => s.poisoned (scratchKey b o) 8) ((r.2 + 7) / 8) r.1) rows

/-- A command's effect on planes and tiles, with its events. -/
def State.craneEffect (s : State) (b : Nat) (k : Crane) (o : CraneOp) : Crane × Ev :=
  match o with
  | .swap => ({ k with active := !k.active }, {})
  | .clear z => (k.setTile z { k.tile z with words := [] }, {})
  | .load toActive g off stride masks =>
    let n := rowBytes g.fmt (32 * g.kg / spFactor g.sp)
    let cols := (upTo g.n).map (fun c => s.bytesAt (scratchKey b (off + c * stride)) n ++ masks.getD c [])
    (k.setPlane toActive { tag := some g, cols := cols }, {})
  | .mma z pair off stride m n kk =>
    match (k.plane true).tag with
    | none => (k, {})
    | some g =>
      let row (r : Nat) := s.natAt (scratchKey b (off + r * stride)) (rowBytes (pairAct pair) kk)
      let col (c : Nat) := leNat ((k.plane true).cols.getD c [])
      let r := passTile pair g m n kk row col (k.tile z).words
      (k.setTile z { k.tile z with words := r.1 }, r.2)

/-- The words of a tile that a failed command named: unspecified (R363), free values (log 4). -/
def freeTile (n : Nat) : SMap Nat :=
  (upTo 2048).foldl (fun m j => SMap.set 0 m j (Config.freeW32 (n + j)).toNat) []

/-- Execute a command (R356, R363). What the crane's own storage loses is recorded as a tile's or a plane's (R440). -/
def State.craneExecute (s : State) (b : Nat) (cmd : CraneCmd) : State :=
  let k := { (s.berth b).crane with running := none }
  let t := cmd.op.tile
  let fail (cause : Nat) (tv : Word) : State :=
    let k1 := match t with
      | some z => k.setTile z { k.tile z with words := freeTile s.fresh }
      | none => k
    { s.modCrane b (fun _ => { k1 with
        fails := false
        finished := k1.finished ++ [{ seq := cmd.seq, tile := t, err := some (cause, tv) }] }) with fresh := s.fresh + 2048 }
  match s.badRow b cmd.op.reads with
  | some o => (fail 25 (localAddr o)).modBerth b (fun x => x.logError 1 o)
  | none =>
    if k.fails then (fail 29 (natWord (t.getD 0 + cmd.seq <<< 32))).modBerth b (fun x => x.logError (if t.isSome then 5 else 4) (t.getD 0))
    else
      let r := s.craneEffect b k cmd.op
      s.modCrane b (fun _ => { r.1 with
        finished := r.1.finished ++ [{ seq := cmd.seq, tile := t, ev := if cmd.counts then r.2 else {} }] })

/-- The berths of a quay (R452). -/
def quayBerths (b : Nat) : List Nat := (upTo 8).map (fun j => b / 8 * 8 + j)

/-- 1 + PRIO of the slip that holds a berth's tiles (R364). -/
def State.craneShare (s : State) (b : Nat) : Nat :=
  1 + (firstSome (fun p => if p.2.tiles ≠ 0 then some p.2.prio else none) (s.berth b).slips).getD 0

/-- The berth that the weighted round robin of a quay serves next (R364): its place in the quay, and whether its turn starts. -/
def State.cranePick (s : State) (b : Nat) : Option (Nat × Bool) :=
  let a := SMap.get {} s.arbiters (b / 8)
  let at_ (j : Nat) : Nat := b / 8 * 8 + (a.turn + j) % 8
  let ready (x : Nat) : Bool := !(s.berth x).crane.queue.isEmpty
  if ready (at_ 0) && decide (a.used < s.craneShare (at_ 0)) then some (at_ 0, false)
  else firstSome (fun j => if ready (at_ (j + 1)) then some (at_ (j + 1), true) else none) (upTo 8)

/-! ### The instructions -/

/-- CWLD (R353): a plane load. -/
def execCwld (a : BitVec 5) (v : BitVec 1) (b : BitVec 5) (s : State) : Out :=
  planeLoad (Enc.cwld a v b) a.toNat b.toNat (v == 1) false s

/-- CWLDS (R353): a plane load. -/
def execCwlds (a : BitVec 5) (v : BitVec 1) (b : BitVec 5) (s : State) : Out :=
  planeLoad (Enc.cwlds a v b) a.toNat b.toNat (v == 1) true s

/-- CWSWAP (R354): the planes exchange, at issue in the mirror. -/
def execCwswap (s : State) : Out :=
  craneOp (Enc.cwswap) none []
    (fun c s => s.craneEnqueue c .swap (fun k _ => { k with mactive := !k.mactive })) s

/-- CZCLR (R355): a clear of a tile. -/
def execCzclr (z : BitVec 3) (s : State) : Out :=
  craneOp (Enc.czclr z) (some z.toNat) [.tile z.toNat]
    (fun c s => s.craneEnqueue c (.clear z.toNat) (fun k seq =>
      let t := k.tile z.toNat
      k.setTile z.toNat { t with latch := none, int32 := false, pending := t.pending ++ [seq] })) s

/-- CMMA_BF (R356): pair 0. -/
def execCmmaBf (a : BitVec 5) (f : BitVec 4) (h : BitVec 5) (z : BitVec 3) (s : State) : Out :=
  mma (Enc.cmmaBf a f h z) 0 z.toNat a.toNat f.toNat h.toNat s

/-- CMMA_HF (R356): pair 1. -/
def execCmmaHf (a : BitVec 5) (f : BitVec 4) (h : BitVec 5) (z : BitVec 3) (s : State) : Out :=
  mma (Enc.cmmaHf a f h z) 1 z.toNat a.toNat f.toNat h.toNat s

/-- CMMA_I8 (R356): pair 2. -/
def execCmmaI8 (a : BitVec 5) (f : BitVec 4) (h : BitVec 5) (z : BitVec 3) (s : State) : Out :=
  mma (Enc.cmmaI8 a f h z) 2 z.toNat a.toNat f.toNat h.toNat s

/-- CMMA_E4E4 (R356): pair 3. -/
def execCmmaE4e4 (a : BitVec 5) (f : BitVec 4) (h : BitVec 5) (z : BitVec 3) (s : State) : Out :=
  mma (Enc.cmmaE4e4 a f h z) 3 z.toNat a.toNat f.toNat h.toNat s

/-- CMMA_E4E5 (R356): pair 4. -/
def execCmmaE4e5 (a : BitVec 5) (f : BitVec 4) (h : BitVec 5) (z : BitVec 3) (s : State) : Out :=
  mma (Enc.cmmaE4e5 a f h z) 4 z.toNat a.toNat f.toNat h.toNat s

/-- CMMA_E5E4 (R356): pair 5. -/
def execCmmaE5e4 (a : BitVec 5) (f : BitVec 4) (h : BitVec 5) (z : BitVec 3) (s : State) : Out :=
  mma (Enc.cmmaE5e4 a f h z) 5 z.toNat a.toNat f.toNat h.toNat s

/-- CMMA_E5E5 (R356): pair 6. -/
def execCmmaE5e5 (a : BitVec 5) (f : BitVec 4) (h : BitVec 5) (z : BitVec 3) (s : State) : Out :=
  mma (Enc.cmmaE5e5 a f h z) 6 z.toNat a.toNat f.toNat h.toNat s

/-- CMMA_F6A (R356): pair 7. -/
def execCmmaF6a (a : BitVec 5) (f : BitVec 4) (h : BitVec 5) (z : BitVec 3) (s : State) : Out :=
  mma (Enc.cmmaF6a a f h z) 7 z.toNat a.toNat f.toNat h.toNat s

/-- CMMA_F6B (R356): pair 8. -/
def execCmmaF6b (a : BitVec 5) (f : BitVec 4) (h : BitVec 5) (z : BitVec 3) (s : State) : Out :=
  mma (Enc.cmmaF6b a f h z) 8 z.toNat a.toNat f.toNat h.toNat s

/-- CMMA_F6AB (R356): pair 9. -/
def execCmmaF6ab (a : BitVec 5) (f : BitVec 4) (h : BitVec 5) (z : BitVec 3) (s : State) : Out :=
  mma (Enc.cmmaF6ab a f h z) 9 z.toNat a.toNat f.toNat h.toNat s

/-- CMMA_MXF4 (R356): pair 10. -/
def execCmmaMxf4 (a : BitVec 5) (f : BitVec 4) (h : BitVec 5) (z : BitVec 3) (s : State) : Out :=
  mma (Enc.cmmaMxf4 a f h z) 10 z.toNat a.toNat f.toNat h.toNat s

/-- CMMA_KF4 (R356): pair 11. -/
def execCmmaKf4 (a : BitVec 5) (f : BitVec 4) (h : BitVec 5) (z : BitVec 3) (s : State) : Out :=
  mma (Enc.cmmaKf4 a f h z) 11 z.toNat a.toNat f.toNat h.toNat s

/-- CMMA_E4KF4 (R356): pair 12. -/
def execCmmaE4kf4 (a : BitVec 5) (f : BitVec 4) (h : BitVec 5) (z : BitVec 3) (s : State) : Out :=
  mma (Enc.cmmaE4kf4 a f h z) 12 z.toNat a.toNat f.toNat h.toNat s

/-- CMMA_MXI8 (R356): pair 13. -/
def execCmmaMxi8 (a : BitVec 5) (f : BitVec 4) (h : BitVec 5) (z : BitVec 3) (s : State) : Out :=
  mma (Enc.cmmaMxi8 a f h z) 13 z.toNat a.toNat f.toNat h.toNat s

/-- The commands that CZWAIT covers: those of a tile, or all (R360). -/
def Crane.covered (k : Crane) (z : Option Nat) (n : Nat) : Bool :=
  match z with
  | some t => (k.tile t).pending.contains n
  | none => true

/-- Have all covered commands completed? -/
def Crane.settled (k : Crane) (z : Option Nat) : Bool := !(k.open_.any (fun c => k.covered z c.seq))

/-- Take the covered commands' events and the first error, and empty the pending sets (R360). -/
def Crane.settle (k : Crane) (z : Option Nat) : Crane × Ev × Option (Nat × Word) :=
  let done := k.finished.filter (fun d => k.covered z d.seq)
  let rest := k.finished.filter (fun d => !k.covered z d.seq)
  let tiles := match z with
    | some t => SMap.put k.tiles t { k.tile t with pending := [] }
    | none => k.tiles.map (fun e => (e.1, { e.2 with pending := [] }))
  ({ k with finished := rest, tiles := tiles }, Ev.sum (done.map (fun d => d.ev)), firstSome (fun d => d.err) done)


/-- CZWAIT (R360): blocks until the covered commands complete, then counts their events and raises the first error. -/
def execCzwait (l : BitVec 1) (z : BitVec 3) (s : State) : Out :=
  let t : Option Nat := if l == 1 then none else some z.toNat
  craneOp (Enc.czwait l z) t (if l == 1 then [] else [.tile z.toNat])
    (fun c s =>
      let k := (s.berth c.b).crane
      if !k.settled t then .stay (s.block c (.tiles (if l == 1 then 256 else z.toNat)))
      else
        let r := k.settle t
        let s1 := (s.modCrane c.b (fun _ => r.1)).count c r.2.1
        match r.2.2 with
        | some (cause, tv) => .trap s1 cause tv
        | none => .ok s1) s

/-- The rows of CZOUT and CZLD (R359). -/
def tileRows (off opt : Nat) : List (Nat × Nat) :=
  let ofmt := bitsOf opt 2 0
  if ofmt = 7 then [(off, 16)]
  else (upTo (bitsOf opt 21 16 + 1)).map (fun r => (off + r * 32 * bitsOf opt 15 8, if ofmt = 1 || ofmt = 2 then 64 else 128))

/-- The checks of R351 that CZOUT and CZLD share; legal says which OFMT codes are. -/
def State.tileFault (s : State) (c : Ctx) (word z : Nat) (addr : Word) (opt : Nat) (legal : Nat → Bool) : Option (Nat × Word) :=
  let ofmt := bitsOf opt 2 0
  let rows := tileRows (bitsOf addr.toNat 18 0) opt
  if bitsOf opt 63 22 ≠ 0 || bitsOf opt 7 4 ≠ 0 || !legal ofmt then some (2, natWord word)
  else match s.spanFault c addr rows with
    | some f => some f
    | none =>
      let row := if ofmt = 1 || ofmt = 2 then 64 else 128
      if ofmt ≠ 7 && (bitsOf opt 15 8 = 0 || row > 32 * bitsOf opt 15 8) then some (14, shapeTval 5 0 0 0)
      else (((s.berth c.b).crane.tile z).pendingTval z).map (fun t => (13, t))

/-- One converted element of a read-out (R361). -/
def tileElem (ofmt : Nat) (sat int32 : Bool) (sa sb word : Nat) : Nat × Ev :=
  let t := if int32 then Val.ofInt (sext word 32) else exact .fp32 word
  let v := vmul (vmul t (exact .fp32 sa)) (exact .fp32 sb)
  roundTo (match ofmt with
    | 1 => .bf16
    | 2 => .fp16
    | _ => .fp32) .ne sat 0 v

/-- A row of a tile as CZOUT writes it, with its events. -/
def Tile.rowOut (t : Tile) (ofmt : Nat) (sat : Bool) (r : Nat) : List Byte × Ev :=
  let word (c : Nat) := SMap.get 0 t.words (32 * r + c)
  let pair := t.latch.getD (0x3F800000#32, 0x3F800000#32)
  let es := (upTo 32).map (fun c =>
    if ofmt = 3 then (word c, Ev.zero) else tileElem ofmt sat (t.latch.isSome && t.int32) pair.1.toNat pair.2.toNat (word c))
  (es.flatMap (fun e => leBytes (if ofmt = 1 || ofmt = 2 then 2 else 4) e.1), Ev.sum (es.map (fun e => e.2)))

/-- The STATE record of a tile (R359). -/
def Tile.record (t : Tile) : List Byte :=
  let pair := t.latch.getD (0x3F800000#32, 0x3F800000#32)
  leBytes 4 pair.1.toNat ++ leBytes 4 pair.2.toNat ++
    leBytes 8 (b2n t.latch.isSome + withBit (t.latch.isSome && t.int32) 1)

/-- A tile from its STATE record (R362). -/
def Tile.ofRecord (t : Tile) (bs : List Byte) : Tile :=
  let flags := fieldAt bs 8 1
  if bitOf flags 0 then
    { t with latch := some (BitVec.ofNat 32 (fieldAt bs 0 4), BitVec.ofNat 32 (fieldAt bs 4 4)), int32 := bitOf flags 1 }
  else { t with latch := none, int32 := false }

/-- CZOUT and CZLD wait for every earlier crane command of the slip (R366). -/
def State.craneBusy (s : State) (c : Ctx) : Bool := !(s.berth c.b).crane.idle


/-- CZOUT (R361): reads a tile out to the scratchpad. -/
def execCzout (a : BitVec 5) (b : BitVec 5) (z : BitVec 3) (s : State) : Out :=
  let word := (Enc.czout a b z)
  craneOp word (some z.toNat) [.tile z.toNat, .src .g a.toNat 0, .src .g b.toNat 0]
    (fun c s =>
      let addr := s.readG c a.toNat 0
      let opt := (s.readG c b.toNat 0).toNat
      let ofmt := bitsOf opt 2 0
      match s.tileFault c word z.toNat addr opt (fun n => decide (n < 4) || n == 7) with
      | some (cause, t) => .trap s cause t
      | none =>
        let off := bitsOf addr.toNat 18 0
        let rows := tileRows off opt
        let t := (s.berth c.b).crane.tile z.toNat
        if s.craneBusy c || rows.any (fun r => s.commandBars c (localAddr r.1).toNat r.2) then .stay s
        else
          let s0 := s.touchSpan c rows
          if ofmt = 7 then .ok (s0.storeScratch c.b off t.record)
          else
            .ok ((upTo rows.length).foldl (fun st r =>
              let x := t.rowOut ofmt (bitOf opt 3) r
              (st.storeScratch c.b (off + r * 32 * bitsOf opt 15 8) x.1).count c x.2) s0)) s

/-- CZLD (R362): loads raw tile words or tile state from the scratchpad. -/
def execCzld (a : BitVec 5) (b : BitVec 5) (z : BitVec 3) (s : State) : Out :=
  let word := (Enc.czld a b z)
  craneOp word (some z.toNat) [.tile z.toNat, .src .g a.toNat 0, .src .g b.toNat 0]
    (fun c s =>
      let addr := s.readG c a.toNat 0
      let opt := (s.readG c b.toNat 0).toNat
      match s.tileFault c word z.toNat addr opt (fun n => n == 3 || n == 7) with
      | some (cause, t) => .trap s cause t
      | none =>
        let off := bitsOf addr.toNat 18 0
        let rows := tileRows off opt
        if s.craneBusy c then .stay s
        else match s.badRow c.b rows with
          | some o => s.poisonRes c (scratchKey c.b o) 8 (localAddr o)
          | none =>
            let k := (s.berth c.b).crane
            let t := k.tile z.toNat
            let t1 := if bitsOf opt 2 0 = 7 then t.ofRecord (s.bytesAt (scratchKey c.b off) 16)
              else { t with words := (upTo rows.length).foldl (fun m r => (upTo 32).foldl (fun m2 cc =>
                SMap.set 0 m2 (32 * r + cc) (s.natAt (scratchKey c.b (off + r * 32 * bitsOf opt 15 8 + 4 * cc)) 4)) m) t.words }
            .ok ((s.touchSpan c rows).modCrane c.b (fun _ => k.setTile z.toNat t1))) s

/-- CRANE_DISPATCH (R364): the arbiter takes the next command of a berth's queue, where the round robin serves it next. -/
def execCraneDispatch (b : Nat) (s : State) : Out :=
  if (quayBerths b).any (fun x => (s.berth x).crane.running.isSome) then .next s
  else match s.cranePick b with
    | none => .next s
    | some (x, starts) =>
      if x ≠ b then .next s
      else
        let k := (s.berth b).crane
        match k.queue with
        | [] => .next s
        | cmd :: rest =>
          let a := SMap.get {} s.arbiters (b / 8)
          let a1 : Arbiter := if starts then { turn := b % 8, used := 1 } else { a with used := a.used + 1 }
          .next ({ s.modCrane b (fun _ => { k with queue := rest, running := some cmd }) with arbiters := SMap.put s.arbiters (b / 8) a1 })

/-- CRANE_COMMAND (R353 to R358, R363): the crane executes the command it took from a berth. -/
def execCraneCommand (b : Nat) (s : State) : Out :=
  match (s.berth b).crane.running with
  | none => .next s
  | some cmd => .next (s.craneExecute b cmd)

end Sys2Proof.Machine
end

