-- ==== Sys2Proof/Machine/Valley.lean ====
section
/-! DEFINITION. The valley units (spec/20 R370 to R396). -/
namespace Sys2Proof.Machine
open Sys2Proof

/-! ### Pages (R370 to R374) -/

/-- The page that a KV address names, as the key of its first byte (R370, R371). -/
def State.kvPage (s : State) (a : Nat) : Option Nat :=
  if bitsOf a 63 60 ≠ 4 || bitsOf a 59 48 ≠ 0 || bitOf a 27 || bitsOf a 13 0 ≠ 0 || !s.domain.contains (bitsOf a 47 40) then none
  else some (physKey (bitsOf a 47 40)
    (bitsOf a 39 37 <<< 36 + bitsOf a 36 34 <<< 33 + bitsOf a 33 28 <<< 27 + bitsOf a 26 14 <<< 14))

def State.kvHdr (s : State) (k : Nat) : KvHdr := SMap.get {} s.kv k
def State.setKv (s : State) (k : Nat) (h : KvHdr) : State := { s with kv := SMap.set {} s.kv k h }

/-- Dh of a DH code; the element size; T (R372). -/
def dhOf (code : Nat) : Nat := 64 <<< code
def KvHdr.eb (h : KvHdr) : Nat := if h.fmt then 2 else 1
def KvHdr.capacity (h : KvHdr) : Nat := 8192 / (dhOf h.dh * h.eb)

def KvState.code : KvState → Nat
  | .unalloc => 0
  | .free => 1
  | .opened => 2
  | .sealed => 3

/-- The header as KVSTAT returns it (R374). -/
def KvHdr.word (h : KvHdr) : Nat :=
  h.len + h.xk <<< 8 + h.xv <<< 16 + h.dh <<< 25 + withBit h.fmt 27 + withBit h.fix 28 + h.st.code <<< 30 + h.clip <<< 32 +
    h.err <<< 52

/-- Is a page a slip's: its berth's ASID and its actor (R373)? -/
def KvHdr.ownedBy (h : KvHdr) (asid actor : Nat) : Bool := h.st ≠ .unalloc && h.asid == asid && h.actor == actor

/-- A page opened (R377). -/
def KvHdr.opening (h : KvHdr) (dh : Nat) (fmt fix : Bool) (xk xv : Nat) : KvHdr :=
  { h with
    st := .opened
    len := 0
    clip := 0
    err := 0
    dh := dh
    fmt := fmt
    fix := fmt || fix
    xk := if fmt then 0x7F else if fix then xk else 0
    xv := if fmt then 0x7F else if fix then xv else 0 }

/-- A page with every field cleared but its residency. -/
def KvHdr.cleared (h : KvHdr) : KvHdr := { resident := h.resident }

/-! ### Issue (R376) -/

/-- Where n bytes at an offset first touch each of their banks. -/
def bankStarts (off n : Nat) : List Nat :=
  (upTo ((off + n - 1) / 0x8000 - off / 0x8000 + 1)).map (fun j => max off ((off / 0x8000 + j) * 0x8000))

/-- Steps 3 to 7 for n bytes of a LOCAL operand aligned to al: cause and TVAL. -/
def State.operandFault (s : State) (c : Ctx) (a : Word) (n al : Nat) : Option (Nat × Word) :=
  let off := bitsOf a.toNat 18 0
  let banks := bankStarts off n
  let words := (upTo ((off + n - 1) / 16 - off / 16 + 1)).map (fun j => (off / 16 + j) * 16)
  if bitsOf a.toNat 63 60 ≠ 1 || bitsOf a.toNat 59 19 ≠ 0 || off + n > 0x80000 then some (9, a)
  else if off % al ≠ 0 then some (8, a)
  else match banks.find? (fun o => !s.holdsBank c o) with
    | some o => some (12, localAddr o)
    | none => match words.find? (fun o => (s.syncAt c.b o).isSome) with
      | some o => some (21, localAddr o)
      | none => (s.ringFault c off n).map (fun t => (16, t))

/-- The first word of n bytes at a LOCAL operand that its code cannot correct: its offset. -/
def State.operandPoison (s : State) (c : Ctx) (a : Word) (n : Nat) : Option Nat :=
  s.badRow c.b [(bitsOf a.toNat 18 0, n)]

/-- Read a LOCAL operand (R376): its checks, cause 25, then its bytes; it is touched by the caller (R319). -/
def State.operandK (s : State) (c : Ctx) (a : Word) (n al : Nat) (k : List Byte → Res) : Res :=
  match s.operandFault c a n al with
  | some (cause, t) => .trap s cause t
  | none => match s.operandPoison c a n with
    | some o => s.poisonRes c (scratchKey c.b o) 8 (localAddr o)
    | none => k (s.bytesAt (scratchKey c.b (bitsOf a.toNat 18 0)) n)

/-- A valley instruction at the page that gA names (R376 step 1). -/
def kvOp (word a : Nat) (md : Mode) (uses : List Use) (k : Ctx → Word → Nat → State → Res) (s : State) : Out :=
  instr word md (.src .g a 0 :: uses)
    (fun c s =>
      let ea := s.readG c a 0
      match s.kvPage ea.toNat with
      | none => .trap s 9 ea
      | some page => k c ea page s) s

/-- Is a command one that its unit has not taken yet: an append not applied, a query not resolved or waiting? -/
def KvCmd.untaken (k : KvCmd) : Bool := !k.waits

/-- Do earlier valley commands of the slip still have to take effect (R377, R383)? -/
def State.kvBusy (s : State) (b i : Nat) : Bool := s.kvCmds.any (fun k => k.berth == b && k.slip == i && k.untaken)

/-- Does the sender at a berth hold what it issues to a unit: has it a command there that was refused, or that it holds behind one (R267)? -/
def State.kvHolds (s : State) (b unit : Nat) : Bool :=
  s.kvCmds.any (fun e => e.berth == b && e.page >>> 27 == unit && e.untaken && (decide (e.busy > 0) || e.held))

/-- Has a slip a query, or its triple, under way, or an append (R221, R322)? -/
def State.kvPending (s : State) (b i : Nat) : Bool :=
  s.kvCmds.any (fun k => k.berth == b && k.slip == i) || s.triples.any (fun t => t.berth == b && t.slip == i)

/-- The pending refusal of the lowest issue order. -/
def firstRefusal (l : List KvRefusal) : Option KvRefusal :=
  l.foldl (fun best r => match best with
    | none => some r
    | some x => if r.seq < x.seq then some r else best) none

/-- A report point (R382): clips are counted, the first refusal is taken, the others discarded. While INTRAP = 1 nothing is
counted, and the clips stay (R93). -/
def State.kvReport (s : State) (b i : Nat) : State × Option KvRefusal :=
  let p := s.slip b i
  let q := if p.intrap then p else { p.addEvc 4 p.kvClips with kvClips := 0 }
  (s.setSlip b i { q with kvRefusals := [] }, firstRefusal p.kvRefusals)

/-- KVOPEN, KVSEAL and KVSTAT: wait for earlier commands and for residency, behind what their sender holds (R267), and while a checkpoint holds
the slip's valley commands (R422); report, then act (R377, R383). -/
def State.kvSettled (s : State) (c : Ctx) (page : Nat) (k : State → Res) : Res :=
  if s.kvBusy c.b c.i || s.kvHolds c.b (page >>> 27) || !(s.kvHdr page).resident || s.heldByCheckpoint c.b c.i then .stay s
  else
    let r := s.kvReport c.b c.i
    match r.2 with
    | some f => .trap r.1 f.cause f.tval
    | none => k r.1

/-- A header changes on behalf of a slip (R424). -/
def State.changeKv (s : State) (b i page : Nat) (h : KvHdr) : State := (s.jot b i (.kv page)).setKv page h

/-! ### The instructions -/

/-- KVOPEN (R377): opens a FREE page of the slip. -/
def execKvopen (a : BitVec 5) (b : BitVec 5) (s : State) : Out :=
  let word := Enc.kvopen a b
  kvOp word a.toNat { hnd := false } [.src .g b.toNat 0]
    (fun c ea page s =>
      let o := (s.readG c b.toNat 0).toNat
      let fmt := bitOf o 2
      let fix := bitOf o 3
      let xk := bitsOf o 15 8
      let xv := bitsOf o 23 16
      if o >>> 24 ≠ 0 || bitsOf o 7 4 ≠ 0 || bitsOf o 1 0 = 3 || (fmt && bitsOf o 15 3 ≠ 0) || (!fix && (xk ≠ 0 || xv ≠ 0)) ||
        xk = 0xFF || xv = 0xFF then .trap s 2 (natWord word)
      else s.kvSettled c page (fun t =>
        let h := t.kvHdr page
        if !h.ownedBy (t.berth c.b).asid (t.slip c.b c.i).actor || h.st ≠ .free then .trap t 10 ea
        else .ok (t.changeKv c.b c.i page (h.opening (bitsOf o 1 0) fmt fix xk xv)))) s

/-- The end that stands for a page's valley unit in its package's traffic (R454): the number of no berth, 8190 (log 71). -/
def unitPort (page : Nat) : Nat := bitsOf page 59 52 * 8192 + 8190

/-- The bytes that a command takes on a link: its elements, and the record of a query (R378, R385, log 71). -/
def KvOp.bytes (o : KvOp) : Nat :=
  match o with
  | .append _ _ _ _ es => 2 * es.length
  | .query _ _ _ _ _ _ _ _ _ q => 32 + 4 * q.length

/-- Post a command to its unit; the slip goes on (R378, R385). Its sender holds it while it holds others (R267). -/
def State.kvPost (s0 : State) (c : Ctx) (ea : Word) (page : Nat) (op : KvOp) : State :=
  let s := s0.linkFlits c.b (unitPort page) op.bytes
  let p := s.slip c.b c.i
  let s1 := s.modSlip c.b c.i (fun q => { q with kvSeq := q.kvSeq + 1 })
  { s1 with kvCmds := s1.kvCmds ++
      [{ berth := c.b, slip := c.i, owner := p.owner, asid := (s.berth c.b).asid, actor := p.actor, page := page, addr := ea,
         seq := p.kvSeq, op := op, held := s.kvHolds c.b (page >>> 27) }] }

/-- KVAPP (R378, R380): reads one token and posts it. -/
def execKvapp (h : BitVec 2) (a : BitVec 5) (b : BitVec 5) (c : BitVec 5) (p : BitVec 2) (s : State) : Out :=
  kvOp (Enc.kvapp h a b c p) a.toNat { hnd := false } [.src .g b.toNat 0, .src .g c.toNat 0]
    (fun k ea page s =>
      let sa := s.readG k c.toNat 0
      let succ := s.kvPage sa.toNat
      let n := 4 * dhOf h.toNat
      let tok := s.readG k b.toNat 0
      if p = 1 && succ.isNone then .trap s 9 sa
      else s.operandK k tok n 64 (fun bs =>
        .ok ((s.touchAll k (bitsOf tok.toNat 18 0) n).kvPost k ea page
          (.append p.toNat (succ.getD 0) sa h.toNat ((upTo (n / 2)).map (fun j => fieldAt bs (2 * j) 2)))))) s

/-- DEST of a query record (R386): the fault it raises, with its TVAL. -/
def State.destFault (s : State) (a : Word) : Option (Nat × Word) :=
  let good : Bool := if bitsOf a.toNat 63 60 = 1 then bitsOf a.toNat 59 19 == 0 else (s.remoteBerth a.toNat).isSome
  if !good then some (9, a) else if a.toNat % 64 ≠ 0 then some (8, a) else none

/-- KVQRY (R385, R386): reads its record and vector and posts the query. -/
def execKvqry (a : BitVec 5) (b : BitVec 5) (c : BitVec 5) (s : State) : Out :=
  let word := Enc.kvqry a b c
  kvOp word a.toNat { hnd := false } [.src .g b.toNat 0, .src .g c.toNat 0]
    (fun k ea page s =>
      let ra := s.readG k b.toNat 0
      let va := s.readG k c.toNat 0
      s.operandK k ra 32 32 (fun rec_ =>
        let fl := fieldAt rec_ 10 1
        let dh := bitsOf fl 4 3
        let n := 4 * dhOf dh
        let dest := natWord (fieldAt rec_ 0 8)
        if fieldAt rec_ 11 1 ≠ 0 || fieldAt rec_ 24 8 ≠ 0 || bitsOf fl 7 6 ≠ 0 || bitsOf fl 2 1 = 3 || dh = 3 then
          .trap s 2 (natWord word)
        else match s.operandFault k va n 64 with
          | some (cause, t) => .trap s cause t
          | none => match s.destFault dest with
            | some (cause, t) => .trap s cause t
            | none =>
              if fieldAt rec_ 8 2 > 0x7FFF then .trap s 2 (natWord word)
              else s.operandK k va n 64 (fun bs =>
                let op : KvOp := .query dest (fieldAt rec_ 8 2) (bitOf fl 0) (bitsOf fl 2 1) dh (bitOf fl 5) (fieldAt rec_ 12 4)
                  (fieldAt rec_ 16 4) (fieldAt rec_ 20 4) ((upTo (dhOf dh)).map (fun j => fieldAt bs (4 * j) 4))
                .ok (((s.touchAll k (bitsOf ra.toNat 18 0) 32).touchAll k (bitsOf va.toNat 18 0) n).kvPost k ea page op)))) s

/-- KVSEAL and KVSTAT act on an OPEN or SEALED page of the slip (R383). -/
def State.kvOwned (s : State) (c : Ctx) (ea : Word) (page : Nat) (k : State → Res) : Res :=
  s.kvSettled c page (fun t =>
    let h := t.kvHdr page
    if !h.ownedBy (t.berth c.b).asid (t.slip c.b c.i).actor || h.st = .free then .trap t 10 ea else k t)

/-- KVSEAL (R383): an OPEN page becomes SEALED. -/
def execKvseal (a : BitVec 5) (s : State) : Out :=
  kvOp (Enc.kvseal a) a.toNat { hnd := false } []
    (fun c ea page s => s.kvOwned c ea page (fun t =>
      let h := t.kvHdr page
      if h.st = .opened then .ok (t.changeKv c.b c.i page { h with st := .sealed }) else .ok t)) s

/-- KVSTAT (R374, R383): gD := the header. -/
def execKvstat (d : BitVec 5) (a : BitVec 5) (s : State) : Out :=
  kvOp (Enc.kvstat d a) a.toNat { hnd := false } [.dst .g d.toNat]
    (fun c ea page s => s.kvOwned c ea page (fun t => .ok (t.writeG c d.toNat (natWord (t.kvHdr page).word)))) s

/-! ### Triples (R387) -/

/-- A triple's bytes. -/
def tripleBytes (m sm tag status n : Nat) (acc : List Nat) : List Byte :=
  leBytes 4 m ++ leBytes 4 sm ++ leBytes 4 tag ++ leBytes 4 (status + n <<< 8) ++ acc.flatMap (leBytes 4)

/-- The empty triple with a status. -/
def emptyTriple (tag status dh : Nat) : List Byte := tripleBytes 0xFF800000 0 tag status 0 (List.replicate (dhOf dh) 0)

/-- The berth where what a query of a berth answers lands (R386): its own at a LOCAL destination. -/
def destBerth (b : Nat) (dest : Word) : Nat :=
  if bitsOf dest.toNat 63 60 = 1 then b else bitsOf dest.toNat 47 40 * 8192 + bitsOf dest.toNat 39 27

/-- Send a query's triple on its way; the query leaves its unit. -/
def State.sendTriple (s : State) (n : Nat) (k : KvCmd) (data : List Byte) (absent : Option Word) : State :=
  match k.op with
  | .append _ _ _ _ _ => s
  | .query dest sync arr _ _ _ _ _ _ _ =>
    { s.linkFlits (unitPort k.page) (destBerth k.berth dest) data.length with
      kvCmds := dropAt s.kvCmds n
      triples := s.triples ++
        [{ berth := k.berth, slip := k.slip, page := k.page, owner := k.owner, dest := dest, sync := sync, arr := arr, data := data, absent := absent }] }

/-- Drop the queries that wait at a page (R384): each completes with status 7. The argument bounds the walk. -/
def State.dropWaiting (s : State) (page : Nat) : Nat → State
  | 0 => s
  | n + 1 =>
    let t := s.dropWaiting page n
    match firstSome (fun (j, k) => if k.page == page && k.waits then some (j, k) else none)
      ((upTo t.kvCmds.length).zip t.kvCmds) with
    | none => t
    | some (j, k) => match k.op with
      | .append _ _ _ _ _ => t
      | .query _ _ _ _ dh _ _ _ tag _ => t.sendTriple j k (emptyTriple tag 7 dh) none

/-- KVDROP in its three modes (R384): behind the slip's earlier commands to the bank (R391) and what its sender holds (R267), and while no
checkpoint holds it (R422), acts at once on the header. -/
def kvDrop (word a : Nat) (uses : List Use) (bad : Ctx → State → Bool) (f : Ctx → State → KvHdr → KvHdr) (s : State) : Out :=
  kvOp word a { priv := true, hnd := false } uses
    (fun c _ page s =>
      if bad c s then .trap s 2 (natWord word)
      else if s.heldByCheckpoint c.b c.i || s.kvHolds c.b (page >>> 27) ||
          s.kvCmds.any (fun e => e.berth == c.b && e.slip == c.i && e.page >>> 27 == page >>> 27 && e.untaken) then .stay s
      else
        let t := s.dropWaiting page s.kvCmds.length
        .ok (t.changeKv c.b c.i page (f c t (t.kvHdr page)))) s

/-- KVDROP (R384): the page becomes FREE, its owner stays. -/
def execKvdrop (a : BitVec 5) (s : State) : Out :=
  kvDrop (Enc.kvdrop a) a.toNat [] (fun _ _ => false)
    (fun _ _ h => if h.st = .unalloc then h else { h.cleared with st := .free, asid := h.asid, actor := h.actor }) s

/-- KVDROP.GRANT (R384): the page becomes FREE, owned as gB says. -/
def execKvdropGrant (a : BitVec 5) (b : BitVec 5) (s : State) : Out :=
  kvDrop (Enc.kvdropGrant a b) a.toNat [.src .g b.toNat 0] (fun c t => bitsOf (t.readG c b.toNat 0).toNat 31 16 != 0)
    (fun c t h =>
      let o := (t.readG c b.toNat 0).toNat
      { h.cleared with st := .free, asid := bitsOf o 15 0, actor := bitsOf o 63 32 }) s

/-- KVDROP.REVOKE (R384): the page becomes UNALLOC. -/
def execKvdropRevoke (a : BitVec 5) (s : State) : Out :=
  kvDrop (Enc.kvdropRevoke a) a.toNat [] (fun _ _ => false) (fun _ _ h => h.cleared) s

/-! ### Appends at the bank (R378 to R381) -/

/-- enc of R378. -/
def kvEnc (v : Val) (x : Nat) (sat : Bool) : Nat := (roundTo .e4m3 .ne sat 0 (v.scale (127 - Int.ofNat x))).1

/-- Does some element not fit a scale (R378)? -/
def kvExceeds (vs : List Val) (x : Nat) : Bool := vs.any (fun v => !v.isNaN && kvEnc v x false % 128 == 127)

/-- The bank's KVERR records an error at a memory key (R396): CLASS 1 an uncorrectable word, 2 address or command parity, 3 header storage; its
ROW and COLUMN; else OVF. -/
def State.kverrLog (s : State) (key cls : Nat) : State :=
  let pk := bitsOf key 59 52
  let pa := bitsOf key 51 0
  let j := pa >>> 36 * 512 + bitsOf pa 35 33 * 64 + bitsOf pa 32 27
  s.modPkg pk (fun p =>
    let o := (SMap.get 0 p.kverr j).toNat
    let n := if bitOf o 63 then o ||| (1 <<< 62)
      else 1 <<< 63 + (o &&& (1 <<< 62)) + (cls % 4) <<< 60 + bitsOf pa 26 10 <<< 29 + bitsOf pa 9 0 <<< 19
    { p with kverr := SMap.put p.kverr j (natWord n) })

/-- The lowest uncorrectable word in the 1 KiB rows that n bytes at an offset of a page touch, which a scan in their order meets first
(R389): its key. -/
def State.badKvRow (s : State) (page off n : Nat) : Option Nat :=
  let lo := page + off / 1024 * 1024
  let hi := page + (off + n - 1) / 1024 * 1024 + 1024
  leastOf (s.poison.filter (fun w => decide (lo ≤ w) && decide (w < hi)))

/-- Store a token at a page, opened and scaled (R372, R378): an uncorrectable row marks the page with ERR 7, and the slip's
domain rolls back (R395). -/
def State.kvStore (s : State) (k : KvCmd) (page : Nat) (addr : Word) (h : KvHdr) (es : List Nat) (clip : Bool) : State :=
  let n := dhOf h.dh
  let off := h.len * n * h.eb
  let keys := es.take n
  let vals := es.drop n
  match (s.badKvRow page off (n * h.eb)).or (s.badKvRow page (8192 + off) (n * h.eb)) with
  | some w => ((s.kverrLog w 1).changeKv k.berth k.slip page { h with st := .sealed, err := 7 }).rollbackFault k.berth k.slip 25 addr (some w)
  | none =>
    let code (x : Nat) (c : Nat) : List Byte := if h.fmt then leBytes 2 c else leBytes 1 (kvEnc (exact .bf16 c) x clip)
    let kb := keys.flatMap (code h.xk)
    let vb := vals.flatMap (code h.xv)
    let s1 := s.changeKv k.berth k.slip page { h with len := h.len + 1, clip := if clip then min 0xFFFF (h.clip + 1) else h.clip }
    let s2 := (s1.poke (page + off) kb).poke (page + 8192 + off) vb
    if clip then s2.modSlip k.berth k.slip (fun p => { p with kvClips := p.kvClips + 1 }) else s2

/-- A refusal (R381): the page seals with ERR where it was OPEN, and the slip keeps the refusal pending. -/
def State.kvRefuse (s : State) (k : KvCmd) (h : KvHdr) (reason : Nat) : State :=
  let s1 := if reason ≥ 2 && h.st = .opened then s.changeKv k.berth k.slip k.page { h with st := .sealed, err := reason } else s
  s1.modSlip k.berth k.slip (fun p => { p with kvRefusals := p.kvRefusals ++
    [{ seq := k.seq, cause := if reason = 6 then 24 else 10, tval := k.addr ||| natWord reason }] })

/-- The scales of a page as the first append sets them (R378). -/
def KvHdr.scaled (h : KvHdr) (ks vs : List Val) : KvHdr :=
  if h.len = 0 && !h.fix then { h with xk := kvScale ks, xv := kvScale vs } else h

/-- Does an append to its OPEN page exceed the page's scales (R378)? -/
def KvHdr.exceeds (g : KvHdr) (ks vl : List Val) : Bool := !g.fmt && (kvExceeds ks g.xk || kvExceeds vl g.xv)

/-- Does an append move its token to the successor (R380): SEAL, with no reason 1 to 4 or 6, on a full page or where the token exceeds? -/
def State.kvMoves (s : State) (k : KvCmd) (policy dh : Nat) (es : List Nat) : Bool :=
  let h := s.kvHdr k.page
  let vs := es.map (exact .bf16)
  let ks := vs.take (dhOf dh)
  let vl := vs.drop (dhOf dh)
  policy == 1 && h.ownedBy k.asid k.actor && decide (h.st = .opened) && dh == h.dh && !(!h.fmt && vs.any Val.isInf) &&
    ((h.scaled ks vl).exceeds ks vl || decide (h.len ≥ h.capacity))

/-- An append at its page (R378 to R381). -/
def State.kvAppend (s : State) (k : KvCmd) (policy succ : Nat) (succAddr : Word) (dh : Nat) (es : List Nat) : State :=
  let h := s.kvHdr k.page
  if !h.ownedBy k.asid k.actor then s.kvRefuse k h 1
  else if h.st ≠ .opened then s.kvRefuse k h 2
  else if dh ≠ h.dh then s.kvRefuse k h 3
  else
    let vs := es.map (exact .bf16)
    let ks := vs.take (dhOf dh)
    let vl := vs.drop (dhOf dh)
    let full := decide (h.len ≥ h.capacity)
    if full && policy ≠ 1 then s.kvRefuse k h 4
    else
      let g := h.scaled ks vl
      let exceeds := g.exceeds ks vl
      if !h.fmt && policy = 1 && vs.any Val.isInf then s.kvRefuse k g 6
      else if policy = 2 && exceeds then s.kvRefuse k g 6
      else if s.kvMoves k policy dh es then
        let t := s.kvHdr succ
        if succ = k.page || t.st ≠ .free || !t.ownedBy k.asid k.actor then s.kvRefuse k g 5
        else
          let o := (t.opening h.dh h.fmt false 0 0).scaled ks vl
          ((s.changeKv k.berth k.slip k.page { g with st := .sealed }).changeKv k.berth k.slip succ o).kvStore k succ succAddr o es false
      else s.kvStore k k.page k.addr g es (exceeds && policy = 0)

/-- Is command n behind an earlier one of its slip to the same bank that its unit has not taken (R391), or behind one of its berth that the unit
has refused, or, held itself, behind one that is held (R267)? -/
def State.kvBehind (s : State) (n : Nat) (k : KvCmd) : Bool :=
  (s.kvCmds.take n).any (fun e => e.berth == k.berth && e.page >>> 27 == k.page >>> 27 &&
    ((e.slip == k.slip && e.untaken) || decide (e.busy > 0) || (k.held && e.held && e.untaken)))

/-- KV_APPEND_APPLY (R378, R391): command n, an append, is stored or refused; a page that is not resident is waited for, the successor's
where the token moves there. -/
def execKvAppendApply (n : Nat) (s : State) : Out :=
  match s.kvCmds[n]? with
  | none => .next s
  | some k =>
    match k.op with
    | .query _ _ _ _ _ _ _ _ _ _ => .next s
    | .append policy succ sa dh es =>
      if s.kvBehind n k || !(s.kvHdr k.page).resident || (s.kvMoves k policy dh es && !(s.kvHdr succ).resident) ||
        s.heldByCheckpoint k.berth k.slip then .next s
      else
        let s1 : State := { s with kvCmds := dropAt s.kvCmds n }
        .next (s1.kvAppend k policy succ sa dh es)

/-! ### Queries at the bank (R388, R389) -/

/-- Element j of a row of the page from a base offset, with its scale (R389). -/
def State.kvElem (s : State) (page : Nat) (h : KvHdr) (base j x : Nat) : Val :=
  let c := s.natAt (page + base + j * h.eb) h.eb
  if h.fmt then exact .bf16 c else (exact .e4m3 c).scale (Int.ofNat x - 127)

/-- LOG2E of R389. -/
def log2e : Nat := 0x3FB8AA3B

/-- The score of token t. -/
def State.kvScore (s : State) (page : Nat) (h : KvHdr) (q : List Nat) (sigma t : Nat) : Nat :=
  let d := dhOf h.dh
  let ps := (upTo d).map (fun i => (roundNE .fp32 (vmul (exact .fp32 (q.getD i 0)) (s.kvElem page h 0 (t * d + i) h.xk))).1)
  (fpMul .fp32 (pairTree (fpAdd .fp32) 8 ps).1 sigma).1

/-- The weight of a score under the maximum m. -/
def kvWeight (m sc : Nat) : Nat :=
  if m = 0xFF800000 then 0 else (fpExp2 .fp32 (fpMul .fp32 (fpAdd .fp32 sc (fpNeg .fp32 m)).1 log2e).1).1

/-- The scan of tokens 0 to l − 1 (R389): m, s and acc. -/
def State.kvScan (s : State) (page : Nat) (h : KvHdr) (q : List Nat) (sigma l : Nat) : Nat × Nat × List Nat :=
  let d := dhOf h.dh
  let scs := (upTo l).map (s.kvScore page h q sigma)
  let m := if scs.any (fun x => (exact .fp32 x).isNaN) then Fmt.canonNaN .fp32
    else scs.foldl (fun a x => (fpMinMax .fp32 true a x).1) 0xFF800000
  let step (acc : Nat × List Nat) (t : Nat) : Nat × List Nat :=
    let e := kvWeight m (scs.getD t 0)
    ((fpAdd .fp32 acc.1 e).1,
      (upTo d).map (fun i => (roundNE .fp32 (vadd (vmul (exact .fp32 e) (s.kvElem page h 8192 (t * d + i) h.xv))
        (exact .fp32 (acc.2.getD i 0)))).1))
  let r := (upTo l).foldl step (0, List.replicate d 0)
  (m, r.1, r.2)

/-- Queries that wait at a bank. -/
def State.kvWaiting (s : State) (page : Nat) : Nat := (s.kvCmds.filter (fun k => k.waits && k.page >>> 27 == page >>> 27)).length

/-- The oldest of the senders that a unit has refused and that still have a query for it (R267). -/
def State.kvOldest (s : State) (unit : Nat) : Option Nat :=
  (SMap.get [] s.kvRefused unit).find? (fun b => s.kvCmds.any (fun k => k.berth == b && k.page >>> 27 == unit && decide (k.busy > 0)))

/-- Does a query find its unit full (R391): 16 wait there, or the next free entry is an older refused sender's (R267)? -/
def State.kvFull (s : State) (k : KvCmd) : Bool :=
  decide (s.kvWaiting k.page ≥ 16) || (match s.kvOldest (k.page >>> 27) with
    | some b => b != k.berth
    | none => false)

/-- A full unit refuses query n BUSY (R267, R391): it backs off, its sender holds its later commands to the unit and joins the unit's list, EVC10
counts. -/
def State.kvRefuseBusy (s : State) (n : Nat) (k : KvCmd) : State :=
  let l := SMap.get [] s.kvRefused (k.page >>> 27)
  let hold (e : KvCmd) : KvCmd := if e.berth = k.berth && e.page >>> 27 = k.page >>> 27 && e.untaken then { e with held := true } else e
  { s with
    kvCmds := s.kvCmds.take n ++ { k with busy := k.busy + 1, backoff := true } :: (s.kvCmds.drop (n + 1)).map hold
    kvRefused := if l.contains k.berth || decide (l.length ≥ 64) then s.kvRefused else SMap.put s.kvRefused (k.page >>> 27) (l ++ [k.berth])
    }.timing k.berth 10

/-- A query that its unit has taken waits there (R388). -/
def State.kvWait (s : State) (n : Nat) (k : KvCmd) : State :=
  if k.waits then s else { s with kvCmds := setAt s.kvCmds n { k with waits := true } }

/-- A unit takes query n: its sender leaves the unit's list (R267). -/
def State.kvTake (s : State) (n : Nat) (k : KvCmd) : State :=
  if k.busy = 0 then s
  else { s with
    kvCmds := setAt s.kvCmds n { k with busy := 0 }
    kvRefused := SMap.put s.kvRefused (k.page >>> 27) ((SMap.get [] s.kvRefused (k.page >>> 27)).erase k.berth) }

/-- Do rows 4 or 8 of R388 keep a query that waits: is its page not yet opened, or not yet long enough? -/
def KvHdr.keeps (h : KvHdr) (dh : Nat) (fmt : Bool) (l : Nat) : Bool :=
  decide (h.st = .free) || (decide (h.st = .opened) && dh == h.dh && fmt == h.fmt && decide (l ≤ h.capacity) && decide (h.len < l))

/-- Resolve query n by the first row of R388 that applies. One that rows 4 or 8 keep waiting waits on where its page is moved meanwhile. -/
def State.kvResolve (s : State) (n : Nat) (k : KvCmd) (amode dh : Nat) (fmt : Bool) (sigma l tag : Nat) (q : List Nat) : State :=
  let h := s.kvHdr k.page
  let answer (status : Nat) : State := s.sendTriple n k (emptyTriple tag status dh) none
  if l = 0 then answer 0
  else if h.st = .unalloc || h.asid ≠ k.asid then answer 4
  else if !h.resident then
    if amode = 0 || (k.waits && h.keeps dh fmt l) then s.kvWait n k
    else (s.timing k.berth 12).sendTriple n k (emptyTriple tag 5 dh) (if amode = 2 then some k.addr else none)
  else if h.st = .free then s.kvWait n k
  else if dh ≠ h.dh || fmt ≠ h.fmt then answer 3
  else if l > h.capacity then answer 2
  else if h.len < l then (if h.st = .sealed then answer 1 else s.kvWait n k)
  else
    let span := l * dhOf h.dh * h.eb
    match (s.badKvRow k.page 0 span).or (s.badKvRow k.page 8192 span) with
    | some w =>
      let free (j : Nat) : Nat := (Config.freeW32 (s.fresh + j)).toNat
      let t := { s with fresh := s.fresh + 258 }.kverrLog w 1
      (t.sendTriple n k (tripleBytes (free 0) (free 1) tag 6 l ((upTo (dhOf h.dh)).map (fun i => free (2 + i)))) none).rollbackFault
        k.berth k.slip 25 k.addr (some w)
    | none =>
      let r := s.kvScan k.page h q sigma l
      s.sendTriple n k (tripleBytes r.1 r.2.1 tag 0 l r.2.2) none

/-- KV_QUERY_RESOLVE (R388, R391): command n, a query, is resolved by the page's state, or waits; a full unit refuses it. -/
def execKvQueryResolve (n : Nat) (s : State) : Out :=
  match s.kvCmds[n]? with
  | none => .next s
  | some k =>
    match k.op with
    | .append _ _ _ _ _ => .next s
    | .query _ _ _ amode dh fmt sigma l tag q =>
      if k.backoff || (!k.waits && s.kvBehind n k) || s.heldByCheckpoint k.berth k.slip then .next s
      else if !k.waits && s.kvFull k then .next (s.kvRefuseBusy n k)
      else .next ((s.kvTake n k).kvResolve n { k with busy := 0 } amode dh fmt sigma l tag q)

/-- The berth where a triple lands (R386). -/
def Triple.place (t : Triple) : Nat := destBerth t.berth t.dest

/-- The slip whose banks a triple lands in (R390): at a LOCAL destination its issuer's, else that which holds the sync word's bank. -/
def State.tripleSlip (s : State) (t : Triple) : Option Nat :=
  if bitsOf t.dest.toNat 63 60 = 1 then some t.slip else (s.berth t.place).holder (16 * t.sync / 0x8000)

/-- Why a triple is dropped (R390), with its TVAL: a fenced berth, DEST; a bank that its destination slip does not hold, the LOCAL address of the
first byte it touches there, of the sync word last (R36); a ring granule, for which no rule gives a value (log 116). -/
def State.tripleFault (s : State) (t : Triple) : Option (Nat × Word) :=
  let x := s.berth t.place
  let off := bitsOf t.dest.toNat 18 0
  let n := t.data.length
  let outside (o : Nat) : Bool := decide (o ≥ 0x80000) || (match s.tripleSlip t with
    | some i => !bitOf (x.slip i).banks (o / 0x8000)
    | none => true)
  if x.fenced then some (9, t.dest)
  else match (bankStarts off n ++ [16 * t.sync]).find? outside with
    | some o => some (12, localAddr (if o < 0x80000 then o else off))
    | none => if (x.ringsIn off n).isEmpty then none else some (16, Config.freeWord s.fresh)

/-- The address of a triple's sync word on the path of its DEST. -/
def Triple.syncAddr (t : Triple) : Word :=
  if bitsOf t.dest.toNat 63 60 = 1 then localAddr (16 * t.sync) else remoteAddr t.place (16 * t.sync)

/-- A triple lands and counts at its sync word, with its absent mark (R390, R393). -/
def State.landTriple (s : State) (t : Triple) : State :=
  let b := t.place
  let off := bitsOf t.dest.toNat 18 0
  let k := scratchKey b (16 * t.sync)
  let s1 := (granulesOf off t.data.length).foldl (fun u g => u.landGranule b k g) (s.storeScratch b off t.data)
  let s2 := s1.contribute b (16 * t.sync) t.data.length (b2n t.arr) false
  match t.absent, SMap.get? s2.syncs k with
  | some a, some w => s2.setSync k { w with absent := some a }
  | _, _ => s2

/-- TRIPLE_LANDING (R390): triple n lands, is held until its sync word is defined, or is dropped with a stop of its domain; where the sync word
cannot be read, its domain rolls back (R439, log 115). -/
def execTripleLanding (n : Nat) (s : State) : Out :=
  match s.triples[n]? with
  | none => .next s
  | some t =>
    if s.heldByCheckpoint t.berth t.slip then .next s
    else
      let s1 : State := { s with triples := dropAt s.triples n }
      match s.tripleFault t with
      | some (cause, tv) => .next (s1.freshened.stopFor t.berth t.slip 1 cause tv t.owner)
      | none =>
        let k := scratchKey t.place (16 * t.sync)
        if (s.syncAt t.place (16 * t.sync)).isNone then .next s
        else if s.poisoned k 16 then .next ((s1.logBad t.place k 16).rollbackFor t.berth t.slip 25 t.syncAddr t.owner)
        else .next (s1.landTriple t)

/-- KV_PAGE_RECALL (R393): a page that is not resident becomes so. -/
def execKvPageRecall (key : Nat) (s : State) : Out :=
  let h := s.kvHdr key
  if h.resident then .next s else .next (s.setKv key { h with resident := true })

/-- KV_PAGE_MOVE (R393): the page moves to the CXL tier; its header stays, marked not resident. An UNALLOC page is no one's. -/
def execKvPageMove (key : Nat) (s : State) : Out :=
  let h := s.kvHdr key
  if h.st = .unalloc then .next s else .next (s.setKv key { h with resident := false })

end Sys2Proof.Machine
end

