-- ==== Sys2Proof/Machine/Messages.lean ====
section
/-! DEFINITION. Messages, windows and checkpoints (spec/13 R253 to R268, spec/16 R322, spec/23 R422 to R426, R444). -/
namespace Sys2Proof.Machine
open Sys2Proof

/-! ### Issue (R255, R256) -/

/-- What a handler serves, where one runs. -/
def State.sourceOf (s : State) (b : Nat) : Option HSource := (s.berth b).handler.map Handler.source

/-- The window and the sequence number that the next item takes (R256, R264, R265). -/
def State.nextSeq (s : State) (c : Ctx) : Nat × Nat :=
  let p := s.slip c.b c.i
  if c.hnd && s.sourceOf c.b == some .item then ((p.wseq + 1) % (1 <<< 32), p.hseq) else (p.wseq, p.sseq)

/-- Count one item issued. -/
def State.countItem (s : State) (c : Ctx) : State :=
  let h := c.hnd && s.sourceOf c.b == some .item
  s.modSlip c.b c.i (fun p => if h then { p with hseq := p.hseq + 1 } else { p with sseq := (p.sseq + 1) % (1 <<< 32) })

/-- Send an item to a member (R256): it is unacknowledged until the receiver answers. -/
def State.issueItem (s : State) (c : Ctx) (m : Member) (kind : ItemKind) : State :=
  let p := s.slip c.b c.i
  let w := s.nextSeq c
  let item : Item := { kind := kind, sidx := p.sidx, sseq := w.2, win := w.1, src := c.b, srcSlip := c.i, srcTag := p.tag,
                       dst := m.berth, dstSlip := m.slip, dtag := m.tag }
  ((s.countItem c).modSlip c.b c.i (fun q => { q with unacked := q.unacked ++ [item] })).transmit c.b m.berth (.item item)

/-- The member of the slip's group that holds a bank of a berth by the region's placement (R256): one whose slip holds it now, to whom its PRED
may have passed it (R221), else the one that was placed with it. -/
def State.bankMember (s : State) (p : Slip) (b bank : Nat) : Option Member :=
  let here := p.members.filter (fun m => m.berth == b)
  (here.find? (fun m => (s.slip b m.slip).tag == m.tag && bitOf (s.slip b m.slip).banks bank)).or (here.find? (fun m => bitOf m.banks bank))

/-- The low n bytes of a wide value. -/
def lowBytes (v : Wide) (n : Nat) : Wide := BitVec.ofNat 512 (v.toNat % (1 <<< (8 * n)))

/-- The misuse of an instruction that needs a window group, or a member of it (R254, R256). -/
def noGroup (s : State) : Res := .trap s 16 (misuse 5 0)

/-- SEND (R255, R256): a message of n + 1 doublewords to an actor of the group. -/
def execSend (n : BitVec 3) (a : BitVec 5) (c : BitVec 5) (s : State) : Out :=
  instr (Enc.send n a c) {} [.src .g a.toNat 0, .src .w c.toNat 0]
    (fun k s =>
      let p := s.slip k.b k.i
      let x := s.berth k.b
      if p.members.isEmpty then noGroup s
      else match p.members.find? (fun m => m.actor == bitsOf (s.readG k a.toNat 0).toNat 31 0) with
        | none => noGroup s
        | some m =>
          let v := s.readW k c.toNat 0
          let pc := natWord (elemOf v 64 0)
          if pc.toNat < x.hbase.toNat || pc.toNat ≥ x.hlimit.toNat then .trap s 17 pc
          else .ok (s.issueItem k m (.send (lowBytes v (8 * (n.toNat + 1))) (n.toNat + 1)))) s

/-- PUT (R255, R256): bytes for a member's scratchpad, applied at the close of the window. -/
def execPut (z : BitVec 3) (a : BitVec 5) (c : BitVec 5) (s : State) : Out :=
  instr (Enc.put z a c) {} [.src .g a.toNat 0, .src .w c.toNat 0]
    (fun k s =>
      let p := s.slip k.b k.i
      let ea := s.readG k a.toNat 0
      let n := 1 <<< z.toNat
      let off := bitsOf ea.toNat 18 0
      if p.members.isEmpty then noGroup s
      else match s.remoteBerth ea.toNat with
        | none => .trap s 9 ea
        | some b =>
          if ea.toNat % n ≠ 0 then .trap s 8 ea
          else match s.bankMember p b (off / 0x8000) with
            | none => noGroup s
            | some m => .ok (s.issueItem k m (.put off n (lowBytes (s.readW k c.toNat 0) n)))) s

/-- GET (R255, R256, R261): bytes of a member's scratchpad, for a LOCAL destination. -/
def execGet (z : BitVec 3) (a : BitVec 5) (b : BitVec 5) (s : State) : Out :=
  instr (Enc.get z a b) { hnd := false } [.src .g a.toNat 0, .src .g b.toNat 0]
    (fun k s =>
      let p := s.slip k.b k.i
      let ea := s.readG k a.toNat 0
      let da := s.readG k b.toNat 0
      let n := 1 <<< z.toNat
      let off := bitsOf ea.toNat 18 0
      let dst := bitsOf da.toNat 18 0
      if p.members.isEmpty then noGroup s
      else match s.remoteBerth ea.toNat with
        | none => .trap s 9 ea
        | some src =>
          if bitsOf da.toNat 63 60 ≠ 1 || bitsOf da.toNat 59 19 ≠ 0 then .trap s 9 da
          else if ea.toNat % n ≠ 0 then .trap s 8 ea
          else if da.toNat % n ≠ 0 then .trap s 8 da
          else match s.bankMember p src (off / 0x8000) with
            | none => noGroup s
            | some m =>
              if !s.holdsBank k dst then .trap s 12 da
              else
                let w := s.nextSeq k
                .ok ((s.issueItem k m (.get off n dst)).modSlip k.b k.i (fun q =>
                  { q with gets := q.gets ++ [{ win := w.1, seq := w.2, off := dst, size := n }] }))) s

/-! ### Arrivals and acknowledgements (R259, R260, R266 to R268) -/

/-- Count an item addressed to a slip in a window (R260). -/
def Slip.countAddressed (p : Slip) (w : Nat) : Slip :=
  if p.addressed.any (fun e => e.1 == w) then
    { p with addressed := p.addressed.map (fun e => if e.1 = w then (w, e.2 + 1) else e) }
  else { p with addressed := p.addressed ++ [(w, 1)] }

/-- Items a slip can park for one window (R260). -/
def Slip.parkCap (p : Slip) : Nat := 16 + p.spillCap

/-- Items parked for a window's parity. -/
def Slip.parkedFor (p : Slip) (w : Nat) : Nat := (p.parked.filter (fun i => i.win % 2 == w % 2)).length

/-- The key of a GLOBAL address in a region's address space, which its root table translates (R270, R277); none where the page is absent. -/
def State.spaceKey (s : State) (pkg root va : Nat) : Option Nat :=
  match s.walkFrom pkg root (bitsOf va 56 0) with
  | .leaf e base _ => some (physKey pkg (leafAddr e base (bitsOf va 56 0)))
  | .absent => none
  | .malformed => none

/-- An item that a slip parks beyond 16 of its window's parity takes a 128-byte record of its share of the spill area (R260); the spec gives
the record no layout, and its bytes are free values (log 57). -/
def State.spillItem (s : State) (i : Item) : State :=
  let q := s.slip i.dst i.dstSlip
  let n := q.parkedFor i.win
  if n < 16 then s
  else match s.spaceKey (pkgOf i.dst) (s.berth i.dst).root (q.spillBase + 128 * (i.win % 2 * q.spillCap + (n - 16))) with
    | some k => { s.poke k ((upTo 128).map (fun j => Config.freeByte (64 * s.fresh + j))) with fresh := s.fresh + 2 }
    | none => s

/-- Does an item find its target gone (R262, R266)? -/
def Slip.staleFor (p : Slip) (tag : Nat) : Bool := !p.bound || p.tag != tag || p.halting

/-- An item at its receiver (R259, R260, R266): parked under its window, or dropped; the answer goes back. -/
def State.receiveItem (s : State) (i : Item) : State :=
  let p := s.slip i.dst i.dstSlip
  let answer (t : State) (r : AckReason) : State := t.transmit i.dst i.src (.ack i.srcSlip i.srcTag r i)
  if p.staleFor i.dtag then answer s .stale
  else
    let q := p.countAddressed i.win
    if q.parkedFor i.win ≥ q.parkCap then
      answer (s.setSlip i.dst i.dstSlip { q with overflowed := i.win :: q.overflowed }) .overflow
    else answer ((s.spillItem i).setSlip i.dst i.dstSlip { q with parked := q.parked ++ [i] }) .accept

/-- ITEM_ARRIVAL (R266): packet n, an item, is parked, refused or dropped. -/
def execItemArrival (n : Nat) (s : State) : Out :=
  match s.arriving n with
  | some p =>
    match p.body with
    | .item i => .next (s.takeItem n p (fun t => t.receiveItem i))
    | .reply _ _ _ => .next s
    | .ack _ _ _ _ => .next s
    | .advance _ _ _ _ => .next s
    | .freed _ _ _ _ => .next s
    | .chst _ _ _ _ _ _ _ _ => .next s
    | .arrival _ _ _ => .next s
    | .launch _ _ _ => .next s
  | none => .next s

/-- No reply will come for a GET (R262, R266). -/
def Slip.dropGet (p : Slip) (i : Item) : Slip :=
  { p with gets := p.gets.map (fun g => if g.win == i.win && g.seq == i.sseq then { g with owed := false } else g) }

/-- A STALE of an item, recorded at its sender (R266, R268). -/
def Slip.recordStale (p : Slip) (i : Item) : Slip :=
  { p.dropGet i with stale := p.stale ++ [{ win := i.win, actor := i.dtag >>> 32, sseq := i.sseq }] }

/-- Is an item one of the slip's own unacknowledged ones? -/
def Item.same (i j : Item) : Bool := i.win == j.win && i.sseq == j.sseq

/-- The sender acts on an acknowledgement (R266). -/
def Slip.acknowledged (p : Slip) (r : AckReason) (i : Item) : Slip :=
  let q := { p with unacked := p.unacked.filter (fun j => !j.same i) }
  match r with
  | .accept => q
  | .stale => q.recordStale i
  | .overflow => q.dropGet i

/-- ACK_ARRIVAL (R266, R442): packet n, an acknowledgement, reaches the sender. -/
def execAckArrival (n : Nat) (s : State) : Out :=
  match s.arriving n with
  | some { src := _, dst := b, body := .ack i tag r item, busy := _, waiting := _ } =>
    let t := s.dropPacket n
    let u := if r = .accept then t else t.timing b 10
    if (u.slip b i).bound && (u.slip b i).tag == tag then .next (u.modSlip b i (fun p => p.acknowledged r item)) else .next u
  | _ => .next s

/-- BUSY_RESEND (R267, R391): the back-off of packet n is over, and it is sent again; the numbers past the last packet name the valley
commands in order. What is sent again crosses the links again (R454). -/
def execBusyResend (n : Nat) (s : State) : Out :=
  match s.net[n]? with
  | some p => if p.waiting then .next { s.linkFlit p.src p.dst with net := setAt s.net n { p with waiting := false } } else .next s
  | none => match s.kvCmds[n - s.net.length]? with
    | some k =>
      let t := if k.backoff then s.linkFlits k.berth (unitPort k.page) k.op.bytes else s
      .next { t with kvCmds := setAt s.kvCmds (n - s.net.length) { k with backoff := false } }
    | none => .next s

/-- GET_REPLY_ARRIVAL (R257, R266): packet n, a reply, is held at the requester's interface, or refused. -/
def execGetReplyArrival (n : Nat) (s : State) : Out :=
  match s.arriving n with
  | some { src := a, dst := b, body := .reply i tag r, busy := y, waiting := w } =>
    .next (s.takeItem n { src := a, dst := b, body := .reply i tag r, busy := y, waiting := w } (fun t =>
      if (t.slip b i).bound && (t.slip b i).tag == tag then
        t.modSlip b i (fun p => { p with
          replies := p.replies ++ [r]
          gets := p.gets.map (fun g => if g.win == r.win && g.seq == r.seq then { g with owed := false } else g) })
      else t))
  | _ => .next s

/-! ### Handlers entered by messages (R226, R263, R265) -/

/-- A handler's bank at entry: w0 and its words 1 to 7 in g9 to g15, g1 to g3. -/
def handlerBank (data : Wide) (a b c : Nat) : SMap Word × SMap Wide :=
  (((1, natWord a) :: (2, natWord b) :: (3, natWord c) :: (upTo 7).map (fun j => (9 + j, natWord (elemOf data 64 (j + 1))))), [(0, data)])

/-- Start a handler for a slip of a berth at word 0 of its message. -/
def State.startHandler (s : State) (b i : Nat) (src : HSource) (data : Wide) (x y z : Nat) : State :=
  let bank := handlerBank data x y z
  let len := s.lenAt { b := b, i := i, hnd := true }
  let h : Handler := { slip := i, source := src, g := bank.1, w := bank.2, live := Queue.start len (natWord (elemOf data 64 0)) }
  s.modBerth b (fun k => { k with handler := some h })

/-- The message of a launch: x1 to x8 (R265). -/
def Launch.data (l : Launch) : Wide := wideOf 64 ((upTo 8).map (fun j => (l.words.getD j 0).toNat))

/-- Start the handler of a launch (R265). -/
def State.startLaunch (s : State) (b i : Nat) (src : HSource) (l : Launch) : State :=
  s.startHandler b i src l.data (l.queue % 256) (mod17 l.packet) 0

/-- A launch that no slip will take (R265): the queue that sent it takes error 5. The failing packet that the event names (R242) is the one
whose LAUNCH sent it, though the queue's HEAD may have passed it (log 113). -/
def State.launchStale (s : State) (l : Launch) : State := s.queueErrorWith l.pkg l.queue 5 (leBytes 4 l.packet)

/-- A launch at its target (R265, R266): STALE where the slip has gone; at a control berth its handler runs, and IPEND.MSG is set; else it is
queued, or refused where 16 are. -/
def State.receiveLaunch (s : State) (n : Nat) (p : Packet) (i tag : Nat) (l : Launch) : State :=
  let q := s.slip p.dst i
  if !isControl p.dst && !q.staleFor tag && decide (q.launches.length ≥ 16) then s.busyReply n p
  else s.takeItem n p (fun t =>
    if q.staleFor tag then t.launchStale l
    else if isControl p.dst then
      let t := t.modBerth p.dst (fun x => { x with ipMsg := true })
      if (t.berth p.dst).handler.isSome then t.modBerth p.dst (fun x => { x with controlLaunches := x.controlLaunches ++ [l] })
      else t.startLaunch p.dst i .control l
    else t.modSlip p.dst i (fun r => { r with launches := r.launches ++ [l] }))

/-- LAUNCH_ARRIVAL (R265): packet n, a launch, is queued, refused or run. -/
def execLaunchArrival (n : Nat) (s : State) : Out :=
  match s.arriving n with
  | some p =>
    match p.body with
    | .launch i tag l => .next (s.receiveLaunch n p i tag l)
    | .item _ => .next s
    | .reply _ _ _ => .next s
    | .ack _ _ _ _ => .next s
    | .advance _ _ _ _ => .next s
    | .freed _ _ _ _ => .next s
    | .chst _ _ _ _ _ _ _ _ => .next s
    | .arrival _ _ _ => .next s
  | none => .next s

/-! ### Closing a window (R258, R322) -/

/-- WINDOW (R258): the slip blocks until its window is closed; its touch marks clear (R319). -/
def execWindow (k : BitVec 1) (g : BitVec 1) (s : State) : Out :=
  instr (Enc.window k g) { hnd := false } []
    (fun c s =>
      let t := (s.clearTouch c.b c.i).modSlip c.b c.i (fun p => { p.resolve (s.lenAt c) with closing := some { k := k == 1, g := g == 1 } })
      .stay (t.block c .window)) s

/-- Is everything a slip issued complete and visible (R322)? Its items of a window are answered. -/
def State.quiet (s : State) (b i w : Nat) : Bool :=
  !((s.slip b i).unacked.any (fun x => x.win == w)) &&
  !(s.copies.any (fun k => k.berth == b && k.slip == i)) &&
  !((s.berth b).crane.open_.any (fun k => k.slip == i)) &&
  !s.kvPending b i && !s.bankPending b i && !s.chstPending b i

/-- The members of a slip's group (R254): itself alone where it has none. -/
def State.group (s : State) (b i : Nat) : List Member :=
  let p := s.slip b i
  if p.members.isEmpty then [{ berth := b, slip := i, actor := p.actor, tag := p.tag, banks := p.banks }] else p.members

/-- Change the slip of a member, while it still carries the member's actor. -/
def State.atMember (s : State) (m : Member) (f : Slip → Slip) : State :=
  if (s.slip m.berth m.slip).tag = m.tag then s.modSlip m.berth m.slip f else s

/-- Is an ARRIVE of a slip still on its way? -/
def State.arrivalsUnderWay (s : State) (b i : Nat) : Bool :=
  s.net.any (fun p => p.src == b && (match p.body with
    | .arrival _ srcSlip _ => srcSlip == i
    | .item _ => false
    | .reply _ _ _ => false
    | .ack _ _ _ _ => false
    | .advance _ _ _ _ => false
    | .freed _ _ _ _ => false
    | .chst _ _ _ _ _ _ _ _ => false
    | .launch _ _ _ => false))

/-- CLOSE_MARKER_ARRIVAL (R258, R262, R322): a member's marker for its window leaves, combined up the tree, and has arrived at
every member; that of a halting member is its final one. It stays behind what its pairs have sent, refused items too (R267). -/
def execCloseMarkerArrival (b i : Nat) (s : State) : Out :=
  let p := s.slip b i
  let ms := s.group b i
  if !s.quiet b i p.wseq then .next s
  else if p.halting then
    if p.left.any (fun m => m.tag == p.tag) || ms.any (fun m => s.pairHolds b m.berth) then .next s
    else
      let me : Member := { berth := b, slip := i, actor := p.actor, tag := p.tag, banks := p.banks }
      .next (ms.foldl (fun t m => t.atMember m (fun q => { q with left := q.left ++ [me] })) (ms.foldl (fun u m => u.linkFlit b m.berth) s))
  else match p.closing with
    | none => .next s
    | some c =>
      if c.marked || (c.k && s.arrivalsUnderWay b i) || ms.any (fun m => s.pairHolds b m.berth) then .next s
      else
        let t := (ms.foldl (fun u m => u.linkFlit b m.berth) s).modSlip b i (fun q => { q with closing := some { c with marked := true } })
        .next (ms.foldl (fun u m => u.atMember m (fun q =>
          if q.markers.contains (p.sidx, p.wseq) then q else { q with markers := q.markers ++ [(p.sidx, p.wseq)] })) t)

/-- The members that have not left a slip's group (R262). -/
def State.staying (s : State) (b i : Nat) : List Member :=
  let p := s.slip b i
  (s.group b i).filter (fun m => !(p.left.any (fun x => x.tag == m.tag)))

/-- Have the markers of every member, and every reply owed, arrived (R258)? SIDX counts the members in order (R254). -/
def State.markersIn (s : State) (b i : Nat) : Bool :=
  let p := s.slip b i
  let ms := s.group b i
  ((upTo ms.length).zip ms).all (fun e =>
    p.left.any (fun x => x.tag == e.2.tag) || p.markers.contains (if p.members.isEmpty then p.sidx else e.1, p.wseq)) &&
  !(p.gets.any (fun g => g.win == p.wseq && g.owed))

/-- Items in the order of R258. -/
def insertItem (i : Item) : List Item → List Item
  | [] => [i]
  | j :: js => if i.sidx < j.sidx || (i.sidx = j.sidx && i.sseq < j.sseq) then i :: j :: js else j :: insertItem i js
def sortItems (l : List Item) : List Item := l.foldl (fun acc i => insertItem i acc) []

/-- The GETs of a window whose reply is owed, and has arrived when the window is checked, in the order of their issue (R258). -/
def Slip.owedReplies (p : Slip) (w : Nat) : List GetDest :=
  p.gets.filter (fun g => g.win == w && p.replies.any (fun r => r.win == w && r.seq == g.seq))

/-- The first ring byte among the destinations of a window's PUTs and of the replies owed: TVAL of cause 16, reason 6 (R258). PUTs before replies
(log 83). -/
def State.windowRing (s : State) (b : Nat) (p : Slip) : Option Word :=
  let spans := (sortItems (p.parked.filter (fun i => i.win == p.wseq))).filterMap (fun i => match i.kind with
      | .put off n _ => some (off, n)
      | .send _ _ => none
      | .get _ _ _ => none) ++
    (p.owedReplies p.wseq).map (fun g => (g.off, g.size))
  firstSome (fun r => (lowest (((s.berth b).ringsIn r.1 r.2).map (fun h => (max r.1 h.2.2.base, h.2.1)))).map
    (fun e => channelTval 6 e.2 e.1)) spans

/-- The first byte that the window's parked items write or read, or its replies write, in a bank that the slip does not hold (R36): its LOCAL
address. -/
def Slip.windowOutside (p : Slip) : Option Word :=
  let spans := (sortItems (p.parked.filter (fun i => i.win == p.wseq))).filterMap (fun i => match i.kind with
      | .put off n _ => some (off, n)
      | .get off n _ => some (off, n)
      | .send _ _ => none) ++
    (p.owedReplies p.wseq).map (fun g => (g.off, g.size))
  (spans.find? (fun r => !bitOf p.banks (r.1 / 0x8000))).map (fun r => localAddr r.1)

/-- The checks of R258 before anything is applied: cause and TVAL. That of R36 stands behind the ring's (log 101). Of several STALE records the
lowest SSEQ gives TVAL (log 124). -/
def State.windowFault (s : State) (b i : Nat) : Option (Nat × Word) :=
  let p := s.slip b i
  let w := p.wseq
  if p.overflowed.contains w then
    some (22, natWord ((((p.addressed.find? (fun e => e.1 == w)).map (fun e => e.2)).getD 0) % (1 <<< 32) + p.parkCap <<< 32))
  else match s.windowRing b p with
    | some t => some (16, t)
    | none => match p.windowOutside with
    | some t => some (12, t)
    | none =>
      let first := (p.stale.filter (fun x => x.win == w)).foldl (fun best x => match best with
        | none => some x
        | some (y : StaleRec) => if x.sseq < y.sseq then some x else best) none
      first.map (fun x => (19, natWord (x.actor % (1 <<< 32) + x.sseq <<< 32)))

/-- A fault of a blocked WINDOW (R258): the slip is READY at its handler. -/
def State.windowRaise (s : State) (b i cause : Nat) (tv : Word) : State :=
  ((s.modSlip b i (fun p => { p with closing := none })).makeReady b i).raiseSlip b i cause tv false

/-- A window's item of n bytes at an offset meets a word that its code cannot correct (R439, R440): the berth records it, and cause 25 names the
word on the slip's own path (R179). -/
def State.windowBad (s : State) (b i off n : Nat) (whole : Bool) : State :=
  let w := (s.badWord (scratchKey b off) n).getD (scratchKey b off)
  (s.logBad b (scratchKey b off) n).rollbackFault b i 25 (if whole then localAddr (w - scratchKey b 0) else localAddr off)

/-- Write the held replies of a window, in the order of their GETs (R257, R258); answers whether one would write only part of an uncorrectable
word, which ends the writing (R439). -/
def State.writeReplies (s : State) (b i : Nat) : State × Bool :=
  let p := s.slip b i
  (p.gets.filter (fun g => g.win == p.wseq)).foldl (fun (t : State × Bool) g =>
    match p.replies.find? (fun r => r.win == g.win && r.seq == g.seq) with
    | some r =>
      if t.2 then t
      else if t.1.partPoisoned (scratchKey b g.off) g.size then (t.1.windowBad b i g.off g.size false, true)
      else (t.1.storeScratch b g.off (leBytes g.size r.data.toNat), false)
    | none => t) (s, false)

/-- Apply parked items until one runs a handler (R257, R258, R263): what is left stays in closing. -/
def State.applyItems (s : State) (b i : Nat) (c : Closing) : List Item → State
  | [] => s.modSlip b i (fun p => { p with closing := some { c with applying := true, items := [] } })
  | x :: xs =>
    let rest (t : State) (l : List Item) : State :=
      t.modSlip b i (fun p => { p with closing := some { c with applying := true, items := l } })
    match x.kind with
    | .put off n data =>
      if s.partPoisoned (scratchKey b off) n then (rest s (x :: xs)).windowBad b i off n false
      else (s.storeScratch b off (leBytes n data.toNat)).applyItems b i c xs
    | .get off n dst =>
      if s.poisoned (scratchKey b off) n then (rest s (x :: xs)).windowBad b i off n true
      else
        (s.transmit b x.src (.reply x.srcSlip x.srcTag
          { win := x.win, seq := x.sseq, off := dst, size := n, data := BitVec.ofNat 512 (s.natAt (scratchKey b off) n) })).applyItems b i c xs
    | .send data _ =>
      if (s.berth b).handler.isSome then rest s (x :: xs)
      else (rest s xs).startHandler b i .item data x.sidx x.sseq x.win

/-! ### Checkpoints (R422 to R426) -/

/-- The regions whose domain is a key (R416). -/
def State.regionsOf (s : State) (d : DomKey) : List Region :=
  (s.pkg d.pkg).regions.filter (fun r => r.root == d.root && r.fdom == d.fdom)

/-- The slips that carry the actors of a domain: berth and index. -/
def State.slipsOf (s : State) (d : DomKey) : List (Nat × Nat) :=
  s.berths.flatMap (fun (e : Nat × Berth) =>
    (e.2.slips.filter (fun q => q.2.bound && decide (q.2.dom = some d))).map (fun q => (e.1, q.1)))

/-- Does a slip's group hold every actor that is still bound in its domain (R422)? -/
def State.groupCovers (s : State) (b i : Nat) : Bool :=
  let ms := s.group b i
  match (s.slip b i).dom with
  | none => false
  | some d => (s.slipsOf d).all (fun e => (s.slip e.1 e.2).halting || ms.any (fun m => m.berth == e.1 && m.slip == e.2))

/-- A cell a region answers for whose MISUSE is set (R299): its address. -/
def State.regionMisuse (s : State) (r : Region) : Option Word :=
  let pk := match r.actors with
    | m :: _ => pkgOf m.berth
    | [] => 0
  let base := plainKey pk (64 * r.first)
  let plain := s.cells.find? (fun e => e.2.misuse && decide (base ≤ e.1) && decide (e.1 < base + 64 * r.ncell))
  let slips := r.actors.flatMap (fun m => if (s.slip m.berth m.slip).tag = m.tag then (s.slip m.berth m.slip).reduceCells else [])
  match plain with
  | some e => some (natWord (3 <<< 60 + (e.1 - base)))
  | none => ((slips ++ r.reduce).find? (fun e => (s.cellTag (s.forwardKey e.1)).misuse)).map (fun e => natWord e.2)

/-- A cell of a domain's regions whose MISUSE is set. -/
def State.domMisuse (s : State) (d : DomKey) : Option Word := firstSome (s.regionMisuse ·) (s.regionsOf d)

/-- Change the closing of every member that closes window w. -/
def State.modClosings (s : State) (ms : List Member) (w : Nat) (f : Closing → Closing) : State :=
  ms.foldl (fun t m => t.atMember m (fun p => if p.wseq = w then { p with closing := p.closing.map f } else p)) s

/-- The members that close window w with a flag. -/
def State.closers (s : State) (ms : List Member) (w : Nat) (f : Closing → Bool) : List Member :=
  ms.filter (fun m =>
    let p := s.slip m.berth m.slip
    p.tag == m.tag && p.wseq == w && (match p.closing with
      | some c => f c
      | none => false))

/-- The checkpoint of a slip's domain. -/
def State.ckptOf (s : State) (b i : Nat) : Option Ckpt := ((s.slip b i).dom.bind s.dom).bind Dom.ckpt

/-- Has a member applied every item of window w? -/
def State.appliedAll (s : State) (m : Member) (w : Nat) : Bool :=
  let p := s.slip m.berth m.slip
  p.tag != m.tag || p.wseq != w || (match p.closing with
    | some c => c.applying && c.items.isEmpty
    | none => false)

/-- Must the question whether the checkpoint is void still wait? What a member has yet to apply may void one that is not (R425, log 103). -/
def State.voidOpen (s : State) (b i : Nat) : Bool :=
  (match s.ckptOf b i with
   | some k => !k.void
   | none => false) && !((s.staying b i).all (s.appliedAll · (s.slip b i).wseq))

/-- Whether the domain's checkpoint is void, settled for every member by what the window has changed at all of them (R425). -/
def State.settleVoid (s : State) (b i : Nat) (c : Closing) : State :=
  if c.voided.isSome then s
  else
    let v : Bool := match s.ckptOf b i with
      | some k => k.void
      | none => false
    s.modClosings (s.staying b i) (s.slip b i).wseq (fun x => if x.voided.isSome then x else { x with voided := some v })

/-- Are a member's flags for window w not known: has it a marker for the window, and a fault of its WINDOW to serve? -/
def State.flagsOpen (s : State) (ms : List Member) (w : Nat) : Bool :=
  ms.any (fun m =>
    let p := s.slip m.berth m.slip
    p.tag == m.tag && p.wseq == w && p.closing.isNone)

/-- Does a window wait for the decision on a checkpoint: does some member close it with K, or may one (R422)? -/
def State.asksCheckpoint (s : State) (b i : Nat) : Bool :=
  s.flagsOpen (s.staying b i) (s.slip b i).wseq || !(s.closers (s.staying b i) (s.slip b i).wseq Closing.k).isEmpty

/-- Decide the checkpoint of a WINDOW.K (R422), once for all members: none while a member's flags are not known. -/
def State.decideCheckpoint (s : State) (b i : Nat) : Option State :=
  let ms := s.staying b i
  let w := (s.slip b i).wseq
  if s.flagsOpen ms w then none
  else
    let take := (s.closers ms w Closing.k).length == ms.length && s.groupCovers b i
    let t := s.modClosings ms w (fun x => { x with decided := some take })
    if !take then some t
    else match (s.slip b i).dom with
      | none => some t
      | some d => match s.domMisuse d with
        | some a => some (s.report b i 1 10 a)
        | none =>
          let old : Dom := (t.dom d).getD { key := d }
          some (t.setDom { old with shadow := ((s.regionsOf d).map Region.nshadow).foldl (· + ·) 0, next := some { window := w, waiting := ms, snaps := [] } })

/-- The events a WINDOW counts as it completes (R422, R425, R442); none while INTRAP = 1. -/
def State.countWindow (s : State) (b i : Nat) (c : Closing) : State :=
  let id := 4 * b + i
  let counted : Bool := match (s.slip b i).dom.bind s.dom with
    | some d => (match d.ckpt with
      | some k => k.counted.contains id
      | none => false)
    | none => false
  let void := c.voided == some true && !counted
  let s1 := if !void then s else match (s.slip b i).dom.bind s.dom with
    | some d => s.setDom { d with ckpt := d.ckpt.map (fun k => { k with counted := id :: k.counted }) }
    | none => s
  s1.modSlip b i (fun p =>
    if p.intrap then p
    else (p.addEvc 5 (b2n (c.decided == some true))).addEvc 6 (b2n (c.decided == some false) + b2n void))

/-- The shares of EVC0 to EVC7 of a slip (R443). -/
def Slip.shares (p : Slip) : List Nat := (upTo 8).map (fun k => SMap.get 0 p.evc k)

/-- Write the gathered sums to window cell 0 of the member with SIDX 0 (R444). -/
def State.writeGather (s : State) (ms : List Member) (sums : List Nat) : State :=
  match ms with
  | [] => s
  | m :: _ =>
    let w := (s.slip m.berth m.slip).plwin.toNat
    if (s.slip m.berth m.slip).tag ≠ m.tag || w >>> 32 = 0 then s
    else
      let k := plainKey (pkgOf m.berth) (64 * (w % (1 <<< 32)))
      (((s.jot m.berth m.slip (.cell k)).defineCell k false 0 0).poke k (sums.flatMap (leBytes 8))).usedCell k

/-- Does the cell that the gather writes lie in a bank in retention, so that the gather waits for the exit (R438)? -/
def State.gatherAsleep (s : State) (b i : Nat) : Bool :=
  match s.group b i with
  | [] => false
  | m :: _ => s.cellAsleep (plainKey (pkgOf m.berth) (64 * ((s.slip m.berth m.slip).plwin.toNat % (1 <<< 32))))

/-- A member hands its shares to the gather; the last of them writes the sums. -/
def State.gatherShares (s : State) (b i : Nat) : State :=
  let w := (s.slip b i).wseq
  let t := s.modSlip b i (fun p => { p with closing := p.closing.map (fun c => { c with gathered := some p.shares }) })
  let gs := t.closers (t.staying b i) w Closing.g
  let all := gs.map (fun m => ((t.slip m.berth m.slip).closing.bind Closing.gathered))
  if all.all Option.isSome then
    t.writeGather (t.group b i) ((upTo 8).map (fun k => (all.map (fun o => (o.getD []).getD k 0)).foldl (· + ·) 0))
  else t

/-- Have all members that gather handed in their shares? -/
def State.gathered (s : State) (b i : Nat) : Bool :=
  let ms := s.staying b i
  let w := (s.slip b i).wseq
  (s.closers ms w Closing.g).all (fun m => ((s.slip m.berth m.slip).closing.bind Closing.gathered).isSome) && !s.flagsOpen ms w

/-- The slip as its WINDOW completes (R258, R264). -/
def Slip.closed (p : Slip) : Slip :=
  let w := p.wseq
  { p with
    wseq := (w + 1) % (1 <<< 32)
    sseq := p.hseq
    hseq := 0
    closing := none
    early := []
    parked := p.parked.filter (fun x => x.win ≠ w)
    replies := p.replies.filter (fun x => x.win ≠ w)
    gets := p.gets.filter (fun x => x.win ≠ w)
    stale := p.stale.filter (fun x => x.win ≠ w)
    addressed := p.addressed.filter (fun x => x.1 ≠ w)
    overflowed := p.overflowed.filter (fun x => x ≠ w)
    markers := p.markers.filter (fun x => x.2 ≠ w) }

/-- A commit of a domain (R426, R449): a record for each of the regions it covers goes to the record ring, and the lines that
completed transfers of their actors landed, on whatever package, are released. -/
def State.commitDom (s : State) (d : DomKey) (kind window : Nat) (rs : List Region) : State :=
  let covers (u : Landed) : Bool := decide (u.dom = d) && rs.any (fun r => r.block == u.region)
  let t := s.pkgs.foldl (fun (t : State) e => t.modPkg e.1 (fun p => { p with
    outgoing := p.outgoing ++ p.uncovered.filter covers
    uncovered := p.uncovered.filter (fun u => !covers u) })) s
  t.writeRecords d.pkg (rs.map (fun r => completionRecord r.queue r.block kind window))

/-- Is an item of the window after a checkpoint one that a handler of its sender issued before the checkpoint (R264)? -/
def Ckpt.before (k : Ckpt) (x : Item) : Bool :=
  k.snaps.any (fun n => n.berth == x.src && n.index == x.srcSlip && n.slip.tag == x.srcTag && x.win == n.slip.wseq &&
    decide (x.sseq < n.slip.sseq))

/-- The items on their way that handlers issued before a checkpoint. -/
def State.itemsBefore (s : State) (k : Ckpt) : List Item :=
  s.net.filterMap (fun p => match p.body with
    | .item x => if k.before x then some x else none
    | .reply _ _ _ => none
    | .ack _ _ _ _ => none
    | .advance _ _ _ _ => none
    | .freed _ _ _ _ => none
    | .chst _ _ _ _ _ _ _ _ => none
    | .arrival _ _ _ => none
    | .launch _ _ _ => none)

/-- The arrivals of a domain on their way that its checkpoint's members did not send: those of actors that had halted. -/
def State.arrivalsBefore (s : State) (d : DomKey) (k : Ckpt) : List Packet :=
  s.net.filter (fun p => match p.body with
    | .arrival _ i o => (o.map Owner.dom) == some d && !k.holds p.src i
    | .item _ => false
    | .reply _ _ _ => false
    | .ack _ _ _ _ => false
    | .advance _ _ _ _ => false
    | .freed _ _ _ _ => false
    | .chst _ _ _ _ _ _ _ _ => false
    | .launch _ _ _ => false)

/-- The slots that notices on their way to a handle announce. -/
def State.noticesTo (s : State) (b i h : Nat) : Nat :=
  (s.net.map (fun p => match p.body with
    | .advance j k _ n => if p.dst == b && j == i && k == h then n else 0
    | .freed j k _ n => if p.dst == b && j == i && k == h then n else 0
    | .item _ => 0
    | .reply _ _ _ => 0
    | .ack _ _ _ _ => 0
    | .chst _ _ _ _ _ _ _ _ => 0
    | .arrival _ _ _ => 0
    | .launch _ _ _ => 0)).foldl (· + ·) 0

/-- A snapshot in which every notice of an actor that had halted counts as delivered: no replay sends it again. -/
def State.finalChans (s : State) (k : Ckpt) (n : Snap) : Snap :=
  { n with slip := { n.slip with chans := n.slip.chans.map (fun c =>
      let x := (s.slip n.berth n.index).chan c.1
      let more := s.noticesTo n.berth n.index c.1
      if k.holds c.2.peer c.2.peerSlip then c
      else (c.1, if c.2.role = .consumer then { c.2 with tk := mod32 (x.tk + more) } else { c.2 with hk := mod32 (x.hk + more) })) } }

/-- A snapshot with the items that have come since, all of them handlers' items of the next window (R264, R422), and the
launches it has used since. -/
def State.finalSnap (s : State) (items : List Item) (n : Snap) : Snap :=
  let p := s.slip n.berth n.index
  if p.tag ≠ n.slip.tag || !p.bound then { n with slip := { n.slip with used := [] } }
  else { n with slip := { n.slip with
      parked := p.parked
      addressed := p.addressed
      overflowed := p.overflowed
      stale := p.stale
      unacked := items.filter (fun x => x.src == n.berth && x.srcSlip == n.index)
      used := [] } }

/-- The last member has completed (R422): the checkpoint replaces the one before it, and commits. -/
def State.sealCheckpoint (s : State) (d : Dom) (k : Ckpt) : State :=
  let items := s.itemsBefore k
  let k1 : Ckpt := { k with
    snaps := k.snaps.map (fun n => s.finalSnap items (s.finalChans k n))
    items := items
    arrivals := k.arrivals ++ s.arrivalsBefore d.key k
    asleep := ((s.regionsOf d.key).filter Region.suspended).map Region.block }
  let s1 := k.snaps.foldl (fun t n => t.modSlip n.berth n.index (fun p => { p with used := p.used.drop n.slip.used.length })) s
  (s1.setDom { d with ckpt := some k1, next := none, replaying := false }).commitDom d.key 1 k.window (s.regionsOf d.key)

/-- A member's part of the checkpoint being taken (R422, R423): its snapshot, and with the last one the checkpoint. -/
def State.snapshot (s : State) (b i : Nat) : State :=
  match (s.slip b i).dom.bind s.dom with
  | none => s
  | some d => match d.next with
    | none => s
    | some k =>
      let p := s.slip b i
      let k1 := { k with
        waiting := k.waiting.filter (fun m => !(m.berth == b && m.slip == i))
        held := k.held ++ s.heldArrivals.filter (fun h =>
          decide (scratchKey b 0 ≤ h) && decide (h < scratchKey b 0 + 0x80000) && bitOf p.banks ((h - scratchKey b 0) / 0x8000))
        snaps := k.snaps ++ [{ berth := b, index := i, slip := p, crane := if p.tiles = 0 then none else some (s.berth b).crane }] }
      if k1.waiting.isEmpty then s.sealCheckpoint d k1 else s.setDom { d with next := some k1 }

/-- Is a slip the last member of the checkpoint being taken, whose commit has to wait for the record ring (R426, R449)? -/
def State.commitWaits (s : State) (b i : Nat) : Bool :=
  match (s.slip b i).dom.bind s.dom with
  | none => false
  | some d => match d.next with
    | none => false
    | some k => k.waiting.all (fun m => m.berth == b && m.slip == i) && !(s.pkg d.key.pkg).commitFits (s.regionsOf d.key).length

/-- WINDOW completes (R258): the slip goes on after it; the last member of a checkpoint with its commit. -/
def State.completeWindow (s : State) (b i : Nat) (c : Closing) : State :=
  if c.decided == some true && s.commitWaits b i then s
  else
  let s1 := (((s.countWindow b i c).modSlip b i Slip.closed).advance { b := b, i := i, hnd := false } none true).makeReady b i
  if c.decided == some true then s1.snapshot b i else s1

/-- Everything has been applied: K, then G, then completion (R258, R422, R444). -/
def State.finishWindow (s0 : State) (b i : Nat) (c0 : Closing) : State :=
  if c0.voided.isNone && s0.voidOpen b i then s0
  else
  let s := s0.settleVoid b i c0
  let c := ((s.slip b i).closing).getD c0
  if c.decided.isNone && s.asksCheckpoint b i then
    match s.decideCheckpoint b i with
    | none => s
    | some t => t
  else if c.g && c.gathered.isNone then if s.gatherAsleep b i then s else s.gatherShares b i
  else if c.g && !s.gathered b i then s
  else s.completeWindow b i c

/-- WINDOW_COMPLETE (R258): the next part of a window's close: its checks, the items up to a handler, the checkpoint and the
gather, completion. -/
def execWindowComplete (b i : Nat) (s : State) : Out :=
  match (s.slip b i).closing with
  | none => .next s
  | some c =>
    let busy : Bool := match (s.berth b).handler with
      | some h => h.slip == i && h.source == .item
      | none => false
    if !c.marked || !s.markersIn b i || busy || (s.slip b i).stopped || decide ((s.slip b i).st ≠ .blocked) then .next s
    else if !c.applying then
      match s.windowFault b i with
      | some (cause, tv) => .next (s.windowRaise b i cause tv)
      | none =>
        let p := s.slip b i
        let t := s.writeReplies b i
        .next (if t.2 then t.1 else t.1.applyItems b i c (sortItems (p.parked.filter (fun x => x.win == p.wseq))))
    else if !c.items.isEmpty then .next (s.applyItems b i c c.items)
    else .next (s.finishWindow b i c)

end Sys2Proof.Machine
end

