-- ==== Sys2Proof/Machine/Regions.lean ====
section
/-! DEFINITION. The region tree, budgets, pipeline descriptors, selection and binding (spec/11 R210 to R217, R223 to R225, spec/13
R247, R254, R260, spec/14 R275, R281, spec/18 R341, spec/23 R434 to R437). Control structures are read and written at the
physical address that equals their GLOBAL address (log 21); what a region's own address space holds is translated. -/
namespace Sys2Proof.Machine
open Sys2Proof

/-! ### Control structures in GLOBAL memory -/

/-- The key of a byte of a control structure of a package. -/
def globKey (pkg a : Nat) : Nat := physKey pkg (a % (1 <<< 52))

/-- A field of a control structure: offset and length. -/
def State.blk (s : State) (pkg a : Nat) (f : Nat × Nat) : Nat := s.natAt (globKey pkg a + f.1) f.2
def State.setBlk (s : State) (pkg a : Nat) (f : Nat × Nat) (v : Nat) : State := s.pokeNat (globKey pkg a + f.1) f.2 v

/-! ### The region control block (R210) -/

abbrev fParent : Nat × Nat := (0, 8)
abbrev fChild : Nat × Nat := (8, 8)
abbrev fSibling : Nat × Nat := (16, 8)
abbrev fState : Nat × Nat := (24, 1)
abbrev fPrio : Nat × Nat := (25, 1)
abbrev fOvr : Nat × Nat := (26, 2)
abbrev fFdom : Nat × Nat := (28, 4)
abbrev fAsid : Nat × Nat := (32, 2)
abbrev fQueue : Nat × Nat := (34, 1)
abbrev fSnap : Nat × Nat := (35, 1)
abbrev fAge : Nat × Nat := (36, 4)
abbrev fSpillbase : Nat × Nat := (88, 8)
abbrev fOwntab : Nat × Nat := (96, 8)
abbrev fPipe : Nat × Nat := (104, 8)
abbrev fArgs : Nat × Nat := (112, 8)
abbrev fLive : Nat × Nat := (120, 4)
abbrev fFcode : Nat × Nat := (124, 4)
abbrev fPtroot : Nat × Nat := (128, 8)

/-- The pools by the byte offsets of their budgets: slips, window groups, banks, cells, shadow pages, spill (R210). -/
def poolOffsets : List Nat := [40, 42, 44, 48, 52, 56]
def poolField (p : Nat) : Nat × Nat := (p, if p < 44 then 2 else 4)
/-- USED of a pool (R210, bytes 64 to 83). -/
def usedField (p : Nat) : Nat × Nat := (p + 24, if p < 44 then 2 else 4)
/-- The override bit of a pool. -/
def poolBit (p : Nat) : Nat :=
  match p with
  | 40 => 3
  | 42 => 8
  | 44 => 4
  | 48 => 5
  | 52 => 6
  | _ => 7

/-- STATE of a block (R214): bits 2:0. -/
def State.regionState (s : State) (pkg a : Nat) : Nat := s.blk pkg a fState % 8
def State.setRegionState (s : State) (pkg a v : Nat) : State := s.setBlk pkg a fState v

/-- A bound on the depth and the size of a tree: every node but the last holds a link that is not zero. -/
def State.treeFuel (s : State) : Nat := 2 * s.mem.length + 1

/-- The block that supplies a field with an override bit (R211). -/
def State.supplierIn (s : State) (pkg bit : Nat) : Nat → Nat → Nat
  | 0, a => a
  | n + 1, a => if s.blk pkg a fParent = 0 || bitOf (s.blk pkg a fOvr) bit then a else s.supplierIn pkg bit n (s.blk pkg a fParent)
def State.supplier (s : State) (pkg bit a : Nat) : Nat := s.supplierIn pkg bit s.treeFuel a

/-- The effective value of a field (R211). -/
def State.effective (s : State) (pkg bit a : Nat) (f : Nat × Nat) : Nat := s.blk pkg (s.supplier pkg bit a) f

/-- The root of a block's tree. -/
def State.rootIn (s : State) (pkg : Nat) : Nat → Nat → Nat
  | 0, a => a
  | n + 1, a => if s.blk pkg a fParent = 0 then a else s.rootIn pkg n (s.blk pkg a fParent)
def State.rootOf (s : State) (pkg a : Nat) : Nat := s.rootIn pkg s.treeFuel a

/-- The nodes of a tree from a list of nodes still to visit; a node met twice is visited once. -/
def State.nodesIn (s : State) (pkg : Nat) : Nat → List Nat → List Nat → List Nat
  | 0, _, seen => seen
  | _, [], seen => seen
  | n + 1, a :: rest, seen =>
    if a = 0 || seen.contains a then s.nodesIn pkg n rest seen
    else s.nodesIn pkg n (s.blk pkg a fChild :: s.blk pkg a fSibling :: rest) (seen ++ [a])

/-- The nodes of the trees of a package's queues: the roots and what lies beneath them (R210, R231). -/
def State.treeNodes (s : State) (pkg : Nat) : List Nat :=
  let roots := ((s.pkg pkg).queues.map (fun (e : Nat × HQueue) => e.2.qroot.toNat)).filter (fun a => a != 0)
  roots.foldl (fun seen r => if seen.contains r then seen else s.nodesIn pkg (3 * s.treeFuel) [s.blk pkg r fChild] (seen ++ [r])) []

/-- A node becomes READY (R214): it takes the next value of the age sequence. -/
def State.readyRegion (s : State) (pkg a : Nat) : State :=
  let n := ((s.pkg pkg).ageSeq + 1) % (1 <<< 32)
  ((s.modPkg pkg (fun p => { p with ageSeq := n })).setBlk pkg a fAge n).setRegionState pkg a 1

/-! ### The pipeline descriptor (R216) -/

/-- An actor record. -/
structure ActorRec where
  entry : Nat
  number : Nat
  succ : Nat
  pred : Nat
  banks : Nat
  tiles : Nat
  wgrp : Nat
  limg : Nat
  llen : Nat
  launch : Bool
  clean : Bool
  deriving DecidableEq, Repr

/-- A channel record. -/
structure ChanRec where
  prod : Nat
  cons : Nat
  ph : Nat
  ch : Nat
  slotb : Nat
  cap : Nat
  prate : Nat
  crate : Nat
  ring : Nat
  clean : Bool
  deriving DecidableEq, Repr

/-- A descriptor: its header, actors and channels. -/
structure PipeRec where
  nact : Nat
  nchan : Nat
  nwgrp : Nat
  ncell : Nat
  nshadow : Nat
  nspill : Nat
  hbase : Nat
  hlimit : Nat
  tvec : Nat
  upvec : Nat
  actors : List ActorRec
  chans : List ChanRec
  clean : Bool
  deriving DecidableEq, Repr

def noActor : Nat := 0xFFFFFFFF

def actorRec (b : List Byte) : ActorRec :=
  { entry := fieldAt b 0 8
    number := fieldAt b 8 4
    succ := fieldAt b 12 4
    pred := fieldAt b 16 4
    banks := fieldAt b 20 2
    tiles := fieldAt b 22 1
    wgrp := fieldAt b 23 1
    limg := fieldAt b 24 8
    llen := fieldAt b 32 4
    launch := bitOf (fieldAt b 36 1) 0
    clean := fieldAt b 36 1 / 2 == 0 && fieldAt b 37 27 == 0 }

def chanRec (b : List Byte) : ChanRec :=
  { prod := fieldAt b 0 4
    cons := fieldAt b 4 4
    ph := fieldAt b 8 1
    ch := fieldAt b 9 1
    slotb := fieldAt b 12 4
    cap := fieldAt b 16 4
    prate := fieldAt b 20 2
    crate := fieldAt b 22 2
    ring := fieldAt b 24 4
    clean := fieldAt b 10 2 == 0 && fieldAt b 28 4 == 0 }

/-- The descriptor at an address; the lists are read only where NACT and NCHAN are in range. -/
def State.pipeRec (s : State) (pkg a : Nat) : PipeRec :=
  let h := s.bytesAt (globKey pkg a) 64
  let nact := fieldAt h 0 4
  let nchan := fieldAt h 4 4
  let fits : Bool := decide (1 ≤ nact) && decide (nact ≤ 16384) && decide (nchan ≤ 65536)
  { nact := nact
    nchan := nchan
    nwgrp := fieldAt h 8 2
    ncell := fieldAt h 12 4
    nshadow := fieldAt h 16 4
    nspill := fieldAt h 20 4
    hbase := fieldAt h 24 8
    hlimit := fieldAt h 32 8
    tvec := fieldAt h 40 8
    upvec := fieldAt h 48 8
    actors := if fits then (upTo nact).map (fun i => actorRec (s.bytesAt (globKey pkg a + 64 + 64 * i) 64)) else []
    chans := if fits then (upTo nchan).map (fun i => chanRec (s.bytesAt (globKey pkg a + 64 + 64 * nact + 32 * i) 32)) else []
    clean := fits && fieldAt h 10 2 == 0 && fieldAt h 56 8 == 0 }

def PipeRec.actor? (d : PipeRec) (n : Nat) : Option ActorRec := d.actors.find? (fun a => a.number == n)

/-- The banks an actor receives from its PRED (R224). -/
def PipeRec.inherited (d : PipeRec) (a : ActorRec) : Nat :=
  if a.pred = noActor then 0 else match d.actor? a.pred with
    | some p => p.banks
    | none => 0

/-- The banks an actor needs free at binding. -/
def PipeRec.needed (d : PipeRec) (a : ActorRec) : Nat := a.banks - (a.banks &&& d.inherited a)

/-- The demand on a pool (R216). -/
def PipeRec.demand (d : PipeRec) (pool : Nat) : Nat :=
  match pool with
  | 40 => d.nact
  | 42 => d.nwgrp
  | 44 => (d.actors.map (fun a => Alu.ones 16 (d.needed a))).foldl (· + ·) 0
  | 48 => d.ncell
  | 52 => d.nshadow
  | _ => d.nspill

/-- Do numbers repeat? -/
def repeats : List Nat → Bool
  | [] => false
  | a :: as => as.contains a || repeats as

/-- The first actor of a line of predecessors: those of one line share their banks on one berth (R221, R224). -/
def PipeRec.head (d : PipeRec) : Nat → Nat → Nat
  | 0, n => n
  | fuel + 1, n => match d.actor? n with
    | some a => if a.pred = noActor then n else d.head fuel a.pred
    | none => n

/-- Two rings of one consumer, or of consumers in one line of predecessors, overlap. -/
def PipeRec.ringsMeet (d : PipeRec) : List ChanRec → Bool
  | [] => false
  | c :: cs => cs.any (fun e => d.head d.actors.length e.cons == d.head d.actors.length c.cons &&
      rangesMeet c.ring (c.cap * c.slotb) e.ring (e.cap * e.slotb)) || d.ringsMeet cs

/-- Does a ring leave its consumer's BANKS? -/
def PipeRec.ringOutside (d : PipeRec) (c : ChanRec) : Bool :=
  let stop := c.ring + c.cap * c.slotb
  let banks := ((d.actor? c.cons).map ActorRec.banks).getD 0
  decide (stop > 0x80000) || (upTo 16).any (fun k => rangesMeet (k * 0x8000) 0x8000 c.ring (c.cap * c.slotb) && !bitOf banks k)

/-- SUCC and PRED name each other, and the successor's BANKS hold the predecessor's (R217). -/
def PipeRec.pairBad (d : PipeRec) (a : ActorRec) : Bool :=
  (a.succ != noActor && (match d.actor? a.succ with
    | some t => t.pred != a.number || (a.banks &&& t.banks) != a.banks
    | none => true)) ||
  (a.pred != noActor && (match d.actor? a.pred with
    | some t => t.succ != a.number
    | none => true))

/-- The admission check (R217): FCODE of the first check that fails, 0 where none does. -/
def State.admission (s : State) (pkg a : Nat) : Nat :=
  let d := s.pipeRec pkg (s.blk pkg a fPipe)
  let handles := d.chans.flatMap (fun c => [c.prod * 256 + c.ph, c.cons * 256 + c.ch])
  if !d.clean || d.actors.any (fun x => !x.clean) || d.chans.any (fun c => !c.clean) then 1
  else if repeats (d.actors.map ActorRec.number) ||
    d.chans.any (fun c => (d.actor? c.prod).isNone || (d.actor? c.cons).isNone) then 2
  else if repeats handles || d.chans.any (fun c => c.ph > 15 || c.ch > 15 || c.cap < 1 || c.cap > 4095 || c.slotb = 0 ||
    c.slotb % 32 ≠ 0 || c.prate > c.cap || c.crate > c.cap) then 3
  else if d.chans.any d.ringOutside || d.ringsMeet d.chans then 4
  else if d.actors.any d.pairBad then 5
  else if poolOffsets.any (fun p => d.demand p > s.effective pkg (poolBit p) a (poolField p)) then 6
  else if d.actors.any (fun x => x.llen > 0x8000 * Alu.ones 16 x.banks || x.entry % 2 ≠ 0 || x.limg % 2 ≠ 0) ||
    [d.hbase, d.hlimit, d.tvec, d.upvec].any (fun v => v % 2 ≠ 0) then 7
  else 0

/-! ### Charges (R212) -/

/-- What admitting the owners of a pool from a node up charges: each owner not yet admitted charges its budget above it. -/
def State.admissionsFrom (s : State) (pkg pool : Nat) : Nat → Nat → List Admission
  | 0, _ => []
  | n + 1, node =>
    let up := s.blk pkg node fParent
    if up = 0 then []
    else
      let par := s.supplier pkg (poolBit pool) up
      let above := s.admissionsFrom pkg pool n par
      if (s.pkg pkg).admitted.any (fun e => e.node == node && e.pool == pool) then above
      else { node := node, pool := pool, parent := par, amount := s.blk pkg node (poolField pool),
             groups := s.blk pkg node fPipe == 0 } :: above

/-- The demands of a region, and the owners that become admitted. -/
def State.claim (s : State) (pkg a : Nat) : List Charge × List Admission :=
  let d := s.pipeRec pkg (s.blk pkg a fPipe)
  (poolOffsets.map (fun p => { block := s.supplier pkg (poolBit p) a, pool := p, amount := d.demand p }),
   poolOffsets.flatMap (fun p => s.admissionsFrom pkg p s.treeFuel (s.supplier pkg (poolBit p) a)))

/-- All amounts a claim charges. -/
def claimCharges (c : List Charge × List Admission) : List Charge :=
  c.1 ++ c.2.map (fun e => { block := e.parent, pool := e.pool, amount := e.amount })

/-- The amount charged to one pool. -/
def chargedTo (l : List Charge) (block pool : Nat) : Nat :=
  ((l.filter (fun c => c.block == block && c.pool == pool)).map Charge.amount).foldl (· + ·) 0

/-- Has a region its claims already: is it suspended here, not loaded from a container? -/
def Pkg.claimed (p : Pkg) (a : Nat) : Bool := p.regions.any (fun r => r.block == a && !r.moved)

/-- What binding a region would charge now (R212): a suspended one has its demands charged, and charges afresh the owners above it that are no
longer admitted. -/
def State.claimNow (s : State) (pkg a : Nat) : List Charge × List Admission :=
  let c := s.claim pkg a
  (if (s.pkg pkg).claimed a then [] else c.1, c.2)

/-- Does a claim fit what is left under USED and under the claims of regions selected before it (R217, R223)? -/
def State.affordable (s : State) (pkg : Nat) (c : List Charge × List Admission) (earlier : List Nat) : Bool :=
  let mine := claimCharges c
  let others := earlier.map (s.claimNow pkg)
  let all := claimCharges (others.flatMap (fun x => x.1) ++ c.1, (others.flatMap (fun x => x.2) ++ c.2).eraseDups)
  mine.all (fun x => chargedTo mine x.block x.pool == 0 ||
    decide (s.blk pkg x.block (usedField x.pool) + chargedTo all x.block x.pool ≤ s.blk pkg x.block (poolField x.pool)))

/-- Charge, or return, an amount. -/
def State.charge (s : State) (pkg : Nat) (c : Charge) : State :=
  s.setBlk pkg c.block (usedField c.pool) (s.blk pkg c.block (usedField c.pool) + c.amount)
def State.discharge (s : State) (pkg : Nat) (c : Charge) : State :=
  s.setBlk pkg c.block (usedField c.pool) (s.blk pkg c.block (usedField c.pool) - c.amount)

/-- The blocks whose pools a region draws on, from its own upwards. -/
def State.poolChain (s : State) (pkg pool : Nat) : Nat → Nat → List Nat
  | 0, _ => []
  | n + 1, a =>
    let x := s.supplier pkg (poolBit pool) a
    let up := s.blk pkg x fParent
    if up = 0 then [x] else x :: s.poolChain pkg pool n up

/-- Is a region BOUND or SUSPENDED (R212)? A resumed one is neither until it is bound again. -/
def State.draws (s : State) (pkg : Nat) (r : Region) : Bool := !r.suspended || s.regionState pkg r.block == 4

/-- The admissions of grouping nodes that no region BOUND or SUSPENDED draws on any longer, but for one region (R212). -/
def State.endedGroups (s : State) (pkg block : Nat) : List Admission :=
  let p := s.pkg pkg
  p.admitted.filter (fun e => e.groups && !(p.regions.any (fun r => r.block != block && s.draws pkg r && r.chain.contains (e.pool, e.node))))

/-- The admissions that end when a region ends: its own, and those of grouping nodes that nothing else draws on (R212). -/
def State.endedAdmissions (s : State) (pkg block : Nat) : List Admission :=
  (s.pkg pkg).admitted.filter (fun e => e.node == block) ++ (s.endedGroups pkg block).filter (fun e => e.node != block)

/-- Admissions end: their charges return. -/
def State.endAdmissions (s : State) (pkg : Nat) (l : List Admission) : State :=
  (l.foldl (fun (t : State) e => t.discharge pkg { block := e.parent, pool := e.pool, amount := e.amount }) s).modPkg pkg (fun p =>
    { p with admitted := p.admitted.filter (fun e => !l.contains e) })

/-- A region ends as DONE or FAULTED (R212, R214): its charges return and the distributor forgets it. -/
def State.finishRegion (s : State) (pkg block code : Nat) : State :=
  let charges := (((s.pkg pkg).regions.find? (fun r => r.block == block)).map Region.charges).getD []
  let s1 := charges.foldl (fun (t : State) c => t.discharge pkg c) (s.setRegionState pkg block code)
  (s1.endAdmissions pkg (s.endedAdmissions pkg block)).modPkg pkg (fun p => { p with
    regions := p.regions.filter (fun r => r.block != block)
    selected := p.selected.filter (fun r => r != block) })

/-! ### Selection (R223, R225) -/

/-- May a node be selected: READY, with a pipeline? Code 7 counts as FAULTED (R214). A bound run goes on, whatever is written to its block's
STATE (R215). -/
def State.selectable (s : State) (pkg a : Nat) : Bool :=
  s.regionState pkg a == 1 && s.blk pkg a fPipe != 0 && !(s.pkg pkg).regions.any (fun r => r.block == a && !r.suspended)

/-- The READY node of highest effective priority, the smallest AGE among equals. AGE is as it stands in the block, also where software made it
READY (log 12). -/
def State.choice (s : State) (pkg : Nat) : Option Nat :=
  let prio (a : Nat) : Nat := s.effective pkg 0 a fPrio % 16
  ((s.treeNodes pkg).filter (s.selectable pkg)).foldl (fun best a => match best with
    | none => some a
    | some x => if prio a > prio x || (prio a == prio x && decide (s.blk pkg a fAge < s.blk pkg x fAge)) then some a else best) none

/-- REGION_SELECT (R223): the chosen node becomes SELECTED, with SNAP its effective PRIO. -/
def execRegionSelect (pkg : Nat) (s : State) : Out :=
  match s.choice pkg with
  | none => .next s
  | some a =>
    let prio := s.effective pkg 0 a fPrio % 16
    .next (((s.setBlk pkg a fSnap prio).setRegionState pkg a 2).modPkg pkg (fun p => { p with
      selected := p.selected.filter (fun x => x != a) ++ [a]
      snaps := SMap.put p.snaps a prio }))

/-! ### Scratchpad banks -/

/-- Does a key lie in one of the banks of a mask of a berth's scratchpad? -/
def inBanks (b mask k : Nat) : Bool :=
  decide (scratchKey b 0 ≤ k) && decide (k < scratchKey b 0 + 0x80000) && bitOf mask ((k - scratchKey b 0) / 0x8000)

/-- The berth and bank of a scratchpad key. -/
def berthOfKey (k : Nat) : Nat := bitsOf k 47 40 * 8192 + bitsOf k 39 27
def bankOfKey (k : Nat) : Nat := bitsOf k 18 15

/-- The keys of a bank that enters or leaves retention, as a test on words. -/
def inRetentionUnit (unit k : Nat) : Bool :=
  if unit >>> 60 = 2 then inBanks (berthOfKey unit) (1 <<< bankOfKey unit) k
  else k >>> 60 == 3 && bitsOf k 59 52 == bitsOf unit 59 52 && plainBank k == plainBank unit

/-- Where the words of a bank are recorded that its code cannot correct: in the berth's SERRLOG, a bank of the Plain in that of the package's
active control berth (R439, R440, log 110). -/
def State.retentionLog (s : State) (unit : Nat) (ws : List Nat) : State :=
  let b := if unit >>> 60 = 2 then berthOfKey unit else activeControl (bitsOf unit 59 52) (s.pkg (bitsOf unit 59 52))
  if ws.isEmpty then s else s.modBerth b (fun y => ws.foldl Berth.logKey y)

/-- Banks of a berth, a mask, leave retention as they pass on, are saved or are zeroed (R438, R439): words that failed there are recorded. -/
def State.wakeBanks (s : State) (b mask : Nat) : State :=
  let m := mask &&& (s.berth b).retained
  let bad := s.poison.filter (fun k => inBanks b m k && !s.sleptBad.contains k)
  ({ s.retentionLog (scratchKey b 0) bad with sleptBad := s.sleptBad.filter (fun k => !inBanks b m k) } : State).modBerth b (fun x =>
    { x with retained := x.retained - m })

/-- Banks of a berth as memory initialisation leaves them (R38, R221): zero, with no marks, sync words or held arrivals. -/
def State.wipeBanks (s : State) (b mask : Nat) : State :=
  { s with
    mem := s.mem.filter (fun c => !inBanks b mask c.1)
    poison := s.poison.filter (fun k => !inBanks b mask k)
    syncs := s.syncs.filter (fun e => !inBanks b mask e.1)
    grans := s.grans.filter (fun e => !inBanks b mask e.1)
    heldArrivals := s.heldArrivals.filter (fun k => !inBanks b mask k) }

/-- The keys of one berth's scratchpad that a move carries to another berth's: old berth, bank mask, new berth. -/
structure Move where
  old : Nat
  mask : Nat
  new : Nat
  deriving DecidableEq, Repr

def moveKey (ms : List Move) (k : Nat) : Nat :=
  match ms.find? (fun m => inBanks m.old m.mask k) with
  | some m => k - scratchKey m.old 0 + scratchKey m.new 0
  | none => k

def Gran.move (f : Nat → Nat) (g : Gran) : Gran := { g with records := g.records.map (fun r => (f r.1, r.2)) }
def SyncWord.move (f : Nat → Nat) (w : SyncWord) : SyncWord :=
  { w with
    overlaps := w.overlaps.map (fun o => (o.1, f o.2))
    raised := w.raised.map (fun o => (o.1, f o.2)) }

/-- A bank as the save area holds it (R434), by offset in the scratchpad. -/
def State.saveBank (s : State) (b actor bank : Nat) : SavedBank :=
  let rel (k : Nat) : Nat := k - scratchKey b 0
  let here (k : Nat) : Bool := inBanks b (1 <<< bank) k
  { actor := actor
    bank := bank
    listed := (s.mem.filter (fun c => here c.1)).map (fun c => (rel c.1, c.2))
    grans := (s.grans.filter (fun e => here e.1)).map (fun e => (rel e.1, e.2.move rel))
    syncs := (s.syncs.filter (fun e => here e.1)).map (fun e => (rel e.1, e.2.move rel))
    poison := (s.poison.filter here).map rel
    held := (s.heldArrivals.filter here).map rel }

/-- A saved bank restored at a berth, at the same bank number (R434). -/
def State.restoreBank (s : State) (b : Nat) (k : SavedBank) : State :=
  let abs_ (o : Nat) : Nat := scratchKey b 0 + o
  let s1 := s.wipeBanks b (1 <<< k.bank)
  { s1 with
    mem := k.listed.foldl (fun m c => Memory.write m (abs_ c.1) c.2) s1.mem
    grans := k.grans.foldl (fun m e => SMap.set {} m (abs_ e.1) (e.2.move abs_)) s1.grans
    syncs := k.syncs.foldl (fun m e => SMap.put m (abs_ e.1) (e.2.move abs_)) s1.syncs
    poison := s1.poison ++ k.poison.map abs_
    heldArrivals := s1.heldArrivals ++ k.held.map abs_ }

/-! ### Placement (R224, R339) -/

/-- The environment a berth gives its slips: ASID, root, HBASE, HLIMIT, TVEC, UPVEC (R224). -/
structure BerthEnv where
  asid : Nat
  root : Nat
  hbase : Nat
  hlimit : Nat
  tvec : Nat
  upvec : Nat
  deriving DecidableEq, Repr

def Berth.env (x : Berth) : BerthEnv :=
  { asid := x.asid, root := x.root, hbase := x.hbase.toNat, hlimit := x.hlimit.toNat, tvec := x.tvec.toNat, upvec := x.upvec.toNat }

/-- The environment of a region's pipeline. -/
def State.regionEnv (s : State) (pkg a : Nat) (d : PipeRec) : BerthEnv :=
  { asid := s.effective pkg 2 a fAsid, root := bitsOf (s.effective pkg 2 a fPtroot) 51 12, hbase := d.hbase, hlimit := d.hlimit,
    tvec := d.tvec, upvec := d.upvec }

/-- Banks that the bound slips of a berth hold or will receive. -/
def Berth.heldBanks (x : Berth) : Nat :=
  (x.slips.filter (fun q => q.2.bound)).foldl (fun m q => m ||| q.2.banks ||| ((q.2.act.map Act.banks).getD 0)) 0

/-- Banks of a berth that are not free for an actor of a region: those its bound slips hold or will receive, and, unless they
count as claimed, those that suspended actors left in place, but for the actor's own (R434). -/
def Berth.occupied (x : Berth) (pkg block actor : Nat) (claimed : Bool) : Nat :=
  if claimed then x.heldBanks
  else (x.victims.filter (fun v => !(v.pkg == pkg && v.region == block && v.actor == actor))).foldl (fun m v => m ||| v.banks) x.heldBanks

/-- What binding needs of one actor: its number, the banks to be free, whether it holds tiles, its predecessor's number. -/
structure Seat where
  actor : Nat
  need : Nat
  tiles : Bool
  pred : Nat
  deriving DecidableEq, Repr

/-- The place of an actor in a choice of the firmware. -/
def placeOf (place : Places) (actor : Nat) : Option (Nat × Nat) := (place.find? (fun e => e.1 == actor)).map (fun e => e.2)

/-- Does a place suit a seat (R224, R339, R441)? claimed counts the banks that suspended actors left in place as free. -/
def State.seatFits (s : State) (pkg block : Nat) (env : BerthEnv) (seats : List Seat) (place : Places) (claimed : Bool) (c : Seat) : Bool :=
  match placeOf place c.actor with
  | none => false
  | some (b, i) =>
    let x := s.berth b
    let bound := x.slips.filter (fun q => q.2.bound)
    let mates := seats.filter (fun e => e.actor != c.actor && ((placeOf place e.actor).map (fun p => p.1)) == some b)
    s.domain.contains (pkgOf b) && decide (berthIn b < 4608) && decide (i < 4) && !x.fenced &&
      !(x.slip i).bound && decide ((x.slip i).st = .free) &&
      bound.all (fun _ => decide (x.env = env)) &&
      x.occupied pkg block c.actor claimed &&& c.need == 0 &&
      mates.all (fun e => e.need &&& c.need == 0 && (placeOf place e.actor).map (fun p => p.2) != some i && !(e.tiles && c.tiles)) &&
      !(c.tiles && bound.any (fun q => q.2.tiles != 0)) &&
      (match placeOf place c.pred with
       | some (pb, _) => pb == b
       | none => true)

/-- The number under which a place list names the first cell of the region's window: (2^32, package, cell). -/
def windowName : Nat := 1 <<< 32

/-- Cells of a package's Plain (R273). -/
def plainCells : Nat := 8 * 1572864

/-- The package and first cell of the window a place list names (R275); none where it does not suit. -/
def State.windowPlace (s : State) (ncell : Nat) (place : Places) : Option (Nat × Nat) :=
  if ncell = 0 then some (0, 0)
  else match placeOf place windowName with
    | none => none
    | some (pk, first) =>
      let taken := s.pkgs.any (fun e => e.2.regions.any (fun r =>
        (match r.actors with
         | m :: _ => pkgOf m.berth == pk
         | [] => false) && rangesMeet r.first r.ncell first ncell))
      let here := place.all (fun e => e.1 == windowName || pkgOf e.2.1 == pk)
      if first + ncell ≤ plainCells && !taken && here then some (pk, first) else none

/-! ### Binding (R224, R247, R254, R260, R275, R281, R341) -/

/-- Does an owner-table entry name an actor (R213)? No table, no entry. -/
def State.ownsSlot (s : State) (pkg table actor j : Nat) : Bool := table != 0 && s.blk pkg table (8 * j, 4) == actor
/-- OWNMASK word k of an actor (R281). -/
def State.ownMask (s : State) (pkg table actor k : Nat) : Word :=
  natWord (ofBits ((upTo 64).map (fun j => s.ownsSlot pkg table actor (64 * k + j))))

/-- The tag a slip takes when an actor is bound to it (R30). -/
def State.newTag (s : State) (b i actor : Nat) : Nat := actor * (1 <<< 32) + ((s.slip b i).incarn + 1) % (1 <<< 32)

/-- The members of a region as placed, with the banks of their records (R254). -/
def State.placedMembers (s : State) (d : PipeRec) (place : Places) : List Member :=
  d.actors.filterMap (fun a => (placeOf place a.number).map (fun p =>
    { berth := p.1, slip := p.2, actor := a.number, tag := s.newTag p.1 p.2 a.number, banks := a.banks }))

/-- Insert a member by ascending actor number. -/
def insertMember (m : Member) : List Member → List Member
  | [] => [m]
  | x :: xs => if m.actor < x.actor then m :: x :: xs else x :: insertMember m xs

/-- The members of a window group, ascending (R254). -/
def PipeRec.groupOf (d : PipeRec) (ms : List Member) (wgrp : Nat) : List Member :=
  if wgrp = 0xFF then []
  else (ms.filter (fun m => (d.actor? m.actor).any (fun a => a.wgrp == wgrp))).foldl (fun l m => insertMember m l) []

/-- The place of an actor in its group. -/
def indexIn (ms : List Member) (actor : Nat) : Nat := (ms.takeWhile (fun m => m.actor != actor)).length

/-- The place of a number in a list. -/
def indexOfActor (l : List Nat) (n : Nat) : Nat := (l.takeWhile (fun x => x != n)).length

/-- Items of the spill area for one window parity of a member (R260): half its share of BSPILL in 128-byte records. -/
def PipeRec.spillHalf (d : PipeRec) (bspill : Nat) : Nat :=
  bspill * 32 / (d.actors.filter (fun a => a.wgrp != 0xFF)).length / 2

/-- The place of a member among those that share the spill area, in the order of the descriptor (R260, log 57). -/
def PipeRec.spillIndex (d : PipeRec) (actor : Nat) : Nat :=
  indexOfActor ((d.actors.filter (fun a => a.wgrp != 0xFF)).map ActorRec.number) actor

/-- The handles of an actor (R247). -/
def PipeRec.handles (d : PipeRec) (ms : List Member) (actor : Nat) : SMap Chan :=
  d.chans.foldl (fun m c =>
    let end_ (role : ChRole) (n h : Nat) : Chan :=
      let p := ms.find? (fun x => x.actor == n)
      { role := role, cap := c.cap, slotb := c.slotb, base := c.ring, peer := (p.map Member.berth).getD 0,
        peerSlip := (p.map Member.slip).getD 0, peerHandle := h, peerTag := (p.map Member.tag).getD 0 }
    let m1 := if c.cons = actor then SMap.put m c.ch (end_ .consumer c.prod c.ph) else m
    if c.prod = actor then SMap.put m1 c.ph (end_ .producer c.cons c.ch) else m1) []

/-- What binding a region gives each of its slips. -/
structure BindEnv where
  pkg : Nat
  block : Nat
  d : PipeRec
  ms : List Member
  first : Nat
  snap : Nat
  fdom : Nat
  root : Nat
  queue : Nat
  owntab : Nat
  bspill : Nat
  spillBase : Nat

/-- The window of a region of n cells from a first cell on, as PLWIN gives it (R275). -/
def windowWord (first n : Nat) : Word := natWord (if n = 0 then 0 else first + n <<< 32)

/-- The slip of an actor at binding (R224). -/
def State.boundSlip (s : State) (e : BindEnv) (a : ActorRec) (m : Member) : Slip :=
  let group := e.d.groupOf e.ms a.wgrp
  let own (k : Nat) : Word := s.ownMask e.pkg e.owntab a.number k
  { st := .waiting
    chans := e.d.handles e.ms a.number
    prio := e.snap
    actor := a.number
    incarn := m.tag % (1 <<< 32)
    bound := true
    banks := e.d.needed a
    tiles := a.tiles
    plwin := windowWord e.first e.d.ncell
    own0 := own 0
    own1 := own 1
    own2 := own 2
    own3 := own 3
    wgroup := a.wgrp
    sidx := indexIn group a.number
    members := group
    spillCap := if a.wgrp = 0xFF then 0 else e.d.spillHalf e.bspill
    spillBase := e.spillBase + 256 * e.d.spillHalf e.bspill * e.d.spillIndex a.number
    act := some { pkg := e.pkg, region := e.block, root := e.root, fdom := e.fdom, queue := e.queue, entry := natWord a.entry,
                  launch := a.launch, succ := a.succ, pred := a.pred, predDone := false,
                  crates := (e.d.chans.filter (fun c => c.cons == a.number)).map (fun c => (c.ch, c.crate)), banks := a.banks } }

/-- The `.local` image of an actor, in its region's address space (R216, R224). -/
def State.imageBytes (s : State) (pkg root : Nat) (a : ActorRec) : List Byte :=
  (upTo a.llen).map (fun j => ((s.spaceKey pkg root (a.limg + j)).map (fun k => Memory.read s.mem k)).getD 0)

/-- The 64 KiB pages of an actor's image. -/
def ActorRec.imagePages (a : ActorRec) : List Nat :=
  if a.llen = 0 then [] else (upTo ((a.limg + a.llen + 65535) / 65536 - a.limg / 65536)).map (fun j => a.limg / 65536 + j)

/-- Is every page of an actor's image resident? Binding waits until the Harbourmaster has served those that are not (log 21). -/
def State.imageReady (s : State) (pkg root : Nat) (a : ActorRec) : Bool :=
  a.imagePages.all (fun v => (s.spaceKey pkg root (v * 65536)).isSome)

/-- The `.local` image in the banks an actor needs free; the rest of them zero (R224). -/
def State.loadImage (s : State) (pkg root b need : Nat) (a : ActorRec) : State :=
  let img := s.imageBytes pkg root a
  (upTo 16).foldl (fun t k =>
    if bitOf need k then t.poke (scratchKey b (k * 0x8000)) ((img.drop (k * 0x8000)).take 0x8000) else t) (s.wipeBanks b need)

/-- A berth with the environment of a region (R224). -/
def Berth.withEnv (x : Berth) (e : BerthEnv) : Berth :=
  { x with asid := e.asid, root := e.root, hbase := natWord e.hbase, hlimit := natWord e.hlimit, tvec := natWord e.tvec,
           upvec := natWord e.upvec }

/-- Bind one actor (R224, R341): its berth's environment, its slip, its banks, an empty crane where it holds tiles. -/
def State.bindActor (s : State) (env : BerthEnv) (e : BindEnv) (m : Member) : State :=
  match e.d.actor? m.actor with
  | none => s
  | some a =>
    let p := s.boundSlip e a m
    let s1 := ((s.wakeBanks m.berth p.banks).modBerth m.berth (fun x =>
      let y := x.withEnv env
      { y with crane := if a.tiles = 0 then y.crane else Crane.fresh })).setSlip m.berth m.slip p
    (s1.loadImage e.pkg env.root m.berth p.banks a).modPkg (pkgOf m.berth) (fun x =>
      { x with gone := x.gone.filter (fun g => !(g.1 == env.asid && g.2 == a.number)) })

/-- Every byte of a channel's ring becomes zero (R247). -/
def State.zeroRing (s : State) (ms : List Member) (c : ChanRec) : State :=
  match ms.find? (fun m => m.actor == c.cons) with
  | some m => { s with mem := s.mem.filter (fun e =>
      !(decide (scratchKey m.berth c.ring ≤ e.1) && decide (e.1 < scratchKey m.berth c.ring + c.cap * c.slotb))) }
  | none => s

/-- The cells of a window come as R298 gives them at allocation: integer, zero, SEALED. -/
def State.freshCells (s : State) (pk first n : Nat) : State :=
  let lo := plainKey pk (64 * first)
  let here (k : Nat) : Bool := decide (lo ≤ k) && decide (k < lo + 64 * n)
  if n = 0 then s
  else { s with
    mem := s.mem.filter (fun c => !here c.1)
    cells := s.cells.filter (fun e => !here e.1)
    poison := s.poison.filter (fun k => !here k) }

/-- Refuse a region at admission (R217, R242): FAULTED with its FCODE; ERR 10 on the queue of its root, which stops. -/
def State.refuseRegion (s : State) (pkg a code : Nat) : State :=
  let q := s.blk pkg (s.rootOf pkg a) fQueue
  let s1 := (s.setBlk pkg a fFcode code).finishRegion pkg a 6
  s1.queueErrorWith pkg q 10 (leBytes 8 a ++ leBytes 4 code ++ leBytes 4 (((s1.pkg pkg).queue q).head))

/-- The seats of a region that binds for the first time. -/
def PipeRec.seats (d : PipeRec) : List Seat :=
  d.actors.map (fun a => { actor := a.number, need := d.needed a, tiles := a.tiles != 0, pred := a.pred })

/-- SNAP as the distributor snapshotted it at a region's last selection (R223). -/
def Pkg.snapOf (p : Pkg) (a : Nat) : Nat := SMap.get 0 p.snaps a

/-- The record of a region as it binds, with the places of its actors, its claims and the first cell of its window (R215, R224). -/
def State.regionRecord (s : State) (pkg a : Nat) (d : PipeRec) (ms : List Member) (charges : List Charge) (first : Nat) : Region :=
  let env := s.regionEnv pkg a d
  let root := s.rootOf pkg a
  let owntab := s.effective pkg 9 a fOwntab
  { block := a, root := root, fdom := s.effective pkg 1 a fFdom, queue := s.blk pkg root fQueue, asid := env.asid, ptroot := env.root,
    hbase := d.hbase, hlimit := d.hlimit,
    owners := if owntab = 0 then [] else (upTo 256).map (fun j => s.blk pkg owntab (8 * j, 4)),
    launches := (d.actors.filter (fun x => x.launch)).map ActorRec.number, live := d.nact,
    chain := poolOffsets.flatMap (fun p => (s.poolChain pkg p s.treeFuel a).map (fun n => (p, n))),
    first := first, ncell := d.ncell, nshadow := d.nshadow, actors := ms, charges := charges }

/-- Bind every actor of a selected region (R224). -/
def State.bindRegion (s : State) (pkg a : Nat) (d : PipeRec) (place : Places) (first : Nat × Nat) : State :=
  let env := s.regionEnv pkg a d
  let ms := s.placedMembers d place
  let c := s.claim pkg a
  let root := s.rootOf pkg a
  let e : BindEnv :=
    { pkg := pkg, block := a, d := d, ms := ms, first := first.2, snap := (s.pkg pkg).snapOf a,
      fdom := s.effective pkg 1 a fFdom, root := root, queue := s.blk pkg root fQueue,
      owntab := s.effective pkg 9 a fOwntab, bspill := s.effective pkg 7 a (poolField 56),
      spillBase := s.effective pkg 7 a fSpillbase }
  let r := s.regionRecord pkg a d ms c.1 first.2
  let s1 := (claimCharges c).foldl (fun t x => t.charge pkg x) s
  let s2 := ms.foldl (fun t m => t.bindActor env e m) s1
  let s3 := (d.chans.foldl (fun t x => t.zeroRing ms x) s2).freshCells first.1 first.2 d.ncell
  ((s3.setBlk pkg a fLive d.nact).setRegionState pkg a 3).modPkg pkg (fun p => { p with
    regions := p.regions ++ [r]
    selected := p.selected.filter (fun x => x != a)
    admitted := p.admitted ++ c.2 })

/-! ### Binding a suspended region again (R434 to R437) -/

/-- The new place of a suspended actor: old tag, old berth and slip, new berth and slip, new tag. -/
structure Rename where
  old : Member
  new : Member
  deriving DecidableEq, Repr

def renameMember (rs : List Rename) (m : Member) : Member :=
  match rs.find? (fun r => r.old.tag == m.tag && r.old.berth == m.berth && r.old.slip == m.slip) with
  | some r => r.new
  | none => m

/-- A place with a tag, renamed. -/
def renameTag (rs : List Rename) (b i tag : Nat) : Nat × Nat × Nat :=
  let m := renameMember rs { berth := b, slip := i, actor := 0, tag := tag, banks := 0 }
  (m.berth, m.slip, m.tag)

def Item.rename (rs : List Rename) (x : Item) : Item :=
  let a := renameTag rs x.src x.srcSlip x.srcTag
  let b := renameTag rs x.dst x.dstSlip x.dtag
  { x with src := a.1, srcSlip := a.2.1, srcTag := a.2.2, dst := b.1, dstSlip := b.2.1, dtag := b.2.2 }

def Chan.rename (rs : List Rename) (x : Chan) : Chan :=
  let a := renameTag rs x.peer x.peerSlip x.peerTag
  { x with peer := a.1, peerSlip := a.2.1, peerTag := a.2.2 }

/-- A wait at a sync word moves with its bank. -/
def Wait.move (f : Nat → Nat) (w : Wait) : Wait :=
  match w with
  | .syncWord k g => .syncWord (f k) g
  | _ => w

/-- What a slip names of slips that have been bound again: the peers of its handles, its group, its items. -/
def Slip.renamePeers (p : Slip) (rs : List Rename) : Slip :=
  { p with
    chans := p.chans.map (fun e => (e.1, e.2.rename rs))
    members := p.members.map (renameMember rs)
    parked := p.parked.map (Item.rename rs)
    unacked := p.unacked.map (Item.rename rs)
    closing := p.closing.map (fun c => { c with items := c.items.map (Item.rename rs) }) }

/-- A suspended slip at its new place (R437): its state replaces the initial one; its tag rises. -/
def Slip.resumed (p : Slip) (rs : List Rename) (f : Nat → Nat) (tag snap : Nat) : Slip :=
  { p.renamePeers rs with
    incarn := tag % (1 <<< 32)
    prio := snap
    preemptAt := none
    taken := false
    wait := p.wait.map (Wait.move f) }

/-- The seats of a suspended region: the slips that have not halted, with the banks they hold or are to receive. -/
def seatsOf (r : Region) : List Seat :=
  r.slips.map (fun v =>
    let pred := (v.slip.act.map Act.pred).getD noActor
    { actor := v.slip.actor, need := v.slip.banks, tiles := v.slip.tiles != 0,
      pred := if r.slips.any (fun w => w.slip.actor == pred) then pred else noActor })

/-- The renames of a suspended region under a choice of places. -/
def State.renames (s : State) (r : Region) (place : Places) : List Rename :=
  r.slips.filterMap (fun v => (placeOf place v.slip.actor).map (fun p =>
    { old := { berth := v.berth, slip := v.index, actor := v.slip.actor, tag := v.slip.tag, banks := (v.slip.act.map Act.banks).getD 0 },
      new := { berth := p.1, slip := p.2, actor := v.slip.actor, tag := s.newTag p.1 p.2 v.slip.actor,
               banks := (v.slip.act.map Act.banks).getD 0 } }))

/-- The banks of a suspended actor that are still in place at a berth. -/
def Berth.inPlace (x : Berth) (pkg block actor : Nat) : Nat :=
  ((x.victims.find? (fun v => v.pkg == pkg && v.region == block && v.actor == actor)).map Victim.banks).getD 0

/-- Save the banks of an actor that stay in place at a berth that it leaves (R434). -/
def State.vacate (s : State) (pkg block : Nat) (v : SavedSlip) : State :=
  let mask := (s.berth v.berth).inPlace pkg block v.slip.actor
  let kept := ((upTo 16).filter (bitOf mask)).map (fun k => s.saveBank v.berth v.slip.actor k)
  let s1 := ((s.wakeBanks v.berth mask).wipeBanks v.berth mask).modBerth v.berth (fun x => { x with
    victims := x.victims.filter (fun e => !(e.pkg == pkg && e.region == block && e.actor == v.slip.actor)) })
  s1.modPkg pkg (fun p => { p with regions := p.regions.map (fun r => if r.block = block then { r with banks := r.banks ++ kept } else r) })

/-- A journal record under a move of keys. -/
def JRec.move (f : Nat → Nat) (r : JRec) : JRec :=
  match r.unit with
  | .scratch k => { r with
      unit := .scratch (f k)
      base := f k
      listed := r.listed.map (fun c => (f c.1, c.2))
      grans := r.grans.map (fun e => (f e.1, e.2.move f))
      syncs := r.syncs.map (fun e => (f e.1, e.2.move f)) }
  | _ => r

/-- A snapshot of a slip that has been bound again moves with it: its own berth is the new one (R428, R437); that of another names it there. -/
def Snap.move (f : Nat → Nat) (rs : List Rename) (n : Snap) : Snap :=
  match rs.find? (fun r => r.old.tag == n.slip.tag && r.old.berth == n.berth && r.old.slip == n.index) with
  | some r => { n with berth := r.new.berth, index := r.new.slip, slip := n.slip.resumed rs f r.new.tag n.slip.prio }
  | none => { n with slip := n.slip.renamePeers rs }

/-- An arrival that a rollback sends again goes where its sync word's bank has moved (R369, R437). -/
def Packet.moveArrival (f : Nat → Nat) (p : Packet) : Packet :=
  match p.body with
  | .arrival a i o =>
    let k := f (scratchKey p.dst (bitsOf a.toNat 18 0))
    let b := bitsOf k 47 40 * 8192 + bitsOf k 39 27
    if b = p.dst then p
    else { p with dst := b, body := .arrival (if bitsOf a.toNat 63 60 = 1 then a else remoteAddr b (bitsOf a.toNat 18 0)) i o }
  | .item _ => p
  | .reply _ _ _ => p
  | .ack _ _ _ _ => p
  | .advance _ _ _ _ => p
  | .freed _ _ _ _ => p
  | .chst _ _ _ _ _ _ _ _ => p
  | .launch _ _ _ => p

/-- Where the slips of a region that have halted since a checkpoint come back (R428, R437): with the slip that took their banks, which has been
bound again elsewhere, on a slip of its berth that is free; l holds the renames made so far. -/
def State.followers (s : State) (r : Region) (rs : List Rename) (k : Ckpt) : List Rename :=
  k.halted.foldl (fun l h =>
    match r.slips.find? (fun v => v.berth == h.berth && h.banks.any (fun e => bitOf v.slip.banks e.bank)) with
    | none => l
    | some v =>
      match rs.find? (fun x => x.old.tag == v.slip.tag && x.old.berth == v.berth && x.old.slip == v.index) with
      | none => l
      | some x =>
        let b := x.new.berth
        let free := (upTo 4).find? (fun i => !((s.berth b).slip i).bound && !(l.any (fun y => y.new.berth == b && y.new.slip == i)))
        if h.region ≠ r.block || b = h.berth then l
        else l ++ [{ old := { berth := h.berth, slip := h.index, actor := 0, tag := h.tag, banks := 0 },
                     new := { berth := b, slip := free.getD h.index, actor := 0, tag := h.tag, banks := 0 } }]) []

/-- A halted slip of a checkpoint at its new place, under the environment that its region has there. -/
def Halted.move (env : BerthEnv) (rs : List Rename) (h : Halted) : Halted :=
  match rs.find? (fun r => r.old.tag == h.tag && r.old.berth == h.berth && r.old.slip == h.index) with
  | some r => { h with berth := r.new.berth, index := r.new.slip, asid := env.asid, root := env.root, hbase := natWord env.hbase,
                       hlimit := natWord env.hlimit, tvec := natWord env.tvec, upvec := natWord env.upvec }
  | none => h

/-- A checkpoint of a domain one of whose regions, at a block, has been bound again: its journal and its snapshots move with the banks, and the
slips that have halted with those that took theirs. -/
def Ckpt.move (f : Nat → Nat) (env : BerthEnv) (block : Nat) (rs : List Rename) (k : Ckpt) : Ckpt :=
  { k with
    asleep := k.asleep.filter (fun a => a != block)
    halted := k.halted.map (Halted.move env rs)
    journal := k.journal.map (JRec.move f)
    waiting := k.waiting.map (renameMember rs)
    snaps := k.snaps.map (Snap.move f rs)
    items := k.items.map (Item.rename rs)
    held := k.held.map f
    arrivals := k.arrivals.map (Packet.moveArrival f)
    counted := k.counted.map (fun c => match rs.find? (fun r => 4 * r.old.berth + r.old.slip == c) with
      | some r => 4 * r.new.berth + r.new.slip
      | none => c) }

/-- Bind one suspended actor again (R224, R434, R436). -/
def State.rebindActor (s : State) (env : BerthEnv) (pkg block snap : Nat) (rs : List Rename) (f : Nat → Nat) (v : SavedSlip)
    (m : Member) : State :=
  let p := v.slip.resumed rs f m.tag snap
  let here := (s.berth m.berth).inPlace pkg block v.slip.actor
  let s1 := ((s.wakeBanks m.berth p.banks).modBerth m.berth (fun x =>
    let y := x.withEnv env
    { y with
      crane := v.crane.getD y.crane
      victims := y.victims.filter (fun e => !(e.pkg == pkg && e.region == block && e.actor == v.slip.actor)) })).setSlip m.berth m.slip p
  let saved := (((s.pkg pkg).regions.find? (fun r => r.block == block)).map Region.banks).getD []
  let s2 := (saved.filter (fun k => k.actor == v.slip.actor && !bitOf here k.bank)).foldl (fun t k => t.restoreBank m.berth k) s1
  if p.st = .ready then s2.makeReady m.berth m.slip else s2

/-- A saved slip of a region that came in a container, as one of this package's region at a block (R467, log 31). -/
def SavedSlip.adopted (v : SavedSlip) (pkg : Nat) (x : Region) : SavedSlip :=
  { v with slip := { v.slip with
    plwin := windowWord x.first x.ncell
    act := v.slip.act.map (fun y => { y with pkg := pkg, region := x.block, root := x.root, fdom := x.fdom, queue := x.queue }) } }

/-- A region that came in a container takes what a first binding gives it: its claims, its cell window, its record (R224, R467). Its slips
and banks stay those that came. -/
def State.adoptRegion (s : State) (pkg a : Nat) (d : PipeRec) (r : Region) (first : Nat × Nat) : State × Region :=
  let c := s.claim pkg a
  let x := s.regionRecord pkg a d r.actors c.1 first.2
  let y : Region := { x with live := r.slips.length, suspended := true, slips := r.slips.map (fun v => v.adopted pkg x), banks := r.banks }
  let s1 := ((claimCharges c).foldl (fun t z => t.charge pkg z) s).freshCells first.1 first.2 d.ncell
  ((s1.setBlk pkg a fLive y.live).modPkg pkg (fun p => { p with
    regions := p.regions.map (fun z => if z.block = a then y else z)
    admitted := p.admitted ++ c.2 }), y)

/-- The owners of pools above a suspended region that are not admitted any longer are charged afresh as it is bound again (R212). -/
def State.readmit (s : State) (pkg a : Nat) : State :=
  let l := (s.claim pkg a).2
  (l.foldl (fun (t : State) e => t.charge pkg { block := e.parent, pool := e.pool, amount := e.amount }) s).modPkg pkg (fun p =>
    { p with admitted := p.admitted ++ l })

/-- Bind a suspended region again (R437). -/
def State.rebindRegion (s0 : State) (pkg a : Nat) (d : PipeRec) (r : Region) (place : Places) : State :=
  let s := s0.readmit pkg a
  let env := s.regionEnv pkg a d
  let snap := (s.pkg pkg).snapOf a
  let rs := s.renames r place
  let moves : List Move := r.slips.filterMap (fun v => (placeOf place v.slip.actor).map (fun p =>
    { old := v.berth, mask := v.slip.banks, new := p.1 }))
  let f := moveKey moves
  let s1 := r.slips.foldl (fun t v =>
    if ((placeOf place v.slip.actor).map (fun p => p.1)) = some v.berth then t else t.vacate pkg a v) s
  let s2 := r.slips.foldl (fun t v => match rs.find? (fun x => x.old.actor == v.slip.actor) with
    | some x => t.rebindActor env pkg a snap rs f v x.new
    | none => t) s1
  let s3 : State := { s2 with doms := s2.doms.map (fun q =>
    if q.key.pkg = pkg && q.key.root = r.root && q.key.fdom = r.fdom then
      { q with ckpt := q.ckpt.map (fun k => k.move f env a (rs ++ s2.followers r rs k))
               next := q.next.map (fun k => k.move f env a (rs ++ s2.followers r rs k)) } else q) }
  (s3.setRegionState pkg a 3).modPkg pkg (fun p => { p with
    regions := p.regions.map (fun x => if x.block = a then
      { r with suspended := false, slips := [], banks := [], actors := r.actors.map (renameMember rs), asid := env.asid,
               ptroot := env.root, hbase := env.hbase, hlimit := env.hlimit } else x)
    selected := p.selected.filter (fun x => x != a) })

/-- Are the actors of a suspended region with a cell window all placed on the window's package (R275)? -/
def Region.samePkg (r : Region) (place : Places) : Bool :=
  r.ncell == 0 || place.all (fun e => some (pkgOf e.2.1) == (r.actors.head?.map (fun m => pkgOf m.berth)))

/-- The seats of a region that is to be bound: those of its descriptor, or of its suspended slips. -/
def State.seatsFor (s : State) (pkg a : Nat) : List Seat :=
  match (s.pkg pkg).regions.find? (fun r => r.block == a) with
  | some r => seatsOf r
  | none => (s.pipeRec pkg (s.blk pkg a fPipe)).seats

/-- The places that a berth and a slip of the domain may take. -/
def State.berthPlaces (s : State) : List (Nat × Nat) :=
  s.domain.flatMap (fun p => (upTo 4608).flatMap (fun b => (upTo 4).map (fun i => (p * 8192 + b, i))))

/-- FREE slips of the domain. -/
def State.freeSlips (s : State) : Nat :=
  (s.berthPlaces.filter (fun e => !(s.berth e.1).fenced && !((s.berth e.1).slip e.2).bound)).length

/-- Berths of the domain on which bank k is free. -/
def State.freeBanks (s : State) (k : Nat) : Nat :=
  (s.berthPlaces.filter (fun e => e.2 == 0 && !(s.berth e.1).fenced && !bitOf ((s.berth e.1).occupied 0 0 0 false) k)).length

/-- Berths of the domain whose crane no bound slip holds. -/
def State.freeCranes (s : State) : Nat :=
  (s.berthPlaces.filter (fun e => e.2 == 0 && !(s.berth e.1).fenced && !((s.berth e.1).slips.any (fun q => q.2.bound && q.2.tiles != 0)))).length

/-- Cells of the Plains of the domain in no region's window. -/
def State.freeCells (s : State) : Nat :=
  s.domain.length * plainCells - ((s.pkgs.flatMap (fun e => e.2.regions.map Region.ncell)).foldl (· + ·) 0)

/-- The cells a region claims; a suspended one keeps its window (R275). -/
def State.cellsFor (s : State) (pkg a : Nat) : Nat :=
  if (s.pkg pkg).claimed a then 0 else (s.pipeRec pkg (s.blk pkg a fPipe)).ncell

/-- The machine as it would be with a region at a choice of places: its berths' environment, slips, banks, tiles and cells taken. -/
def State.supposePlaced (s : State) (pkg a : Nat) (place : Places) : State :=
  let env := s.regionEnv pkg a (s.pipeRec pkg (s.blk pkg a fPipe))
  let n := s.cellsFor pkg a
  let s1 := (s.seatsFor pkg a).foldl (fun t c => match placeOf place c.actor with
    | some (b, i) => (t.modBerth b (fun x => x.withEnv env)).modSlip b i (fun p =>
        { p with bound := true, actor := c.actor, banks := c.need, tiles := b2n c.tiles, st := .waiting })
    | none => t) s
  match s.windowPlace n place with
  | some (pk, first) =>
    if n = 0 then s1
    else s1.modPkg pkg (fun p => { p with regions := p.regions ++
      [{ block := a, root := 0, fdom := 0, queue := 0, first := first, ncell := n, suspended := true,
         actors := [{ berth := pk * 8192, slip := 0, actor := 0, tag := 0, banks := 0 }] }] })
  | none => s1

/-- Does some choice of places for a list of seats, beside those already chosen, suit? -/
def State.anyPlace (s : State) (f : Places → Bool) : List Seat → Places → Bool
  | [], pl => f pl
  | c :: cs, pl => s.berthPlaces.any (fun q => s.anyPlace f cs ((c.actor, q.1, q.2) :: pl))

/-- The choices of a first cell for a region's window. -/
def State.windowChoices (s : State) (n : Nat) : List Places :=
  if n = 0 then [[]] else s.domain.flatMap (fun pk => (upTo plainCells).map (fun c => [(windowName, pk, c)]))

/-- Does a choice of places suit the seats and the window of a region, its budgets and others' claims apart? -/
def State.seatsFit (s : State) (pkg a : Nat) (place : Places) (claimed : Bool) : Bool :=
  let env := s.regionEnv pkg a (s.pipeRec pkg (s.blk pkg a fPipe))
  let seats := s.seatsFor pkg a
  seats.all (s.seatFits pkg a env seats place claimed) &&
    (match (s.pkg pkg).regions.find? (fun r => r.block == a && !r.moved) with
     | some r => r.samePkg place
     | none => (s.windowPlace (s.cellsFor pkg a) place).isSome)

/-- Is there room for every region of a list at once? -/
def roomFor (pkg : Nat) : List Nat → State → Bool
  | [], _ => true
  | a :: as, s => (s.windowChoices (s.cellsFor pkg a)).any (fun w =>
      s.anyPlace (fun pl => s.seatsFit pkg a pl false && roomFor pkg as (s.supposePlaced pkg a pl)) (s.seatsFor pkg a) w)

/-- The most that a measure gives of a partial choice of places for a list of seats, beside those already chosen. -/
def State.bestPlace (s : State) (f : Places → Nat) : List Seat → Places → Nat
  | [], pl => f pl
  | c :: cs, pl => (s.berthPlaces.map (fun q => s.bestPlace f cs ((c.actor, q.1, q.2) :: pl))).foldl max (s.bestPlace f cs pl)

/-- How many seats the regions of a list can take at once of what is free now (R223): a region claims resources as they are freed. -/
def mostSeats (pkg : Nat) : List Nat → State → Nat
  | [], _ => 0
  | a :: as, s =>
    let env := s.regionEnv pkg a (s.pipeRec pkg (s.blk pkg a fPipe))
    let seats := s.seatsFor pkg a
    s.bestPlace (fun pl =>
      if (seats.filter (fun c => (placeOf pl c.actor).isSome)).all (s.seatFits pkg a env seats pl false) then
        pl.length + mostSeats pkg as (s.supposePlaced pkg a pl)
      else 0) seats []

/-- Does what the regions selected earlier claim remain when a region is bound at a choice of places (R223)? Slips, banks, cranes and cells enough
for them all; where there is room now for one of them, or for all at once, there still is; and what they can claim now, though it be not all
they need, they still can (log 49). -/
def State.leavesClaims (s : State) (pkg a : Nat) (place : Places) (earlier : List Nat) : Bool :=
  let all := s.seatsFor pkg a ++ earlier.flatMap (s.seatsFor pkg)
  let then_ := s.supposePlaced pkg a place
  let stays (l : List Nat) : Bool := (!roomFor pkg l s || roomFor pkg l then_) && decide (mostSeats pkg l s ≤ mostSeats pkg l then_)
  earlier.isEmpty ||
    (decide (all.length ≤ s.freeSlips) &&
     (upTo 16).all (fun k => !((s.seatsFor pkg a).any (fun c => bitOf c.need k)) ||
       decide ((all.filter (fun c => bitOf c.need k)).length ≤ s.freeBanks k)) &&
     (!((s.seatsFor pkg a).any Seat.tiles) || decide ((all.filter Seat.tiles).length ≤ s.freeCranes)) &&
     (s.cellsFor pkg a == 0 ||
       decide (s.cellsFor pkg a + (earlier.map (s.cellsFor pkg)).foldl (· + ·) 0 ≤ s.freeCells)) &&
     stays earlier && earlier.all (fun e => stays [e]))

/-- The regions selected before one (R223). -/
def Pkg.before (p : Pkg) (a : Nat) : List Nat := p.selected.takeWhile (fun x => x != a)

/-- May a selected region be bound at a choice of places (R223, R224)? claimed counts the banks that suspended actors left in place as free. -/
def State.placeSuits (s : State) (pkg a : Nat) (place : Places) (claimed : Bool) : Bool :=
  let before := (s.pkg pkg).before a
  s.seatsFit pkg a place claimed && s.leavesClaims pkg a place before && s.affordable pkg (s.claimNow pkg a) before

/-- Can a selected region be bound now at some choice of places (R431, R434)? -/
def State.bindable (s : State) (pkg a : Nat) (claimed : Bool) : Bool :=
  (s.windowChoices (s.cellsFor pkg a)).any (fun w => s.anyPlace (fun pl => s.placeSuits pkg a pl claimed) (s.seatsFor pkg a) w)

/-- A notice of the Harbourmaster for a page that is not resident (R237, R289). -/
def State.engineNotice (s : State) (pk root asid vpage : Nat) : State :=
  if s.notices.any (fun n => n.names pk asid vpage) then s
  else { s with notices := s.notices ++ [{ pkg := pk, root := root, asid := asid, vpage := vpage }] }

/-- Notices for the pages of a region's `.local` images that are not resident. -/
def State.imageNotices (s : State) (pkg : Nat) (env : BerthEnv) (d : PipeRec) : State :=
  (d.actors.flatMap ActorRec.imagePages).foldl (fun t v =>
    if (t.spaceKey pkg env.root (v * 65536)).isNone then t.engineNotice pkg env.root env.asid v else t) s

/-- Forget a domain with no region left. -/
def State.dropDom (s : State) (d : DomKey) : State :=
  if (s.regionsOf d).isEmpty then { s with doms := s.doms.filter (fun x => x.key ≠ d) } else s

/-- A suspended region that is refused lets go of the banks it left in place and of the lines that no commit has covered, and no slip takes the
launches it holds (R217, R265, R426, R434). -/
def State.dropSaved (s : State) (pkg a : Nat) : State :=
  match (s.pkg pkg).regions.find? (fun r => r.block == a && r.suspended) with
  | none => s
  | some r =>
    let d : DomKey := { pkg := pkg, root := r.root, fdom := r.fdom }
    let s0 : State := { s with pkgs := s.pkgs.map (fun e =>
      (e.1, { e.2 with uncovered := e.2.uncovered.filter (fun u => u.dom ≠ d || u.region ≠ a) })) }
    let s1 := (r.slips.flatMap (fun v => v.slip.launches)).foldl State.launchStale s0
    s1.berths.foldl (fun (t : State) e =>
      let mask := (e.2.victims.filter (fun v => v.pkg == pkg && v.region == a)).foldl (fun m v => m ||| v.banks) 0
      if mask = 0 then t
      else ((t.wakeBanks e.1 mask).wipeBanks e.1 mask).modBerth e.1 (fun x => { x with
        victims := x.victims.filter (fun v => !(v.pkg == pkg && v.region == a)) })) s1

/-- REGION_BIND (R217, R224): a SELECTED region is checked, and refused; or bound where its budgets, the claims of regions selected earlier and
the firmware's choice of places allow; else it stays SELECTED. place also names the first cell of its window. The block is read as it stands now,
whatever it held at its selection (log 123). -/
def execRegionBind (pkg region : Nat) (place : Places) (s : State) : Out :=
  let p := s.pkg pkg
  if s.regionState pkg region ≠ 2 || !p.selected.contains region then .next s
  else
    let d := s.pipeRec pkg (s.blk pkg region fPipe)
    let env := s.regionEnv pkg region d
    let old := p.regions.find? (fun r => r.block == region)
    let code := s.admission pkg region
    if code ≠ 0 then
      let t := (s.dropSaved pkg region).refuseRegion pkg region code
      .next (match old with
        | some r => t.dropDom { pkg := pkg, root := r.root, fdom := r.fdom }
        | none => t)
    else if !s.placeSuits pkg region place false then .next s
    else match old with
    | some r =>
      if r.moved then
        match s.windowPlace d.ncell place with
        | none => .next s
        | some w => let t := s.adoptRegion pkg region d r w
                    .next (t.1.rebindRegion pkg region d t.2 place)
      else .next (s.rebindRegion pkg region d r place)
    | none =>
      if !(d.actors.all (s.imageReady pkg env.root)) then .next (s.imageNotices pkg env d)
      else match s.windowPlace d.ncell place with
        | none => .next s
        | some w => .next (s.bindRegion pkg region d place w)

/-- REGION_RESUME (R214): a SUSPENDED region becomes READY; grouping nodes that nothing BOUND or SUSPENDED draws on return their charge
(R212). -/
def execRegionResume (pkg region : Nat) (s : State) : Out :=
  if s.regionState pkg region = 4 then
    let t := s.readyRegion pkg region
    .next (t.endAdmissions pkg ((t.endedGroups pkg 0).filter (fun e => e.node != region)))
  else .next s

/-- REGION_RECLAIM (R214): a block in DONE or FAULTED, as code 7 counts, becomes FREE. -/
def execRegionReclaim (pkg region : Nat) (s : State) : Out :=
  if s.regionState pkg region ≥ 5 then .next (s.setRegionState pkg region 0) else .next s

end Sys2Proof.Machine
end

