-- ==== Sys2Proof/Machine/Firings.lean ====
section
/-! DEFINITION. Firings and their ends: scheduling, waits, DONE and HALT, the end of a region, handlers (spec/11 R218 to R222, R226,
R227, spec/01 R18, spec/06 R175, spec/13 R262, R265). -/
namespace Sys2Proof.Machine
open Sys2Proof

/-! ### Starting a firing (R18, R28, R175, R219, R265) -/

/-- The registers of a carry set, g24 to g31 or f24 to f31, in all eight versions (R18). -/
def carried {α : Type} (d : α) (m : SMap α) : SMap α :=
  (upTo 8).flatMap (fun j => (upTo 8).map (fun v => (8 * (24 + j) + v, SMap.get d m (24 + j))))

/-- A slip at the start of a firing: every register zero but the carry set, no loop state, PRIV 0 but on a control berth. -/
def Slip.startFiring (p : Slip) (priv : Bool) (len : Word → Option Nat) : Slip :=
  { p with
    st := .running
    firing := true
    begun := false
    g := carried 0 p.carryG
    f := carried 0 p.carryF
    w := []
    q := []
    m := []
    cur := []
    levels := []
    aside := []
    pend := {}
    after := []
    lastDmax := 0
    lexit := 0
    late := none
    priv := priv
    live := Queue.start len ((p.act.map Act.entry).getD 0) }

/-- A firing begins; a landing's fault that came between the firings is taken at its first instruction (R36, log 101). -/
def State.startFiring (s : State) (b i : Nat) : State :=
  let len := s.lenAt { b := b, i := i, hnd := false }
  let t := s.modSlip b i (fun p => p.startFiring (isControl b) len)
  match (s.slip b i).late with
  | some (cause, tv) => t.raiseSlip b i cause tv false
  | none => t

/-- The READY slip that runs next (R219): highest PRIO, smallest stamp, lowest index. Taken and stopped slips wait. -/
def Berth.pick (x : Berth) : Option Nat :=
  ((x.slips.filter (fun q => decide (q.2.st = .ready) && !q.2.stopped && !q.2.taken)).foldl (fun best q => match best with
    | none => some q
    | some (r : Nat × Slip) =>
      if q.2.prio > r.2.prio || (q.2.prio == r.2.prio && decide (q.2.stamp < r.2.stamp)) then some q else best) none).map (fun q => q.1)

/-- A launch leaves the queue of its slip; while a checkpoint stands it is kept for a replay (R265, R430). -/
def State.useLaunch (s : State) (b i : Nat) (l : Launch) (rest : List Launch) : State :=
  let keeps : Bool := match (s.slip b i).dom.bind s.dom with
    | some d => d.ckpt.isSome || d.next.isSome
    | none => false
  s.modSlip b i (fun p => { p with st := .running, launches := rest, used := if keeps then p.used ++ [l] else p.used })

/-- SLIP_SCHEDULE (R219, R265): the chosen slip runs on, or begins a firing, whose launch handler comes first. -/
def execSlipSchedule (b : Nat) (s : State) : Out :=
  let x := s.berth b
  if x.running.isSome || x.fenced then .next s
  else match x.pick with
    | none => .next s
    | some i =>
      let p := s.slip b i
      match p.firing, p.act with
      | false, some a =>
        if !a.launch then .next (s.startFiring b i)
        else match p.launches with
          | [] => .next (s.modSlip b i (fun q => { q with st := .waiting }))
          | l :: rest => if x.handler.isSome then .next s else .next ((s.useLaunch b i l rest).startLaunch b i .launch l)
      | _, _ => .next (s.modSlip b i (fun q => { q with st := .running }))

/-- The inputs of a WAITING slip (R218): CRATE slots on each input, a launch where it takes launches, its PRED halted. -/
def Slip.inputsSuffice (p : Slip) : Bool :=
  p.bound && p.preemptAt.isNone && (match p.act with
    | none => false
    | some a => a.crates.all (fun c => decide ((p.chan c.1).filled ≥ c.2)) && (!a.launch || !p.launches.isEmpty) &&
        (a.pred == noActor || a.predDone))

/-- SLIP_INPUTS_SUFFICE (R218). -/
def execSlipInputsSuffice (b : Nat) (i : Nat) (s : State) : Out :=
  let p := s.slip b i
  if p.st = .waiting && p.inputsSuffice then .next (s.makeReady b i) else .next s

/-- Is what a BLOCKED slip waits for there (R218)? WINDOW and IDLE have events of their own. -/
def State.waitOver (s : State) (b i : Nat) (w : Wait) : Bool :=
  let p := s.slip b i
  match w with
  | .filled h n => decide ((p.chan h).filled ≥ n)
  | .space h n => decide ((p.chan h).free ≥ n)
  | .syncWord k g => s.syncReached k g
  | .copies c id => !(p.outstanding.any (fun o => o.chan == c && o.id == id && !o.done))
  | .cell k => s.sealed k && !s.cellQueued b i k
  | .tiles z => (s.berth b).crane.settled (if z = 256 then none else some z)
  | .fifo => decide (s.fifoLength b < 8)
  | .page k => !(s.notices.any (fun n => n.pkg == pkgOf b && pageName n.asid n.vpage == k))
  | .window => false
  | .idle => false

/-- WAIT_SATISFIED (R218): a BLOCKED slip becomes READY; it runs its waiting instruction again. -/
def execWaitSatisfied (b : Nat) (i : Nat) (s : State) : Out :=
  let p := s.slip b i
  match p.wait with
  | none => .next s
  | some w => if p.st = .blocked && !p.stopped && s.waitOver b i w then .next (s.makeReady b i) else .next s

/-! ### DONE (R220) -/

/-- A firing ends (R175, R220): levels end, the carry set is taken at distance 0, a trap in progress is dropped. -/
def Slip.endFiring (p0 : Slip) : Slip :=
  let p := p0.endLevels 8
  { p with
    carryG := (upTo 8).map (fun j => (24 + j, p.getG (24 + j) 0))
    carryF := (upTo 8).map (fun j => (24 + j, p.getF (24 + j) 0))
    intrap := false
    saved := if p.intrap then {} else p.saved
    aside := []
    firing := false
    begun := false
    st := .waiting
    wait := none
    taken := p.preemptAt.isSome }

/-- A handler ends (R220, R263, R265): a launch's firing begins; a control berth's next launch runs. -/
def State.endHandler (s : State) (b : Nat) : State :=
  let x := s.berth b
  match x.handler with
  | none => s
  | some h =>
    let s1 := s.setBerth b { x with handler := none }
    match h.source with
    | .item => s1
    | .launch => s1.startFiring b h.slip
    | .control => match x.controlLaunches with
      | [] => s1
      | l :: rest => (s1.modBerth b (fun y => { y with controlLaunches := rest })).startLaunch b h.slip .control l

/-- DONE (R220): ends the handler, or the firing. -/
def execDone (s : State) : Out :=
  instr Enc.done {} []
    (fun c s =>
      if c.hnd then .gone (s.endHandler c.b)
      else
        let t := s.modSlip c.b c.i Slip.endFiring
        .gone (if (t.slip c.b c.i).inputsSuffice then t.makeReady c.b c.i else t)) s

/-! ### HALT (R221, R262) -/

/-- An item is dropped with STALE: its sender records it (R262, R266). -/
def State.dropStale (s : State) (x : Item) : State :=
  if (s.slip x.src x.srcSlip).bound && (s.slip x.src x.srcSlip).tag == x.srcTag then
    (s.modSlip x.src x.srcSlip (fun p => p.recordStale x)).timing x.src 10
  else s

/-- HALT and HALT.R up to their wait: the levels end, the slip is HALTING, items parked for it are dropped. -/
def haltWith (word : Nat) (retain : Bool) (s : State) : Out :=
  instr word { hnd := false } []
    (fun c s =>
      let p := s.slip c.b c.i
      if retain && ((p.act.map Act.succ).getD noActor) == noActor then .trap s 1 (natWord word)
      else
        let t := p.parked.foldl State.dropStale s
        .stay (t.modSlip c.b c.i (fun q =>
          { q.endLevels 8 with st := .halting, wait := none, halting := true, retain := retain, parked := [] }))) s

/-- HALT (R221). -/
def execHalt (s : State) : Out := haltWith Enc.halt false s

/-- HALT.R (R221): the banks keep their contents for the successor. -/
def execHaltR (s : State) : Out := haltWith Enc.haltR true s

/-- The scratchpad key where the element that a copy holds lands, if in a scratchpad. -/
def State.landKey (s : State) (k : Copy) : Option Nat :=
  let d := (k.dstOf k.pos).toNat
  match bitsOf d 63 60 with
  | 1 => some (scratchKey k.berth (bitsOf d 18 0))
  | 2 => (s.remoteBerth d).map (fun b => scratchKey b (bitsOf d 18 0))
  | _ => none

/-- Is a landing under way to one of the banks of a mask (R221, R432, R434)? -/
def State.landingsInto (s : State) (b mask : Nat) : Bool :=
  s.net.any (fun p => p.dst == b && (match p.body with
    | .chst _ _ _ ring q _ _ _ => inBanks b mask (scratchKey b ring) || inBanks b mask (scratchKey b (ring + q))
    | .item _ => false
    | .reply _ _ _ => false
    | .ack _ _ _ _ => false
    | .advance _ _ _ _ => false
    | .freed _ _ _ _ => false
    | .arrival _ _ _ => false
    | .launch _ _ _ => false)) ||
  s.copies.any (fun k => k.buf.isSome && (s.landKey k).any (inBanks b mask)) ||
  s.triples.any (fun t => t.place == b && inBanks b mask (scratchKey b (bitsOf t.dest.toNat 18 0)))

/-- Has a HALTING slip's work drained, and its final close marker left (R221, R262)? -/
def State.haltReady (s : State) (b i : Nat) : Bool :=
  let p := s.slip b i
  decide (p.st = .halting) && !p.stopped && s.quiet b i p.wseq && p.unacked.isEmpty && !(p.gets.any GetDest.owed) &&
    (p.members.isEmpty || p.left.any (fun m => m.tag == p.tag)) && !s.landingsInto b p.banks

/-- Acknowledge requests that have completed, up to the first error (R221, R333). -/
def State.acknowledgeDone (s : State) (b i : Nat) : List Outstanding → State × Option Word
  | [] => (s, none)
  | o :: os => match s.acknowledge b i o with
    | .waits => (s, none)
    | .error t tv => (t, some tv)
    | .done t => t.acknowledgeDone b i os

/-- The overlap that a HALT reports (R320): on the sync words of the slip's banks, lowest first. -/
def State.haltOverlap (s : State) (b i : Nat) : Option Word :=
  let banks := (s.slip b i).banks
  firstSome (fun (e : Nat × SyncWord) =>
    if inBanks b banks e.1 then (oldestOverlap e.2.overlaps).map (fun o => granuleAddr b o.2) else none) s.syncs

/-- The successor of an actor on its berth (R221, R224). -/
def Berth.successor (x : Berth) (a : Act) : Option Nat :=
  if a.succ = noActor then none
  else firstSome (fun q => if q.2.bound && q.2.actor == a.succ && (q.2.act.map Act.region) == some a.region then some q.1 else none) x.slips

/-- Does step 2 of a rollback write a word anew (R428, R429): does it lie in the record's unit? Of a key-value page the header alone is restored
(log 117). -/
def JRec.rewrites (r : JRec) (w : Nat) : Bool := decide (r.base ≤ w) && decide (w < r.base + r.len)

/-- Apply one journal record (R428 step 2): the unit takes its recorded contents and marks. -/
def State.applyRecord (s : State) (r : JRec) : State :=
  let out (k : Nat) : Bool := !(decide (r.base ≤ k) && decide (k < r.base + r.len))
  let s1 : State := { s with
    mem := r.listed.foldl (fun m c => Memory.write m c.1 c.2) (s.mem.filter (fun c => out c.1))
    grans := r.grans.foldl (fun m e => SMap.set {} m e.1 e.2) (s.grans.filter (fun e => out e.1))
    syncs := r.syncs.foldl (fun m e => SMap.put m e.1 e.2) (s.syncs.filter (fun e => out e.1))
    poison := s.poison.filter (fun w => !r.rewrites w) }
  match r.unit with
  | .cell k => s1.setCellTag k (r.tag.getD {})
  | .kv k => s1.setKv k (r.kv.getD {})
  | .line k => s1.modPkg (k >>> 80) (fun p => { p with lines := match r.lineTag with
      | some t => SMap.put p.lines (k % (1 <<< 80)) t
      | none => SMap.erase p.lines (k % (1 <<< 80)) })
  | .scratch _ => s1
  | .page _ => s1

/-- A checkpoint with one of its slips as it halts (R428): its banks as they stood at the checkpoint. -/
def State.noteHalt (s : State) (b i back : Nat) (k : Ckpt) : Ckpt :=
  let x := s.berth b
  let p := x.slip i
  if !(k.snaps.any (fun n => n.berth == b && n.index == i && n.slip.tag == p.tag)) then k
  else
    let t := k.journal.foldl State.applyRecord s
    { k with halted :=
      { berth := b, index := i, region := (p.act.map Act.region).getD 0, tag := p.tag, asid := x.asid, root := x.root, hbase := x.hbase,
        hlimit := x.hlimit, tvec := x.tvec, upvec := x.upvec, used := p.used, charge := back, instret := p.instret,
        banks := ((upTo 16).filter (bitOf p.banks)).map (fun n => t.saveBank b p.actor n) } :: k.halted }

/-- A slip of a checkpointed domain halts: the domain's checkpoints keep what a rollback brings back (R428, R430, log 106). -/
def State.noteHalts (s : State) (b i back : Nat) : State :=
  match (s.slip b i).dom.bind s.dom with
  | none => s
  | some d =>
    if d.ckpt.isNone && d.next.isNone then s
    else s.setDom { d with ckpt := d.ckpt.map (s.noteHalt b i back), next := d.next.map (s.noteHalt b i back) }

/-- The banks of a halted slip: powered down or kept, and passed to its successor (R221). -/
def State.passBanks (s : State) (b i : Nat) : State :=
  let p := s.slip b i
  let s1 := if p.retain then s else s.wipeBanks b p.banks
  match p.act.bind (s.berth b).successor with
  | none => s1
  | some j => s1.modSlip b j (fun q => { q with banks := q.banks ||| p.banks, act := q.act.map (fun a => { a with predDone := true }) })

/-- A slip that no actor is bound to any longer: only its tag is left (R30). -/
def Slip.unbound (p : Slip) : Slip := { actor := p.actor, incarn := p.incarn }

/-- A committed change made again in a state t that a record has been applied to: bytes stand as they are now, an operation is done again. -/
def State.redo (s t : State) : Change → State
  | .bytes k n => t.poke k (s.bytesAt k n)
  | .op o => t.applyBankOp o

/-- The record of a unit that a region which is DONE and another have changed (R426, R428, log 118): it takes the committed changes, so that
a rollback takes back the other's alone. -/
def State.settledRecord (s : State) (block : Nat) (x : JRec) : JRec :=
  let others := x.regions.filter (fun n => n != block)
  if others.isEmpty || !x.regions.contains block then { x with regions := others }
  else
    let mine := (x.changes.filter (fun c => c.1 == block)).map (fun c => c.2)
    { (mine.foldl s.redo (s.applyRecord x)).record x.unit with
      regions := others
      changes := x.changes.filter (fun c => c.1 != block) }

/-- A checkpoint of a domain one of whose regions is DONE (R426): what it has changed is committed, its slips do not come back. -/
def State.dropRegion (s : State) (r : Region) (k : Ckpt) : Ckpt :=
  { k with
    journal := (k.journal.map (s.settledRecord r.block)).filter (fun x => !x.regions.isEmpty)
    snaps := k.snaps.filter (fun n => !((n.slip.act.map Act.region) == some r.block))
    halted := k.halted.filter (fun h => h.region != r.block) }

/-- The commit of a region's DONE ends what the domain's checkpoints could take back of it (R426). -/
def State.commitRegion (s : State) (d : DomKey) (r : Region) : State :=
  match s.dom d with
  | none => s
  | some m => s.setDom { m with ckpt := m.ckpt.map (s.dropRegion r), next := m.next.map (s.dropRegion r) }

/-- A region has lost its last actor (R214, R221, R299, R426): MISUSE stops its domain; else DONE, with its commit. -/
def State.endRegion (s : State) (b i : Nat) (pc : Word) (o : Owner) (r : Region) : State :=
  match s.regionMisuse r with
  | some a => { s with stops := s.stops ++
      [{ berth := b, slip := i, kind := 1, cause := 10, tval := a, pcq0 := pc, owner := some o }] }
  | none => ((((s.commitRegion o.dom r).finishRegion o.dom.pkg r.block 5).commitDom o.dom 0 0 [r])).dropDom o.dom

/-- A region as the distributor keeps it. -/
def State.region (s : State) (pkg block : Nat) : Option Region := (s.pkg pkg).regions.find? (fun r => r.block == block)

/-- An actor has left its region (R221): LIVE falls, its REDUCE cells stay its region's (R299). -/
def State.leaveRegion (s : State) (b i : Nat) (p : Slip) : State :=
  match p.owner with
  | none => s
  | some o =>
    let pkg := o.dom.pkg
    match s.region pkg o.region with
    | none => s
    | some r =>
      let r1 : Region := { r with reduce := r.reduce ++ p.reduceCells, live := r.live - 1 }
      let s1 := (s.setBlk pkg o.region fLive r1.live).modPkg pkg (fun x => { x with regions := x.regions.map (fun q =>
        if q.block = o.region then r1 else q) })
      if r1.live = 0 then s1.endRegion b i p.recordPc o r1 else s1

/-- The banks whose charge returns as an actor halts (R221, log 107): its own and those it received, unless they stay for a successor. -/
def State.banksBack (s : State) (b i : Nat) : Nat :=
  let p := s.slip b i
  match p.act.bind (s.berth b).successor with
  | some _ => 0
  | none => Alu.ones 16 p.banks

/-- The charge of n banks returns to the pool that a region charged (R212, R221). -/
def State.returnBanks (s : State) (pkg block n : Nat) : State :=
  match s.region pkg block with
  | none => s
  | some r => match r.charges.find? (fun c => c.pool == 44) with
    | none => s
    | some c => (s.discharge pkg { c with amount := n }).modPkg pkg (fun x => { x with regions := x.regions.map (fun q =>
        if q.block = block then { q with charges := q.charges.map (fun e => if e.pool = 44 then { e with amount := e.amount - n } else e) } else q) })

/-- Is a slip the last actor of its region, whose DONE has to wait for the record ring (R426, R449)? -/
def State.doneWaits (s : State) (b i : Nat) : Bool :=
  match (s.slip b i).owner with
  | none => false
  | some o => match s.region o.dom.pkg o.region with
    | none => false
    | some r => r.live == 1 && !(s.pkg o.dom.pkg).commitFits 1

/-- The slip becomes FREE (R221): banks, launches and crane go, the actor has halted, its region may end. -/
def State.unbindSlip (s : State) (b i : Nat) : State :=
  let p := s.slip b i
  let back := s.banksBack b i
  let s0 := s.noteHalts b i back
  let s1 := ((match p.owner with
    | some o => s0.returnBanks o.dom.pkg o.region back
    | none => s0).passBanks b i).modSlip b i Slip.unbound
  let s2 := if p.tiles = 0 then s1 else s1.modCrane b (fun _ => Crane.fresh)
  let s3 := p.launches.foldl State.launchStale s2
  let s4 := s3.modPkg (pkgOf b) (fun x => { x with gone := ((s.berth b).asid, p.actor) :: x.gone })
  s4.leaveRegion b i p

/-- What a drained HALT reports before it lets go (R221, R320, R363, R382): a valley refusal or an overlap stops the domain; a
copy's error, or a crane's, is raised. -/
def State.haltReports (s : State) (b i : Nat) : State × Bool :=
  let c : Ctx := { b := b, i := i, hnd := false }
  match s.kvReport b i with
  | (t, some f) => ((t.modSlip b i (fun p => { p with stopped := true })).report b i 1 f.cause f.tval, true)
  | (t, none) =>
    match t.acknowledgeDone b i ((upTo 4).flatMap (fun k => (t.slip b i).outstanding.filter (fun o => o.chan == k))) with
    | (u, some tv) => ((u.makeReady b i).raiseSlip b i 30 tv false, true)
    | (u, none) =>
      let r := (u.berth b).crane.settle none
      let v := if (u.slip b i).tiles = 0 then u else (u.modCrane b (fun _ => r.1)).count c r.2.1
      match (if (u.slip b i).tiles = 0 then none else r.2.2) with
      | some (cause, tv) => (v.raiseSlip b i cause tv false, true)
      | none => match v.haltOverlap b i with
        | some a => ((v.modSlip b i (fun p => { p with stopped := true })).report b i 1 20 a, true)
        | none => (v, false)

/-- HALT_DRAIN_COMPLETE (R221): the drained HALT reports what it covers, then the slip becomes FREE; with it the region's DONE commits, which
may have to wait. -/
def execHaltDrainComplete (b : Nat) (i : Nat) (s : State) : Out :=
  if !s.haltReady b i then .next s
  else
    let r := s.haltReports b i
    .next (if r.2 then r.1 else if s.doneWaits b i then s else r.1.unbindSlip b i)

/-- HANDLER_OVERRUN (R227): the 257th step of a handler raises cause 18 with its address. -/
def execHandlerOverrun (s : State) : Out :=
  match s.ctx with
  | none => .next s
  | some c =>
    let late : Bool := match (s.berth c.b).handler with
      | some h => decide (h.steps ≥ 256)
      | none => false
    if c.hnd && late then .next (s.raise c 18 (s.pcOf c) false) else .next s

end Sys2Proof.Machine
end

