-- ==== Sys2Proof/Machine/Faults.lean ====
section
/-! DEFINITION. Fault domains, rollback, pre-emption and retention (spec/23 R416 to R439). -/
namespace Sys2Proof.Machine
open Sys2Proof

/-! ### Stopping slips (R418 steps 1 to 3) -/

/-- Is a place, berth and slip, in a set? -/
def inSet (l : List (Nat × Nat)) (b i : Nat) : Bool := l.contains (b, i)

/-- Is a packet an item, a reply, an answer or a notice of a set of slips, or an arrival of their domain? Launches come from
a queue and are not. -/
def Packet.ofSet (p : Packet) (l : List (Nat × Nat)) (d : DomKey) : Bool :=
  match p.body with
  | .item x => inSet l x.src x.srcSlip || inSet l x.dst x.dstSlip
  | .reply i _ _ => inSet l p.dst i
  | .ack i _ _ x => inSet l p.dst i || inSet l x.dst x.dstSlip
  | .advance i _ _ _ => inSet l p.dst i
  | .freed i _ _ _ => inSet l p.dst i
  | .chst i _ _ _ _ _ j _ => inSet l p.dst i || inSet l p.src j
  | .arrival _ _ o => (o.map Owner.dom) == some d
  | .launch _ _ _ => false

/-- Is a packet a landing? -/
def Packet.lands (p : Packet) : Bool :=
  match p.body with
  | .chst _ _ _ _ _ _ _ _ => true
  | .arrival _ _ _ => true
  | .item _ => false
  | .reply _ _ _ => false
  | .ack _ _ _ _ => false
  | .advance _ _ _ _ => false
  | .freed _ _ _ _ => false
  | .launch _ _ _ => false

/-- Drop what a set of slips has under way: handlers, items and notices, copies, valley commands, waits at pages; crane
commands stop. keepLandings leaves landings that are in flight already to drain. -/
def State.quell (s : State) (l : List (Nat × Nat)) (d : DomKey) (keepLandings : Bool) : State :=
  let drop (p : Packet) : Bool := p.ofSet l d && !(keepLandings && p.lands)
  let s1 : State := { s with
    net := s.net.filter (fun p => !drop p)
    copies := s.copies.filter (fun k => !inSet l k.berth k.slip)
    kvCmds := s.kvCmds.filter (fun k => !inSet l k.berth k.slip)
    triples := if keepLandings then s.triples else s.triples.filter (fun k => !inSet l k.berth k.slip)
    bankOps := if keepLandings then s.bankOps else s.bankOps.filter (fun k => !inSet l k.berth k.slip)
    notices := s.notices.map (fun n => { n with waiters := n.waiters.filter (fun w => !inSet l w.1 w.2) }) }
  l.foldl (fun t e => t.modBerth e.1 (fun x => { x with
    handler := match x.handler with
      | some h => if h.slip = e.2 && h.source ≠ .control then none else some h
      | none => none
    crane := if (x.slip e.2).tiles = 0 then x.crane else { x.crane with queue := [], running := none } })) s1

/-! ### FAULT_DOMAIN_STOP (R417 to R419) -/

/-- The fault record, bytes 8 to 63 of the ERR 7 event (R419). -/
def faultRecord (x : Stop) (o : Owner) : List Byte :=
  leBytes 8 o.region ++ leBytes 4 o.dom.fdom ++ leBytes 1 x.cause ++ leBytes 1 x.kind ++ leBytes 2 0 ++ leBytes 4 o.actor ++
    leBytes 4 x.berth ++ leBytes 8 x.tval.toNat ++ leBytes 8 x.pcq0.toNat

/-- The event among those that stop a domain at once whose slip has the lowest actor number (R419). -/
def lowestStop (l : List Stop) : Option Stop :=
  let actor (x : Stop) : Nat := (x.owner.map Owner.actor).getD 0
  l.foldl (fun best x => match best with
    | none => some x
    | some y => if actor x < actor y then some x else best) none

/-- The slips of a region that still carry its actors, as they were placed. -/
def State.boundMembers (s : State) (r : Region) : List Member :=
  r.actors.filter (fun m => (s.slip m.berth m.slip).bound && (s.slip m.berth m.slip).tag == m.tag)

/-- Free a slip of a stopped domain: its banks are powered down (R418 step 4). -/
def State.freeStopped (s : State) (m : Member) : State :=
  let p := s.slip m.berth m.slip
  let s1 := (s.wipeBanks m.berth p.banks).modSlip m.berth m.slip Slip.unbound
  if p.tiles = 0 then s1 else s1.modCrane m.berth (fun _ => Crane.fresh)

/-- The regions of a domain that are bound, and the slips of their actors (R416). -/
def State.boundRegions (s : State) (d : DomKey) : List Region := (s.regionsOf d).filter (fun r => !r.suspended)
def State.boundPlaces (s : State) (d : DomKey) : List (Nat × Nat) :=
  ((s.boundRegions d).flatMap s.boundMembers).map (fun m => (m.berth, m.slip))

/-- A stop begins (R418 steps 1 to 3): the domain's slips stop, what they issued is dropped, landings in flight are left to drain. A
checkpoint being taken is given up, and with it what it holds back. -/
def State.beginStop (s : State) (d : DomKey) : State :=
  let l := s.boundPlaces d
  let s1 := l.foldl (fun t e => t.modSlip e.1 e.2 (fun p => { p with stopped := true })) (s.quell l d true)
  match s1.dom d with
  | none => s1
  | some m => s1.setDom { m with next := none }

/-- Have landings of a domain that is stopping still to drain (R418 step 3)? A triple whose sync word no slip will define is none. -/
def State.drains (s : State) (d : DomKey) : Bool :=
  let l := s.boundPlaces d
  s.net.any (fun p => p.ofSet l d && p.lands) ||
  s.bankOps.any (fun k => inSet l k.berth k.slip) ||
  s.triples.any (fun t => inSet l t.berth t.slip && ((s.tripleFault t).isSome || (s.syncAt t.place (16 * t.sync)).isSome))

/-- The end of a domain's stop (R418 steps 4 and 5) as one event describes it. -/
def State.stopDomain (s : State) (x : Stop) (o : Owner) : State :=
  let d := o.dom
  let rs := s.boundRegions d
  match rs with
  | [] => s
  | r0 :: _ =>
    let ms := rs.flatMap s.boundMembers
    let s0 := s.quell (ms.map (fun m => (m.berth, m.slip))) d false
    let s1 := (ms.flatMap (fun m => (s0.slip m.berth m.slip).launches)).foldl State.launchStale s0
    let s2 := ms.foldl State.freeStopped s1
    let s3 := rs.foldl (fun t r => t.finishRegion d.pkg r.block 6) s2
    let s4 := (s3.modPkg d.pkg (fun p => { p with uncovered := p.uncovered.filter (fun u => u.dom ≠ d) }))
    let s5 : State := { s4 with doms := s4.doms.filter (fun e => e.key ≠ d) }
    let s6 := s5.modPkg d.pkg (fun p => { p with
      faultRecords := rs.foldl (fun m r => SMap.put m r.block (faultRecord x o)) p.faultRecords })
    s6.queueErrorWith d.pkg r0.queue 7 (faultRecord x o)

/-- The first stop that is due: one that has not begun, or one whose domain's landings have drained. -/
def State.dueStop (s : State) : Option Stop :=
  s.stops.find? (fun x => !x.begun || !(x.owner.any (fun o => s.drains o.dom)))

/-- FAULT_DOMAIN_STOP (R418, R419): the domain of the first event that is due begins to stop, under the record of the lowest actor among its
events; or, its landings drained, it ends. -/
def execFaultDomainStop (s : State) : Out :=
  match s.dueStop with
  | none => .next s
  | some x =>
    match x.owner with
    | none => .next { s with stops := s.stops.erase x }
    | some o =>
      let mine (y : Stop) : Bool := (y.owner.map Owner.dom) == some o.dom
      let s1 : State := { s with
        stops := s.stops.filter (fun y => !mine y)
        rollbacks := s.rollbacks.filter (fun y => !mine y) }
      match s.stops.find? (fun y => mine y && y.begun) with
      | some y => if x.begun then .next (s1.stopDomain y (y.owner.getD o)) else .next { s1 with stops := y :: s1.stops }
      | none => match lowestStop (s.stops.filter mine) with
        | none => .next s1
        | some y => .next { s1.beginStop o.dom with stops := { y with begun := true } :: s1.stops }

/-! ### ROLLBACK (R427 to R430) -/

/-- The copy that a transfer error with reason 12 names (R328). -/
def State.failedCopy (s : State) (x : Stop) : Option Copy :=
  if x.cause = 30 then s.copies.find? (fun k => k.berth == x.berth && k.slip == x.slip && k.reason == 12 && k.id == x.tval.toNat >>> 32) else none

/-- The memory key of the word that a rollback-class fault names; none where it names none in a unit of R424. That of a key-value page is the
word that the scan or the append met (R395). -/
def State.failingKey (s : State) (x : Stop) : Option Nat :=
  let a := x.tval.toNat
  if x.word.isSome then x.word
  else if x.cause = 30 then (s.failedCopy x).bind Copy.bad
  else match bitsOf a 63 60 with
    | 0 => match s.translate x.berth false (bitsOf a 56 0) with
      | .leaf e base _ => some (physKey (pkgOf x.berth) (leafAddr e base (bitsOf a 56 0)))
      | .absent => none
      | .malformed => none
    | 1 => some (scratchKey x.berth (bitsOf a 18 0))
    | 2 => (s.remoteBerth a).map (fun b => scratchKey b (bitsOf a 18 0))
    | 3 => some (plainKey (pkgOf x.berth) (64 * bitsOf (s.slip x.berth x.slip).plwin.toNat 31 0 + bitsOf a 31 0))
    | _ => none

/-- The GLOBAL address by which a rollback-class fault met its failing word: cause 25 names it, a copy's element names it; none where the word
was not met through a page table (a key-value page, a SYSTEM address). -/
def State.failingVa (s : State) (x : Stop) : Option Nat :=
  match s.failedCopy x with
  | some k => ([s.srcOf k k.pos, some (k.dstOf k.pos)].filterMap id).findSome? (fun a =>
      if bitsOf a.toNat 63 60 = 0 && (k.bad.map (· / 65536)) == some (s.byteKey k.berth a.toNat / 65536) then some (bitsOf a.toNat 56 0) else none)
  | none => if x.cause = 25 && bitsOf x.tval.toNat 63 60 = 0 then some (bitsOf x.tval.toNat 56 0) else none

/-- Does restoring a journal rewrite a word? -/
def Ckpt.rewrites (k : Ckpt) (w : Nat) : Bool := k.journal.any (JRec.rewrites · w)

/-- Does a checkpoint hold the state of a slip as it is bound now? -/
def Ckpt.covers (k : Ckpt) (s : State) (e : Nat × Nat) : Bool :=
  k.snaps.any (fun n => n.berth == e.1 && n.index == e.2 && n.slip.tag == (s.slip e.1 e.2).tag)

/-- Has a checkpoint been taken since a suspended region was bound (R429): does it hold the state of every slip of it, or had the region been
suspended before it, and has it not run since? -/
def Ckpt.coversSaved (k : Ckpt) (r : Region) : Bool :=
  k.asleep.contains r.block || r.slips.all (fun v => k.snaps.any (fun n => n.berth == v.berth && n.index == v.index && n.slip.tag == v.slip.tag))

/-- Can a slip that has halted since a checkpoint be restored on its own berth (R428)? Its slip, its banks, its tiles and its berth's environment
must not have gone to actors of another domain (log 106). -/
def State.canReturn (s : State) (d : DomKey) (k : Ckpt) (h : Halted) : Bool :=
  let x := s.berth h.berth
  let p := x.slip h.index
  let env : Bool := x.asid == h.asid && x.root == h.root && x.hbase == h.hbase && x.hlimit == h.hlimit && x.tvec == h.tvec && x.upvec == h.upvec
  let tiles : Bool := k.snaps.any (fun n => n.berth == h.berth && n.index == h.index && n.slip.tag == h.tag && n.crane.isSome)
  !p.bound && !x.fenced &&
    (x.slips.filter (fun q => q.2.bound && q.2.dom != some d)).all (fun q =>
      env && !(tiles && q.2.tiles != 0) && !(h.banks.any (fun e => bitOf q.2.banks e.bank))) &&
    !(x.victims.any (fun v => h.banks.any (fun e => bitOf v.banks e.bank)))

/-- Does servicing a fault require fencing a berth or a quay that holds an actor of the domain (R429): an array of the berth that holds
the failing word, or the crane of the quay, has failed for good? -/
def State.needsFence (s : State) (x : Stop) : Bool :=
  if x.cause = 29 then s.broken.contains (.quay (x.berth / 8))
  else match s.failingKey x with
    | some k => k >>> 60 == 2 && s.broken.contains (.berth (bitsOf k 47 40 * 8192 + bitsOf k 39 27))
    | none => false

/-- The kind of stop that answers a rollback-class fault instead of a rollback, if one does (R429). Cause 29 names the crane's
own storage, which step 3 rewrites; a pass-link fault (cause 0 here) names no word. -/
def State.rollbackKind (s : State) (x : Stop) (d : DomKey) : Option Nat :=
  match s.dom d with
  | none => some 3
  | some m =>
    if m.replaying then some 6
    else match m.ckpt with
      | none => some 3
      | some k =>
        let word : Bool := x.cause == 29 || x.cause == 0 || (match s.failingKey x with
          | some w => k.rewrites w
          | none => false)
        if k.void || !((s.slipsOf d).all (k.covers s)) || !((s.regionsOf d).all k.coversSaved) || !(k.halted.all (s.canReturn d k)) || !word || s.needsFence x then some 3 else none

/-- Where a scratchpad granule of a domain lies (R421): in a bank that a slip of it holds, or that a suspended actor of it left in
place. -/
def State.ownsGranule (s : State) (d : DomKey) (k : Nat) : Bool :=
  (s.slipsOf d).any (fun e => inBanks e.1 (s.slip e.1 e.2).banks k) ||
  s.berths.any (fun e => e.2.victims.any (fun v => v.pkg == d.pkg && (s.regionsOf d).any (fun r => r.block == v.region) && inBanks e.1 v.banks k))

/-- May a record be applied: is its unit still the domain's (R421)? What a region that is DONE changed alone has left the journal (R426). -/
def State.stillOwned (s : State) (d : DomKey) (r : JRec) : Bool :=
  match r.unit with
  | .scratch k => s.ownsGranule d k
  | .cell _ => true
  | .kv _ => true
  | .line _ => true
  | .page _ => true

/-- A journal record applied to a bank in the save area, which a berth's actor left (R428, R434). -/
def SavedBank.apply (b : Nat) (r : JRec) (k : SavedBank) : SavedBank :=
  let rel (w : Nat) : Nat := w - scratchKey b 0
  let out (o : Nat) : Bool := !(decide (r.base ≤ scratchKey b 0 + o) && decide (scratchKey b 0 + o < r.base + r.len))
  match r.unit with
  | .scratch u =>
    if !inBanks b (1 <<< k.bank) u then k
    else { k with
      listed := (r.listed.map (fun c => (rel c.1, c.2))) ++ k.listed.filter (fun c => out c.1)
      grans := r.grans.foldl (fun m e => SMap.set {} m (rel e.1) (e.2.move rel)) (k.grans.filter (fun e => out e.1))
      syncs := r.syncs.foldl (fun m e => SMap.put m (rel e.1) (e.2.move rel)) (k.syncs.filter (fun e => out e.1))
      poison := k.poison.filter out }
  | .cell _ => k
  | .kv _ => k
  | .line _ => k
  | .page _ => k

/-- After a restore every notice counts as delivered: each end of a channel knows the other's index, where both are restored. -/
def Snap.settled (l : List Snap) (n : Snap) : Snap :=
  { n with slip := { n.slip with chans := n.slip.chans.map (fun c =>
      match l.find? (fun m => m.berth == c.2.peer && m.index == c.2.peerSlip && m.slip.tag == c.2.peerTag) with
      | none => c
      | some m =>
        let y := m.slip.chan c.2.peerHandle
        (c.1, if c.2.role = .consumer then { c.2 with tk := y.wi } else { c.2 with hk := y.ri })) } }

/-- A slip restored to a snapshot (R423, R428): what R423 lists comes back; TCAUSE and TVAL of the slip that raised, INSTRET, PRIO, launches
and a pre-emption in progress go on. tags names the restored members, which have not left. -/
def Slip.restored (p : Slip) (n : Snap) (raised : Bool) (tags : List Nat) : Slip :=
  { n.slip with
    tcause := if raised then p.tcause else n.slip.tcause
    tval := if raised then p.tval else n.slip.tval
    instret := p.instret
    prio := p.prio
    launches := p.used ++ p.launches
    used := []
    left := p.left.filter (fun y => !tags.contains y.tag)
    preemptAt := p.preemptAt
    taken := p.taken
    stopped := false
    halting := false
    begun := false
    early := [] }

/-- A slip that has halted since the checkpoint is bound again on its own berth (R428), as the checkpoint holds it. -/
def State.returnHalted (s : State) (d : DomKey) (h : Halted) (n : Snap) : State :=
  let s1 := (s.modBerth h.berth (fun x => { x with
    asid := h.asid, root := h.root, hbase := h.hbase, hlimit := h.hlimit, tvec := h.tvec, upvec := h.upvec })).setSlip h.berth h.index
      { n.slip with launches := h.used, preemptAt := none, taken := false, instret := h.instret }
  let s2 := h.banks.foldl (fun t k => t.restoreBank h.berth k) s1
  let up (r : Region) : Region := if r.block = h.region then { r with
    live := r.live + 1
    charges := r.charges.map (fun c => if c.pool = 44 then { c with amount := c.amount + h.charge } else c) } else r
  let s3 := (s2.modPkg d.pkg (fun p => { p with regions := p.regions.map up })).modPkg (pkgOf h.berth) (fun p =>
    { p with gone := p.gone.filter (fun g => !(g.1 == h.asid && g.2 == n.slip.actor)) })
  match s3.region d.pkg h.region with
  | none => s3
  | some r =>
    let s4 := s3.setBlk d.pkg h.region fLive r.live
    match r.charges.find? (fun c => c.pool == 44) with
    | some c => s4.charge d.pkg { c with amount := h.charge }
    | none => s4

/-- The slips that have halted since a checkpoint come back, the last to halt first, so that a bank that passed on is restored as the
checkpoint had it. -/
def State.returnAll (s : State) (d : DomKey) (k : Ckpt) : State :=
  k.halted.foldl (fun t h => match k.snaps.find? (fun n => n.berth == h.berth && n.index == h.index && n.slip.tag == h.tag) with
    | some n => t.returnHalted d h n
    | none => t) s

/-- Restore a slip on its berth, and its crane (R428 step 3). -/
def State.restoreSnap (s : State) (x : Stop) (tags : List Nat) (n : Snap) : State :=
  let p := s.slip n.berth n.index
  if !p.bound || p.tag ≠ n.slip.tag then s
  else
    let s1 := s.setSlip n.berth n.index (p.restored n (x.berth == n.berth && x.slip == n.index) tags)
    let s2 := match n.crane with
      | some k => s1.modCrane n.berth (fun _ => { k with fails := false })
      | none => s1
    (s2.makeReady n.berth n.index).timing n.berth 15

/-- A region of a rolled back domain that is suspended goes back with it (R430, R437): its saved slips, and its banks in the save
area. -/
def Region.restored (r : Region) (snaps : List Snap) (journal : List JRec) (tags : List Nat) : Region :=
  if !r.suspended then r
  else { r with
    slips := r.slips.map (fun v => match snaps.find? (fun n => n.berth == v.berth && n.index == v.index && n.slip.tag == v.slip.tag) with
      | some n => { v with slip := { v.slip.restored n false tags with st := .ready, wait := none }, crane := n.crane }
      | none => v)
    banks := r.banks.map (fun k => match r.slips.find? (fun v => v.slip.actor == k.actor) with
      | some v => journal.foldl (fun k r => SavedBank.apply v.berth r k) k
      | none => k) }

/-- The address space and the 64 KiB virtual page that a page's name stands for. -/
def pageParts (name : Nat) : Nat × Nat := (name >>> 48, name % (1 <<< 41))

/-- Does a cached leaf map a page, or name its frame? -/
def TlbEntry.maps (t : TlbEntry) (name frame : Nat) : Bool :=
  addrOf t.leaf == frame ||
  (t.asid == (pageParts name).1 && rangesMeet t.base t.size ((pageParts name).2 * 65536) 65536)

/-- Remove a page from every TLB of a package: the Harbourmaster's shoot-down (R292). -/
def State.shootDown (s : State) (pkg name frame : Nat) : State :=
  let keep (l : List TlbEntry) : List TlbEntry := l.filter (fun t => !t.maps name frame)
  { s with
    berths := s.berths.map (fun (e : Nat × Berth) =>
      if pkgOf e.1 = pkg then (e.1, { e.2 with itlb := keep e.2.itlb, tlb := keep e.2.tlb }) else e)
    tlb2 := s.tlb2.map (fun e => if e.1 / 48 = pkg then (e.1, keep e.2) else e) }

/-- A leaf rewritten with class NONE (R278, R441). -/
def noneLeaf (e : Nat) : Nat := bitsOf e 2 0 + withBit (bitOf e 6) 6 + bitsOf e 51 8 <<< 8

/-- Servicing (R428 step 4): the page of a failing word in memory that has failed for good goes offline, its leaf rewritten with class NONE and
its cached leaves dropped (R441, log 109). key is the failing word, va the GLOBAL address that met it. The crane passes its self-test, or the
domain has stopped (R429). -/
def State.service (s : State) (b : Nat) (key va : Option Nat) : State :=
  match key, va with
  | some k, some v =>
    if k >>> 60 ≠ 15 || !s.broken.contains (.page (k / 65536 * 65536)) then s
    else match s.leafPlace (pkgOf b) v 4 ((s.berth b).root <<< 12) with
      | some (a, _) => ((s.pokeNat (physKey (pkgOf b) a) 8 (noneLeaf (s.natAt (physKey (pkgOf b) a) 8)))).shootDown
          (pkgOf b) (pageName (s.berth b).asid (v / 65536)) (k / 65536 * 65536 % (1 <<< 52))
      | none => s
  | _, _ => s

/-- Roll a domain back to its checkpoint (R428). What its slips have in flight is dropped: step 2 takes back what it would change
(log 104). -/
def State.rollDomain (s : State) (x : Stop) (m : Dom) (k : Ckpt) : State :=
  let d := m.key
  let l := s.slipsOf d
  let s1 := s.quell l d false
  let s2 : State := { s1 with heldArrivals := s1.heldArrivals.filter (fun w => !s.ownsGranule d w) ++ k.held }
  let s3 := ((k.journal.filter (s.stillOwned d)).foldl State.applyRecord s2).returnAll d k
  let snaps := k.snaps.map (Snap.settled k.snaps)
  let tags := snaps.map (fun n => n.slip.tag)
  let s4 := snaps.foldl (fun t n => t.restoreSnap x tags n) s3
  let s5 := k.items.foldl (fun t y => t.transmit y.src y.dst (.item y)) s4
  let s6 := k.arrivals.foldl (fun t y => t.transmit y.src y.dst y.body) s5
  let s7 : State := { s6 with
    pkgs := s6.pkgs.map (fun e => (e.1, { e.2 with
      uncovered := e.2.uncovered.filter (fun u => u.dom ≠ d)
      regions := if e.1 = d.pkg then e.2.regions.map (fun r =>
        if r.root = d.root && r.fdom = d.fdom then r.restored snaps k.journal tags else r) else e.2.regions })) }
  (s7.setDom { m with ckpt := some { k with journal := [], counted := [], halted := [] }, next := none, replaying := true }).service x.berth (s.failingKey x) (s.failingVa x)

/-- ROLLBACK (R428, R429): the domain of the first rollback-class fault that is due returns to its checkpoint, or stops. -/
def execRollback (s : State) : Out :=
  match s.rollbacks with
  | [] => .next s
  | x :: rest =>
    match x.owner with
    | none => .next { s with rollbacks := rest }
    | some o =>
      let mine (y : Stop) : Bool := (y.owner.map Owner.dom) == some o.dom
      let s1 : State := { s with rollbacks := s.rollbacks.filter (fun y => !mine y) }
      match s.rollbackKind x o.dom, (s.dom o.dom), (s.dom o.dom).bind Dom.ckpt with
      | none, some m, some k => .next (s1.rollDomain x m k)
      | kind, _, _ => .next { s1 with stops := s1.stops ++ [{ x with kind := kind.getD 3 }] }

/-! ### Pre-emption (R431 to R436) -/

/-- PREEMPT (R431): the distributor begins taking the slips of a BOUND region for a selected one of higher SNAP that it cannot bind. -/
def execPreempt (pkg region : Nat) (s : State) : Out :=
  let p := s.pkg pkg
  match p.regions.find? (fun r => r.block == region) with
  | none => .next s
  | some r =>
    if r.suspended || !p.selected.any (fun a => decide (p.snapOf a > p.snapOf region) && !s.bindable pkg a true) then .next s
    else .next ((s.boundMembers r).foldl (fun t m =>
      let at_ := (t.berth m.berth).cycle
      t.modSlip m.berth m.slip (fun q =>
        if q.preemptAt.isSome then q
        else { q with preemptAt := some at_
                      taken := decide (q.st = .waiting) || (decide (q.st = .ready) && !q.firing) })) s)

/-- PREEMPT_FORCE (R431): a slip not taken within 65,536 cycles of its berth is taken at an instruction boundary; a BLOCKED one
keeps its wait. -/
def execPreemptForce (b : Nat) (i : Nat) (s : State) : Out :=
  let x := s.berth b
  let p := s.slip b i
  let busy : Bool := match x.handler with
    | some h => h.slip == i
    | none => false
  match p.preemptAt with
  | none => .next s
  | some t =>
    if p.taken || p.halting || busy || (x.cycle - t).toNat < 65536 then .next s
    else .next (s.modSlip b i (fun q => { q with taken := true, st := if q.st = .running then .ready else q.st }))

/-- Is a region quiescent, with nothing it issued or awaits still under way (R432)? -/
def State.regionQuiet (s : State) (ms : List Member) : Bool :=
  let l := ms.map (fun m => (m.berth, m.slip))
  ms.all (fun m =>
    let p := s.slip m.berth m.slip
    p.taken && !p.stopped && p.unacked.isEmpty && !s.kvPending m.berth m.slip && !s.bankPending m.berth m.slip &&
      (p.tiles == 0 || (s.berth m.berth).crane.idle) && !s.landingsInto m.berth p.banks &&
      (match (s.berth m.berth).handler with
       | some h => h.slip != m.slip
       | none => true)) &&
  !(s.copies.any (fun k => inSet l k.berth k.slip)) &&
  !(s.net.any (fun p => match p.body with
    | .item x => inSet l x.src x.srcSlip || inSet l x.dst x.dstSlip
    | .reply i _ _ => inSet l p.dst i
    | .ack i _ _ x => inSet l p.dst i || inSet l x.dst x.dstSlip
    | .advance i _ _ _ => inSet l p.dst i
    | .freed i _ _ _ => inSet l p.dst i
    | .chst i _ _ _ _ _ j _ => inSet l p.dst i || inSet l p.src j
    | .arrival a i _ => inSet l p.src i || ms.any (fun m => m.berth == p.dst && bitOf (s.slip m.berth m.slip).banks (bitsOf a.toNat 18 0 / 0x8000))
    | .launch i _ _ => inSet l p.dst i))

/-- Suspend one slip (R433 to R435): its state is saved, its banks stay in place, the slip becomes FREE. -/
def State.suspendSlip (s : State) (pkg region : Nat) (m : Member) : State :=
  let x := s.berth m.berth
  let p := s.slip m.berth m.slip
  let v : SavedSlip :=
    { berth := m.berth, index := m.slip, slip := { p with st := if p.st = .running then .ready else p.st, brd := none },
      crane := if p.tiles = 0 then none else some x.crane }
  let s1 := (s.modBerth m.berth (fun y => { y with
    victims := if p.banks = 0 then y.victims else y.victims ++ [{ banks := p.banks, pkg := pkg, region := region, actor := p.actor }]
    crane := if p.tiles = 0 then y.crane else Crane.fresh })).modSlip m.berth m.slip Slip.unbound
  (s1.modPkg pkg (fun q => { q with regions := q.regions.map (fun r =>
    if r.block = region then { r with slips := r.slips ++ [v] } else r) })).timing m.berth 15

/-- REGION_SUSPEND (R432): with every slip taken and the region quiescent, it becomes SUSPENDED. -/
def execRegionSuspend (pkg region : Nat) (s : State) : Out :=
  match (s.pkg pkg).regions.find? (fun r => r.block == region) with
  | none => .next s
  | some r =>
    let ms := s.boundMembers r
    let l := ms.map (fun m => (m.berth, m.slip))
    if r.suspended || ms.isEmpty || !s.regionQuiet ms then .next s
    else
      let s1 : State := { s with notices := s.notices.map (fun n => { n with waiters := n.waiters.filter (fun w => !inSet l w.1 w.2) }) }
      let s2 := ms.foldl (fun t m => t.suspendSlip pkg region m) s1
      .next ((s2.setRegionState pkg region 4).modPkg pkg (fun p => { p with regions := p.regions.map (fun q =>
        if q.block = region then { q with suspended := true } else q) }))

/-- Does a selected region need banks that suspended actors left in place: can it be bound at no place without them, and at some place with
them (R434)? -/
def State.needsVictim (s : State) : Bool :=
  s.pkgs.any (fun e => e.2.selected.any (fun a => !s.bindable e.1 a false && s.bindable e.1 a true))

/-- VICTIM_BANK_CLAIM (R434): a bank that a suspended actor left in place is saved and zeroed, for a region that needs it. -/
def execVictimBankClaim (b : Nat) (bank : Nat) (s : State) : Out :=
  match (s.berth b).victims.find? (fun v => bitOf v.banks bank) with
  | none => .next s
  | some v =>
    if !s.needsVictim || s.landingsInto b (1 <<< bank) then .next s
    else
      let k := s.saveBank b v.actor bank
      let s1 := ((s.wakeBanks b (1 <<< bank)).wipeBanks b (1 <<< bank)).modBerth b (fun x => { x with
        victims := (x.victims.map (fun e => if e = v then { e with banks := e.banks - 1 <<< bank } else e)).filter (fun e => e.banks != 0) })
      .next (s1.modPkg v.pkg (fun p => { p with regions := p.regions.map (fun r =>
        if r.block = v.region then { r with banks := r.banks ++ [k] } else r) }))

/-! ### Retention (R438, R439) -/

/-- RETENTION_ENTRY (R438, R439): the bank of a key enters retention, a scratchpad bank that a suspended actor left in place, or a bank of
the Plain after 65,536 cycles without an access; words that SEC-DED cannot correct are recorded. -/
def execRetentionEntry (unit : Nat) (s : State) : Out :=
  let bad := s.poison.filter (inRetentionUnit unit)
  let s1 : State := { s.retentionLog unit bad with sleptBad := s.sleptBad ++ bad }
  if unit >>> 60 = 2 then
    let m := 1 <<< bankOfKey unit
    let x := s.berth (berthOfKey unit)
    if x.victims.any (fun v => v.banks &&& m != 0) && x.retained &&& m = 0 then
      .next (s1.modBerth (berthOfKey unit) (fun y => { y with retained := y.retained ||| m }))
    else .next s
  else if unit >>> 60 = 3 && !s.cellAsleep unit && decide (SMap.get 0 (s.pkg (bitsOf unit 59 52)).cellIdle (plainBank unit) ≥ 65536) then
    .next (s1.modPkg (bitsOf unit 59 52) (fun p => { p with asleep := p.asleep ++ [plainBank unit], cellIdle := SMap.erase p.cellIdle (plainBank unit) }))
  else .next s

/-- RETENTION_EXIT (R438, R439): the bank of a key leaves retention, and accesses that waited proceed; words that failed in retention are
recorded. -/
def execRetentionExit (unit : Nat) (s : State) : Out :=
  let bad := s.poison.filter (fun k => inRetentionUnit unit k && !s.sleptBad.contains k)
  let s1 : State := { s.retentionLog unit bad with sleptBad := s.sleptBad.filter (fun k => !inRetentionUnit unit k) }
  if unit >>> 60 = 2 then
    .next (if bitOf (s.berth (berthOfKey unit)).retained (bankOfKey unit) then
        s1.modBerth (berthOfKey unit) (fun x => { x with retained := x.retained - 1 <<< bankOfKey unit }) else s)
  else if s.cellAsleep unit then
    .next (s1.modPkg (bitsOf unit 59 52) (fun p => { p with asleep := p.asleep.filter (fun k => k != plainBank unit) }))
  else .next s

end Sys2Proof.Machine
end

