-- ==== Sys2Proof/Machine/Pages.lean ====
section
/-! DEFINITION. Page service and migration (spec/14 R288 to R294). -/
namespace Sys2Proof.Machine
open Sys2Proof

/-! ### Service (R289, R291) -/

/-- PAGE_SERVICE (R289): the Harbourmaster takes up fault notice n. -/
def execPageService (n : Nat) (s : State) : Out :=
  match s.notices[n]? with
  | none => .next s
  | some x => .next { s with notices := setAt s.notices n { x with started := true } }

/-- A service fails for want of backing (R289, R291): the slips that wait raise cause 11 at TVEC, copies fail with reason 14,
a LAUNCH fails with error 5. -/
def State.failService (s : State) (x : Notice) : State :=
  let name := pageName x.asid x.vpage
  let s1 := x.waiters.foldl (fun t w => t.modSlip w.1 w.2 (fun p => { p with pageFailed := some name })) s
  let s2 : State := { s1 with copies := s1.copies.map (fun k =>
    if pkgOf k.berth = x.pkg && k.waitPage = some name then { k with reason := 14, buf := none, waitPage := none } else k) }
  s2.modPkg x.pkg (fun p => { p with queues := p.queues.map (fun (e : Nat × HQueue) =>
    (e.1, { e.2 with engine := e.2.engine.map (fun g => if g.page = some name then { g with pageBad := true } else g) })) })

/-- The page of a notice is resident: copies that waited for it go on. -/
def State.pageServed (s : State) (x : Notice) : State :=
  { s with copies := s.copies.map (fun k =>
      if pkgOf k.berth = x.pkg && k.waitPage = some (pageName x.asid x.vpage) then { k with waitPage := none } else k) }

/-- PAGE_SERVICE_COMPLETE (R289): the completion notice of notice n. A leaf of 0 says that the page has no backing; else the
Harbourmaster has written the leaf at a table entry, and the walk finds the page. Cells of a REDUCE page are as its memory stands (log 52). -/
def execPageServiceComplete (n : Nat) (entry : Nat) (leaf : Nat) (s : State) : Out :=
  match s.notices[n]? with
  | none => .next s
  | some x =>
    if !x.started then .next s
    else
      let s1 : State := { s with notices := dropAt s.notices n }
      if leaf = 0 then .next (s1.failService x)
      else
        let s2 := s1.pokeNat (physKey x.pkg (entry % (1 <<< 52))) 8 leaf
        match s2.walkFrom x.pkg x.root (x.vpage * 65536) with
        | .leaf _ _ _ => .next (s2.pageServed x)
        | .absent => .next s
        | .malformed => .next s

/-! ### Migration (R292 to R294) -/

/-- The page table root of an address space of a package: that of a berth or a region that has it. -/
def State.spaceRoot (s : State) (pk asid : Nat) : Nat :=
  match s.berths.find? (fun (e : Nat × Berth) => pkgOf e.1 == pk && e.2.asid == asid && e.2.root != 0) with
  | some e => e.2.root
  | none => (((s.pkg pk).regions.find? (fun r => r.asid == asid)).map Region.ptroot).getD 0

/-- A key of the old page as a key of the new one. -/
def Migration.carry (m : Migration) (pkg k : Nat) : Nat :=
  let o := physKey pkg m.old
  if o ≤ k && k < o + 65536 then k - o + physKey pkg m.new else k

/-- A line of the page lands at the new page, with its cell's hidden tag and its uncorrectable words. -/
def State.migrateLine (s : State) (pkg : Nat) (m : Migration) : State :=
  let a := physKey pkg (m.old + 64 * m.copied)
  let b := physKey pkg (m.new + 64 * m.copied)
  let s1 := (s.poke b (s.bytesAt a 64)).setCellTag b (s.cellTag a)
  { s1.setCellTag a {} with
    poison := s1.poison.filter (fun w => !(decide (b ≤ w) && decide (w < b + 64))) ++
      (s1.poison.filter (fun w => decide (a ≤ w) && decide (w < a + 64))).map (fun w => w - a + b) }

/-- A change of bytes of the old page as one of the new. -/
def Change.carry (f : Nat → Nat) : Change → Change
  | .bytes k n => .bytes (f k) n
  | .op o => .op { o with key := f o.key }

/-- A journal record of the old page as one of the new. -/
def JRec.carry (f : Nat → Nat) (r0 : JRec) : JRec :=
  let r : JRec := { r0 with changes := r0.changes.map (fun c => (c.1, c.2.carry f)) }
  match r.unit with
  | .cell k => { r with unit := .cell (f k), base := f k, listed := r.listed.map (fun c => (f c.1, c.2)) }
  | .page k => { r with unit := .page (f k), base := f k, listed := r.listed.map (fun c => (f c.1, c.2)) }
  | .scratch _ => r
  | .kv _ => r
  | .line _ => r

/-- A slip whose BRD under way lies on a page: the page's migration waits for it (R292). -/
def Slip.earlyBrd (p : Slip) (on : Nat → Bool) : Slip := { p with brd := p.brd.map (fun w => if on w.key then { w with early := true } else w) }

/-- A wait at a cell follows its page. -/
def Wait.carry (f : Nat → Nat) (w : Wait) : Wait :=
  match w with
  | .cell k => .cell (f k)
  | _ => w

def Slip.carry (f : Nat → Nat) (p : Slip) : Slip :=
  { p with reduceCells := p.reduceCells.map (fun c => (f c.1, c.2)), wait := p.wait.map (Wait.carry f) }

/-- What names bytes of the old page follows it: operations on their way, waits, cells answered for, journals. -/
def State.carryKeys (s : State) (pkg : Nat) (f : Nat → Nat) : State :=
  let s1 : State := { s with
    bankOps := s.bankOps.map (fun o => { o with key := f o.key })
    berths := s.berths.map (fun (e : Nat × Berth) =>
      (e.1, e.2.mapSlips (Slip.carry f)))
    doms := s.doms.map (fun d => { d with
      ckpt := d.ckpt.map (fun k => { k with journal := k.journal.map (JRec.carry f) })
      next := d.next.map (fun k => { k with journal := k.journal.map (JRec.carry f) }) }) }
  s1.modPkg pkg (fun p => { p with regions := p.regions.map (fun r => { r with
    reduce := r.reduce.map (fun c => (f c.1, c.2))
    slips := r.slips.map (fun v => { v with slip := v.slip.carry f }) }) })

/-- Does a memory key lie on a 64 KiB page of a package? -/
def onPage (pkg page k : Nat) : Bool := decide (physKey pkg page ≤ k) && decide (k < physKey pkg page + 65536)

/-- The migration of a page starts (R292 step 1): MIG is set in its leaf and the page shot down. Only 64 KiB pages in DRAM or CXL move,
whose leaves stand at level 0. -/
def State.startMigration (s : State) (pkg name dest : Nat) : State :=
  match s.leafPlace pkg ((pageParts name).2 * 65536) 4 (s.spaceRoot pkg (pageParts name).1 <<< 12) with
  | none => s
  | some (leafAddr, level) =>
  let e := s.natAt (physKey pkg leafAddr) 8
  if level ≠ 0 || !bitOf e 0 || bitsOf e 2 1 ≠ 1 || bitOf e 6 || classOf e = .none || classOf e = .hostio || classOf e = .bad ||
    s.badLeaf pkg 0 e || dest % 65536 ≠ 0 || !s.inMemory pkg dest 65536 || dest = addrOf e then s
  else
    let s1 := (s.pokeNat (physKey pkg leafAddr) 8 (e + 1 <<< 6)).shootDown pkg name (addrOf e)
    { s1.modPkg pkg (fun p => { p with migrations := p.migrations ++ [{ page := name, leafAddr := leafAddr, old := addrOf e, new := dest }] }) with
      bankOps := s1.bankOps.map (fun o => if onPage pkg (addrOf e) o.key then { o with early := true } else o)
      berths := s1.berths.map (fun x => (x.1, x.2.mapSlips (Slip.earlyBrd · (onPage pkg (addrOf e))))) }

/-- The migration ends (R292 steps 4 and 5): the leaf names the new page with MIG 0, the page is shot down again. -/
def State.endMigration (s : State) (pkg : Nat) (m : Migration) : State :=
  let e := s.natAt (physKey pkg m.leafAddr) 8
  let e1 := e - (addrOf e) - 1 <<< 6 + m.new
  let s1 := (s.pokeNat (physKey pkg m.leafAddr) 8 e1).shootDown pkg m.page m.old
  (s1.carryKeys pkg (m.carry pkg)).modPkg pkg (fun p =>
    { p with migrations := p.migrations.filter (fun x => x.page != m.page) })

/-- MIGRATION (R292): the next step of the migration of a page, named by its address space and virtual page: it starts; it waits for the bank
operations and BRDs translated before the shoot-down, every other access of which lands in the step that translates it (step 2); a line lands; it
ends. -/
def execMigration (pkg : Nat) (page : Nat) (dest : Nat) (s : State) : Out :=
  match (s.pkg pkg).migrations.find? (fun m => m.page == page) with
  | none => .next (s.startMigration pkg page dest)
  | some m =>
    if s.bankOps.any (fun o => o.early && onPage pkg m.old o.key) ||
      s.berths.any (fun e => e.2.slips.any (fun q => q.2.brd.any (fun w => w.early && onPage pkg m.old w.key))) then .next s
    else if m.copied < 1024 then
      .next ((s.migrateLine pkg m).modPkg pkg (fun p => { p with migrations := p.migrations.map (fun x =>
        if x.page = page then { x with copied := x.copied + 1 } else x) }))
    else .next (s.endMigration pkg m)

end Sys2Proof.Machine
end

