-- ==== Sys2Proof/Machine/Pilot.lean ====
section
/-! DEFINITION. Host registers, queues, the pilot engine, launches, the event ring, RESYNC (spec/12 R229 to R245); signatures and
measurement (spec/28 R491, R492). -/
namespace Sys2Proof.Machine
open Sys2Proof

/-! ### Signed images (R491, R492) -/

/-- The trailer's MAGIC. -/
def trailerMagic : Nat := 0x5349474E

/-- Is a public key the one that a key index allows (R491): the firmware key's SHA-256 is in the fuses? -/
def Pkg.keyAllowed (p : Pkg) (key m : Nat) : Bool := key != 0 || sha256 (Config.keyBytes m) == p.fuses

/-- Does an image with its trailer pass the check under the keys whose index is from lo to hi (R491)? -/
def Pkg.signed (p : Pkg) (lo hi : Nat) (bs : List Byte) : Bool :=
  let n := bs.length - 448
  let t := bs.drop n
  let key := fieldAt t 8 4
  decide (bs.length ≥ 448) && fieldAt t 0 4 == trailerMagic && fieldAt t 4 4 == n && decide (lo ≤ key) && decide (key ≤ hi) &&
    ((t.drop 12).take 52).all (fun b => b == 0) &&
    (match SMap.get? p.keys key with
     | some m => p.keyAllowed key m && pssVerify m (bs.take (n + 64)) (t.drop 64)
     | none => false)

/-- An accepted image enters MEAS and the list of digests (R492, R493). -/
def Pkg.measured (p : Pkg) (bs : List Byte) : Pkg :=
  { p with meas := sha256 (p.meas ++ sha256 bs), digests := p.digests ++ [sha256 bs] }

/-- The pilot image at an address with its trailer: the trailer is the first that names the length in front of it. -/
def State.pilotImage (s : State) (pkg a : Nat) : Option (List Byte) :=
  let k := globKey pkg a
  (firstSome (fun (c : Host.Cell) =>
    if k ≤ c.1 && decide (s.natAt c.1 4 = trailerMagic) && decide (s.natAt (c.1 + 4) 4 = c.1 - k) then some (c.1 - k) else none) s.mem).map
    (fun n => s.bytesAt k (n + 448))

/-! ### Pilot instructions and the load checks (R235, R236) -/

/-- A pilot instruction. -/
structure PilotIns where
  op : Nat
  x : Nat
  y : Nat
  imm16 : Nat
  imm32 : Int
  deriving DecidableEq, Repr

/-- The instruction in eight bytes. -/
def pilotIns (bs : List Byte) : PilotIns :=
  { op := fieldAt bs 0 1, x := fieldAt bs 1 1 % 16, y := fieldAt bs 1 1 / 16, imm16 := fieldAt bs 2 2, imm32 := sext (fieldAt bs 4 4) 32 }

/-- The instructions of an image. -/
def pilotProgram (bs : List Byte) : List PilotIns := (upTo (bs.length / 8)).map (fun j => pilotIns ((bs.drop (8 * j)).take 8))

/-- What a path costs: steps, LAUNCH, indirect units, EVENT. -/
structure PilotCost where
  steps : Nat := 0
  launches : Nat := 0
  units : Nat := 0
  events : Nat := 0
  deriving DecidableEq, Repr

def PilotCost.plus (a b : PilotCost) : PilotCost :=
  { steps := a.steps + b.steps, launches := a.launches + b.launches, units := a.units + b.units, events := a.events + b.events }
def PilotCost.worse (a b : PilotCost) : PilotCost :=
  { steps := max a.steps b.steps, launches := max a.launches b.launches, units := max a.units b.units, events := max a.events b.events }
def PilotCost.times (a : PilotCost) (n : Nat) : PilotCost :=
  { steps := n * a.steps, launches := n * a.launches, units := n * a.units, events := n * a.events }

/-- What one instruction adds. -/
def PilotIns.cost (i : PilotIns) : PilotCost :=
  { steps := 1, launches := b2n (i.op == 9), units := b2n (i.op == 2), events := b2n (i.op == 12) }

/-- An instruction that R235 lists. -/
def PilotIns.listed (i : PilotIns) : Bool :=
  decide (1 ≤ i.op) && decide (i.op ≤ 14) && !(i.op == 1 && decide (i.imm16 > 7)) && !(i.op == 10 && decide (i.imm16 > 2))

/-- The worst of two costs, where there are any. -/
def worseOf (a b : Option PilotCost) : Option PilotCost :=
  match a, b with
  | some x, some y => some (x.worse y)
  | some x, none => some x
  | none, y => y

/-- The worst cost of the paths from a place that reach the end of its stretch, and of those that end at HALTP or FAIL before it; none
where there is no such path. -/
structure PilotPaths where
  out : Option PilotCost := none
  ends : Option PilotCost := none
  deriving DecidableEq, Repr

def PilotPaths.worse (a b : PilotPaths) : PilotPaths := { out := worseOf a.out b.out, ends := worseOf a.ends b.ends }
def PilotPaths.plus (a : PilotPaths) (c : PilotCost) : PilotPaths := { out := a.out.map (·.plus c), ends := a.ends.map (·.plus c) }

/-- A loop of n iterations over a body, before what follows it: iterations that go round add up, and a path that ends in the body does so in
its last. -/
def PilotPaths.loop (body : PilotPaths) (n : Nat) (after : PilotPaths) : PilotPaths :=
  match body.out with
  | some c =>
    let all := after.plus (c.times n)
    { all with ends := worseOf all.ends (body.ends.map (·.plus (c.times (n - 1)))) }
  | none => { after with ends := worseOf after.ends body.ends }

/-- The worst costs of an instruction at place j of a stretch that ends before stop, from the costs tl of what follows it, lowest
place first and stop's last; none is a fault of form. -/
def pilotCost (i : PilotIns) (body : Nat → Nat → Option PilotPaths) (j stop : Nat) (tl : List PilotPaths) : Option PilotPaths :=
  let next := tl.getD 0 {}
  let far := tl.getD i.imm16 {}
  let t := j + 1 + i.imm16
  if !i.listed then none
  else if i.op = 13 || i.op = 14 then some { ends := some i.cost }
  else if i.op = 7 then
    if t > stop then none else some ((next.worse far).plus i.cost)
  else if i.op = 8 then
    if t > stop || i.imm32 < 1 || i.imm32 > 256 then none
    else (body (j + 1) t).map (fun r => (r.loop i.imm32.toNat far).plus i.cost)
  else some (next.plus i.cost)

/-- The costs from each of the last n places of a stretch that ends before stop, lowest first, and from stop itself. -/
def pilotCosts (ins : List PilotIns) (body : Nat → Nat → Option PilotPaths) (stop : Nat) : Nat → Option (List PilotPaths)
  | 0 => some [{ out := some {} }]
  | n + 1 =>
    match pilotCosts ins body stop n with
    | none => none
    | some tl => match ins[stop - (n + 1)]? with
      | none => none
      | some i => (pilotCost i body (stop - (n + 1)) stop tl).map (fun c => c :: tl)

/-- The costs of a loop body from a place to a stop, with so many loops still to nest. -/
def loopCost (ins : List PilotIns) : Nat → Nat → Nat → Option PilotPaths
  | 0, _, _ => none
  | k + 1, a, t => (pilotCosts ins (loopCost ins k) t (t - a)).bind (fun l => l.head?)

/-- The load checks on the code of an image (R236). One that is no whole number of instructions fails them (log 113). -/
def pilotChecks (code : List Byte) : Bool :=
  let ins := pilotProgram code
  code.length % 8 == 0 &&
  (match pilotCosts ins (loopCost ins 2) ins.length ins.length with
   | some ({ out := none, ends := some c } :: _) =>
     decide (c.steps ≤ 4096) && decide (c.launches ≤ 64) && decide (c.units ≤ 16) && decide (c.events ≤ 8)
   | some _ => false
   | none => false)

/-! ### Queue registers (R231, R236) -/

/-- ENABLE (R236): the image is checked, measured, and the queue runs; a failure is error 1. -/
def State.enableQueue (s : State) (pk q : Nat) : State :=
  let p := s.pkg pk
  let x : HQueue := { p.queue q with enable := true, image := [] }
  let s1 := s.setPkg pk (p.setQueue q x)
  match s.pilotImage pk x.qpilot.toNat with
  | none => s1.queueError pk q 1
  | some bs =>
    let code := bs.take (bs.length - 448)
    if p.signed 1 15 bs && pilotChecks code then s1.setPkg pk ((p.measured bs).setQueue q { x with image := code, st := 1 })
    else s1.queueError pk q 1

/-- RESTART (R231): ERR clears; a STOPPED queue runs on at HEAD. One whose image failed its checks has none to run, and they are
made again. -/
def State.restartQueue (s : State) (pk q : Nat) : State :=
  let p := s.pkg pk
  let x : HQueue := { p.queue q with err := 0 }
  if x.st ≠ 2 then s.setPkg pk (p.setQueue q x)
  else if x.image.isEmpty then (s.setPkg pk (p.setQueue q x)).enableQueue pk q
  else s.setPkg pk (p.setQueue q { x with st := 1 })

/-- A write of QCTL (R231): SIZE, then RESTART's clearing of ERR, then ENABLE, then RESTART. Clearing ENABLE disables the queue and abandons the
program of its packet, which the checks of another image would not bound (R236, log 108). ENABLE 1 without RESTART does nothing to a queue that
is enabled already (log 62). -/
def State.qctlWrite (s : State) (pk q v : Nat) : State :=
  let p := s.pkg pk
  let x := p.queue q
  let size := v % 32
  let x0 := if x.st = 0 && decide (4 ≤ size) && decide (size ≤ 16) then { x with size := size } else x
  let x1 := if bitOf v 9 then { x0 with err := 0 } else x0
  let en := bitOf v 8
  let s1 := s.setPkg pk (p.setQueue q (if en then x1 else { x1 with enable := false, st := 0, engine := none }))
  if !p.ready then s
  else if en && !x.enable then s1.enableQueue pk q
  else if bitOf v 9 then s1.restartQueue pk q
  else s1

/-- A write of the host to a register of a queue's descriptor (R229). Low bits of a misaligned address are kept (log 113). -/
def State.queueRegister (s : State) (pk q off v : Nat) : State :=
  let p := s.pkg pk
  let x := p.queue q
  let w := natWord v
  match off with
  | 0 => s.setPkg pk (p.setQueue q { x with qbase := w })
  | 8 => s.qctlWrite pk q v
  | 16 => s.setPkg pk (p.setQueue q { x with qpilot := w })
  | 24 => s.setPkg pk (p.setQueue q { x with qroot := w })
  | 32 => s.setPkg pk (p.setQueue q { x with qiwbase := w })
  | 40 => s.setPkg pk (p.setQueue q { x with qiwsize := w })
  | _ => s

/-! ### The event ring's registers (R241, R243 to R245) -/

/-- A write of EVCTL (R241). -/
def State.evctlWrite (s : State) (pk v : Nat) : State :=
  let p := s.pkg pk
  let size := v % 32
  if !p.ready then s
  else (s.setPkg pk { p with
      esize := if !p.evEn && decide (3 ≤ size) && decide (size ≤ 16) then size else p.esize
      evEn := bitOf v 8 }).drainRing pk

/-- A write of EVHEAD (R244): a slot freed while OVF = 1 takes the coalesced event. -/
def State.evheadWrite (s : State) (pk v : Nat) : State :=
  let p := s.pkg pk
  if !p.ready then s else (s.setPkg pk { p with evhead := mod17 v }).drainRing pk

/-- A write of EVSTAT (R243). LOST and the latched queues stay as they are until the next overflow (log 113). -/
def State.evstatWrite (s : State) (pk v : Nat) : State :=
  if (s.pkg pk).ready && bitOf v 0 then s.modPkg pk (fun p => { p with ovf := false }) else s

/-- EVSTAT (R243). -/
def Pkg.evstat (p : Pkg) : Nat := b2n p.ovf + p.lost <<< 16

/-- The summary (R245). -/
def Pkg.summary (p : Pkg) : List Byte :=
  leBytes 8 p.hmStatus ++ leBytes 4 p.evhead ++ leBytes 4 p.evtail ++ leBytes 8 p.evstat ++ List.replicate 40 0 ++
    (upTo 256).flatMap (fun q => leBytes 8 (p.queue q).qstate ++ leBytes 8 (p.queue q).qroot.toNat) ++
    leBytes 32 (ofBits ((upTo 256).map (fun q => (p.queue q).err != 0))) ++
    leBytes 8 (p.queues.filter (fun (e : Nat × HQueue) => (e.2.engine.bind Engine.blocked) == some .event)).length ++
    List.replicate 3992 0

/-- A write of RESYNC (R245): the summary of this instant is to be written at an address. -/
def State.resync (s : State) (pk v : Nat) : State :=
  let p := s.pkg pk
  if !p.ready || p.resyncst then s
  else s.setPkg pk { p with resyncst := true, resyncAddr := v % (1 <<< 64), resyncImage := p.summary }

/-- A write of the host to BAR0 (R229, R230). Ones in reserved bits are dropped, since no berth makes the access that could take cause 2
(log 113). -/
def State.barWrite (s : State) (pk off v : Nat) : State :=
  let p := s.pkg pk
  if !p.ready then s
  else if off = 0x08 then (if p.evEn then s else s.setPkg pk { p with evbase := natWord v })
  else if off = 0x10 then s.evctlWrite pk v
  else if off = 0x18 then s.evheadWrite pk v
  else if off = 0x28 then s.evstatWrite pk v
  else if off = 0x30 then s.resync pk v
  else if 0x1000 ≤ off && off < 0x1800 && off % 8 = 0 then s.doorbell pk ((off - 0x1000) / 8) v
  else if 0x4000 ≤ off && off < 0x8000 && off % 8 = 0 then s.queueRegister pk ((off - 0x4000) / 64) (off % 64) v
  else s

/-- A write of the host to BAR0 of a size in bytes (R229): one of other than 8 bytes is discarded. -/
def State.barAccess (s : State) (pk size off v : Nat) : State := if size = 8 then s.barWrite pk off (v % (1 <<< 64)) else s

/-- What the host reads at BAR0 (R229); a write-only register reads 0 (log 113). -/
def State.barRead (s : State) (pk off : Nat) : Nat :=
  let p := s.pkg pk
  match off with
  | 0x00 => p.hmStatus
  | 0x08 => p.evbase.toNat
  | 0x10 => p.esize + withBit p.evEn 8
  | 0x18 => p.evhead
  | 0x20 => p.evtail
  | 0x28 => p.evstat
  | 0x38 => b2n p.resyncst
  | _ =>
    if 0x4000 ≤ off && off < 0x8000 && off % 8 = 0 then
      let x := p.queue ((off - 0x4000) / 64)
      match off % 64 with
      | 0 => x.qbase.toNat
      | 8 => x.qctl
      | 16 => x.qpilot.toNat
      | 24 => x.qroot.toNat
      | 32 => x.qiwbase.toNat
      | 40 => x.qiwsize.toNat
      | 48 => x.qstate
      | _ => 0
    else 0

/-- DOORBELL (R232): the low bits of the queue number name the queue. -/
def execDoorbell (pkg : Nat) (q : Nat) (v : Nat) (s : State) : Out := .next (s.doorbell pkg (q % 256) (v % (1 <<< 64)))

/-- QCTL_ENABLE (R231, R236): a write of QCTL. -/
def execQctlEnable (pkg : Nat) (q : Nat) (v : Nat) (s : State) : Out := .next (s.qctlWrite pkg (q % 256) (v % (1 <<< 64)))

/-- QCTL_RESTART (R231): a write of QCTL that keeps SIZE and ENABLE and sets RESTART. -/
def execQctlRestart (pkg : Nat) (q : Nat) (s : State) : Out :=
  .next (s.qctlWrite pkg (q % 256) (((s.pkg pkg).queue (q % 256)).qctl + 1 <<< 9))

/-- EVCTL_WRITE (R241). -/
def execEvctlWrite (pkg : Nat) (v : Nat) (s : State) : Out := .next (s.evctlWrite pkg v)

/-- EVHEAD_WRITE (R244). -/
def execEvheadWrite (pkg : Nat) (v : Nat) (s : State) : Out := .next (s.evheadWrite pkg v)

/-- EVSTAT_WRITE (R243). -/
def execEvstatWrite (pkg : Nat) (v : Nat) (s : State) : Out := .next (s.evstatWrite pkg v)

/-- RESYNC (R245). -/
def execResync (pkg : Nat) (v : Nat) (s : State) : Out := .next (s.resync pkg v)

/-- RESYNC_COMPLETE (R245): the summary has landed in host memory. -/
def execResyncComplete (pkg : Nat) (s : State) : Out :=
  let p := s.pkg pkg
  if !p.resyncst then .next s
  else .next ((s.poke (hostKey p.resyncAddr) p.resyncImage).setPkg pkg { p with resyncst := false, resyncImage := [] })

/-- REGISTER_WRITE (R6, R26, R229): a write of a register of the machine. A number below 2^16 is an offset of BAR0, written by the
host; 2^16 + n is control register n, written by whoever executes on the current berth, under the checks of R26 and R6, whose cause is
raised with a TVAL that no rule gives the event, which has no instruction word (log 70). A write into the saved queue waits as CWR does:
with a page in migration or not resident the event leaves it, after the notice that the walk posts (R7, R288). -/
def execRegisterWrite (pkg : Nat) (reg : Nat) (v : Nat) (s : State) : Out :=
  if reg < 0x10000 then .next (s.barWrite pkg reg (v % (1 <<< 64)))
  else match s.ctx with
    | none => .next s
    | some c => match s.csrWrite c (reg - 0x10000) (natWord v) with
      | .inl t =>
        match s.pcqWait c (reg - 0x10000) with
        | none => .next t
        | some none => .next s
        | some (some v) => .next (s.noticeFor c.b v none)
      | .inr cause => .next (s.freshened.raise c cause (Config.freeWord s.fresh) false)

/-- KVERR_WRITE (R396). -/
def execKverrWrite (pkg : Nat) (bank : Nat) (v : Nat) (s : State) : Out := .next (s.kverrWrite pkg bank v)

/-- PLSTAT_CLR (R458). -/
def execPlstatClr (pkg : Nat) (port : Nat) (v : Nat) (s : State) : Out := .next (s.plstatWrite pkg port v)

/-! ### The pilot engine (R234 to R239) -/

/-- PACKET_START (R232, R234): the Harbourmaster takes the packet at HEAD. -/
def execPacketStart (pkg : Nat) (q : Nat) (s : State) : Out := .next (s.packetStart pkg (q % 256))

/-- The offset after a body end: an open loop whose body ends there goes round again, or closes. -/
def loopBack (off : Nat) : List PilotLoop → Nat × List PilotLoop
  | [] => (off, [])
  | l :: ls =>
    if off = l.stop then
      if l.left > 1 then (l.start, { l with left := l.left - 1 } :: ls) else loopBack off ls
    else (off, l :: ls)

/-- The engine at an offset. -/
def Engine.go (g : Engine) (off : Nat) : Engine :=
  let r := loopBack off g.loops
  { g with off := r.1, loops := r.2, blocked := none }

/-- x(n); x0 reads zero. -/
def Engine.reg (g : Engine) (n : Nat) : Word := if n = 0 then 0 else SMap.get 0 g.x n

/-- The engine goes on with x(n) := v. -/
def Engine.put (g : Engine) (n : Nat) (v : Word) : Engine := { g with x := SMap.put g.x n v }.go (g.off + 8)

/-- The engine of a queue is in this state. -/
def State.setEngine (s : State) (pk q : Nat) (g : Engine) : State :=
  s.modPkg pk (fun p => p.setQueue q { p.queue q with engine := some g })

/-- One instruction of the pilot engine of a queue, where the engine is at one of an opcode and function. -/
def State.pilotStep (s : State) (pk q op : Nat) (fn : Option Nat) (body : Engine → PilotIns → State) : Out :=
  let x := (s.pkg pk).queue q
  match x.engine with
  | none => .next s
  | some g =>
    let i := pilotIns ((x.image.drop g.off).take 8)
    if g.blocked.isSome || i.op ≠ op || (match fn with
      | some f => i.imm16 != f
      | none => false) then .next s
    else .next (body g i)

/-- LDP (R235): x(X) := packet word imm16. -/
def execLdp (pkg : Nat) (q : Nat) (s : State) : Out :=
  s.pilotStep pkg q 1 none (fun g i => s.setEngine pkg q (g.put i.x (natWord (fieldAt g.packet (8 * i.imm16) 8))))

/-- Does a 64-byte unit lie in a queue's host window (R239)? -/
def HQueue.inWindow (x : HQueue) (u : Nat) : Bool :=
  decide (x.qiwbase.toNat ≤ u) && decide (u + 64 ≤ x.qiwbase.toNat + x.qiwsize.toNat)

/-- A unit as the engine sees it: as it fetched it, else as host memory holds it now (R239). A unit fetched stays as it is for the rest
of the packet, so that every LDI of it sees wholly the old or wholly the new bytes (log 64). -/
def State.unitBytes (s : State) (g : Engine) (u : Nat) : List Byte := (SMap.get? g.units u).getD (s.bytesAt (hostKey u) 64)

/-- The engine of a queue fetches a unit of its window ahead, later than the one its last LDI fetched and not one it holds (R239). -/
def State.prefetch (s : State) (pk q a : Nat) : State :=
  let x := (s.pkg pk).queue q
  let u := a / 64 * 64
  match x.engine with
  | some g => if x.inWindow u && g.last.any (fun l => decide (l < u)) && (SMap.get? g.units u).isNone then
      s.setEngine pk q { g with units := SMap.put g.units u (s.bytesAt (hostKey u) 64) } else s
  | none => s

/-- LDI (R235, R239): x(X) := 8 bytes at x(Y) + imm32, within the one unit that holds the address. Bytes past that unit are none that the
spec gives LDI: they are free values (log 61). -/
def execLdi (pkg : Nat) (q : Nat) (s : State) : Out :=
  s.pilotStep pkg q 2 none (fun g i =>
    let a := (g.reg i.y + toWord i.imm32).toNat
    let u := a / 64 * 64
    if !((s.pkg pkg).queue q).inWindow u then s.queueError pkg q 4
    else
      let bs := s.unitBytes g u
      let past := (upTo 7).map (fun j => Config.freeByte (64 * s.fresh + j))
      let h : Engine := { g.put i.x (natWord (fieldAt (bs ++ past) (a - u) 8)) with last := some u, units := SMap.put g.units u bs }
      (if a - u ≤ 56 then s else s.freshened).setEngine pkg q h)

/-- MOVI (R235). -/
def execMovi (pkg : Nat) (q : Nat) (s : State) : Out :=
  s.pilotStep pkg q 3 none (fun g i => s.setEngine pkg q (g.put i.x (toWord i.imm32)))

/-- ADD (R235). -/
def execPilotAdd (pkg : Nat) (q : Nat) (s : State) : Out :=
  s.pilotStep pkg q 4 none (fun g i => s.setEngine pkg q (g.put i.x (g.reg i.x + g.reg i.y)))

/-- AND (R235). -/
def execPilotAnd (pkg : Nat) (q : Nat) (s : State) : Out :=
  s.pilotStep pkg q 5 none (fun g i => s.setEngine pkg q (g.put i.x (g.reg i.x &&& g.reg i.y)))

/-- SHR (R235). -/
def execShr (pkg : Nat) (q : Nat) (s : State) : Out :=
  s.pilotStep pkg q 6 none (fun g i => s.setEngine pkg q (g.put i.x (g.reg i.x >>> ((g.reg i.y).toNat % 64))))

/-- BEQ (R235): skips imm16 instructions forward. -/
def execPilotBeq (pkg : Nat) (q : Nat) (s : State) : Out :=
  s.pilotStep pkg q 7 none (fun g i => s.setEngine pkg q (g.go (g.off + 8 + if g.reg i.x = g.reg i.y then 8 * i.imm16 else 0)))

/-- LOOPN (R235): the next imm16 instructions, min(x(X), imm32) times, x(X) unsigned (log 113). -/
def execLoopn (pkg : Nat) (q : Nat) (s : State) : Out :=
  s.pilotStep pkg q 8 none (fun g i =>
    let n := min (g.reg i.x).toNat i.imm32.toNat
    let stop := g.off + 8 + 8 * i.imm16
    s.setEngine pkg q (
      if n = 0 || i.imm16 = 0 then g.go stop
      else { g with loops := { start := g.off + 8, stop := stop, left := n } :: g.loops, off := g.off + 8 }))

/-! ### LAUNCH (R237, R238) -/

/-- Is a block in a queue's tree? A region that has been bound is where it was then, whatever has been written to its block since (R215). -/
def State.inTree (s : State) (pk q a : Nat) : Bool :=
  let root := ((s.pkg pk).queue q).qroot.toNat
  root != 0 && (match (s.pkg pk).regions.find? (fun r => r.block == a && !r.moved) with
    | some r => r.root == root
    | none => s.rootOf pk a == root)

/-- The key of the Harbourmaster as the sender of launches; no berth has it. -/
def hmPort (pk : Nat) : Nat := pk * 8192 + 8191

/-- The class in force (R238): the highest recorded by a queue whose root has a BOUND region, capped; the reset class 1 where no
queue has recorded one. -/
def State.classWanted (s : State) (pk : Nat) : Nat :=
  let p := s.pkg pk
  let asked := p.queues.filterMap (fun (e : Nat × HQueue) =>
    if p.regions.any (fun r => !r.suspended && r.root == e.2.qroot.toNat) then e.2.fclass else none)
  match asked with
  | [] => min 1 p.cap
  | c :: cs => min (cs.foldl max c) p.cap

/-- A class change begins where the class in force is not OPCLASS, or the one in progress ends (R238, R490). -/
def State.classChange (s : State) (pk : Nat) : State :=
  let p := s.pkg pk
  if p.changing then s.setPkg pk { p with changing := false }
  else if s.classWanted pk = p.opclass then s
  else s.setPkg pk { p with opclass := s.classWanted pk, changing := true }

/-- The event record of error 7 (R242): the fault record that the region's stop left (R419). Where the region was faulted
otherwise, the spec gives only what names it, and the reserved bytes: the rest are free values. -/
def State.faultRecordOf (s : State) (pk a : Nat) : List Byte :=
  let free (j : Nat) : Byte := Config.freeByte (64 * s.fresh + j)
  match SMap.get? (s.pkg pk).faultRecords a with
  | some r => r
  | none => leBytes 8 a ++ leBytes 4 (s.effective pk 1 a fFdom) ++ (upTo 2).map free ++ leBytes 2 0 ++ (upTo 24).map (fun j => free (2 + j))

/-- The last steps of LAUNCH: the owner of the data's page, and the message to the slip bound to it. -/
def State.sendLaunch (s : State) (pk q : Nat) (g : Engine) (r : Region) (leaf : Nat) : State :=
  let p := s.pkg pk
  let actor := r.owners.getD (ownerOf leaf) noActor
  if classOf leaf ≠ .owned || !(r.launches.contains actor) then s.queueError pk q 5
  else match (s.boundMembers r).find? (fun m => m.actor == actor) with
    | none => s.queueError pk q 5
    | some m =>
      let l : Launch := { words := (upTo 8).map (fun j => g.reg (j + 1)), queue := q, packet := (p.queue q).head, pkg := pk }
      let g1 : Engine := { g with launched := true, page := none, pageBad := false }
      (s.setEngine pk q (g1.go (g.off + 8))).transmit (hmPort pk) m.berth (.launch m.slip m.tag l)

/-- One attempt at LAUNCH: it completes, raises its queue error, or blocks. The class that a queue has recorded is that of its latest
request (log 113). A bound region is as it was bound, whatever has been written to
its block since (R215). -/
def State.tryLaunch (s : State) (pk q : Nat) (g : Engine) (i : PilotIns) : State :=
  let p := s.pkg pk
  let a := (g.reg i.y).toNat
  let st := s.regionState pk a
  let fclass := bitsOf (fieldAt g.packet 0 8) 9 8
  let asks := !g.launched && fclass != 3
  let s1 := if asks then s.modPkg pk (fun p => p.setQueue q { p.queue q with fclass := some fclass }) else s
  let wait := s1.setEngine pk q { g with blocked := some .launch }
  if !s.inTree pk q a then s1.queueError pk q 6
  else match p.regions.find? (fun r => r.block == a && !r.suspended) with
    | none =>
      if st = 6 || st = 7 then { s1.queueErrorWith pk q 7 (s.faultRecordOf pk a) with fresh := s.fresh + 1 }
      else wait
    | some r =>
      let h := (g.reg 1).toNat
      let va := (g.reg 2).toNat
      let name := pageName r.asid (va / 65536)
      if asks && bitOf (fieldAt g.packet 0 8) 10 && decide (p.opclass < min fclass p.cap) then wait
      else if h < r.hbase || r.hlimit ≤ h || va ≥ 1 <<< 57 then s1.queueError pk q 5
      else match s.walkFrom pk r.ptroot va with
        | .malformed => s1.queueError pk q 5
        | .leaf leaf _ _ => s1.sendLaunch pk q g r leaf
        | .absent =>
          if g.page = some name && g.pageBad then s1.queueError pk q 5
          else (s1.engineNotice pk r.ptroot r.asid (va / 65536)).setEngine pk q
            { g with blocked := some .launch, page := some name, pageBad := false }

/-- LAUNCH (R237). -/
def execPilotLaunch (pkg : Nat) (q : Nat) (s : State) : Out := s.pilotStep pkg q 9 none (fun g i => s.tryLaunch pkg q g i)

/-! ### Region operations, waits, events, ends (R235) -/

/-- A region operation on a block of the queue's tree; error 6 elsewhere. -/
def State.regop (s : State) (pk q a : Nat) (f : State → State) : State := if s.inTree pk q a then f s else s.queueError pk q 6

/-- REGOP 0 (R235, R214): FREE becomes READY; error 9 where the block is not FREE. -/
def execRegopReady (pkg : Nat) (q : Nat) (s : State) : Out :=
  s.pilotStep pkg q 10 (some 0) (fun g i =>
    let a := (g.reg i.y).toNat
    s.regop pkg q a (fun t =>
      if t.regionState pkg a ≠ 0 then t.queueError pkg q 9
      else ((t.readyRegion pkg a).setEngine pkg q (g.go (g.off + 8))).modPkg pkg (fun p =>
        { p with faultRecords := SMap.erase p.faultRecords a })))

/-- REGOP 1 (R235): PRIO := x(X), bits 3:0 (R210). -/
def execRegopPrio (pkg : Nat) (q : Nat) (s : State) : Out :=
  s.pilotStep pkg q 10 (some 1) (fun g i =>
    let a := (g.reg i.y).toNat
    s.regop pkg q a (fun t => (t.setBlk pkg a fPrio ((g.reg i.x).toNat % 16)).setEngine pkg q (g.go (g.off + 8))))

/-- REGOP 2 (R235): ARGS := x(X). -/
def execRegopArgs (pkg : Nat) (q : Nat) (s : State) : Out :=
  s.pilotStep pkg q 10 (some 2) (fun g i =>
    let a := (g.reg i.y).toNat
    s.regop pkg q a (fun t => (t.setBlk pkg a fArgs (g.reg i.x).toNat).setEngine pkg q (g.go (g.off + 8))))

/-- One attempt at WAITR: it goes on where the block is DONE or FAULTED. -/
def State.tryWaitr (s : State) (pk q : Nat) (g : Engine) (i : PilotIns) : State :=
  if s.regionState pk (g.reg i.y).toNat ≥ 5 then s.setEngine pk q (g.go (g.off + 8))
  else s.setEngine pk q { g with blocked := some .waitr }

/-- WAITR (R235). -/
def execWaitr (pkg : Nat) (q : Nat) (s : State) : Out := s.pilotStep pkg q 11 none (fun g i => s.tryWaitr pkg q g i)

/-- Is a lower-numbered queue of a package blocked in EVENT (R244)? -/
def Pkg.eventBefore (p : Pkg) (q : Nat) : Bool :=
  p.queues.any (fun (e : Nat × HQueue) => decide (e.1 < q) && (e.2.engine.bind Engine.blocked) == some .event)

/-- One attempt at EVENT (R242, R244): it posts where a slot is free, behind the coalesced event and the events blocked in lower
queues; else it blocks. -/
def State.tryEvent (s : State) (pk q : Nat) (g : Engine) (i : PilotIns) : State :=
  let p := s.pkg pk
  if p.ringFull || p.ovf || p.eventBefore q then s.setEngine pk q { g with blocked := some .event }
  else (s.setEngine pk q (g.go (g.off + 8))).writeEvent pk (eventBytes 1 q 0
    (leBytes 8 (g.reg i.x).toNat ++ leBytes 4 (toWord i.imm32).toNat ++ leBytes 4 (p.queue q).head))

/-- EVENT (R235). -/
def execPilotEvent (pkg : Nat) (q : Nat) (s : State) : Out := s.pilotStep pkg q 12 none (fun g i => s.tryEvent pkg q g i)

/-- FAIL (R235): queue error 3. -/
def execFail (pkg : Nat) (q : Nat) (s : State) : Out := s.pilotStep pkg q 13 none (fun _ _ => s.queueError pkg q 3)

/-- HALTP (R235): ends the packet. -/
def execHaltp (pkg : Nat) (q : Nat) (s : State) : Out :=
  s.pilotStep pkg q 14 none (fun _ _ => s.modPkg pkg (fun p =>
    p.setQueue q { p.queue q with head := mod17 ((p.queue q).head + 1), engine := none }))

/-- PILOT_WAIT_RESUME (R237, R244): a blocked LAUNCH, WAITR or EVENT is tried again. -/
def execPilotWaitResume (pkg : Nat) (q : Nat) (s : State) : Out :=
  let x := (s.pkg pkg).queue q
  match x.engine with
  | none => .next s
  | some g =>
    let i := pilotIns ((x.image.drop g.off).take 8)
    match g.blocked with
    | none => .next s
    | some .launch => .next (s.tryLaunch pkg q g i)
    | some .waitr => .next (s.tryWaitr pkg q g i)
    | some .event => .next (s.tryEvent pkg q g i)

/-! ### The takeover registers and the takeover (spec/24 R446 to R451) -/

/-- EVPUSH (R449): a store of v; nothing happens while it waits for the ring. -/
def execEvpush (pkg : Nat) (v : Nat) (s : State) : Out := .next ((s.evpush pkg v).getD s)

/-- DBKICK (R450). -/
def execDbkick (pkg : Nat) (v : Nat) (s : State) : Out := .next (s.packetStart pkg (v % 256))

/-- DBPEND_WRITE (R447): word k of four. -/
def execDbpendWrite (pkg : Nat) (k : Nat) (v : Nat) (s : State) : Out := .next (s.dbpendWrite pkg (k % 4) v)

/-- CBSTAT_WRITE (R448). -/
def execCbstatWrite (pkg : Nat) (v : Nat) (s : State) : Out := .next (s.cbstatWrite pkg v)

/-- Stop a berth and fence it: nothing of it executes again until reset (R441, R446). -/
def Berth.failed (x : Berth) : Berth :=
  let off (p : Slip) : Slip := { p with stopped := true }
  { x with fenced := true, handler := none, controlLaunches := [], s0 := off x.s0, s1 := off x.s1, s2 := off x.s2, s3 := off x.s3 }

/-- TAKEOVER (R446): the active control berth that failed is stopped and the standby takes over; where it already has, the module
stops. -/
def execTakeover (pkg : Nat) (s : State) : Out :=
  match s.takeovers.find? (fun e => pkgOf e.1 == pkg) with
  | none => .next s
  | some e =>
    let p := s.pkg pkg
    let s1 : State := { s with takeovers := s.takeovers.filter (fun x => pkgOf x.1 != pkg) }
    let s2 := s1.modBerth e.1 Berth.failed
    if p.takeover then .next (s2.stopModule pkg)
    else
      let next := 1 - p.actcb
      let s3 := s2.setPkg pkg { p with
        actcb := next, takeover := true, tko := true, failed := p.actcb, fcause := e.2 % 256 }
      .next (s3.modBerth (pkg * 8192 + Config.controlBerth next) (fun x => { x with ipDbell := true }))

end Sys2Proof.Machine
end

