-- ==== Sys2Proof/Machine/Links.lean ====
section
/-! DEFINITION. Pass-link ports and scale-out exchange (spec/25 R454 to R462). -/
namespace Sys2Proof.Machine
open Sys2Proof

/-! ### Ports (R456 to R458) -/

/-- Ports of a package (R454). -/
def portCount : Nat := 36

/-- A link event counts in EVC10 (R456), at the active control berth of a package (log 71). -/
def State.linkEvent (s : State) (pkg : Nat) : State := s.timing (activeControl pkg (s.pkg pkg)) 10

/-- FLIT_RECEIVE (R454, R456): the 4 beats of a flit arrive at a port, 256 bytes. One whose CRC fails is asked for again, from the sender's
replay buffer; after 16 replays of it that failed in turn, the port retrains. A replay counts in REPLAYS, which saturates. A flit that is
none of the last 64 sent is none of this link. -/
def execFlitReceive (pkg : Nat) (port : Nat) (flit : Bytes) (s : State) : Out :=
  let x := (s.pkg pkg).port port
  if port ≥ portCount || x.down || x.retraining then .next s
  else if flitOk flit then
    (if ((s.pkg x.peer).port x.pport).sent.any (fun f => decide (f.bytes = flit)) then
      .next (s.modPkg pkg (fun p => p.setPort port { x with failed := 0 }))
     else .next s)
  else .next ((s.modPkg pkg (fun p => p.setPort port (
    if x.failed ≥ 16 then { x with retraining := true, failed := 0 }
    else { x with failed := x.failed + 1, replays := min 0xFFFF (x.replays + 1) }))).linkEvent (if x.failed ≥ 16 then pkg else x.peer))

/-- The far end of a port as it is cabled: package and port (R454, R458). -/
def State.cable (s : State) (pkg port : Nat) : Option (Nat × Nat) := SMap.get? s.cables (pkg * portCount + port)

/-- PORT_RETRAIN (R456, R487): a port trains, in the calibrating phase of bring-up or after failed replays. A port that is
cabled and trains is up, with its far end in PLSTAT; one that fails waits to go down, or stays down at bring-up. -/
def execPortRetrain (pkg : Nat) (port : Nat) (ok : Bool) (s : State) : Out :=
  let p := s.pkg pkg
  let x := p.port port
  if port ≥ portCount then .next s
  else if x.retraining then
    .next (s.setPkg pkg (p.setPort port (if ok then { x with retraining := false, trained := true } else { x with trained := false })))
  else if p.powered && p.phase = 1 && x.down then
    match s.cable pkg port with
    | some (peer, pport) =>
      if ok then .next (s.setPkg pkg (p.setPort port { x with peer := peer, pport := pport, down := false, trained := true }))
      else .next s
    | none => .next s
  else .next s

/-- Does what goes from one berth to another leave package pkg by a port? The route is followed link by link. -/
def State.routeUses (s : State) (pkg port src dst : Nat) : Nat → Nat → Bool
  | 0, _ => false
  | n + 1, at_ =>
    if at_ = pkgOf dst then false
    else match (s.pkg at_).routePort src dst with
      | none => false
      | some q => (at_ == pkg && q == port) || s.routeUses pkg port src dst n ((s.pkg at_).port q).peer

/-- Does traffic between two berths use a link, at either end (R457)? -/
def State.linkCarries (s : State) (pkg port src dst : Nat) : Bool :=
  let x := (s.pkg pkg).port port
  pkgOf src != pkgOf dst && (s.routeUses pkg port src dst 256 (pkgOf src) || s.routeUses x.peer x.pport src dst 256 (pkgOf src))

/-- The packages that what goes from one berth to another passes, the first and the last among them. -/
def State.routePkgs (s : State) (src dst : Nat) : Nat → Nat → List Nat
  | 0, at_ => [at_]
  | n + 1, at_ =>
    if at_ = pkgOf dst then [at_]
    else match (s.pkg at_).routePort src dst with
      | none => [at_, pkgOf dst]
      | some q => at_ :: s.routePkgs src dst n ((s.pkg at_).port q).peer

/-- Something on its way between two ends (R454), and the slips whose work it is, with the owners of their faults. -/
structure Traffic where
  src : Nat
  dst : Nat
  work : List (Nat × Nat × Option Owner)
  deriving DecidableEq, Repr

/-- A slip and its owner. -/
def State.workOf (s : State) (b i : Nat) : Nat × Nat × Option Owner := (b, i, (s.slip b i).owner)

/-- The slips whose work a packet is: its sender's and its receiver's. -/
def State.packetWork (s : State) (p : Packet) : List (Nat × Nat × Option Owner) :=
  let sender (i h : Nat) : Nat := ((s.slip p.dst i).chan h).peerSlip
  match p.body with
  | .item x => [s.workOf x.src x.srcSlip, s.workOf x.dst x.dstSlip]
  | .reply i _ _ => [s.workOf p.dst i]
  | .ack i _ _ x => [s.workOf p.dst i, s.workOf x.dst x.dstSlip]
  | .advance i h _ _ => [s.workOf p.src (sender i h), s.workOf p.dst i]
  | .freed i h _ _ => [s.workOf p.src (sender i h), s.workOf p.dst i]
  | .chst i _ _ _ _ _ j _ => [s.workOf p.src j, s.workOf p.dst i]
  | .arrival _ i o => [(p.src, i, o)]
  | .launch i _ _ => [s.workOf p.dst i]

/-- The close markers on their way (R258, R262, R459): that of a member which has reached its WINDOW, or its HALT, and left nothing before it,
until it has arrived. -/
def State.markersUnderWay (s : State) : List Traffic :=
  s.berths.flatMap (fun (e : Nat × Berth) => e.2.slips.flatMap (fun q =>
    let sends : Bool := s.quiet e.1 q.1 q.2.wseq && (if q.2.halting then !(q.2.left.any (fun m => m.tag == q.2.tag)) else match q.2.closing with
      | some c => !c.marked
      | none => false)
    if sends then
      (s.group e.1 q.1).filterMap (fun m => if m.berth = e.1 then none
        else some { src := e.1, dst := m.berth, work := [s.workOf e.1 q.1, s.workOf m.berth m.slip] })
    else []))

/-- Is packet n on its way: neither refused and backing off, nor an item that its sender holds behind one (R267)? -/
def State.underWay (s : State) (n : Nat) (p : Packet) : Bool :=
  !p.waiting && !(p.body.isItem && (s.net.take n).any (fun q => q.waiting && q.src == p.src && q.dst == p.dst))

/-- What is on its way between berths, or to and from a valley unit (R454): no command that its unit has taken or refused. -/
def State.traffic (s : State) : List Traffic :=
  ((upTo s.net.length).zip s.net).filterMap (fun e =>
    if s.underWay e.1 e.2 then some { src := e.2.src, dst := e.2.dst, work := s.packetWork e.2 } else none) ++
  s.copies.filterMap (fun k =>
    if bitsOf k.dst.toNat 63 60 = 2 && decide (k.stage = .active) then
      some { src := k.berth, dst := bitsOf k.dst.toNat 47 40 * 8192 + bitsOf k.dst.toNat 39 27, work := [s.workOf k.berth k.slip] } else none) ++
  (s.kvCmds.filter (fun k => !k.waits && !k.backoff && !k.held)).map (fun k =>
    { src := k.berth, dst := unitPort k.page, work := [(k.berth, k.slip, k.owner)] }) ++
  s.triples.map (fun t => { src := unitPort t.page, dst := t.place, work := [(t.berth, t.slip, t.owner)] }) ++
  s.markersUnderWay

/-- The fault of one domain at a package joins those of a lost link, where that package has not reported it yet; in the name of the slip
there, else of the one whose work it is. -/
def State.addLinkFault (s : State) (l : List Stop) (pk : Nat) (work : List (Nat × Nat × Option Owner)) (e : Nat × Nat × Option Owner) :
    List Stop :=
  match e.2.2 with
  | none => l
  | some o =>
    if l.any (fun y => (y.owner.map Owner.dom) == some o.dom && y.seenAt == some pk) then l
    else
      let w := (work.find? (fun x => pkgOf x.1 == pk && (x.2.2.map Owner.dom) == some o.dom)).getD e
      l ++ [{ berth := w.1, slip := w.2.1, kind := 3, cause := 0, tval := 0, pcq0 := (s.slip w.1 w.2.1).recordPc,
              owner := w.2.2, seenAt := some pk }]

/-- The rollback-class faults of a link lost with traffic on it (R427, R457): at each package that held such traffic, one for each domain
whose traffic used it. The spec gives the fault no cause and no TVAL: both are 0. -/
def State.linkFaults (s : State) (pkg port : Nat) : List Stop :=
  (s.traffic.filter (fun t => s.linkCarries pkg port t.src t.dst)).foldl (fun l t =>
    (s.routePkgs t.src t.dst 256 (pkgOf t.src)).foldl (fun l pk => t.work.foldl (fun l e => s.addLinkFault l pk t.work e) l) l) []

/-- Has a pair of berths traffic in flight (R455)? -/
def State.pairTraffic (s : State) (src dst : Nat) : Bool := s.traffic.any (fun t => t.src == src && t.dst == dst)

/-- The firmware changes the entry of a pair in a package's route table (R455): only while the pair has no traffic in flight. -/
def State.setRoute (s : State) (pkg src dst port : Nat) : State :=
  if s.pairTraffic src dst then s else s.modPkg pkg (fun p => { p with routes := SMap.put p.routes (pairKey src dst) port })

/-- The port of a package that takes over from one that is down: the first up to the same neighbour (R456). -/
def Pkg.standIn (p : Pkg) (port : Nat) : Option Nat :=
  (p.ports.find? (fun (e : Nat × Port) => e.1 != port && !e.2.down && e.2.peer == (p.port port).peer)).map (fun e => e.1)

/-- The entries of a package's route table that name a port go over to the one that stands in for it, those whose pairs have no traffic in
flight (R455, R456). -/
def State.reroute (s : State) (pkg port : Nat) : State :=
  match (s.pkg pkg).standIn port with
  | none => s
  | some n => (s.modPkg pkg (fun p => { p with routes := p.routes.map (fun (e : Nat × Nat) =>
      if e.2 = port && !s.pairTraffic (e.1 / (1 <<< 21)) (e.1 % (1 <<< 21)) then (e.1, n) else e) })).linkEvent pkg

/-- A port that is down. -/
def Port.lost (x : Port) : Port := { x with down := true, retraining := false, failed := 0 }

/-- Is a port the far end of one, as both are trained (R458)? -/
def State.farEnd (s : State) (pkg port : Nat) : Bool :=
  let x := (s.pkg pkg).port port
  let y := (s.pkg x.peer).port x.pport
  x.peer != pkg && y.peer == pkg && y.pport == port && !y.down

/-- PORT_DOWN (R456, R457): a port whose retraining failed goes down, and with it the link's far end (log 71). Pairs that used it, in either
direction, go over other ports to the same neighbour: their flits at once, their entries of the route tables as soon as they have no traffic
in flight (R455). Where there is no other port, the domains whose traffic used it roll back. -/
def execPortDown (pkg : Nat) (port : Nat) (s : State) : Out :=
  let p := s.pkg pkg
  let x := p.port port
  if !x.retraining || x.trained then .next s
  else
    let s1 := s.modPkg pkg (fun p => p.setPort port x.lost)
    let s2 := if s.farEnd pkg port then s1.modPkg x.peer (fun p => p.setPort x.pport (p.port x.pport).lost) else s1
    if (p.standIn port).isSome then .next (if s.farEnd pkg port then (s2.reroute pkg port).reroute x.peer x.pport else s2.reroute pkg port)
    else .next { s2 with rollbacks := s2.rollbacks ++ s.linkFaults pkg port }

/-! ### Scale-out (R461, R462) -/

/-- The registration of a page of an address space by its page name. -/
def Pkg.pageEntry (p : Pkg) (page : Nat) : Option (List Byte) :=
  (p.xregSeen.find? (fun e => (entryPages e.2).contains page)).map (fun e => e.2)

/-- The pages that a list of lines lies on, each once. -/
def pagesOf (lines : List Nat) : List Nat :=
  lines.foldl (fun l x => if l.contains (linePage x) then l else l ++ [linePage x]) []

/-- The frames of the lines of one page (R462): each line with its tag, and the transfer record behind them. -/
def State.pageFrames (s : State) (pkg : Nat) (u : Landed) (page : Nat) : List Frame :=
  match (s.pkg pkg).pageEntry page with
  | none => []
  | some e =>
    let peer := fieldAt e 14 2
    if peer = 0xFFFF then []
    else
      let mirror := fieldAt e 16 8
      let mine := u.lines.filter (fun x => linePage x == page)
      let frame (x : Nat) : Option Frame :=
        let va := (x % (1 <<< 51)) * 64
        match s.walkFrom pkg u.root va with
        | .leaf l base _ => some { peer := peer, page := mirror, tag := u.tag, line := some (x % 1024, s.bytesAt (physKey pkg (leafAddr l base va)) 64) }
        | .absent => none
        | .malformed => none
      mine.filterMap frame ++ [{ peer := peer, page := mirror, tag := u.tag, line := none, count := mine.length }]

/-- The first line of a transfer, on a page with a mirror, that the page tables do not give now. -/
def State.lineAbsent (s : State) (pkg : Nat) (u : Landed) : Option Nat :=
  u.lines.find? (fun x => ((s.pkg pkg).pageEntry (linePage x)).any (fun e => fieldAt e 14 2 != 0xFFFF) &&
    (match s.walkFrom pkg u.root ((x % (1 <<< 51)) * 64) with
     | .leaf _ _ _ => false
     | .absent => true
     | .malformed => true))

/-- EXCHANGE_LINE_SEND (R462): the lines of released transfer n go to their mirror pages. The Harbourmaster waits for a page that is not
resident, with a notice (R288). -/
def execExchangeLineSend (pkg : Nat) (n : Nat) (s : State) : Out :=
  match (s.pkg pkg).outgoing[n]? with
  | none => .next s
  | some u => match s.lineAbsent pkg u with
  | some x => .next (s.engineNotice pkg u.root u.asid ((x % (1 <<< 51)) * 64 / 65536))
  | none =>
    let s1 := s.modPkg pkg (fun p => { p with outgoing := dropAt p.outgoing n })
    .next { s1 with wire := s.wire ++ (pagesOf u.lines).flatMap (s.pageFrames pkg u) }

/-- The package and registration of this domain's page at a virtual address (R462): the first that registers it. -/
def State.mirrorOf (s : State) (va : Nat) : Option (Nat × List Byte) :=
  firstSome (fun pk => ((s.pkg pk).xregSeen.find? (fun e => fieldAt e.2 0 8 == va && va != 0)).map (fun e => (pk, e.2))) s.domain

/-- The transfer of a page and tag changes. -/
def Pkg.modTransfer (p : Pkg) (page : Nat) (tag : LineTag) (f : Transfer → Transfer) : Pkg :=
  if p.transfers.any (fun t => t.page == page && t.tag == tag) then
    { p with transfers := p.transfers.map (fun t => if t.page = page && t.tag = tag then f t else t) }
  else { p with transfers := p.transfers ++ [f { page := page, tag := tag }] }

/-- Frame n, where it has arrived at this domain. -/
def State.frameHere (s : State) (n : Nat) : Option Frame :=
  match s.wire[n]? with
  | none => none
  | some f => if f.lost || f.peer ≠ s.scaleId then none else some f

/-- A line of a peer lands under this domain's registration of its page (R330, R462): on a line whose tag is clear; one that
arrives twice lands once, and one on a line with another transfer's tag does not land. -/
def State.landLine (s : State) (pk asid va : Nat) (tag : LineTag) (key : Nat) (data : List Byte) : State :=
  let line := lineName asid va
  match SMap.get? (s.pkg pk).lines line with
  | none => ((s.poke key data).modPkg pk (fun p => { p with lines := SMap.put p.lines line tag })).modPkg pk (fun p =>
      p.modTransfer (linePage line) tag (fun t => { t with seen := line :: t.seen }))
  | some _ => s

/-- EXCHANGE_LINE_RECEIVE (R462): frame n, a line, lands. It waits while this domain has not registered and mapped its page. -/
def execExchangeLineReceive (n : Nat) (s : State) : Out :=
  match s.frameHere n with
  | none => .next s
  | some f =>
    match f.line, s.mirrorOf f.page with
    | some (o, data), some (pk, e) =>
      let asid := fieldAt e 12 2
      let va := bitsOf f.page 56 0 + 64 * (o % 1024)
      match s.walkFrom pk (s.spaceRoot pk asid) va with
      | .leaf l base _ =>
        if classOf l ≠ .exchange then .next s
        else .next ({ s with wire := dropAt s.wire n }.landLine pk asid va f.tag (physKey pk (leafAddr l base va)) data)
      | .absent => .next s
      | .malformed => .next s
    | _, _ => .next s

/-- TRANSFER_RECORD_RECEIVE (R462): frame n, a transfer record, is kept for its transfer and registration. -/
def execTransferRecordReceive (n : Nat) (s : State) : Out :=
  match s.frameHere n with
  | none => .next s
  | some f =>
    match f.line, s.mirrorOf f.page with
    | none, some (pk, e) =>
      let page := linePage (lineName (fieldAt e 12 2) f.page)
      .next (({ s with wire := dropAt s.wire n } : State).modPkg pk (fun p => p.modTransfer page f.tag (fun t => { t with count := some f.count })))
    | _, _ => .next s

/-- LOST_FRAME_RETRANSMIT (R462): a frame that was lost is on its way again. -/
def execLostFrameRetransmit (n : Nat) (s : State) : Out :=
  match s.wire[n]? with
  | none => .next s
  | some f => .next { s with wire := setAt s.wire n { f with lost := false } }

end Sys2Proof.Machine
end

