-- ==== Sys2Proof/Machine/Synonast.lean ====
section
/-! DEFINITION. Synonast modules, their rates, schedule and channels (spec/26 R479 to R483), and the loader's report (R474). -/
namespace Sys2Proof.Machine
open Sys2Proof

/-- The loader's report (R474). -/
def loadReport (code index type sect offset value name : Nat) : List Byte :=
  leBytes 4 code ++ leBytes 4 index ++ leBytes 1 type ++ leBytes 1 sect ++ List.replicate 6 0 ++ leBytes 8 offset ++ leBytes 8 value ++
    leBytes 4 name ++ List.replicate 12 0

/-- The loader's report of a package. -/
def State.reported (s : State) (pkg : Nat) (rep : List Byte) : State := s.modPkg pkg (fun p => { p with report := rep })

/-- A report that names no record. -/
def plainReport (code : Nat) : List Byte := loadReport code 0 0 0 0 0 0

/-! ### The module (R479, R480) -/

/-- A virtual register (R480): its class, 0 g, 1 f, 2 w, 3 q, 4 m, and its number. -/
structure VReg where
  cls : Nat
  num : Nat
  deriving DecidableEq, Repr

/-- An operation record (R480). -/
structure SynOp where
  major : Nat
  fn : Nat
  da : Nat
  db : Nat
  port : Nat
  vd : VReg
  va : VReg
  vb : VReg
  vc : VReg
  imm : Nat
  deriving DecidableEq, Repr

/-- An actor record (R479): its first operation record, how many it has, the scratchpad bytes its body uses. -/
structure SynNode where
  opoff : Nat
  nops : Nat
  state : Nat
  deriving DecidableEq, Repr

/-- An edge (R479). -/
structure SynEdge where
  prod : Nat
  cons : Nat
  pport : Nat
  cport : Nat
  tokb : Nat
  p : Nat
  c : Nat
  init : Nat
  initoff : Nat
  deriving DecidableEq, Repr

/-- Does a module begin with its MAGIC and VERSION? -/
def isModule (bs : List Byte) : Bool := fieldAt bs 0 4 == 0x00534E59 && fieldAt bs 4 4 == 1

/-- The actors of a module. -/
def synNodes (bs : List Byte) : List SynNode :=
  (upTo (fieldAt bs 8 4)).map (fun j =>
    let o := fieldAt bs 16 4 + 16 * j
    { opoff := fieldAt bs o 4, nops := fieldAt bs (o + 4) 4, state := fieldAt bs (o + 8) 4 })

/-- The edges of a module. -/
def synEdges (bs : List Byte) : List SynEdge :=
  (upTo (fieldAt bs 12 4)).map (fun j =>
    let o := fieldAt bs 20 4 + 32 * j
    { prod := fieldAt bs o 4, cons := fieldAt bs (o + 4) 4, pport := fieldAt bs (o + 8) 1, cport := fieldAt bs (o + 9) 1,
      tokb := fieldAt bs (o + 12) 4, p := fieldAt bs (o + 16) 2, c := fieldAt bs (o + 18) 2, init := fieldAt bs (o + 20) 4,
      initoff := fieldAt bs (o + 24) 8 })

/-- A virtual register from its 16 bits. -/
def vregOf (n : Nat) : VReg := { cls := bitsOf n 15 13, num := bitsOf n 12 0 }

/-- The operation record at an offset. -/
def synOpAt (bs : List Byte) (o : Nat) : SynOp :=
  { major := fieldAt bs o 1, fn := fieldAt bs (o + 1) 1, da := bitsOf (fieldAt bs (o + 2) 1) 2 0, db := bitsOf (fieldAt bs (o + 2) 1) 5 3,
    port := fieldAt bs (o + 3) 1, vd := vregOf (fieldAt bs (o + 4) 2), va := vregOf (fieldAt bs (o + 6) 2), vb := vregOf (fieldAt bs (o + 8) 2),
    vc := vregOf (fieldAt bs (o + 10) 2), imm := fieldAt bs (o + 12) 4 }

/-- The operations of an actor: OPOFF counts records of the operation area (log 77). -/
def synOps (bs : List Byte) (a : SynNode) : List SynOp :=
  (upTo a.nops).map (fun j => synOpAt bs (fieldAt bs 24 4 + 16 * (a.opoff + j)))

def SynOp.isRead (o : SynOp) : Bool := o.major == 0x30
def SynOp.isWrite (o : SynOp) : Bool := o.major == 0x31

/-- Is an operation admitted (R480): PREAD, PWRITE, or an assigned Volsis major (R52) but those of the channel, message, window, system and
handler operations, FLUSHAS and DRAIN among the system's (log 77)? Its registers are of the five classes. -/
def SynOp.admitted (o : SynOp) : Bool :=
  (o.isRead || o.isWrite || (decide (o.major ≤ 0x2B) && o.major != 0x20 && o.major != 0x21 && !(o.major == 0x23 && decide (o.fn ≥ 4)))) &&
    [o.vd, o.va, o.vb, o.vc].all (fun v => decide (v.cls ≤ 4))

/-- Does a major take its operand from the distance of records: BR, J and JL, LOOP and LOOPS? -/
def SynOp.jumps (o : SynOp) : Bool := o.major == 0x0C || o.major == 0x0D || o.major == 0x0E || (o.major == 0x10 && (o.fn == 1 || o.fn == 2))

/-- Has an operation two delay slots (R24): the branches, the jumps, LEAVE and LEAVEQ? -/
def SynOp.slotted (o : SynOp) : Bool := (decide (0x0C ≤ o.major) && decide (o.major ≤ 0x0F)) || (o.major == 0x10 && (o.fn == 3 || o.fn == 4))

/-- Do the branches and loops of a body end inside it, or at its end (R480: offsets count records), a loop's behind it? -/
def goalsInside (ops : List SynOp) : Bool :=
  ((upTo ops.length).zip ops).all (fun t => !t.2.jumps || (decide (0 ≤ Int.ofNat t.1 + sext t.2.imm 32) &&
    decide (Int.ofNat t.1 + sext t.2.imm 32 ≤ Int.ofNat ops.length) && (t.2.major != 0x10 || decide (0 < sext t.2.imm 32))))

/-! ### Rates and the periodic schedule (R481, R482) -/

/-- A rate in lowest terms, and the connected part it belongs to. -/
structure Rate where
  num : Nat
  den : Nat
  part : Nat
  deriving DecidableEq, Repr

def Rate.scaled (r : Rate) (a b : Nat) : Rate :=
  let n := r.num * a
  let d := r.den * b
  let g := Nat.gcd n d
  { r with num := n / g, den := d / g }

/-- One pass over the edges: a known end gives the other its rate. -/
def ratePass (es : List SynEdge) (m : SMap Rate) : SMap Rate :=
  es.foldl (fun t e => match SMap.get? t e.prod, SMap.get? t e.cons with
    | some r, none => SMap.put t e.cons (r.scaled e.p e.c)
    | none, some r => SMap.put t e.prod (r.scaled e.c e.p)
    | _, _ => t) m

/-- Passes until every actor of a part is reached. -/
def ratePasses (es : List SynEdge) : Nat → SMap Rate → SMap Rate
  | 0, m => m
  | n + 1, m => ratePasses es n (ratePass es m)

/-- A rate for every actor; the lowest of each part has rate 1. -/
def rates (nact : Nat) (es : List SynEdge) : SMap Rate :=
  (upTo nact).foldl (fun t a => match SMap.get? t a with
    | some _ => t
    | none => ratePasses es nact (SMap.put t a { num := 1, den := 1, part := a })) []

/-- The repetition vector (R481): the smallest positive integer solution of each part; none where there is no solution. -/
def repetition (nact : Nat) (es : List SynEdge) : Option (List Nat) :=
  let m := rates nact es
  let at_ (a : Nat) : Rate := SMap.get { num := 1, den := 1, part := a } m a
  if es.all (fun e => (at_ e.prod).num * e.p * (at_ e.cons).den == (at_ e.cons).num * e.c * (at_ e.prod).den) then
    some ((upTo nact).map (fun a =>
      let mine := (m.filter (fun x => x.2.part == (at_ a).part)).map (fun x => x.2)
      let l := mine.foldl (fun k r => Nat.lcm k r.den) 1
      let g := mine.foldl (fun k r => Nat.gcd k (r.num * l / r.den)) 0
      (at_ a).num * l / (at_ a).den / g))
  else none

/-- The simulation of one period (R482): tokens on each edge, firings of each actor. -/
structure Period where
  tokens : List Nat
  fired : List Nat
  deriving DecidableEq, Repr

/-- Edge and token count, by place. -/
def edgeTokens (es : List SynEdge) (caps : List Nat) (x : Period) : List (SynEdge × Nat × Nat) := es.zip (caps.zip x.tokens)

def fireable (es : List SynEdge) (caps : List Nat) (r : List Nat) (x : Period) (a : Nat) : Bool :=
  decide (x.fired.getD a 0 < r.getD a 0) &&
  (edgeTokens es caps x).all (fun t => (t.1.cons != a || decide (t.2.2 ≥ t.1.c)) && (t.1.prod != a || decide (t.2.1 - t.2.2 ≥ t.1.p)))

/-- Fire the lowest-numbered actor that can, n times at most. -/
def firePeriod (es : List SynEdge) (caps : List Nat) (r : List Nat) : Nat → Period → Period
  | 0, x => x
  | n + 1, x =>
    match (upTo r.length).find? (fireable es caps r x) with
    | none => x
    | some a => firePeriod es caps r n
        { tokens := (es.zip x.tokens).map (fun t =>
            t.2 - (if t.1.cons = a then t.1.c else 0) + (if t.1.prod = a then t.1.p else 0))
          fired := setAt x.fired a (x.fired.getD a 0 + 1) }

/-- The capacities (R482), grown until a period completes; none where the graph is refused. -/
def capacities (es : List SynEdge) (r : List Nat) : Nat → List Nat → Option (List Nat)
  | 0, _ => none
  | n + 1, caps =>
    if caps.any (fun k => decide (k > 4095)) then none
    else
      let x := firePeriod es caps r (r.foldl (· + ·) 0) { tokens := es.map SynEdge.init, fired := r.map (fun _ => 0) }
      if x.fired = r then some caps
      else
        let short := (edgeTokens es caps x).map (fun t =>
          decide (x.fired.getD t.1.prod 0 < r.getD t.1.prod 0) && decide (t.2.1 - t.2.2 < t.1.p))
        if short.all (fun b => !b) then none
        else capacities es r n ((caps.zip short).map (fun t => t.1 + b2n t.2))

/-- The starting capacity of an edge. -/
def startCap (e : SynEdge) : Nat := max (e.p + e.c - Nat.gcd e.p e.c + e.init % (Nat.gcd e.p e.c)) e.init

/-! ### Channels (R483) -/

/-- A token size rounded up to granules (R483). -/
def slotBytes (tokb : Nat) : Nat := (tokb + 31) / 32 * 32

/-- Insert an edge, with its index, by ascending port. -/
def insertPort (port : SynEdge → Nat) (x : Nat × SynEdge) : List (Nat × SynEdge) → List (Nat × SynEdge)
  | [] => [x]
  | y :: ys => if port x.2 < port y.2 then x :: y :: ys else y :: insertPort port x ys

/-- The edges of one end of an actor in ascending port order. -/
def portsOf (es : List SynEdge) (end_ port : SynEdge → Nat) (a : Nat) : List (Nat × SynEdge) :=
  (((upTo es.length).zip es).filter (fun e => end_ e.2 == a)).foldl (fun l x => insertPort port x l) []

/-- The inputs and outputs of an actor; its handles are these, in this order (R483). -/
def inputsOf (es : List SynEdge) (a : Nat) : List (Nat × SynEdge) := portsOf es SynEdge.cons SynEdge.cport a
def outputsOf (es : List SynEdge) (a : Nat) : List (Nat × SynEdge) := portsOf es SynEdge.prod SynEdge.pport a

/-- The handles of edge n at its consumer and at its producer. -/
def consHandle (es : List SynEdge) (n : Nat) (e : SynEdge) : Nat := ((inputsOf es e.cons).takeWhile (fun x => x.1 != n)).length
def prodHandle (es : List SynEdge) (n : Nat) (e : SynEdge) : Nat :=
  (inputsOf es e.prod).length + ((outputsOf es e.prod).takeWhile (fun x => x.1 != n)).length

/-- The bytes of the rings in front of edge n's at its consumer, whose rings lie there in the order of the edges (R483, log 77). -/
def ringOffset (es : List SynEdge) (caps : List Nat) (n cons : Nat) : Nat :=
  ((es.zip caps).take n).foldl (fun k t => if t.1.cons = cons then k + slotBytes t.1.tokb * t.2 else k) 0

/-- Is a module as R479 and R480 have it: its ranges, its ports, its initial tokens and operations inside it? -/
def moduleFormed (bs : List Byte) : Bool :=
  let nact := fieldAt bs 8 4
  (synNodes bs).all (fun x => decide (1 ≤ x.nops) && decide (x.nops ≤ 65536) &&
    decide (fieldAt bs 24 4 + 16 * (x.opoff + x.nops) ≤ bs.length) && (synOps bs x).all SynOp.admitted && goalsInside (synOps bs x)) &&
  (synEdges bs).all (fun e => decide (e.prod < nact) && decide (e.cons < nact) && decide (e.pport ≤ 15) && decide (e.cport ≤ 15) &&
    decide (1 ≤ e.tokb) && decide (e.tokb ≤ 4096) && decide (1 ≤ e.p) && decide (e.p ≤ 4095) && decide (1 ≤ e.c) && decide (e.c ≤ 4095) &&
    decide (e.initoff + e.init * e.tokb ≤ bs.length)) &&
  (upTo nact).all (fun a => decide ((inputsOf (synEdges bs) a).length + (outputsOf (synEdges bs) a).length ≤ 16))

end Sys2Proof.Machine
end

