-- ==== Sys2Proof/Machine/Lowering.lean ====
section
/-! DEFINITION. The code of a lowered Synonast actor (spec/26 R483, R484): words, registers, staging, delay slots. -/
namespace Sys2Proof.Machine
open Sys2Proof

/-- A step of a lowered firing (R484). -/
inductive LowStep where
  /-- Goes on behind the next n steps where g31 is not 0. -/
  | once (n : Nat)
  /-- g31 := 1. -/
  | mark
  /-- CHWAITE, CHWAITF, CHADVP, CHADVC on a handle with a count. -/
  | space (h n : Nat)
  | filled (h n : Nat)
  | advance (h n : Nat)
  | free (h n : Nat)
  /-- CHST of initial tokens into a handle's slots, their bytes as the slots hold them. -/
  | tokens (h : Nat) (data : List Byte)
  /-- g2 := the stack (R208). -/
  | stack
  /-- Record j: CHADDR of a granule of a handle, and loads of the token of so many bytes there; the handle's ring: its end, its size. -/
  | read (j h unit tokb stop size : Nat) (o : SynOp)
  /-- Record j: CHST of a token of so many bytes at a granule of a handle. -/
  | write (j h unit tokb : Nat) (o : SynOp)
  /-- Record j: an operation with its Volsis meaning. -/
  | op (j : Nat) (o : SynOp)
  | done
  deriving DecidableEq, Repr

/-- A word of a firing, or one that goes to the step of a number: BR, J or JL, LOOP or LOOPS, and the PCADD and the ADDI of its address. -/
inductive Asm where
  | word (w : Nat)
  | br (q sense nullify step : Nat)
  | jump (link : Bool) (step : Nat)
  | loop (w step : Nat)
  | addrHi (d step : Nat)
  | addrLo (d step : Nat)
  deriving DecidableEq, Repr

end Sys2Proof.Machine

namespace Sys2Proof.Config
open Sys2Proof.Machine

/-! The translator's own choices for a body whose registers the files do not hold (R483 gives no allocation; log 77). -/

/-- The register of its class that a virtual register takes in record j. -/
opaque regOf : (body : List SynOp) → (j : Nat) → VReg → Nat
/-- The registers that are filled from the stack before record j, and spilled to it behind it: class, register, slot of 64 bytes. -/
opaque fills : (body : List SynOp) → (j : Nat) → List (Nat × Nat × Nat)
opaque spills : (body : List SynOp) → (j : Nat) → List (Nat × Nat × Nat)
/-- The slots of the stack to which a body's registers spill. -/
opaque spillSlots : List SynOp → Nat
/-- The words of a token at a granule that no CHST can name, and of a firing whose loops or jumps no word can hold. -/
opaque farToken : (body : List SynOp) → (j : Nat) → List Nat
opaque farFiring : List SynOp → List LowStep → List Nat

end Sys2Proof.Config

namespace Sys2Proof.Machine
open Sys2Proof

/-! ### Registers (R483) -/

/-- The registers of a class: 32 of g, f and w, 8 of q and m; g31 is reserved. -/
def classSize (cls : Nat) : Nat := if cls = 0 then 31 else if cls ≤ 2 then 32 else 8

/-- The bytes of a register of a class that a token fills, a q or m register one token. -/
def classBytes (cls : Nat) : Nat := if cls = 0 then 8 else if cls = 1 then 4 else if cls = 2 then 64 else 4096

/-- How many registers, from VD on, a token of so many bytes takes (log 77). -/
def tokenRegs (o : SynOp) (tokb : Nat) : Nat := (tokb + classBytes o.vd.cls - 1) / classBytes o.vd.cls

/-- Register i of a token. -/
def SynOp.part (o : SynOp) (i : Nat) : VReg := { o.vd with num := o.vd.num + i }

/-- The virtual registers of a step. -/
def LowStep.regs (x : LowStep) : List VReg :=
  match x with
  | .read _ _ _ tokb _ _ o => (upTo (tokenRegs o tokb)).map o.part
  | .write _ _ _ tokb o => (upTo (tokenRegs o tokb)).map o.part
  | .op _ o => [o.vd, o.va, o.vb, o.vc]
  | _ => []

/-- Where a body's registers stand, and what the translator keeps for itself: whether every virtual register is the physical one of its
number; four g, two w and one q register; the LOCAL offset of its staging bytes, and of the stack behind them. -/
structure Alloc where
  body : List SynOp
  direct : Bool
  t : Nat
  v : Nat
  u : Nat
  r : Nat
  w : Nat
  z : Nat
  q : Nat
  stage : Nat
  stack : Nat
  deriving DecidableEq, Repr

/-- The registers of a class that no virtual register has the number of; g1 is a link (R208). -/
def spareRegs (regs : List VReg) (cls : Nat) : List Nat :=
  (upTo (classSize cls)).filter (fun n => !(cls != 1 && cls != 2 && n == 0) && !(cls == 0 && n == 1) && !regs.contains { cls := cls, num := n })

/-- The allocation of a body (R483, log 77): numbers as they are where the files hold them and leave room, and the translator's own choice
otherwise, with g1 to g6, w30, w31 and q7 kept. -/
def allocOf (body : List SynOp) (steps : List LowStep) (stage stack : Nat) : Alloc :=
  let regs := steps.flatMap LowStep.regs
  match spareRegs regs 0, spareRegs regs 2, spareRegs regs 3 with
  | t :: v :: u :: r :: _, w :: z :: _, q :: _ =>
    if regs.all (fun x => decide (x.num < classSize x.cls)) then
      { body := body, direct := true, t := t, v := v, u := u, r := r, w := w, z := z, q := q, stage := stage, stack := stack }
    else { body := body, direct := false, t := 3, v := 4, u := 5, r := 6, w := 30, z := 31, q := 7, stage := stage, stack := stack }
  | _, _, _ => { body := body, direct := false, t := 3, v := 4, u := 5, r := 6, w := 30, z := 31, q := 7, stage := stage, stack := stack }

/-- The physical register of a virtual one in record j (R483): never g31; number 0 of g, q and m reads as a constant. -/
def Alloc.reg (al : Alloc) (j : Nat) (x : VReg) : Nat :=
  if al.direct then x.num
  else if x.num = 0 && x.cls != 1 && x.cls != 2 then 0
  else
    let n := Config.regOf al.body j x
    match x.cls with
    | 0 => 7 + n % 24
    | 1 => n % 32
    | 2 => n % 30
    | 3 => 1 + n % 6
    | _ => 1 + n % 7

/-! ### Fields of words (R42 to R59, R480) -/

/-- A signed field of n bits that holds v; none where it does not fit. -/
def fieldOf (n : Nat) (v : Int) : Option Nat :=
  if decide (-(Int.ofNat (1 <<< (n - 1))) ≤ v) && decide (v < Int.ofNat (1 <<< (n - 1))) then some ((toWord v).toNat % (1 <<< n)) else none

/-- A field of n bits that holds a number; none where it does not fit. -/
def fieldNat (n v : Nat) : Option Nat := if v < 1 <<< n then some v else none

/-- What field A holds, its distance beside it: the register, or nothing where the instruction has no A (R44). V of the crane's words is
the low bit of dA. -/
def Alloc.fieldA (al : Alloc) (j : Nat) (o : SynOp) : Nat :=
  let a := at' 12 (al.reg j o.va)
  match o.major with
  | 0x23 => if o.fn = 3 then 0 else a + at' 17 o.da
  | 0x25 => if o.fn ≤ 1 then a + at' 17 (o.da % 2) else if o.fn ≤ 3 then 0 else if o.fn = 4 then at' 17 (o.da % 2) else a
  | _ => a + at' 17 o.da

/-- What field B holds, bits 27:25 beside it: the register, or the options, which IMM gives, or nothing (R44, R53 to R57). -/
def Alloc.fieldB (al : Alloc) (j : Nat) (o : SynOp) : Option Nat :=
  let e := at' 25 o.db
  let b := at' 20 (al.reg j o.vb)
  let reg := some (b + e)
  let option (n : Nat) := (fieldNat n o.imm).map (at' 20)
  match o.major with
  | 0x01 => if o.fn ≤ 2 then reg else some 0
  | 0x0A => if o.fn = 11 then some 0 else reg
  | 0x16 => some (b + at' 25 (al.reg j o.vc % 8))
  | 0x17 => if o.fn = 4 || o.fn ≥ 7 then some 0 else reg
  | 0x19 => if o.fn ≤ 2 then option 3 else if o.fn ≤ 4 || o.fn ≥ 8 then some 0 else reg
  | 0x1B => if o.fn ≤ 5 then reg else some e
  | 0x1D => if o.fn = 5 then some e else reg
  | 0x1E =>
    if o.fn = 1 || o.fn = 3 || o.fn = 7 then some 0
    else if o.fn = 13 then some e
    else if o.fn ≤ 9 && o.db = 4 then reg
    else (option 1).map (fun x => x + e)
  | 0x1F => if o.fn = 3 || o.fn = 4 || o.fn = 5 then some 0 else reg
  | 0x22 => if o.fn = 11 then option 2 else reg
  | 0x23 => if o.fn = 0 || o.fn = 2 then reg else some 0
  | 0x25 => if o.fn ≤ 1 then some b else if o.fn = 2 then some 0 else if o.fn ≤ 4 then some e else reg
  | _ => reg

/-- What field D holds: the register, or options, which IMM gives, or nothing (R44, R58). -/
def Alloc.fieldD (al : Alloc) (j : Nat) (o : SynOp) : Option Nat :=
  let reg := some (at' 7 (al.reg j o.vd))
  let option (n : Nat) := (fieldNat n o.imm).map (at' 7)
  match o.major with
  | 0x22 =>
    if o.fn = 0 || o.fn = 10 then option 4 else if o.fn = 5 || o.fn = 6 || o.fn = 7 then option 1 else if o.fn = 11 then reg else some 0
  | 0x23 => if o.fn = 1 || o.fn = 2 || o.fn = 3 then option 3 else some 0
  | 0x25 => some 0
  | _ => reg

/-- The fields of a word of the formats RR, XR, CM, KV, QR and LP, and of those whose immediate holds IMM; none where a field cannot hold
what the record has. Options that no register field gives are IMM's low bits (log 77). -/
def Alloc.fields (al : Alloc) (j : Nat) (o : SynOp) : Option Nat :=
  let d := at' 7 (al.reg j o.vd)
  let a := at' 12 (al.reg j o.va)
  let b := al.reg j o.vb
  let c := al.reg j o.vc
  let ad := a + at' 17 o.da + d
  let imm := sext o.imm 32
  match o.major with
  | 0x03 | 0x04 | 0x05 | 0x06 => (fieldOf 12 imm).map (fun i => at' 20 i + ad)
  | 0x07 => (fieldNat 6 o.imm).bind (fun i => (fieldNat 6 o.fn).map (fun f => at' 26 f + at' 20 i + ad))
  | 0x08 | 0x09 => ((fieldOf 20 imm).orElse (fun _ => fieldNat 20 o.imm)).map (fun i => at' 12 i + d)
  | 0x0B => (fieldOf 9 imm).bind (fun i => (fieldNat 3 o.fn).map (fun f => at' 29 f + at' 20 i + ad))
  | 0x0F => (fieldOf 12 imm).bind (fun i => (fieldNat 5 o.fn).map (fun f => at' 20 i + a + at' 17 o.da + at' 7 f))
  | 0x10 =>
    if o.fn = 0 then (fieldNat 6 o.imm).map (fun i => at' 18 b + at' 13 (al.reg j o.va) + at' 7 i)
    else if o.fn = 3 then (fieldNat 2 o.imm).map (fun i => at' 28 3 + at' 11 i)
    else if o.fn = 4 then (fieldNat 3 o.imm).map (fun i => at' 28 4 + at' 11 (i % 4) + at' 10 (i / 4) + at' 7 (al.reg j o.vd % 8))
    else none
  | 0x11 | 0x12 => (fieldOf 9 imm).bind (fun i => (fieldNat 3 o.fn).map (fun f => at' 23 i + at' 20 f + ad))
  | 0x14 => (fieldOf 11 imm).bind (fun i => (fieldNat 1 o.fn).map (fun f => at' 31 f + at' 20 i + ad))
  | 0x15 => (fieldOf 10 imm).bind (fun i => (fieldNat 2 o.fn).map (fun f => at' 30 f + at' 20 i + ad))
  | 0x18 | 0x1C => (fieldNat 5 o.fn).map (fun f => at' 27 f + at' 22 c + at' 17 b + a + d)
  | 0x24 =>
    if o.fn ≤ 1 then some (at' 27 o.fn + a + d)
    else (fieldNat 2 o.imm).bind (fun i => (fieldNat 5 o.fn).map (fun f => at' 27 f + at' 17 i + (if o.fn = 2 then a else d)))
  | 0x26 | 0x27 | 0x28 | 0x29 =>
    (fieldNat 5 o.imm).bind (fun i => (fieldNat 2 o.fn).map (fun f =>
      at' 23 o.db + at' 18 i + at' 14 (c / 2) + at' 9 (al.reg j o.va) + at' 7 f))
  | 0x2A =>
    match o.fn with
    | 0 => some (at' 17 b + a)
    | 1 => (fieldNat 4 o.imm).map (fun i => at' 30 (i / 4) + at' 27 1 + (if i / 4 = 1 then at' 22 c else 0) + at' 17 b + a + at' 7 (i % 4))
    | 2 => some (at' 27 2 + at' 22 c + at' 17 b + a)
    | 3 => some (at' 27 3 + a)
    | 4 => some (at' 27 4 + a + d)
    | 5 => (fieldNat 2 o.imm).map (fun i => at' 27 5 + (if i = 1 then at' 17 b else 0) + a + at' 7 i)
    | _ => none
  | 0x2B =>
    match o.fn with
    | 0 | 1 => some (at' 28 o.fn + at' 25 o.db + at' 20 b + a + at' 17 o.da)
    | 2 | 3 => some (at' 28 o.fn + at' 25 o.db + at' 20 b + ad)
    | 4 => (fieldNat 1 o.imm).map (fun i => at' 31 i + at' 28 4 + at' 25 o.db + at' 20 b + ad)
    | _ => none
  | _ => (fieldNat 4 o.fn).bind (fun f => (al.fieldB j o).bind (fun x => (al.fieldD j o).map (fun y => at' 28 f + x + al.fieldA j o + y)))

/-! ### Words the translator writes for itself -/

def r5 (n : Nat) : BitVec 5 := BitVec.ofNat 5 n
def r3 (n : Nat) : BitVec 3 := BitVec.ofNat 3 n
/-- An instruction that has no effect, as long as a word. -/
def nop : Nat := Enc.addi 0 0 0 0
/-- Two empty slots. -/
def nops : List Asm := [.word nop, .word nop]
def words (l : List Nat) : List Asm := l.map Asm.word

/-- The upper and lower part of a number (R45). -/
def hi20 (v : Int) : BitVec 20 := BitVec.ofInt 20 ((v + 0x800) >>> 12)
def lo12 (v : Int) : BitVec 12 := BitVec.ofInt 12 v

/-- g d := a constant of 32 bits, sign-extended (R45). -/
def constWords (d : Nat) (v : Int) : List Nat :=
  [Enc.upim (r5 d) (hi20 v), Enc.addi (r5 d) (r5 d) 0 (lo12 v)] ++ (if v + 0x800 ≥ 2147483648 then [Enc.sxw (r5 d) (r5 d) 0] else [])

/-- g d := the LOCAL address of an offset (R34). -/
def localWords (d off : Nat) : List Nat :=
  [Enc.addi (r5 d) 0 0 1, Enc.slli (r5 d) (r5 d) 0 48, Enc.addi (r5 d) (r5 d) 0 (BitVec.ofNat 12 ((off + 0x800) / 4096)),
   Enc.slli (r5 d) (r5 d) 0 12, Enc.addi (r5 d) (r5 d) 0 (BitVec.ofNat 12 off)]

/-- Eight bytes at g `from_`, piece i, go to the 64 bytes at g u. -/
def Alloc.moveWords (al : Alloc) (from_ n : Nat) : List Nat :=
  (upTo 8).flatMap (fun i =>
    if i < n then [Enc.ld (r5 al.v) (r5 from_) 0 (BitVec.ofNat 9 i), Enc.sd (r5 al.v) (r5 al.u) 0 (BitVec.ofNat 9 i)]
    else [Enc.sd 0 (r5 al.u) 0 (BitVec.ofNat 9 i)])

/-- A register of a class from the 64 bytes at g a: LD, FLW, VL; a q register from a byte, an m register from 64. -/
def Alloc.fillReg (al : Alloc) (cls d a : Nat) : List Nat :=
  match cls with
  | 0 => [Enc.ld (r5 d) (r5 a) 0 0]
  | 1 => [Enc.flw (r5 d) (r5 a) 0 0]
  | 2 => [Enc.vl (r5 d) (r5 a) 0 0]
  | 3 => [Enc.lbu (r5 al.v) (r5 a) 0 0, Enc.cnei (r3 d) (r5 al.v) 0 0]
  | _ => [Enc.vl (r5 al.w) (r5 a) 0 0, Enc.vxor (r5 al.z) (r5 al.z) 0 (r5 al.z) 0, Enc.vcmpNe (r3 d) (r5 al.w) 0 (r5 al.z) 0]

/-- A register of a class to the 64 bytes at g a: a q register as a doubleword of 1 or 0, an m register as 64 bytes of 1 or 0. -/
def Alloc.spillReg (al : Alloc) (cls d a : Nat) : List Nat :=
  match cls with
  | 0 => [Enc.sd (r5 d) (r5 a) 0 0]
  | 1 => [Enc.fsw (r5 d) (r5 a) 0 0]
  | 2 => [Enc.vs (r5 d) (r5 a) 0 0]
  | 3 => [Enc.addi (r5 al.v) 0 0 1, Enc.br (r3 d) 0 2 6, Enc.addi (r5 al.v) 0 0 0, nop, Enc.sd (r5 al.v) (r5 a) 0 0]
  | _ =>
    [Enc.addi (r5 al.v) 0 0 1, Enc.vsplat (r5 al.w) (r5 al.v) 0 0, Enc.vxor (r5 al.z) (r5 al.z) 0 (r5 al.z) 0,
     Enc.vselB (r5 al.w) (r5 al.w) (r5 al.z) (r3 d), Enc.vs (r5 al.w) (r5 a) 0 0]

/-- g u := the address of a slot of the stack (R208). -/
def Alloc.slotWords (al : Alloc) (slot : Nat) : List Nat := constWords al.u (Int.ofNat (64 * slot)) ++ [Enc.add (r5 al.u) 2 0 (r5 al.u) 0]

/-- The fills before record j and the spills behind it; none where the files hold a body's registers. -/
def Alloc.fillsOf (al : Alloc) (j : Nat) : List Nat :=
  if al.direct then [] else (Config.fills al.body j).flatMap (fun x => al.slotWords (x.2.2 % (1 + Config.spillSlots al.body)) ++ al.fillReg x.1 x.2.1 al.u)
def Alloc.spillsOf (al : Alloc) (j : Nat) : List Nat :=
  if al.direct then [] else (Config.spills al.body j).flatMap (fun x => al.slotWords (x.2.2 % (1 + Config.spillSlots al.body)) ++ al.spillReg x.1 x.2.1 al.u)

/-! ### Tokens (R484) -/

/-- The granules at which the CHSTs of n granules stand: 64 bytes each, the last behind the others where it can be. -/
def stUnits (n : Nat) : List Nat := (upTo ((n + 1) / 2)).map (fun k => if 2 * k + 2 ≤ n || n = 1 then 2 * k else n - 2)

/-- g t := the address of granule u of a consumer's handle; where no CHADDR names it, that of granule 0 and the ring's wrap (R249). -/
def Alloc.tokenAddr (al : Alloc) (h u stop size : Nat) : List Nat :=
  let c := BitVec.ofNat 4 h
  if u < 4096 then [Enc.chaddr (r5 al.t) c (BitVec.ofNat 12 u)]
  else [Enc.chaddr (r5 al.t) c 0] ++ constWords al.v (Int.ofNat (32 * u)) ++ [Enc.add (r5 al.t) (r5 al.t) 0 (r5 al.v) 0] ++
    localWords al.v stop ++ [Enc.cltu (r3 al.q) (r5 al.t) 0 (r5 al.v) 0] ++
    (let back := constWords al.v (Int.ofNat size) ++ [Enc.sub (r5 al.t) (r5 al.t) 0 (r5 al.v) 0]
     [Enc.br (r3 al.q) 0 0 (BitVec.ofNat 19 (2 * (3 + back.length))), nop, nop] ++ back)

/-- The loads of a token at g t into the registers from VD on (R484): LBU, LHU, LWU or LD of a token of at most 8 bytes in a g register, LD
of a longer one; FLW; VL of what LD and SD have brought to the 64 staging bytes; a q register from a byte, an m register from 64. -/
def Alloc.loadWords (al : Alloc) (j : Nat) (o : SynOp) (tokb : Nat) : List Nat :=
  let chunk (k : Nat) : List Nat := if k = 0 then [] else [Enc.addi (r5 al.t) (r5 al.t) 0 64]
  let slot := slotBytes tokb
  let reg (i : Nat) : BitVec 5 := r5 (al.reg j (o.part i))
  match o.vd.cls with
  | 0 =>
    if tokb = 1 then [Enc.lbu (reg 0) (r5 al.t) 0 0]
    else if tokb = 2 then [Enc.lhu (reg 0) (r5 al.t) 0 0]
    else if tokb ≤ 4 then [Enc.lwu (reg 0) (r5 al.t) 0 0]
    else (upTo (tokenRegs o tokb)).flatMap (fun i =>
      (if i % 8 = 0 then chunk i else []) ++ [Enc.ld (reg i) (r5 al.t) 0 (BitVec.ofNat 9 (i % 8))])
  | 1 => (upTo (tokenRegs o tokb)).map (fun i => Enc.flw (reg i) (r5 al.t) 0 (BitVec.ofNat 11 i))
  | 2 =>
    localWords al.u al.stage ++ (upTo (tokenRegs o tokb)).flatMap (fun k =>
      chunk k ++ al.moveWords al.t (if slot - 64 * k ≥ 64 then 8 else 4) ++ [Enc.vl (reg k) (r5 al.u) 0 0])
  | 3 => al.fillReg 3 (al.reg j o.vd) al.t
  | _ => localWords al.u al.stage ++ al.moveWords al.t (if slot ≥ 64 then 8 else 4) ++ al.fillReg 4 (al.reg j o.vd) al.u

/-- The registers from VD on stand at g u as the token has them. -/
def Alloc.stageWords (al : Alloc) (j : Nat) (o : SynOp) (tokb : Nat) : List Nat :=
  let reg (i : Nat) : Nat := al.reg j (o.part i)
  match o.vd.cls with
  | 0 => (upTo (tokenRegs o tokb)).flatMap (fun i =>
      (if i % 8 = 0 && i != 0 then [Enc.addi (r5 al.u) (r5 al.u) 0 64] else []) ++ [Enc.sd (r5 (reg i)) (r5 al.u) 0 (BitVec.ofNat 9 (i % 8))])
  | 1 => (upTo (tokenRegs o tokb)).map (fun i => Enc.fsw (r5 (reg i)) (r5 al.u) 0 (BitVec.ofNat 11 i))
  | 2 => (upTo (tokenRegs o tokb)).map (fun i => Enc.vs (r5 (reg i)) (r5 al.u) 0 (BitVec.ofNat 10 i))
  | c => al.spillReg c (reg 0) al.u

/-- The CHSTs of a token of the registers from VD on (R484): a w register that is a CHST's 64 bytes as it is, else the token through the
staging bytes. -/
def Alloc.writeWords (al : Alloc) (j h unit : Nat) (o : SynOp) (tokb : Nat) : List Nat :=
  let c := BitVec.ofNat 4 h
  let us := stUnits (slotBytes tokb / 32)
  let st (w u : Nat) : Nat := Enc.chst (r5 w) c (BitVec.ofNat 12 (unit + u))
  if us.any (fun u => decide (unit + u ≥ 4096)) then Config.farToken al.body j
  else if o.vd.cls = 2 && us.all (fun u => u % 2 == 0) then us.map (fun u => st (al.reg j (o.part (u / 2))) u)
  else
    localWords al.u (al.stage + 64) ++ al.stageWords j o tokb ++ us.flatMap (fun u =>
      localWords al.t (al.stage + 64 + 32 * u) ++ localWords al.u al.stage ++ al.moveWords al.t 8 ++ [Enc.vl (r5 al.w) (r5 al.u) 0 0, st al.w u])

/-- CHSTs of constant bytes into a handle's slots (R484 step 1), 64 at a time through the staging bytes. -/
def Alloc.tokenWords (al : Alloc) (h : Nat) (data : List Byte) : List Nat :=
  let us := stUnits (data.length / 32)
  if us.any (fun u => decide (u ≥ 4096)) then Config.farToken al.body al.body.length
  else localWords al.u al.stage ++ us.flatMap (fun u =>
    (upTo 16).flatMap (fun i => constWords al.v (sext (fieldAt data (32 * u + 4 * i) 4) 32) ++ [Enc.sw (r5 al.v) (r5 al.u) 0 (BitVec.ofNat 9 i)]) ++
      [Enc.vl (r5 al.w) (r5 al.u) 0 0, Enc.chst (r5 al.w) (BitVec.ofNat 4 h) (BitVec.ofNat 12 u)])

/-! ### The words of a record -/

/-- The record's word with an immediate that its format cannot hold (R45): the constant in g t, and the operation with it. -/
def Alloc.wide (al : Alloc) (j : Nat) (o : SynOp) : Option (List Nat) :=
  let imm := sext o.imm 32
  let rr (major f : Nat) : Nat := at' 28 f + at' 20 al.t + at' 12 (al.reg j o.va) + at' 17 o.da + at' 7 (al.reg j o.vd) + at' 1 major + 1
  let addr (scale : Nat) : List Nat :=
    constWords al.t imm ++ [Enc.slli (r5 al.t) (r5 al.t) 0 (BitVec.ofNat 6 scale),
      Enc.add (r5 al.t) (r5 (al.reg j o.va)) (r3 o.da) (r5 al.t) 0]
  match o.major with
  | 0x03 => some (constWords al.t imm ++ [rr 0 0])
  | 0x04 => some (constWords al.t imm ++ [rr 0 2])
  | 0x05 => some (constWords al.t imm ++ [rr 0 3])
  | 0x06 => some (constWords al.t imm ++ [rr 0 4])
  | 0x0B => if o.fn < 6 then some (constWords al.t imm ++ [rr 0x0A o.fn]) else none
  | 0x0F => if o.fn ≤ 1 then some (addr 0 ++ [at' 12 al.t + at' 7 o.fn + at' 1 0x0F + 1]) else none
  | 0x11 | 0x12 => if o.fn < 8 then some (addr (o.fn / 2) ++ [at' 20 o.fn + at' 12 al.t + at' 7 (al.reg j o.vd) + at' 1 o.major + 1]) else none
  | 0x14 => if o.fn < 2 then some (addr 2 ++ [at' 31 o.fn + at' 12 al.t + at' 7 (al.reg j o.vd) + at' 1 0x14 + 1]) else none
  | 0x15 => if o.fn < 4 then some (addr 6 ++ [at' 30 o.fn + at' 12 al.t + at' 7 (al.reg j o.vd) + at' 1 0x15 + 1]) else none
  | _ => none

/-- The words of record j in step k, a branch's or loop's goal the step that IMM counts (R480); none where no Volsis word has its fields.
NULLIFY and sense of a BR are FN's low bits (log 77). -/
def Alloc.opAsm (al : Alloc) (k j : Nat) (o : SynOp) : Option (List Asm) :=
  let goal := (Int.ofNat k + sext o.imm 32).toNat
  if o.major = 0x0C then
    if o.fn ≥ 8 || o.fn % 4 = 3 then none else some [.br (al.reg j o.vd % 8) (o.fn / 4) (o.fn % 4) goal]
  else if o.major = 0x0D || o.major = 0x0E then some [.jump (o.major == 0x0E) goal]
  else if o.major = 0x10 && o.jumps then some [.loop (at' 28 o.fn + at' 7 (al.reg j o.vd) + at' 1 0x10 + 1) goal]
  else match al.fields j o with
    | some w => some [.word (w + at' 1 o.major + 1)]
    | none => (al.wide j o).map words

/-- The words of step k as they stand in a firing, an operation's slots behind it. -/
def Alloc.stepAsm (al : Alloc) (k : Nat) (x : LowStep) : Option (List Asm) :=
  match x with
  | .once n => some [.word (Enc.cnei (r3 al.q) 31 0 0), .br al.q 0 2 (k + 1 + n)]
  | .mark => some [.word (Enc.addi 31 0 0 1)]
  | .space h n => some [.word (Enc.chwaite (BitVec.ofNat 4 h) (BitVec.ofNat 12 n))]
  | .filled h n => some [.word (Enc.chwaitf (BitVec.ofNat 4 h) (BitVec.ofNat 12 n))]
  | .advance h n => some [.word (Enc.chadvp (BitVec.ofNat 4 h) (BitVec.ofNat 12 n))]
  | .free h n => some [.word (Enc.chadvc (BitVec.ofNat 4 h) (BitVec.ofNat 12 n))]
  | .tokens h data => some (words (al.tokenWords h data))
  | .stack => some (words (localWords 2 al.stack))
  | .read j h u tokb stop size o =>
    some (words (al.fillsOf j ++ al.tokenAddr h u stop size ++ al.loadWords j o tokb ++ al.spillsOf j))
  | .write j h u tokb o => some (words (al.fillsOf j ++ al.writeWords j h u o tokb))
  | .op j o => (al.opAsm k j o).map (fun l => words (al.fillsOf j) ++ l ++ (if o.slotted then [] else words (al.spillsOf j)))
  | .done => some [.word Enc.done]

/-! ### Delay slots and distances -/

/-- The two steps behind step k. -/
def slotSteps (steps : List LowStep) (k : Nat) : List (Nat × LowStep) :=
  ((steps[k + 1]?).map (fun x => (k + 1, x))).toList ++ ((steps[k + 2]?).map (fun x => (k + 2, x))).toList

/-- The words of the two steps behind step k. -/
def Alloc.slotAsm (al : Alloc) (steps : List LowStep) (k : Nat) : List Asm :=
  (slotSteps steps k).flatMap (fun t => (al.stepAsm t.1 t.2).getD [])

def LowStep.slotted : LowStep → Bool
  | .op _ o => o.slotted
  | _ => false

/-- Are the two steps behind step k one word each? -/
def Alloc.slotsFit (al : Alloc) (steps : List LowStep) (k : Nat) : Bool :=
  (slotSteps steps k).all (fun t => ((al.stepAsm t.1 t.2).map List.length) == some 1)

/-- A BR that goes by a jump: not taken where the BR is, the slots' words on the way as NULLIFY has them (R47). Steps k + 1 and k + 2 stand
behind it. -/
def branchAsm (q sense nullify goal k : Nat) (slots : List Asm) (go : List Asm) : List Asm :=
  [.br q (1 - sense) 0 (if nullify = 1 then k + 3 else k + 1)] ++ nops ++ (if nullify = 2 then [] else slots) ++
    (if go.isEmpty then [.jump false goal] else go) ++ nops

/-- A slotted record whose slots are not one word each, or whose distance no BR holds: the slots' words come before a jump with empty slots,
and the record takes its operands, and its link the address behind the slots, before them. -/
def Alloc.longAsm (al : Alloc) (steps : List LowStep) (k j : Nat) (o : SynOp) : Option (List Asm) :=
  let slots := al.slotAsm steps k
  let link : List Asm := [.addrHi 1 (k + 3), .addrLo 1 (k + 3)]
  (al.opAsm k j o).map (fun own => words (al.fillsOf j) ++ (match own.getLast? with
    | some (.br q sense nullify goal) => branchAsm q sense nullify goal k slots []
    | some (.jump l goal) => (if l then link else []) ++ slots ++ [.jump false goal] ++ nops
    | some (.word w) =>
      if o.major = 0x0F then
        own.dropLast ++ [.word (Enc.addi (r5 al.r) (BitVec.ofNat 5 (bitsOf w 16 12)) (BitVec.ofNat 3 (bitsOf w 19 17)) (BitVec.ofNat 12 (bitsOf w 31 20)))] ++
          (if o.fn = 1 then link else []) ++ slots ++ [.word (Enc.jr (r5 al.r) 0 0)] ++ nops
      else if o.fn = 3 then (if bitsOf w 12 11 = 2 then [] else slots) ++ [.word (Enc.leave 0)] ++ nops
      else branchAsm (bitsOf w 9 7) (bitsOf w 10 10) (bitsOf w 12 11) 0 k slots [.word (Enc.leave 0)]
    | _ => own))

/-- Step k in a firing, far where no BR holds every distance. A slotted record in a slot of another is only ever its own word. -/
def Alloc.expand (al : Alloc) (far : Bool) (steps : List LowStep) (k : Nat) (x : LowStep) : Option (List Asm) :=
  let inSlot := ((steps.take k).drop (k - 2)).any LowStep.slotted
  match x with
  | .once n =>
    if far then some ([.word (Enc.cnei (r3 al.q) 31 0 0), .br al.q 1 0 (k + 1)] ++ nops ++ [.jump false (k + 1 + n)] ++ nops) else al.stepAsm k x
  | .op j o =>
    if o.slotted && (!al.slotsFit steps k || (far && o.major = 0x0C)) then (if inSlot then none else al.longAsm steps k j o) else al.stepAsm k x
  | _ => al.stepAsm k x

/-- The place of step k in words. -/
def placeIn (ls : List (List Asm)) (k : Nat) : Nat := (ls.take k).foldl (fun n l => n + l.length) 0

/-- A word at its place (R45 to R49): distances in halfwords; none where a field cannot hold one. -/
def Asm.at_ (pos : Nat → Nat) (here : Nat) (x : Asm) : Option Nat :=
  let half (k : Nat) : Int := 2 * (Int.ofNat (pos k) - Int.ofNat here)
  match x with
  | .word w => some w
  | .br q sense nullify k => (fieldOf 19 (half k)).map (fun i => Enc.br (r3 q) (BitVec.ofNat 1 sense) (BitVec.ofNat 2 nullify) (BitVec.ofNat 19 i))
  | .jump link k => (fieldOf 25 (half k)).map (fun i => if link then Enc.jl (BitVec.ofNat 25 i) else Enc.j (BitVec.ofNat 25 i))
  | .loop w k => if half k < 0 then none else (fieldNat 16 (half k).toNat).map (fun i => w + at' 12 i)
  | .addrHi d k => some (Enc.pcadd (r5 d) (hi20 (2 * half k)))
  | .addrLo d k => some (Enc.addi (r5 d) (r5 d) 0 (lo12 (2 * half k + 4)))

/-- The words of a firing, each at its place. -/
def Alloc.assemble (al : Alloc) (far : Bool) (steps : List LowStep) : Option (List Nat) :=
  let ls := ((upTo steps.length).zip steps).map (fun t => al.expand far steps t.1 t.2)
  if ls.any Option.isNone then none
  else
    let l := ls.filterMap id
    let flat := l.flatten
    let out := ((upTo flat.length).zip flat).map (fun t => t.2.at_ (placeIn l) t.1)
    if out.any Option.isNone then none else some (out.filterMap id)

/-! ### A firing (R484) -/

/-- d initial tokens of an edge as its slots hold them: each padded to its slot (R479, R483). -/
def SynEdge.initBytes (e : SynEdge) (bs : List Byte) : List Byte :=
  (upTo e.init).flatMap (fun k => (upTo (slotBytes e.tokb)).map (fun j => if j < e.tokb then bs.getD (e.initoff + k * e.tokb + j) 0 else 0))

/-- The first firing's part (R484 step 1): each output with initial tokens gets them, once. -/
def firstPart (bs : List Byte) (es : List SynEdge) (a : Nat) : List LowStep :=
  let l := ((outputsOf es a).filter (fun x => decide (x.2.init > 0))).flatMap (fun x =>
    let h := prodHandle es x.1 x.2
    [LowStep.space h x.2.init, .tokens h (x.2.initBytes bs), .advance h x.2.init])
  if l.isEmpty then [] else .once (l.length + 1) :: (l ++ [.mark])

/-- Record j of a body (R484 step 3): PREAD and PWRITE name token IMM of their port; none where the actor has no such port. -/
def lowerOp (es : List SynEdge) (caps : List Nat) (a : Nat) (j : Nat) (o : SynOp) : Option LowStep :=
  if o.isRead then ((inputsOf es a).find? (fun x => x.2.cport == o.port)).map (fun x =>
    let slot := slotBytes x.2.tokb
    let size := slot * caps.getD x.1 0
    .read j (consHandle es x.1 x.2) (o.imm * (slot / 32)) x.2.tokb (ringOffset es caps x.1 a + size) size o)
  else if o.isWrite then ((outputsOf es a).find? (fun x => x.2.pport == o.port)).map (fun x =>
    .write j (prodHandle es x.1 x.2) (o.imm * (slotBytes x.2.tokb / 32)) x.2.tokb o)
  else some (.op j o)

/-- A lowered firing (R484), in its order. -/
def firingSteps (bs : List Byte) (es : List SynEdge) (a : Nat) (body : List LowStep) : List LowStep :=
  let ins := (inputsOf es a).map (fun x => (consHandle es x.1 x.2, x.2.c))
  let outs := (outputsOf es a).map (fun x => (prodHandle es x.1 x.2, x.2.p))
  firstPart bs es a ++ ins.map (fun x => .filled x.1 x.2) ++ outs.map (fun x => .space x.1 x.2) ++ body ++
    outs.map (fun x => .advance x.1 x.2) ++ ins.map (fun x => .free x.1 x.2) ++ [.done]

/-- The staging bytes of an actor: 64, and the longest token of its outputs behind them; none where it stages nothing. -/
def stagingBytes (es : List SynEdge) (a : Nat) : Nat :=
  if (inputsOf es a).isEmpty && (outputsOf es a).isEmpty then 0
  else 64 + (outputsOf es a).foldl (fun n x => max n ((slotBytes x.2.tokb + 63) / 64 * 64)) 64

/-- An actor's code, and the bytes of scratchpad that its rings, STATE, staging bytes and stack take (R483); none where a record names a
port the actor does not have, or has fields that no Volsis word holds. -/
def lowerFiring (bs : List Byte) (es : List SynEdge) (caps : List Nat) (a : Nat) (x : SynNode) (ops : List SynOp) : Option (Nat × Nat × List Nat) :=
  let steps := ((upTo ops.length).zip ops).map (fun t => lowerOp es caps a t.1 t.2)
  if steps.any Option.isNone then none
  else
    let body := steps.filterMap id
    let stage := (ringOffset es caps es.length a + x.state + 63) / 64 * 64
    let stack := stage + stagingBytes es a
    let al := allocOf ops body stage stack
    let l := firingSteps bs es a (if al.direct then body else .stack :: body)
    if ((upTo l.length).zip l).any (fun t => (al.stepAsm t.1 t.2).isNone) then none
    else
      let spill := if al.direct then 0 else 64 * (1 + Config.spillSlots ops)
      some (stack + spill, spill, (al.assemble false l).getD ((al.assemble true l).getD (Config.farFiring ops l)))

/-! ### The translated module (R483) -/

/-- The actor record that the translator lowers a node to (R216, R483), with its code: its number, the banks that its rings, STATE and stack
take; no successor, predecessor, tile, window group, `.local` image or launch (log 77). Its ENTRY is the offset of its code until it is
placed. -/
def lowerActor (bs : List Byte) (es : List SynEdge) (caps : List Nat) (a : Nat) (x : SynNode) : Option SynActor :=
  match lowerFiring bs es caps a x (synOps bs x) with
  | none => none
  | some (n, stack, code) =>
    if n > 0x80000 then none
    else some { entry := 0, number := a, succ := noActor, pred := noActor, banks := (1 <<< ((n + 0x7FFF) / 0x8000)) - 1, tiles := 0,
                wgrp := 0xFF, limg := 0, llen := 0, launch := false, stack := stack, code := code }

/-- Actors with their code one behind another from a GLOBAL base on. -/
def placeCode : Nat → List SynActor → List SynActor
  | _, [] => []
  | base, x :: xs => { x with entry := base } :: placeCode (base + 4 * x.code.length) xs

/-- What the translator lowers a module to (R481 to R484): its actors and channels; none where it refuses the graph. -/
def translateModule (bs : List Byte) : Option (List SynActor × List SynChan) :=
  let es := synEdges bs
  let nodes := synNodes bs
  if !moduleFormed bs then none
  else match repetition nodes.length es with
    | none => none
    | some r => match capacities es r (4096 * es.length + 1) (es.map startCap) with
      | none => none
      | some caps =>
        let actors := ((upTo nodes.length).zip nodes).map (fun t => lowerActor bs es caps t.1 t.2)
        if actors.any Option.isNone then none
        else some (actors.filterMap id, ((upTo es.length).zip (es.zip caps)).map (fun t =>
          { prod := t.2.1.prod, cons := t.2.1.cons, ph := prodHandle es t.1 t.2.1, ch := consHandle es t.1 t.2.1,
            slotb := slotBytes t.2.1.tokb, cap := t.2.2, prate := t.2.1.p, ring := ringOffset es caps t.1 t.2.1.cons }))

/-- The bytes of a translated module's `.text`: the actors' code, one behind another. -/
def textBytes (l : List SynActor) : List Byte := l.flatMap (fun x => x.code.flatMap (leBytes 4))

/-- The pipeline descriptor of a translated module (R216, R483): no window group, pool, handler range or vector; every CRATE is 0. -/
def descriptorBytes (actors : List SynActor) (chans : List SynChan) : List Byte :=
  leBytes 4 actors.length ++ leBytes 4 chans.length ++ List.replicate 56 0 ++
    actors.flatMap (fun x => leBytes 8 x.entry ++ leBytes 4 x.number ++ leBytes 4 x.succ ++ leBytes 4 x.pred ++ leBytes 2 x.banks ++
      leBytes 1 x.tiles ++ leBytes 1 x.wgrp ++ leBytes 8 x.limg ++ leBytes 4 x.llen ++ leBytes 1 (b2n x.launch) ++ List.replicate 27 0) ++
    chans.flatMap (fun x => leBytes 4 x.prod ++ leBytes 4 x.cons ++ leBytes 1 x.ph ++ leBytes 1 x.ch ++ leBytes 2 0 ++ leBytes 4 x.slotb ++
      leBytes 4 x.cap ++ leBytes 2 x.prate ++ leBytes 2 0 ++ leBytes 4 x.ring ++ leBytes 4 0)

end Sys2Proof.Machine
end

