-- ==== Sys2Proof/Machine/Loader.lean ====
section
/-! DEFINITION. The loader of code objects (spec/26 R468 to R478, spec/27 R485, R486). -/
namespace Sys2Proof.Config

/-- The device's revision (R193, R478); the spec gives no number. -/
opaque revision : Nat

end Sys2Proof.Config

namespace Sys2Proof.Machine
open Sys2Proof

/-! ### The object (R468 to R471) -/

/-- A section (R469). -/
structure Sect where
  kind : Nat
  align : Nat
  owner : Nat
  base : Nat
  body : List Byte
  deriving DecidableEq, Repr

/-- A symbol (R470). -/
structure Sym where
  name : Nat
  sect : Nat
  bind : Nat
  value : Nat
  size : Nat
  deriving DecidableEq, Repr

/-- A relocation record (R471). -/
structure Reloc where
  offset : Nat
  sect : Nat
  type : Nat
  sym : Nat
  addend : Nat
  pair : Nat
  deriving DecidableEq, Repr

/-- A native object: LINKED, its tables, its names. -/
structure Obj where
  linked : Bool
  sects : List Sect
  syms : List Sym
  rels : List Reloc
  names : List Byte
  deriving DecidableEq, Repr

def sectAt (bs : List Byte) (o : Nat) : Sect :=
  { kind := fieldAt bs o 1, align := fieldAt bs (o + 1) 1, owner := fieldAt bs (o + 4) 4, base := fieldAt bs (o + 24) 8,
    body := (bs.drop (fieldAt bs (o + 8) 8)).take (fieldAt bs (o + 16) 8) }
def symAt (bs : List Byte) (o : Nat) : Sym :=
  { name := fieldAt bs o 4, sect := fieldAt bs (o + 4) 1, bind := fieldAt bs (o + 5) 1, value := fieldAt bs (o + 8) 8,
    size := fieldAt bs (o + 16) 8 }
def relocAt (bs : List Byte) (o : Nat) : Reloc :=
  { offset := fieldAt bs o 8, sect := fieldAt bs (o + 8) 1, type := fieldAt bs (o + 9) 1, sym := fieldAt bs (o + 12) 4,
    addend := fieldAt bs (o + 16) 8, pair := fieldAt bs (o + 24) 8 }

/-- Does a file begin with the MAGIC and VERSION of an object? -/
def isObject (bs : List Byte) : Bool := fieldAt bs 0 4 == 0x01424F4B && fieldAt bs 4 4 == 1

/-- The offsets of n entries of a table. -/
def entriesAt (off size n : Nat) : List Nat := (upTo n).map (fun j => off + size * j)

/-- The entries of the section, symbol and relocation tables, and of the image table. -/
def sectEntries (bs : List Byte) : List Nat := entriesAt (fieldAt bs 32 4) 32 (fieldAt bs 16 4)
def symEntries (bs : List Byte) : List Nat := entriesAt (fieldAt bs 36 4) 24 (fieldAt bs 20 4)
def relEntries (bs : List Byte) : List Nat := entriesAt (fieldAt bs 40 4) 32 (fieldAt bs 24 4)

/-- Are the reserved bytes of a native object zero (R468 to R471)? -/
def reservedZero (bs : List Byte) : Bool :=
  fieldAt bs 48 16 == 0 && (sectEntries bs).all (fun o => fieldAt bs (o + 2) 2 == 0) && (symEntries bs).all (fun o => fieldAt bs (o + 6) 2 == 0) &&
    (relEntries bs).all (fun o => fieldAt bs (o + 10) 2 == 0)

/-- Are the reserved bytes of a fat object zero, and its images native or Synonast (R468, R477)? -/
def fatZero (bs : List Byte) : Bool :=
  fieldAt bs 48 16 == 0 &&
    (sectEntries bs).all (fun o => fieldAt bs (o + 6) 2 == 0 && fieldAt bs (o + 24) 8 == 0 && decide (fieldAt bs (o + 4) 1 ≤ 1))

/-- The tables of a native object. -/
def readObject (bs : List Byte) : Obj :=
  { linked := bitOf (fieldAt bs 12 4) 2
    sects := (sectEntries bs).map (sectAt bs)
    syms := (symEntries bs).map (symAt bs)
    rels := (relEntries bs).map (relocAt bs)
    names := (bs.drop (fieldAt bs 44 4)).take (fieldAt bs 28 4) }

/-- Are numbers strictly rising? -/
def rising : List Nat → Bool
  | a :: b :: l => decide (a < b) && rising (b :: l)
  | _ => true

/-- A section as R469 has it: OWNER of data only, BASE of a linked section only. -/
def Sect.formed (x : Sect) (linked : Bool) : Bool :=
  decide (x.kind ≤ 3) && (x.kind == 2 || x.owner == 0) && ((linked && x.kind != 3) || x.base == 0)

/-- A symbol as R470 has it: its SECT and BIND, a definition inside its section, a name that ends inside the string table. -/
def Sym.formed (y : Sym) (o : Obj) : Bool :=
  decide (y.bind ≤ 2) && (o.names.drop y.name).contains 0#8 &&
    (y.sect == 0xFE || y.sect == 0xFF || (match o.sects[y.sect]? with
      | some x => decide (y.value - x.base + y.size ≤ x.body.length) && decide (x.base ≤ y.value)
      | none => false))

/-- The symbols that the global offset table holds, in the order of their first record (R476). -/
def Obj.gotSyms (o : Obj) : List Nat :=
  o.rels.foldl (fun l r => if (r.type = 10 || r.type = 11) && !l.contains r.sym then l ++ [r.sym] else l) []

/-- Does `.const` end in whole 8-byte entries, one for each symbol of the global offset table (R476)? -/
def Obj.gotHeld (o : Obj) : Bool :=
  o.gotSyms.isEmpty || o.sects.any (fun x => x.kind == 1 && x.body.length % 8 == 0 && decide (8 * o.gotSyms.length ≤ x.body.length))

/-- A native object as R469, R470 and R476 have it: at most one section of each KIND, in ascending order; the defined symbols before the
external ones; of the local ones, those that a relocation record names; room in `.const` for the global offset table. -/
def Obj.formed (o : Obj) : Bool :=
  o.gotHeld &&
  rising (o.sects.map Sect.kind) && o.sects.all (fun x => x.formed o.linked) && o.syms.all (fun y => y.formed o) &&
    (o.syms.dropWhile (fun y => y.bind != 2)).all (fun y => y.bind == 2) &&
    ((upTo o.syms.length).zip o.syms).all (fun e => e.2.bind != 0 || o.rels.any (fun r => r.sym == e.1))

/-! ### Choice of an image (R477, R478) -/

/-- An image that a device may run: its revision, whether it is a Synonast module, FWD, its bytes. -/
structure Img where
  rev : Nat
  syn : Bool
  fwd : Bool
  body : List Byte
  deriving DecidableEq, Repr

/-- The images of an object: those of its image table, or itself. -/
def imagesOf (bs : List Byte) : List Img :=
  let flags := fieldAt bs 12 4
  if bitOf flags 0 then
    (sectEntries bs).map (fun o =>
      { rev := fieldAt bs o 4, syn := fieldAt bs (o + 4) 1 == 1, fwd := bitOf (fieldAt bs (o + 5) 1) 0,
        body := (bs.drop (fieldAt bs (o + 8) 8)).take (fieldAt bs (o + 16) 8) })
  else [{ rev := fieldAt bs 8 4, syn := false, fwd := bitOf flags 1, body := bs }]

/-- The image that a device of a revision runs (R478). -/
def selectImage (rev : Nat) (l : List Img) : Option Img :=
  let native := l.filter (fun x => !x.syn)
  match native.find? (fun x => x.rev == rev) with
  | some x => some x
  | none =>
    let below := native.filter (fun x => decide (x.rev < rev) && x.fwd)
    match below.foldl (fun (best : Option Img) x => match best with
        | none => some x
        | some y => if y.rev < x.rev then some x else best) none with
    | some x => some x
    | none => l.find? (fun x => x.syn)

/-! ### Relocation (R472, R473, R476) -/

/-- Where the loader places the section of each kind: the GLOBAL base and the physical address of its first page (R475). -/
def placedAt (place : Places) (kind : Nat) : Option (Nat × Nat) := placeOf place kind

/-- The base of a section: the loader's choice; a local section has none. -/
def Sect.loadBase (x : Sect) (place : Places) : Nat := if x.kind = 3 then 0 else ((placedAt place x.kind).map (fun p => p.1)).getD 0

/-- The address of a symbol at load; none where it is undefined (R470, R472). -/
def Obj.symAddr (o : Obj) (place : Places) (n : Nat) : Option Nat :=
  match o.syms[n]? with
  | none => none
  | some y =>
    if y.sect = 0xFE then some y.value
    else match o.sects[y.sect]? with
      | none => none
      | some x => some (if x.kind = 3 then y.value else x.loadBase place + (if o.linked then y.value - x.base else y.value))

/-- The offset of the global offset table in the constants: it is their last part (R476). -/
def Obj.gotOff (o : Obj) : Nat :=
  match o.sects.find? (fun x => x.kind == 1) with
  | some x => x.body.length - 8 * o.gotSyms.length
  | none => 0

/-- The address of a symbol's entry of the global offset table. -/
def Obj.gotAddr (o : Obj) (place : Places) (sym : Nat) : Nat :=
  let base := match o.sects.find? (fun x => x.kind == 1) with
    | some x => x.loadBase place
    | none => 0
  base + o.gotOff + 8 * (o.gotSyms.takeWhile (fun x => x != sym)).length

/-- A field that a relocation patches: width in bytes, lowest and highest bit, value. -/
structure Patch where
  sect : Nat
  offset : Nat
  width : Nat
  lo : Nat
  hi : Nat
  value : Nat
  deriving DecidableEq, Repr

/-- The major of a 32-bit word (R52); none of a compact one. -/
def majorOf (w : Nat) : Option Nat := if bitOf w 0 then some (bitsOf w 6 1) else none

/-- JR or JLR: major 0x0F, bits 11:7 0 or 1 (R107, R110). -/
def isJump (w : Nat) : Bool := majorOf w == some 0x0F && decide (bitsOf w 11 7 ≤ 1)

/-- Is a word of the kind that a type patches (R472)? -/
def patchable (type w : Nat) : Bool :=
  match type with
  | 3 => majorOf w == some 0x08
  | 4 => majorOf w == some 0x03 || isJump w
  | 5 => majorOf w == some 0x09
  | 6 => majorOf w == some 0x03 || isJump w
  | 7 => majorOf w == some 0x0C
  | 8 => majorOf w == some 0x0D || majorOf w == some 0x0E
  | 9 => !bitOf w 0 && (bitsOf w 4 1 == 13 || bitsOf w 4 1 == 14)
  | 10 => majorOf w == some 0x09
  | 11 => majorOf w == some 0x03
  | _ => true

/-- The width of the patched word, and the field's lowest and highest bit (R472). -/
def patchField (type : Nat) : Nat × Nat × Nat :=
  match type with
  | 1 => (8, 0, 63)
  | 2 => (4, 0, 31)
  | 3 => (4, 12, 31)
  | 4 => (4, 20, 31)
  | 5 => (4, 12, 31)
  | 6 => (4, 20, 31)
  | 7 => (4, 13, 31)
  | 8 => (4, 7, 31)
  | 9 => (2, 5, 15)
  | 10 => (4, 12, 31)
  | 11 => (4, 20, 31)
  | _ => (0, 0, 0)

def isHigh (type : Nat) : Bool := type == 3 || type == 5 || type == 10
def isLow (type : Nat) : Bool := type == 4 || type == 6 || type == 11
def isBranch (type : Nat) : Bool := type == 7 || type == 8 || type == 9

/-- hi(x), rounded, arithmetically (R45, R197, R472). -/
def hiPart (v : Int) : Int := (v + 0x800) >>> 12

/-- The value a field takes, before it is cut to the field. -/
def patchValue (type : Nat) (v : Int) : Int :=
  if isHigh type then hiPart v else if isLow type then v - hiPart v * 4096 else if isBranch type then v >>> 1 else v

/-- Is v in the range of a type (R472)? -/
def inRange (type : Nat) (v : Int) : Bool :=
  let f := patchField type
  let n : Int := Int.ofNat (1 <<< (f.2.2 - f.2.1 + 1))
  if type = 2 then decide ((toWord v).toNat < 1 <<< 32)
  else if isHigh type then decide (-2147483648 ≤ v + 0x800) && decide (v + 0x800 ≤ 2147483647)
  else if isBranch type then decide (-n ≤ v) && decide (v ≤ n - 2)
  else true

/-- One record (R472): its patch, if it has one, or its code and v. The checks come in the order of R472. -/
def Obj.relocate (o : Obj) (place : Places) (r : Reloc) : Option Patch ⊕ (Nat × Nat) :=
  if r.type ≥ 12 then .inr (7, 0)
  else match o.symAddr place r.sym with
    | none => .inr (4, 0)
    | some a =>
      if r.type = 0 then .inl none
      else match o.sects[r.sect]? with
        | none => .inr (6, 0)
        | some x =>
          let f := patchField r.type
          let w := fieldAt x.body r.offset f.1
          let base := x.loadBase place
          let low := r.type = 6 || r.type = 11
          let target := if r.type = 10 || r.type = 11 then o.gotAddr place r.sym else a
          let from_ := if r.type = 1 || r.type = 2 || r.type = 3 || r.type = 4 then 0
            else if low then base + r.pair else base + r.offset
          let v := sext (toWord (Int.ofNat target + sext r.addend 64 - Int.ofNat from_)).toNat 64
          if r.offset + f.1 > x.body.length || !patchable r.type w then .inr (6, 0)
          else if low && (r.pair + 4 > x.body.length || majorOf (fieldAt x.body r.pair 4) != some 0x09) then .inr (6, 0)
          else if isBranch r.type && v % 2 ≠ 0 then .inr (6, 0)
          else if !inRange r.type v then .inr (5, (toWord v).toNat)
          else .inl (some { sect := r.sect, offset := r.offset, width := f.1, lo := f.2.1, hi := f.2.2,
                            value := (toWord (patchValue r.type v)).toNat % (1 <<< (f.2.2 - f.2.1 + 1)) })

/-- Every record in index order: the patches, or the report of the first that is refused (R473). -/
def Obj.relocateAll (o : Obj) (place : Places) : Nat → List Reloc → List Patch ⊕ List Byte
  | _, [] => .inl []
  | j, r :: rs =>
    match o.relocate place r with
    | .inr (code, v) =>
      .inr (loadReport code j r.type r.sect r.offset v (((o.syms[r.sym]?).map Sym.name).getD 0))
    | .inl p => match o.relocateAll place (j + 1) rs with
      | .inr rep => .inr rep
      | .inl ps => .inl (p.toList ++ ps)

/-- Bytes with a field of a word replaced; the word's other bits keep their values. -/
def patchBytes (bs : List Byte) (p : Patch) : List Byte :=
  let w := fieldAt bs p.offset p.width
  let n := w - (bitsOf w p.hi p.lo) <<< p.lo + p.value <<< p.lo
  bs.take p.offset ++ leBytes p.width n ++ bs.drop (p.offset + p.width)

/-- The section bodies with every patch applied in order (R473), and the global offset table filled (R485). -/
def Obj.patched (o : Obj) (place : Places) (ps : List Patch) : List Sect :=
  let got := o.gotSyms
  (upTo o.sects.length).filterMap (fun j => (o.sects[j]?).map (fun x =>
    let body := (ps.filter (fun p => p.sect == j)).foldl patchBytes x.body
    if x.kind = 1 && !got.isEmpty then
      { x with body := body.take o.gotOff ++ got.flatMap (fun n => leBytes 8 ((o.symAddr place n).getD 0)) }
    else { x with body := body }))

/-! ### Placing (R475) -/

/-- The address of the level-0 entry of a virtual address, where its tables exist (R277). -/
def State.leafSlot (s : State) (pkg va : Nat) : Nat → Nat → Option Nat
  | l, table =>
    let sh := levelShift l
    let a := table + 8 * bitsOf va (sh + levelBits l - 1) sh
    match l with
    | 0 => some a
    | l' + 1 =>
      let e := s.natAt (physKey pkg a) 8
      if bitOf e 0 && bitsOf e 2 1 = 0 then s.leafSlot pkg va l' (addrOf e) else none

/-- Is a level-0 entry absent: V = 0 or class NONE (R278, R284)? -/
def absentEntry (e : Nat) : Bool := !bitOf e 0 || bitsOf e 5 3 == 0

/-- The pages of a section: index, virtual address, physical address. -/
def Sect.pages (x : Sect) (place : Places) : List (Nat × Nat) :=
  match placedAt place x.kind with
  | none => []
  | some (base, phys) => (upTo ((x.body.length + 65535) / 65536)).map (fun j => (base + 65536 * j, phys + 65536 * j))

/-- The leaf of a section's page (R475, R278): CONST with X for code, CONST for constants, OWNED with its slot for data. -/
def Sect.leaf (x : Sect) (slot phys : Nat) : Nat :=
  match x.kind with
  | 0 => 1 + 1 <<< 1 + 1 <<< 3 + 1 <<< 7 + phys
  | 1 => 1 + 1 <<< 1 + 1 <<< 3 + phys
  | _ => 1 + 1 <<< 1 + 2 <<< 3 + phys + (slot % 256) <<< 56

/-- The loader's other choices: the address space's root table and the owner slot of data pages (3), the owner table (4). -/
def placeRoot (place : Places) : Nat := ((placeOf place 3).map (fun p => p.1)).getD 0
def placeSlot (place : Places) : Nat := ((placeOf place 3).map (fun p => p.2)).getD 0
def placeTable (place : Places) : Nat := ((placeOf place 4).map (fun p => p.1)).getD 0

/-- The addresses of the entries that a walk of a virtual address reads (R277). -/
def State.walkEntries (s : State) (pkg va : Nat) : Nat → Nat → List Nat
  | l, table =>
    let sh := levelShift l
    let a := table + 8 * bitsOf va (sh + levelBits l - 1) sh
    match l with
    | 0 => [a]
    | l' + 1 =>
      let e := s.natAt (physKey pkg a) 8
      if bitOf e 0 && bitsOf e 2 1 = 0 then a :: s.walkEntries pkg va l' (addrOf e) else [a]

/-- What a load must leave as it is: the bytes of the object (R486), the page-table entries its pages need, the owner table. -/
def State.loadKeeps (s : State) (pkg : Nat) (place : Places) (addr len : Nat) (pages : List (Nat × Nat)) : List (Nat × Nat) :=
  [(addr % (1 <<< 52), len), (placeTable place, 2048)] ++
    pages.flatMap (fun p => (s.walkEntries pkg p.1 4 (placeRoot place)).map (fun a => (a, 8)))

/-- The leaf entries of a load's pages (R277). -/
def State.leafSlots (s : State) (pkg : Nat) (place : Places) (pages : List (Nat × Nat)) : List Nat :=
  pages.filterMap (fun p => s.leafSlot pkg p.1 4 (placeRoot place))

/-- Are a load's leaves absent entries (R284), each page's its own, and none of them in the bytes of the object, in the owner table or
among the entries that lead to a page (R475, R486)? -/
def State.leavesApart (s : State) (pkg : Nat) (place : Places) (addr len : Nat) (pages : List (Nat × Nat)) : Bool :=
  let slots := s.leafSlots pkg place pages
  let ways := pages.flatMap (fun p => (s.walkEntries pkg p.1 4 (placeRoot place)).dropLast)
  decide slots.Nodup && slots.all (fun a => absentEntry (s.natAt (physKey pkg a) 8) && !ways.contains a &&
    !rangesMeet a 8 (addr % (1 <<< 52)) len && !rangesMeet a 8 (placeTable place) 2048)

/-- Are a load's pages GLOBAL addresses, each at memory of its own that nothing else of the load needs (R475, R485, R486)? -/
def State.pagesApart (s : State) (pkg : Nat) (place : Places) (addr len : Nat) (l : List Sect) : Bool :=
  let pages := l.flatMap (fun x => x.pages place)
  pages.all (fun p => decide (p.1 + 65536 ≤ 1 <<< 57)) && decide (pages.map (fun p => p.1)).Nodup && decide (pages.map (fun p => p.2)).Nodup &&
    s.leavesApart pkg place addr len pages && (s.loadKeeps pkg place addr len pages).all (fun k => pages.all (fun p => !rangesMeet p.2 65536 k.1 k.2))

/-- May the loader place the sections so: memory for every page, its tables there, the owner slot that of the actor, the section's
alignment? -/
def State.placeable (s : State) (pkg : Nat) (place : Places) (addr len : Nat) (l : List Sect) : Bool :=
  s.pagesApart pkg place addr len l && l.all (fun x => x.loadBase place % (1 <<< x.align) == 0) && l.all (fun x => x.kind ≥ 3 || ((placedAt place x.kind).isSome &&
    (x.kind != 2 || x.body.isEmpty || s.ownsSlot pkg (placeTable place) x.owner (placeSlot place % 256)) &&
    (x.pages place).all (fun p => p.2 % 65536 == 0 && s.inMemory pkg p.2 65536 &&
      (s.leafSlot pkg p.1 4 (placeRoot place)).isSome)))

/-- Write bytes through SYSTEM, whole code words (R439, R475). -/
def State.writeSystem (s : State) (k : Nat) (bs : List Byte) : State := (s.heal k bs.length).poke k bs

/-- The bytes of page j of a section: its contents, and zeros behind them. -/
def Sect.pageBytes (x : Sect) (j : Nat) : List Byte :=
  let l := (x.body.drop (65536 * j)).take 65536
  l ++ List.replicate (65536 - l.length) 0

/-- Write a section's pages whole through SYSTEM (R475). -/
def State.writePages (s : State) (pkg : Nat) (place : Places) (x : Sect) : State :=
  match placedAt place x.kind with
  | none => s
  | some (_, phys) =>
    if x.kind ≥ 3 then s
    else (upTo (x.pages place).length).foldl (fun t j => t.writeSystem (physKey pkg (phys + 65536 * j)) (x.pageBytes j)) s

/-- Make a section's leaves present (R475). -/
def State.mapPages (s : State) (pkg : Nat) (place : Places) (x : Sect) : State :=
  if x.kind ≥ 3 then s
  else (x.pages place).foldl (fun t p => match t.leafSlot pkg p.1 4 (placeRoot place) with
    | some a => t.writeSystem (physKey pkg a) (leBytes 8 (x.leaf (placeSlot place) p.2))
    | none => t) s

/-- Write every page of the sections, then make their leaves present (R475, R485). -/
def State.placeSects (s : State) (pkg : Nat) (place : Places) (l : List Sect) : State :=
  l.foldl (fun t x => t.mapPages pkg place x) (l.foldl (fun t x => t.writePages pkg place x) s)

/-- Load a native object (R472 to R476, R485): all of it or nothing. -/
def State.loadNative (s : State) (pkg : Nat) (place : Places) (addr len : Nat) (o : Obj) : State :=
  let mapped := o.sects.filter (fun x => x.kind < 3)
  if !o.formed then s.reported pkg (plainReport 1)
  else if mapped.any (fun x => x.loadBase place % 65536 != 0) then s.reported pkg (plainReport 3)
  else if !s.placeable pkg place addr len mapped then s
  else match o.relocateAll place 0 o.rels with
    | .inr rep => s.reported pkg rep
    | .inl ps => (s.placeSects pkg place (o.patched place ps)).reported pkg (plainReport 0)

/-! ### A translated module (R478, R483) -/

/-- Where the loader puts the descriptor of a translated module: the GLOBAL address that PIPE is to hold (log 77). -/
def placePipe (place : Places) : Nat := ((placeOf place 5).map (fun p => p.1)).getD 0

/-- May a descriptor of n bytes stand at its place: in memory, apart from the pages and from what the load keeps? -/
def State.pipeApart (s : State) (pkg : Nat) (place : Places) (addr len n : Nat) (x : Sect) : Bool :=
  let pages := x.pages place
  let at_ := placePipe place
  s.inMemory pkg at_ n && pages.all (fun p => !rangesMeet p.2 65536 at_ n) &&
    (s.loadKeeps pkg place addr len pages).all (fun k => !rangesMeet k.1 k.2 at_ n)

/-- Load a Synonast module (R478, R483): it is translated; its code goes to executable pages, as `.text` does (R475), and its pipeline
descriptor (R216) to memory, from which a region's PIPE binds its actors to slips. A graph that the translator refuses leaves no image to
select. The package keeps what was placed. -/
def State.loadModule (s : State) (pkg : Nat) (place : Places) (addr len : Nat) (bs : List Byte) : State :=
  if !isModule bs then s.reported pkg (plainReport 1)
  else match translateModule bs with
    | none => s.reported pkg (plainReport 2)
    | some (l, chans) =>
      let actors := placeCode (((placedAt place 0).map (fun p => p.1)).getD 0) l
      let text : Sect := { kind := 0, align := 2, owner := 0, base := 0, body := textBytes actors }
      let pipe := descriptorBytes actors chans
      if text.loadBase place % 65536 ≠ 0 then s.reported pkg (plainReport 3)
      else if !s.placeable pkg place addr len [text] || !s.pipeApart pkg place addr len pipe.length text then s
      else (((s.placeSects pkg place [text]).writeSystem (globKey pkg (placePipe place)) pipe).modPkg pkg
        (fun p => { p with program := actors, graph := chans })).reported pkg (plainReport 0)

/-! ### The object -/

/-- OBJECT_LOAD (R473 to R478, R485, R486): the object of len bytes at an address of the package is loaded at the bases of the
loader's choice, all of it or nothing. -/
def execObjectLoad (pkg : Nat) (addr : Nat) (len : Nat) (place : Places) (s : State) : Out :=
  let bs := s.bytesAt (globKey pkg addr) len
  if !isObject bs || (bitOf (fieldAt bs 12 4) 0 && !fatZero bs) then .next (s.reported pkg (plainReport 1))
  else match selectImage Config.revision (imagesOf bs) with
    | none => .next (s.reported pkg (plainReport 2))
    | some x =>
      if x.syn then .next (s.loadModule pkg place addr len x.body)
      else if !isObject x.body || bitOf (fieldAt x.body 12 4) 0 || !reservedZero x.body then .next (s.reported pkg (plainReport 1))
      else .next (s.loadNative pkg place addr len (readObject x.body))

end Sys2Proof.Machine
end

