-- ==== Sys2Proof/Machine/Containers.lean ====
section
/-! DEFINITION. The saved-state container (spec/25 R465 to R467). The spec gives its header and its record headers; the TYPE
numbers, versions and body layouts of the records are free values (log 31). -/
namespace Sys2Proof.Config
open Sys2Proof.Machine

/-- The TYPE of the record kinds of R467: 0 slip state, 1 crane state, 2 quasi-random bank, 3 scratchpad bank image, 4 channel
state, 5 parked items. -/
opaque recordType : Nat → Nat
/-- This device's version of a TYPE, where it knows the TYPE. -/
opaque recordVer : Nat → Option Nat
/-- A body of an older version of a TYPE as this device's version has it: added fields at their defaults, removed ones dropped. -/
opaque recordUpgrade : (type ver : Nat) → List Byte → List Byte
/-- Can a revision represent a record's body? -/
opaque representable : (rev type : Nat) → List Byte → Bool
/-- The bodies of the six kinds. -/
opaque slipBody : SavedSlip → List Byte
opaque craneBody : Crane → List Byte
opaque qrBody : QrBank → List Byte
opaque bankBody : SavedBank → List Byte
opaque chanBody : SMap Chan → List Byte
opaque itemBody : List Item → List Byte
/-- What a body of this device's version says: a slip with its berth and number, its crane, its quasi-random bank, a bank with its actor,
the slip's channels, its parked items; nothing where it is no body of its kind. -/
opaque slipOf : List Byte → Option SavedSlip
opaque craneOf : List Byte → Option Crane
opaque qrOf : List Byte → Option QrBank
opaque bankOf : List Byte → Option SavedBank
opaque chanOf : List Byte → Option (SMap Chan)
opaque itemOf : List Byte → Option (List Item)

end Sys2Proof.Config

namespace Sys2Proof.Machine
open Sys2Proof

/-! ### Reading (R465, R466) -/

/-- Zero bytes that pad a body to 8. -/
def padding (n : Nat) : Nat := (8 - n % 8) % 8

/-- The records of a container's bytes after its header, n of them; none where they run past its end. -/
def readRecords : Nat → List Byte → Option (List CRec)
  | 0, _ => some []
  | n + 1, bs =>
    let len := fieldAt bs 4 4
    if bs.length < 8 + len then none
    else
      let r : CRec := { type := fieldAt bs 0 2, ver := fieldAt bs 2 1, must := bitOf (fieldAt bs 3 1) 0, body := (bs.drop 8).take len }
      (readRecords n (bs.drop (8 + len + padding len))).map (fun l => r :: l)

/-- What a reader does with one record (R466): loads it, skips it, or refuses the container. -/
def acceptRecord (r : CRec) : Option (Option CRec) :=
  match Config.recordVer r.type with
  | none => if r.must then none else some none
  | some v =>
    if r.ver > v then none
    else if r.ver = v then some (some r)
    else some (some { r with ver := v, body := Config.recordUpgrade r.type r.ver r.body })

/-- All records, or a refusal. -/
def acceptRecords : List CRec → Option (List CRec)
  | [] => some []
  | r :: rs => match acceptRecord r, acceptRecords rs with
    | some x, some l => some (x.toList ++ l)
    | _, _ => none

/-- The records that a reader loads from a container; none where it refuses it. -/
def readContainer (bs : List Byte) : Option (List CRec) :=
  if bs.length < 64 || fieldAt bs 0 4 ≠ 1 || sha256 (bs.drop 64) ≠ (bs.drop 32).take 32 then none
  else (readRecords (fieldAt bs 8 4) (bs.drop 64)).bind acceptRecords

/-! ### The context (R437, R467) -/

/-- The slips and banks of a moved context. -/
structure Context where
  slips : List SavedSlip := []
  banks : List SavedBank := []
  deriving DecidableEq, Repr

/-- The slip record that the last slip record began changes. -/
def Context.last (c : Context) (f : SavedSlip → SavedSlip) : Option Context :=
  match c.slips.reverse with
  | [] => none
  | v :: vs => some { c with slips := (f v :: vs).reverse }

/-- A context with one more record (R467): a slip state begins a slip; crane, quasi-random, channel and item records are that slip's. A
record of another TYPE holds no part of a context. -/
def Context.add (c : Context) (r : CRec) : Option Context :=
  if r.type = Config.recordType 0 then (Config.slipOf r.body).map (fun v => { c with slips := c.slips ++ [v] })
  else if r.type = Config.recordType 1 then (Config.craneOf r.body).bind (fun k => c.last (fun v => { v with crane := some k }))
  else if r.type = Config.recordType 2 then (Config.qrOf r.body).bind (fun x => c.last (fun v => { v with slip := { v.slip with qr := x } }))
  else if r.type = Config.recordType 3 then (Config.bankOf r.body).map (fun k => { c with banks := c.banks ++ [k] })
  else if r.type = Config.recordType 4 then (Config.chanOf r.body).bind (fun x => c.last (fun v => { v with slip := { v.slip with chans := x } }))
  else if r.type = Config.recordType 5 then (Config.itemOf r.body).bind (fun x => c.last (fun v => { v with slip := { v.slip with parked := x } }))
  else some c

/-- The context that records hold; none where one of them cannot be read. -/
def contextOf (l : List CRec) : Option Context :=
  l.foldl (fun (x : Option Context) r => x.bind (fun c => c.add r)) (some {})

/-- The member that a saved slip was. -/
def SavedSlip.member (v : SavedSlip) : Member :=
  { berth := v.berth, slip := v.index, actor := v.slip.actor, tag := v.slip.tag, banks := (v.slip.act.map Act.banks).getD 0 }

/-- The suspended region that a context is at a block of a package (R467): it has claimed nothing there yet. -/
def State.movedRegion (s : State) (pkg block : Nat) (c : Context) : Region :=
  let root := s.rootOf pkg block
  { block := block, root := root, fdom := s.effective pkg 1 block fFdom, queue := s.blk pkg root fQueue, live := c.slips.length,
    actors := c.slips.map SavedSlip.member, suspended := true, moved := true, slips := c.slips, banks := c.banks }

/-- CONTAINER_LOAD (R466, R467): the container of len bytes at an address of the package. Accepted, its context is the saved state of the
region at a FREE block, which resumes as a pre-empted one does once the block is READY and selected (R437); refused, it changes nothing. -/
def execContainerLoad (pkg : Nat) (addr : ContainerAt) (len : Nat) (s : State) : Out :=
  match (readContainer (s.bytesAt (globKey pkg addr.2) len)).bind contextOf with
  | none => .next s
  | some c =>
    if s.regionState pkg addr.1 ≠ 0 || (s.pkg pkg).regions.any (fun r => r.block == addr.1) then .next s
    else .next (s.modPkg pkg (fun p => { p with regions := p.regions ++ [s.movedRegion pkg addr.1 c] }))

/-! ### Writing (R465, R467) -/

/-- A record of a kind, with MUST = 1. -/
def contextRecord (kind : Nat) (body : List Byte) : CRec :=
  { type := Config.recordType kind, ver := (Config.recordVer (Config.recordType kind)).getD 0, must := true, body := body }

/-- The records of a suspended slip. -/
def SavedSlip.records (v : SavedSlip) : List CRec :=
  [contextRecord 0 (Config.slipBody v)] ++ (v.crane.toList.map (fun k => contextRecord 1 (Config.craneBody k))) ++
    [contextRecord 2 (Config.qrBody v.slip.qr), contextRecord 4 (Config.chanBody v.slip.chans),
     contextRecord 5 (Config.itemBody v.slip.parked)]

/-- The banks of a suspended region: those of the save area, and those that its actors left in place (R434). -/
def State.contextBanks (s : State) (pkg : Nat) (r : Region) : List SavedBank :=
  r.banks ++ r.slips.flatMap (fun v =>
    ((upTo 16).filter (bitOf ((s.berth v.berth).inPlace pkg r.block v.slip.actor))).map (s.saveBank v.berth v.slip.actor))

/-- The records of a suspended region. -/
def State.contextRecords (s : State) (pkg : Nat) (r : Region) : List CRec :=
  r.slips.flatMap SavedSlip.records ++ (s.contextBanks pkg r).map (fun k => contextRecord 3 (Config.bankBody k))

/-- A record's bytes (R465). -/
def CRec.bytes (r : CRec) : List Byte :=
  leBytes 2 r.type ++ leBytes 1 r.ver ++ leBytes 1 (b2n r.must) ++ leBytes 4 r.body.length ++ r.body ++
    List.replicate (padding r.body.length) 0

/-- A container's bytes. -/
def containerBytes (l : List CRec) : List Byte :=
  let body := l.flatMap CRec.bytes
  leBytes 4 1 ++ leBytes 4 Config.revision ++ leBytes 4 l.length ++ List.replicate 20 0 ++ sha256 body ++ body

/-- CONTAINER_WRITE (R467): the context of a suspended region is written for a target revision; where one of its fields
cannot be represented there, nothing is written and the context stays. -/
def execContainerWrite (pkg : Nat) (addr : ContainerAt) (rev : Nat) (s : State) : Out :=
  match (s.pkg pkg).regions.find? (fun r => r.block == addr.1 && r.suspended) with
  | none => .next s
  | some r =>
    let l := s.contextRecords pkg r
    if l.all (fun r => Config.representable rev r.type r.body) then .next (s.poke (globKey pkg addr.2) (containerBytes l)) else .next s

end Sys2Proof.Machine
end

