-- ==== Sys2Proof/Machine/BringUp.lean ====
section
/-! DEFINITION. Power to ready, ageing, power, and the management endpoint (spec/28 R487 to R494). -/
namespace Sys2Proof.Config
open Sys2Proof

/-- The identity certificate chain of a package's module; the spec does not give its bytes. -/
opaque certificate : Nat → List Byte
/-- The identity key of a package's module (R493): its modulus and its private exponent, which never leaves die 0. -/
opaque identityKey : Nat → Nat × Nat
/-- The message that SPDM 1.2 has signed: module, use, the request's and the response's bytes. -/
opaque spdmMessage : (pkg use : Nat) → List Byte → List Byte
/-- The answer to a request that the spec names by its standard only: module, use, request; and to a reading of a sensor that is none. -/
opaque mctpAnswer : (pkg use : Nat) → List Byte → List Byte
opaque noSensor : Nat → List Byte

end Sys2Proof.Config

namespace Sys2Proof.Machine
open Sys2Proof

/-! ### Bring-up (R487, R488) -/

/-- The package of a memory key; none of host memory. -/
def pkgOfKey (k : Nat) : Option Nat :=
  if k ≥ 1 <<< 64 then none else if k >>> 60 = 2 then some (bitsOf k 47 40) else some (bitsOf k 59 52)

def keyIn (pkg k : Nat) : Bool := pkgOfKey k == some pkg

/-- The berths and memory of a package as initialisation leaves them (R38, R298, R373, R487): every array zero with valid codes,
every KV header UNALLOC, every cell integer and SEALED, every register at its reset value, nothing under way. -/
def State.initialised (s : State) (pkg : Nat) : State :=
  { s with
    mem := s.mem.filter (fun c => !keyIn pkg c.1)
    poison := s.poison.filter (fun k => !keyIn pkg k)
    syncs := s.syncs.filter (fun e => !keyIn pkg e.1)
    grans := s.grans.filter (fun e => !keyIn pkg e.1)
    cells := s.cells.filter (fun e => !keyIn pkg e.1)
    heldArrivals := s.heldArrivals.filter (fun k => !keyIn pkg k)
    kv := s.kv.filter (fun e => !keyIn pkg e.1)
    berths := s.berths.filter (fun (e : Nat × Berth) => pkgOf e.1 != pkg)
    net := s.net.filter (fun p => pkgOf p.src != pkg && pkgOf p.dst != pkg)
    bankOps := s.bankOps.filter (fun o => pkgOf o.berth != pkg)
    copies := s.copies.filter (fun c => pkgOf c.berth != pkg)
    notices := s.notices.filter (fun n => n.pkg != pkg)
    doms := s.doms.filter (fun d => d.key.pkg != pkg)
    stops := s.stops.filter (fun x => pkgOf x.berth != pkg)
    rollbacks := s.rollbacks.filter (fun x => pkgOf x.berth != pkg)
    takeovers := s.takeovers.filter (fun x => pkgOf x.1 != pkg)
    arbiters := s.arbiters.filter (fun e => e.1 / 1024 != pkg)
    kvCmds := s.kvCmds.filter (fun c => pkgOf c.berth != pkg)
    kvRefused := s.kvRefused.filter (fun e => !keyIn pkg (e.1 <<< 27))
    triples := s.triples.filter (fun t => pkgOf t.berth != pkg)
    sleptBad := s.sleptBad.filter (fun k => !keyIn pkg k)
    tlb2 := s.tlb2.filter (fun e => e.1 / 48 != pkg) }

/-- POWER_GOOD (R487, R489, R492, R494): bring-up starts in the reset phase, with every register of the Harbourmaster at its
reset value; a staged firmware image takes effect. The fuses and the installed keys stay. -/
def execPowerGood (pkg : Nat) (s : State) : Out :=
  let p := s.pkg pkg
  .next ((s.initialised pkg).setPkg pkg
    { powered := true
      keys := p.keys
      fuses := p.fuses
      firmware := match p.staged with
        | some x => [x]
        | none => p.firmware
      routes := p.routes })

/-- Bring-up fails (R487, R488): phase 4, with its FAILCODE. -/
def Pkg.failedBringUp (p : Pkg) (code : Nat) : Pkg := { p with phase := 4, failcode := code }

/-- PHASE_COMPLETE (R487, R488, R491, R492): the phase in progress ends. fail is 0 for a phase that succeeds, else the FAILCODE 2
or 3 that it fails with. The reset phase fails by the check of the firmware, whose images are measured as each is accepted; the calibrating
phase ends only with a margin plan. -/
def execPhaseComplete (pkg : Nat) (fail : Nat) (s : State) : Out :=
  let p := s.pkg pkg
  if !p.powered then .next s
  else match p.phase with
    | 0 =>
      let q := (p.firmware.takeWhile (p.signed 0 0)).foldl Pkg.measured p
      if p.firmware.all (p.signed 0 0) then .next (s.setPkg pkg { q with phase := 1 }) else .next (s.setPkg pkg (q.failedBringUp 1))
    | 1 =>
      if fail ≠ 0 then .next (s.setPkg pkg (p.failedBringUp (if fail = 3 then 3 else 2)))
      else if p.ageplan = 0 then .next s
      else .next (s.setPkg pkg { p with phase := 2 })
    | 2 =>
      if fail ≠ 0 then .next (s.setPkg pkg (p.failedBringUp 3))
      else .next ((s.initialised pkg).setPkg pkg { p with phase := 3, ready := true, opclass := min 1 p.cap })
    | _ => .next s

/-- PHASE_TIMEOUT (R487, R488): a phase exceeds its limit. -/
def execPhaseTimeout (pkg : Nat) (s : State) : Out :=
  let p := s.pkg pkg
  if p.powered && p.phase < 3 then .next (s.setPkg pkg (p.failedBringUp 4)) else .next s

/-! ### Ageing and power (R489, R490) -/

/-- Margin of class c in a margin register (R490). -/
def marginOf (w : Word) (c : Nat) : Nat := bitsOf w.toNat (16 * c + 15) (16 * c)

/-- Where CAP has fallen below OPCLASS, OPCLASS is lowered to CAP (R490). -/
def Pkg.capped (p : Pkg) : Pkg := if p.cap < p.opclass then { p with opclass := p.cap, changing := true } else p

/-- AGECAP after a reading (R489): below every class whose margin is exhausted; it never rises. -/
def agecapOf (old : Nat) (w : Word) : Nat :=
  let c2 := if marginOf w 2 = 0 then min old 1 else old
  if marginOf w 1 = 0 then min c2 0 else c2

/-- MONITOR_READING (R489, R490): a reading of the path-delay monitors gives the margins that remain; the one at calibration makes
the plan, and one that leaves class 0 no margin ends bring-up in phase 4 (log 119). A reading during a class change is discarded. -/
def execMonitorReading (pkg : Nat) (plan : Nat) (margin : Nat) (s : State) : Out :=
  let p := s.pkg pkg
  if !p.powered || p.changing then .next s
  else if p.phase = 1 then
    let w := natWord (plan % (1 <<< 48))
    let p1 : Pkg := ({ p with ageplan := w, agemargin := w, agecap := agecapOf p.agecap w } : Pkg).capped
    if marginOf w 0 = 0 then .next ((s.setPkg pkg (p1.failedBringUp 5)).stopModule pkg) else .next (s.setPkg pkg p1)
  else if p.phase ≠ 3 then .next s
  else
    let w := natWord (margin % (1 <<< 48))
    let p1 : Pkg := { p with agemargin := w, agecap := agecapOf p.agecap w }
    if marginOf w 0 = 0 then .next ((s.setPkg pkg { p1.capped with failcode := 5 }).stopModule pkg)
    else .next (s.setPkg pkg p1.capped)

/-- PWRCAP_LOWER (R490): power above 3,200 W over 10 ms. -/
def execPwrcapLower (pkg : Nat) (s : State) : Out :=
  let p := s.pkg pkg
  .next (s.setPkg pkg ({ p with pwrcap := p.pwrcap - 1 } : Pkg).capped)

/-- PWRCAP_RAISE (R490): power below 3,000 W for 1 s. -/
def execPwrcapRaise (pkg : Nat) (s : State) : Out :=
  let p := s.pkg pkg
  .next (s.setPkg pkg { p with pwrcap := min 2 (p.pwrcap + 1) })

/-! ### Identity and management (R493, R494) -/

/-- The endpoint's response to a request. -/
def State.respond (s : State) (pkg : Nat) (bs : List Byte) : State := s.modPkg pkg (fun p => { p with response := bs })

/-- GET_CERTIFICATE (R493): the identity certificate chain. -/
def execGetCertificate (pkg : Nat) (s : State) : Out := .next (s.respond pkg (Config.certificate pkg))

/-- A signature by the identity key under the scheme of R491 (R493), its salt a free value. -/
def State.identitySign (s : State) (pkg use : Nat) (bs : List Byte) : List Byte :=
  pssSign (Config.identityKey pkg).1 (Config.identityKey pkg).2 (Config.spdmMessage pkg use bs) ((Config.freeWide s.fresh).toNat |> leBytes 32)

/-- CHALLENGE (R493): a signature by the identity key over the nonce. -/
def execChallenge (pkg : Nat) (nonce : Nat) (s : State) : Out :=
  .next (s.freshened.respond pkg (s.identitySign pkg 0 (leBytes 32 nonce)))

/-- A measurement block (R493; log 120): its index, the measurement specification 1, the size, the value's type and size, the value. -/
def measBlock (n : Nat) (d : List Byte) : List Byte := leBytes 1 n ++ [1] ++ leBytes 2 (3 + d.length) ++ [1] ++ leBytes 2 d.length ++ d

/-- GET_MEASUREMENTS (R493): MEAS and each image digest as measurement blocks, signed by the identity key. -/
def execGetMeasurements (pkg : Nat) (s : State) : Out :=
  let l := (s.pkg pkg).meas :: (s.pkg pkg).digests
  let bs := ((upTo l.length).zip l).flatMap (fun t => measBlock (t.1 + 1) t.2)
  .next (s.freshened.respond pkg (bs ++ s.identitySign pkg 1 bs))

/-- A management request that has no event of its own (R493, R494: SPDM 1.2, PLDM type 0): its answer is a free value, and it changes no
class, queue or region (log 120). -/
def State.request (s : State) (pkg : Nat) (bs : List Byte) : State := s.freshened.respond pkg (Config.mctpAnswer pkg s.fresh bs)

/-- Signed firmware installs an owner pilot key (R491): index 1 to 15, once the firmware has passed its check. -/
def State.installKey (s : State) (pkg key m : Nat) : State :=
  let p := s.pkg pkg
  if p.powered && decide (1 ≤ p.phase) && decide (p.phase ≤ 3) && decide (1 ≤ key) && decide (key ≤ 15) then
    s.setPkg pkg { p with keys := SMap.put p.keys key m }
  else s

/-- The sensors of R494 in its order: the temperatures of the eight dies and the module power, which are free values; then PHASE,
FAILCODE, OPCLASS, CAP, and the margins of classes 0 to 2. The spec numbers none. -/
def State.sensor (s : State) (pkg n : Nat) : Nat :=
  let p := s.pkg pkg
  match n with
  | 9 => p.phase
  | 10 => p.failcode
  | 11 => p.opclass
  | 12 => p.cap
  | 13 => marginOf p.agemargin 0
  | 14 => marginOf p.agemargin 1
  | 15 => marginOf p.agemargin 2
  | _ => (Config.freeWord s.fresh).toNat

/-- PLDM_SENSOR_READ (R494): a reading of 8 bytes of one of the sixteen sensors; it changes no class, queue or region. -/
def execPldmSensorRead (pkg : Nat) (sensor : Nat) (s : State) : Out :=
  .next (s.freshened.respond pkg (if sensor < 16 then leBytes 8 (s.sensor pkg sensor) else Config.noSensor s.fresh))

/-- PLDM_FIRMWARE_UPDATE (R491, R494): an image that passes its check is staged for the next power-good; one that fails it gives
FAILCODE 1. -/
def execPldmFirmwareUpdate (pkg : Nat) (image : Bytes) (s : State) : Out :=
  let p := s.pkg pkg
  if p.signed 0 0 image then .next (s.setPkg pkg { p with staged := some image }) else .next (s.setPkg pkg { p with failcode := 1 })

end Sys2Proof.Machine
end

