-- ==== Sys2Proof/Machine/Convert.lean ====
section
/-! DEFINITION. Conversions and block packing (spec/05 R140 to R143, spec/03 R72 to R77). -/
namespace Sys2Proof.Machine
open Sys2Proof

/-- Halfword (i mod 32) of wB, the random bits of element i under stochastic rounding (R78). -/
def randomBits (v : Wide) (i : Nat) : Nat := elemOf v 16 (i % 32)

/-- VCVT (R141): n lanes of sw bits, each converted by f under rm, sat and its random bits, to lanes of dw bits; bytes
beyond are zero. r is the RM field and b the B field (R57). Under RM code 4, which has no SAT bit, sat is 0 (log 122). -/
def convert (word d a x b r n sw dw : Nat) (f : Rm → Bool → Nat → Nat → Nat × Ev) (s : State) : Out :=
  instr word {} (.src .w a x :: .dst .w d :: (if r = 4 then [.src .w b 0] else []))
    (fun c s =>
      let v := s.readW c a x
      let rnd := if r = 4 then s.readW c b 0 else 0
      let sat := r != 4 && bitOf b 0
      let rs := (upTo n).map (fun i => f (rmOf r) sat (randomBits rnd i) (elemOf v sw i))
      .ok ((s.writeW c d (wideOf dw (rs.map (fun r => r.1)))).count c (Ev.sum (rs.map (fun r => r.2))))) s

/-- A float lane to another float format. -/
def fltToFlt (f g : Fmt) (rm : Rm) (sat : Bool) (rb v : Nat) : Nat × Ev := roundTo g rm sat rb (exact f v)

/-- A float lane to an integer of k bits. -/
def fltToInt (f : Fmt) (k : Nat) (rm : Rm) (sat : Bool) (rb v : Nat) : Nat × Ev :=
  let r := roundToInt k rm sat rb (exact f v)
  (wrap k r.1, r.2)

/-- An integer lane of k bits to FP32; sat has no effect. -/
def intToFlt (k : Nat) (rm : Rm) (_ : Bool) (rb v : Nat) : Nat × Ev := roundTo .fp32 rm false rb (Val.ofInt (sext v k))

/-! ### Packed block images (R142) -/

/-- The element format of an MX code (R57), where it is a float format. -/
def mxFmt (t : Nat) : Option Fmt :=
  match t with
  | 0 => some .e4m3
  | 1 => some .e5m2
  | 2 => some .e3m2
  | 3 => some .e2m3
  | 4 => some .e2m1
  | 6 => some .e2m1
  | _ => none

/-- The element width and emax of an MX code (R72). -/
def mxWidth (t : Nat) : Nat := match mxFmt t with
  | some f => f.width
  | none => 8
def mxEmax (t : Nat) : Nat := match mxFmt t with
  | some f => f.emax
  | none => 0

/-- One element rounded to an MX code's format, the value already divided by its scale. -/
def mxRound (t : Nat) (sat : Bool) (v : Val) : Nat × Ev :=
  match mxFmt t with
  | some f => roundTo f .ne sat 0 v
  | none => roundMxInt8 v

/-- The exact value of an element of an MX code. -/
def mxExact (t v : Nat) : Val :=
  match mxFmt t with
  | some f => exact f v
  | none => exactMxInt8 v

/-- a / b for a positive finite b, kept exact or sticky. -/
def valDiv (a b : Val) : Val := (vdiv a b).1

/-- The packed image of 32 BF16 lanes (R142), and its events. -/
def packMx (t : Nat) (sat : Bool) (v : Wide) : Nat × Ev :=
  let lane (i : Nat) := exact .bf16 (elemOf v 16 i)
  let lanes := (upTo 32).map lane
  if t = 6 then
    let mj := (upTo 4).map (fun j => kf4Micro ((upTo 8).map (fun i => lane (8 * j + i))))
    let rs := (upTo 32).map (fun i =>
      let m := mj.getD (i / 8) 0
      if m = 0 || m = 255 then (0, Ev.zero) else roundTo .e2m1 .ne false 0 (valDiv (lane i) (exactE3M5 m)))
    (packElems 4 (rs.map (fun r => r.1)) + (packElems 8 mj) <<< 128, Ev.sum (rs.map (fun r => r.2)))
  else
    let x := mxScale (mxEmax t) lanes
    let w := mxWidth t
    if x = 255 then (255 <<< (32 * w), Ev.oneNScale)
    else
      let rs := (upTo 32).map (fun i => mxRound t sat ((lane i).scale (127 - Int.ofNat x)))
      (packElems w (rs.map (fun r => r.1)) + x <<< (32 * w), Ev.sum (rs.map (fun r => r.2)))

/-- Lane i of the unpacked image (R143). -/
def unpackMx (t : Nat) (v : Nat) (i : Nat) : Nat × Ev :=
  let w := mxWidth t
  let e := mxExact t ((v >>> (w * i)) % (1 <<< w))
  let scale := if t = 6 then exactE3M5 (v >>> (128 + 8 * (i / 8))) else exactE8 (v >>> (32 * w))
  roundNE .bf16 (vmul e scale)

/-! ### The instructions -/

/-- VCVT_BF_S (R141): 16 lanes. -/
def execVcvtBfS (d : BitVec 5) (a : BitVec 5) (x : BitVec 3) (b : BitVec 5) (r : BitVec 3) (s : State) : Out :=
  convert (Enc.vcvtBfS d a x b r) d.toNat a.toNat x.toNat b.toNat r.toNat 16 32 16 (fltToFlt .fp32 .bf16) s

/-- VCVT_HF_S (R141): 16 lanes. -/
def execVcvtHfS (d : BitVec 5) (a : BitVec 5) (x : BitVec 3) (b : BitVec 5) (r : BitVec 3) (s : State) : Out :=
  convert (Enc.vcvtHfS d a x b r) d.toNat a.toNat x.toNat b.toNat r.toNat 16 32 16 (fltToFlt .fp32 .fp16) s

/-- VCVT_I32_S (R141): 16 lanes. -/
def execVcvtI32S (d : BitVec 5) (a : BitVec 5) (x : BitVec 3) (b : BitVec 5) (r : BitVec 3) (s : State) : Out :=
  convert (Enc.vcvtI32S d a x b r) d.toNat a.toNat x.toNat b.toNat r.toNat 16 32 32 (fltToInt .fp32 32) s

/-- VCVT_S_I32 (R141): 16 lanes. -/
def execVcvtSI32 (d : BitVec 5) (a : BitVec 5) (x : BitVec 3) (b : BitVec 5) (r : BitVec 3) (s : State) : Out :=
  convert (Enc.vcvtSI32 d a x b r) d.toNat a.toNat x.toNat b.toNat r.toNat 16 32 32 (intToFlt 32) s

/-- VCVT_I8_S (R141): 16 lanes. -/
def execVcvtI8S (d : BitVec 5) (a : BitVec 5) (x : BitVec 3) (b : BitVec 5) (r : BitVec 3) (s : State) : Out :=
  convert (Enc.vcvtI8S d a x b r) d.toNat a.toNat x.toNat b.toNat r.toNat 16 32 8 (fltToInt .fp32 8) s

/-- VCVT_HF_BF (R141): 32 lanes. -/
def execVcvtHfBf (d : BitVec 5) (a : BitVec 5) (x : BitVec 3) (b : BitVec 5) (r : BitVec 3) (s : State) : Out :=
  convert (Enc.vcvtHfBf d a x b r) d.toNat a.toNat x.toNat b.toNat r.toNat 32 16 16 (fltToFlt .bf16 .fp16) s

/-- VCVT_BF_HF (R141): 32 lanes. -/
def execVcvtBfHf (d : BitVec 5) (a : BitVec 5) (x : BitVec 3) (b : BitVec 5) (r : BitVec 3) (s : State) : Out :=
  convert (Enc.vcvtBfHf d a x b r) d.toNat a.toNat x.toNat b.toNat r.toNat 32 16 16 (fltToFlt .fp16 .bf16) s

/-- VCVT_S_BF (R141): 16 lanes, exact. -/
def execVcvtSBf (d : BitVec 5) (a : BitVec 5) (x : BitVec 3) (s : State) : Out :=
  convert (Enc.vcvtSBf d a x) d.toNat a.toNat x.toNat 0 0 16 16 32 (fltToFlt .bf16 .fp32) s

/-- VCVT_S_HF (R141): 16 lanes, exact. -/
def execVcvtSHf (d : BitVec 5) (a : BitVec 5) (x : BitVec 3) (s : State) : Out :=
  convert (Enc.vcvtSHf d a x) d.toNat a.toNat x.toNat 0 0 16 16 32 (fltToFlt .fp16 .fp32) s

/-- VCVT_S_I8 (R141): 16 lanes, exact. -/
def execVcvtSI8 (d : BitVec 5) (a : BitVec 5) (x : BitVec 3) (s : State) : Out :=
  convert (Enc.vcvtSI8 d a x) d.toNat a.toNat x.toNat 0 0 16 8 32 (intToFlt 8) s

/-- VPACKMX (R142): wD := the packed image of the 32 BF16 lanes of wA. -/
def execVpackmx (d : BitVec 5) (a : BitVec 5) (x : BitVec 3) (h : BitVec 1) (t : BitVec 3) (s : State) : Out :=
  instr (Enc.vpackmx d a x h t) {} [.src .w a.toNat x.toNat, .dst .w d.toNat]
    (fun c s =>
      let r := packMx t.toNat (h == 1) (s.readW c a.toNat x.toNat)
      .ok ((s.writeW c d.toNat (BitVec.ofNat 512 r.1)).count c r.2)) s

/-- VUNPKMX (R143): wD := the BF16 lanes of the packed image in wA. -/
def execVunpkmx (d : BitVec 5) (a : BitVec 5) (x : BitVec 3) (t : BitVec 3) (s : State) : Out :=
  instr (Enc.vunpkmx d a x t) {} [.src .w a.toNat x.toNat, .dst .w d.toNat]
    (fun c s =>
      let v := (s.readW c a.toNat x.toNat).toNat
      let rs := (upTo 32).map (unpackMx t.toNat v)
      .ok ((s.writeW c d.toNat (wideOf 16 (rs.map (fun r => r.1)))).count c (Ev.sum (rs.map (fun r => r.2))))) s

end Sys2Proof.Machine
end

