-- ==== Sys2Proof/Machine/QuasiRandom.lean ====
section
/-! DEFINITION. The quasi-random unit (spec/22 R403 to R415). -/
namespace Sys2Proof.Machine
open Sys2Proof

/-- mix of R406. -/
def qrMix (x0 : W32) : W32 :=
  let x1 := (x0 ^^^ (x0 >>> 16)) * 0x6C8E9CF5#32
  let x2 := (x1 ^^^ (x1 >>> 15)) * 0xA3B195A5#32
  x2 ^^^ (x2 >>> 16)

/-- H of R406. -/
def qrHash (seed p : W32) (b : Nat) : W32 :=
  qrMix (seed ^^^ (p * 0x2C1B3C6D#32) ^^^ (BitVec.ofNat 32 b * 0x297A2D39#32))

/-- The plain point: the direction numbers of the one bits of the index. -/
def QrBank.plain (q : QrBank) (d i : Nat) : W32 :=
  (upTo 32).foldl (fun x b => if bitOf i b then x ^^^ SMap.get 0 q.v (32 * d + b) else x) 0#32

/-- The scrambled bits of a plain point under a seed. -/
def qrScramble (seed x : W32) : W32 :=
  BitVec.ofNat 32 (ofBits ((upTo 32).map (fun b =>
    let p : W32 := if b = 31 then 0 else x >>> (b + 1)
    Bool.xor (bitOf x.toNat b) (bitOf (qrHash seed p b).toNat 0))))

/-- Point(d, i) of R406. -/
def QrBank.point (q : QrBank) (d i : Nat) : W32 :=
  let x := q.plain d i
  if bitOf q.ctl.toNat 0 then x else qrScramble (SMap.get 0 q.s d) x

/-- PointF(d, i) of R406: the FP32 code. -/
def QrBank.pointF (q : QrBank) (d i : Nat) : Nat := (roundNE .fp32 (.fin false ((q.point d i).toNat >>> 8) (-24) false)).1

/-- The bank of whoever executes. -/
def State.qrBank (s : State) (c : Ctx) : QrBank := (s.slip c.b c.i).qr

/-- The index and the dimension that two words name (R409). -/
def qrIndex (v : Word) : Nat := bitsOf v.toNat 31 0
def qrDim (v : Word) : Nat := bitsOf v.toNat 5 0

/-- The first of n steps from an address at which a test answers. -/
def firstAt {β : Type} (step : Nat) (f : Nat → Option β) : Nat → Nat → Option β
  | 0, _ => none
  | n + 1, a => match f a with
    | some r => some r
    | none => firstAt step f n (a + step)

/-- The checks of QRLD before it reads (R411 steps 1 to 6), and those of the read (step 7). -/
def State.qrldFault (s : State) (c : Ctx) (word : Nat) (ga gb : Word) : Option (Nat × Word) :=
  let n := bitsOf gb.toNat 13 8 + 1
  let off := bitsOf ga.toNat 18 0
  let bytes := 128 * n
  if gb.toNat &&& 0xFFFFFFFFFFFFC0C0 ≠ 0 then some (2, natWord word)
  else if bitsOf ga.toNat 63 60 ≠ 1 || bitsOf ga.toNat 59 19 ≠ 0 || decide (off + bytes > 0x80000) then some (9, ga)
  else if ga.toNat % 64 ≠ 0 then some (8, ga)
  else match firstAt 64 (fun o => if s.holdsBank c o then none else some (localAddr o)) (bytes / 64) off with
    | some a => some (12, a)
    | none => match firstAt 16 (fun o => if (SMap.get? s.syncs (scratchKey c.b o)).isSome then some (localAddr o) else none) (bytes / 16) off with
      | some a => some (21, a)
      | none => (s.ringFault c off bytes).map (fun t => (16, t))

/-- Load N dimensions from F on out of the bytes at a key (R411). -/
def QrBank.load (q : QrBank) (f : Nat) (words : Nat → Nat) : Nat → QrBank
  | 0 => q
  | n + 1 =>
    let j := n
    let q1 := q.load f words n
    { q1 with v := (upTo 32).foldl (fun m b => SMap.put m (32 * ((f + j) % 64) + b) (BitVec.ofNat 32 (words (32 * j + b)))) q1.v }

/-- A generating instruction: k writes the result from the bank, index and dimension (R413). -/
def qrGen (word a x b y : Nat) (dst : Use) (k : Ctx → QrBank → Nat → Nat → State → State) (s : State) : Out :=
  instr word { hnd := false } [.src .g a x, .src .g b y, dst]
    (fun c s => .ok (k c (s.qrBank c) (qrDim (s.readG c b y)) (qrIndex (s.readG c a x)) s)) s

/-! ### The instructions -/

/-- QRLD (R411): V of the named dimensions := the table. -/
def execQrld (a : BitVec 5) (x : BitVec 3) (b : BitVec 5) (y : BitVec 3) (s : State) : Out :=
  let word := (Enc.qrld a x b y)
  instr word { hnd := false } [.src .g a.toNat x.toNat, .src .g b.toNat y.toNat]
    (fun c s =>
      let ga := s.readG c a.toNat x.toNat
      let gb := s.readG c b.toNat y.toNat
      match s.qrldFault c word ga gb with
      | some (cause, tv) => .trap s cause tv
      | none =>
        let n := bitsOf gb.toNat 13 8 + 1
        let off := bitsOf ga.toNat 18 0
        let key := scratchKey c.b off
        match firstAt 8 (fun o => if s.poisoned (key + o) 8 then some o else none) (16 * n) 0 with
        | some o => s.poisonRes c (key + o) 8 (ga + natWord o)
        | none =>
          .ok ((s.touchAll c off (128 * n)).modSlip c.b c.i (fun p =>
            { p with qr := p.qr.load (bitsOf gb.toNat 5 0) (fun j => s.natAt (key + 4 * j) 4) n }))) s

/-- QRSEED (R412): S[gB[5:0]] := gA[31:0]. -/
def execQrseed (a : BitVec 5) (x : BitVec 3) (b : BitVec 5) (y : BitVec 3) (s : State) : Out :=
  instr (Enc.qrseed a x b y) { hnd := false } [.src .g a.toNat x.toNat, .src .g b.toNat y.toNat]
    (fun c s =>
      let d := qrDim (s.readG c b.toNat y.toNat)
      let v : W32 := BitVec.ofNat 32 (s.readG c a.toNat x.toNat).toNat
      .ok (s.modSlip c.b c.i (fun p => { p with qr := { p.qr with s := SMap.put p.qr.s d v } }))) s

/-- QRI (R413): gD := Point(d, i). -/
def execQri (d : BitVec 5) (a : BitVec 5) (x : BitVec 3) (b : BitVec 5) (y : BitVec 3) (s : State) : Out :=
  qrGen (Enc.qri d a x b y) a.toNat x.toNat b.toNat y.toNat (.dst .g d.toNat)
    (fun c q dim i s => s.writeG c d.toNat ((q.point dim i).setWidth 64)) s

/-- QRF (R413): fD := PointF(d, i). -/
def execQrf (d : BitVec 5) (a : BitVec 5) (x : BitVec 3) (b : BitVec 5) (y : BitVec 3) (s : State) : Out :=
  qrGen (Enc.qrf d a x b y) a.toNat x.toNat b.toNat y.toNat (.dst .f d.toNat)
    (fun c q dim i s => s.writeF c d.toNat (BitVec.ofNat 32 (q.pointF dim i))) s

/-- QRV_I (R413): lane l := PointF(d, i + l). -/
def execQrvI (d : BitVec 5) (a : BitVec 5) (x : BitVec 3) (b : BitVec 5) (y : BitVec 3) (s : State) : Out :=
  qrGen (Enc.qrvI d a x b y) a.toNat x.toNat b.toNat y.toNat (.dst .w d.toNat)
    (fun c q dim i s => s.writeW c d.toNat (wideOf 32 ((upTo 16).map (fun l => q.pointF dim ((i + l) % (1 <<< 32)))))) s

/-- QRV_D (R413): lane l := PointF(d + l, i). -/
def execQrvD (d : BitVec 5) (a : BitVec 5) (x : BitVec 3) (b : BitVec 5) (y : BitVec 3) (s : State) : Out :=
  qrGen (Enc.qrvD d a x b y) a.toNat x.toNat b.toNat y.toNat (.dst .w d.toNat)
    (fun c q dim i s => s.writeW c d.toNat (wideOf 32 ((upTo 16).map (fun l => q.pointF ((dim + l) % 64) i)))) s

end Sys2Proof.Machine
end

