-- ==== Sys2Proof/Machine/Dispatch.lean ====
section
/-! DEFINITION. One arm for each instruction and event: a direct call of its meaning. -/
namespace Sys2Proof.Machine
open Sys2Proof

def exec (i : Instr) (s : State) : Host.Outcome State Fault Refusal :=
  match i with
  | .add d a x b y => Sys2Proof.Machine.execAdd d a x b y s
  | .sub d a x b y => Sys2Proof.Machine.execSub d a x b y s
  | .and d a x b y => Sys2Proof.Machine.execAnd d a x b y s
  | .or d a x b y => Sys2Proof.Machine.execOr d a x b y s
  | .xor d a x b y => Sys2Proof.Machine.execXor d a x b y s
  | .andn d a x b y => Sys2Proof.Machine.execAndn d a x b y s
  | .orn d a x b y => Sys2Proof.Machine.execOrn d a x b y s
  | .xnor d a x b y => Sys2Proof.Machine.execXnor d a x b y s
  | .sll d a x b y => Sys2Proof.Machine.execSll d a x b y s
  | .srl d a x b y => Sys2Proof.Machine.execSrl d a x b y s
  | .sra d a x b y => Sys2Proof.Machine.execSra d a x b y s
  | .rol d a x b y => Sys2Proof.Machine.execRol d a x b y s
  | .ror d a x b y => Sys2Proof.Machine.execRor d a x b y s
  | .min d a x b y => Sys2Proof.Machine.execMin d a x b y s
  | .max d a x b y => Sys2Proof.Machine.execMax d a x b y s
  | .minu d a x b y => Sys2Proof.Machine.execMinu d a x b y s
  | .maxu d a x b y => Sys2Proof.Machine.execMaxu d a x b y s
  | .adds d a x b y => Sys2Proof.Machine.execAdds d a x b y s
  | .subs d a x b y => Sys2Proof.Machine.execSubs d a x b y s
  | .clz d a x => Sys2Proof.Machine.execClz d a x s
  | .ctz d a x => Sys2Proof.Machine.execCtz d a x s
  | .popc d a x => Sys2Proof.Machine.execPopc d a x s
  | .brev d a x => Sys2Proof.Machine.execBrev d a x s
  | .sxb d a x => Sys2Proof.Machine.execSxb d a x s
  | .sxh d a x => Sys2Proof.Machine.execSxh d a x s
  | .sxw d a x => Sys2Proof.Machine.execSxw d a x s
  | .zxb d a x => Sys2Proof.Machine.execZxb d a x s
  | .zxh d a x => Sys2Proof.Machine.execZxh d a x s
  | .zxw d a x => Sys2Proof.Machine.execZxw d a x s
  | .mul d a x b y => Sys2Proof.Machine.execMul d a x b y s
  | .mulh d a x b y => Sys2Proof.Machine.execMulh d a x b y s
  | .mulhu d a x b y => Sys2Proof.Machine.execMulhu d a x b y s
  | .div d a x b y => Sys2Proof.Machine.execDiv d a x b y s
  | .divu d a x b y => Sys2Proof.Machine.execDivu d a x b y s
  | .rem d a x b y => Sys2Proof.Machine.execRem d a x b y s
  | .remu d a x b y => Sys2Proof.Machine.execRemu d a x b y s
  | .addi d a x imm => Sys2Proof.Machine.execAddi d a x imm s
  | .andi d a x imm => Sys2Proof.Machine.execAndi d a x imm s
  | .ori d a x imm => Sys2Proof.Machine.execOri d a x imm s
  | .xori d a x imm => Sys2Proof.Machine.execXori d a x imm s
  | .slli d a x r => Sys2Proof.Machine.execSlli d a x r s
  | .srli d a x r => Sys2Proof.Machine.execSrli d a x r s
  | .srai d a x r => Sys2Proof.Machine.execSrai d a x r s
  | .rori d a x r => Sys2Proof.Machine.execRori d a x r s
  | .upim d imm => Sys2Proof.Machine.execUpim d imm s
  | .pcadd d imm => Sys2Proof.Machine.execPcadd d imm s
  | .ceq q a x b y => Sys2Proof.Machine.execCeq q a x b y s
  | .cne q a x b y => Sys2Proof.Machine.execCne q a x b y s
  | .clt q a x b y => Sys2Proof.Machine.execClt q a x b y s
  | .cltu q a x b y => Sys2Proof.Machine.execCltu q a x b y s
  | .cge q a x b y => Sys2Proof.Machine.execCge q a x b y s
  | .cgeu q a x b y => Sys2Proof.Machine.execCgeu q a x b y s
  | .qand q a x b y => Sys2Proof.Machine.execQand q a x b y s
  | .qor q a x b y => Sys2Proof.Machine.execQor q a x b y s
  | .qxor q a x b y => Sys2Proof.Machine.execQxor q a x b y s
  | .qnot q a x => Sys2Proof.Machine.execQnot q a x s
  | .ceqi q a x imm => Sys2Proof.Machine.execCeqi q a x imm s
  | .cnei q a x imm => Sys2Proof.Machine.execCnei q a x imm s
  | .clti q a x imm => Sys2Proof.Machine.execClti q a x imm s
  | .cltui q a x imm => Sys2Proof.Machine.execCltui q a x imm s
  | .cgei q a x imm => Sys2Proof.Machine.execCgei q a x imm s
  | .cgeui q a x imm => Sys2Proof.Machine.execCgeui q a x imm s
  | .br q r n o => Sys2Proof.Machine.execBr q r n o s
  | .j o => Sys2Proof.Machine.execJ o s
  | .jl o => Sys2Proof.Machine.execJl o s
  | .jr a x imm => Sys2Proof.Machine.execJr a x imm s
  | .jlr a x imm => Sys2Proof.Machine.execJlr a x imm s
  | .lset w m a b => Sys2Proof.Machine.execLset w m a b s
  | .loop c o => Sys2Proof.Machine.execLoop c o s
  | .loops r o => Sys2Proof.Machine.execLoops r o s
  | .leave n => Sys2Proof.Machine.execLeave n s
  | .leaveq q r n => Sys2Proof.Machine.execLeaveq q r n s
  | .lb d a x imm => Sys2Proof.Machine.execLb d a x imm s
  | .lbu d a x imm => Sys2Proof.Machine.execLbu d a x imm s
  | .lh d a x imm => Sys2Proof.Machine.execLh d a x imm s
  | .lhu d a x imm => Sys2Proof.Machine.execLhu d a x imm s
  | .lw d a x imm => Sys2Proof.Machine.execLw d a x imm s
  | .lwu d a x imm => Sys2Proof.Machine.execLwu d a x imm s
  | .ld d a x imm => Sys2Proof.Machine.execLd d a x imm s
  | .sb r a x imm => Sys2Proof.Machine.execSb r a x imm s
  | .sh r a x imm => Sys2Proof.Machine.execSh r a x imm s
  | .sw r a x imm => Sys2Proof.Machine.execSw r a x imm s
  | .sd r a x imm => Sys2Proof.Machine.execSd r a x imm s
  | .lxB d a x b y => Sys2Proof.Machine.execLxB d a x b y s
  | .lxBu d a x b y => Sys2Proof.Machine.execLxBu d a x b y s
  | .lxH d a x b y => Sys2Proof.Machine.execLxH d a x b y s
  | .lxHu d a x b y => Sys2Proof.Machine.execLxHu d a x b y s
  | .lxW d a x b y => Sys2Proof.Machine.execLxW d a x b y s
  | .lxWu d a x b y => Sys2Proof.Machine.execLxWu d a x b y s
  | .lxD d a x b y => Sys2Proof.Machine.execLxD d a x b y s
  | .sxB r a x b y => Sys2Proof.Machine.execSxB r a x b y s
  | .sxH r a x b y => Sys2Proof.Machine.execSxH r a x b y s
  | .sxW r a x b y => Sys2Proof.Machine.execSxW r a x b y s
  | .sxD r a x b y => Sys2Proof.Machine.execSxD r a x b y s
  | .flw d a x imm => Sys2Proof.Machine.execFlw d a x imm s
  | .fsw r a x imm => Sys2Proof.Machine.execFsw r a x imm s
  | .vl d a x imm => Sys2Proof.Machine.execVl d a x imm s
  | .vs r a x imm => Sys2Proof.Machine.execVs r a x imm s
  | .vls d a x b m e => Sys2Proof.Machine.execVls d a x b m e s
  | .vss r a x b m e => Sys2Proof.Machine.execVss r a x b m e s
  | .vlg d a x b m e => Sys2Proof.Machine.execVlg d a x b m e s
  | .vsg r a x b m e => Sys2Proof.Machine.execVsg r a x b m e s
  | .fadd d a x b y => Sys2Proof.Machine.execFadd d a x b y s
  | .fsub d a x b y => Sys2Proof.Machine.execFsub d a x b y s
  | .fmul d a x b y => Sys2Proof.Machine.execFmul d a x b y s
  | .fdiv d a x b y => Sys2Proof.Machine.execFdiv d a x b y s
  | .fsqrt d a x => Sys2Proof.Machine.execFsqrt d a x s
  | .fmin d a x b y => Sys2Proof.Machine.execFmin d a x b y s
  | .fmax d a x b y => Sys2Proof.Machine.execFmax d a x b y s
  | .fabs d a x => Sys2Proof.Machine.execFabs d a x s
  | .fneg d a x => Sys2Proof.Machine.execFneg d a x s
  | .fma d a b c => Sys2Proof.Machine.execFma d a b c s
  | .fms d a b c => Sys2Proof.Machine.execFms d a b c s
  | .fnma d a b c => Sys2Proof.Machine.execFnma d a b c s
  | .fnms d a b c => Sys2Proof.Machine.execFnms d a b c s
  | .fcvti d a x r r2 => Sys2Proof.Machine.execFcvti d a x r r2 s
  | .fcvtf d a x r r2 => Sys2Proof.Machine.execFcvtf d a x r r2 s
  | .fcvtb d a x r r2 => Sys2Proof.Machine.execFcvtb d a x r r2 s
  | .fmvgf d a x => Sys2Proof.Machine.execFmvgf d a x s
  | .fmvfg d a x => Sys2Proof.Machine.execFmvfg d a x s
  | .fceq q a x b y => Sys2Proof.Machine.execFceq q a x b y s
  | .fclt q a x b y => Sys2Proof.Machine.execFclt q a x b y s
  | .fcle q a x b y => Sys2Proof.Machine.execFcle q a x b y s
  | .fclass d a x => Sys2Proof.Machine.execFclass d a x s
  | .vadd d a x b e => Sys2Proof.Machine.execVadd d a x b e s
  | .vsub d a x b e => Sys2Proof.Machine.execVsub d a x b e s
  | .vmul d a x b e => Sys2Proof.Machine.execVmul d a x b e s
  | .vmulh d a x b e => Sys2Proof.Machine.execVmulh d a x b e s
  | .vmin d a x b e => Sys2Proof.Machine.execVmin d a x b e s
  | .vmax d a x b e => Sys2Proof.Machine.execVmax d a x b e s
  | .vminu d a x b e => Sys2Proof.Machine.execVminu d a x b e s
  | .vmaxu d a x b e => Sys2Proof.Machine.execVmaxu d a x b e s
  | .vand d a x b e => Sys2Proof.Machine.execVand d a x b e s
  | .vor d a x b e => Sys2Proof.Machine.execVor d a x b e s
  | .vxor d a x b e => Sys2Proof.Machine.execVxor d a x b e s
  | .vsll d a x b e => Sys2Proof.Machine.execVsll d a x b e s
  | .vsrl d a x b e => Sys2Proof.Machine.execVsrl d a x b e s
  | .vsra d a x b e => Sys2Proof.Machine.execVsra d a x b e s
  | .vadds d a x b e => Sys2Proof.Machine.execVadds d a x b e s
  | .vsubs d a x b e => Sys2Proof.Machine.execVsubs d a x b e s
  | .vfadd d a x b e => Sys2Proof.Machine.execVfadd d a x b e s
  | .vfsub d a x b e => Sys2Proof.Machine.execVfsub d a x b e s
  | .vfmul d a x b e => Sys2Proof.Machine.execVfmul d a x b e s
  | .vfdiv d a x b e => Sys2Proof.Machine.execVfdiv d a x b e s
  | .vfmin d a x b e => Sys2Proof.Machine.execVfmin d a x b e s
  | .vfmax d a x b e => Sys2Proof.Machine.execVfmax d a x b e s
  | .vfexp2 d a x e => Sys2Proof.Machine.execVfexp2 d a x e s
  | .vfrcp d a x e => Sys2Proof.Machine.execVfrcp d a x e s
  | .vfrsq d a x e => Sys2Proof.Machine.execVfrsq d a x e s
  | .vfabs d a x e => Sys2Proof.Machine.execVfabs d a x e s
  | .vfneg d a x e => Sys2Proof.Machine.execVfneg d a x e s
  | .vfmaS d a b c => Sys2Proof.Machine.execVfmaS d a b c s
  | .vfmaBf d a b c => Sys2Proof.Machine.execVfmaBf d a b c s
  | .vfmsS d a b c => Sys2Proof.Machine.execVfmsS d a b c s
  | .vfmsBf d a b c => Sys2Proof.Machine.execVfmsBf d a b c s
  | .vselB d a b c => Sys2Proof.Machine.execVselB d a b c s
  | .vselH d a b c => Sys2Proof.Machine.execVselH d a b c s
  | .vselW d a b c => Sys2Proof.Machine.execVselW d a b c s
  | .vselD d a b c => Sys2Proof.Machine.execVselD d a b c s
  | .vrsum d a x b e => Sys2Proof.Machine.execVrsum d a x b e s
  | .vrmax d a x b e => Sys2Proof.Machine.execVrmax d a x b e s
  | .vrmin d a x b e => Sys2Proof.Machine.execVrmin d a x b e s
  | .vperm d a x b e => Sys2Proof.Machine.execVperm d a x b e s
  | .vbcast d a x b e => Sys2Proof.Machine.execVbcast d a x b e s
  | .vsplat d a x e => Sys2Proof.Machine.execVsplat d a x e s
  | .vcvtBfS d a x b r => Sys2Proof.Machine.execVcvtBfS d a x b r s
  | .vcvtSBf d a x => Sys2Proof.Machine.execVcvtSBf d a x s
  | .vcvtHfS d a x b r => Sys2Proof.Machine.execVcvtHfS d a x b r s
  | .vcvtSHf d a x => Sys2Proof.Machine.execVcvtSHf d a x s
  | .vcvtI32S d a x b r => Sys2Proof.Machine.execVcvtI32S d a x b r s
  | .vcvtSI32 d a x b r => Sys2Proof.Machine.execVcvtSI32 d a x b r s
  | .vcvtI8S d a x b r => Sys2Proof.Machine.execVcvtI8S d a x b r s
  | .vcvtSI8 d a x => Sys2Proof.Machine.execVcvtSI8 d a x s
  | .vcvtHfBf d a x b r => Sys2Proof.Machine.execVcvtHfBf d a x b r s
  | .vcvtBfHf d a x b r => Sys2Proof.Machine.execVcvtBfHf d a x b r s
  | .vpackmx d a x r t => Sys2Proof.Machine.execVpackmx d a x r t s
  | .vunpkmx d a x t => Sys2Proof.Machine.execVunpkmx d a x t s
  | .mand d a x b y => Sys2Proof.Machine.execMand d a x b y s
  | .mor d a x b y => Sys2Proof.Machine.execMor d a x b y s
  | .mxor d a x b y => Sys2Proof.Machine.execMxor d a x b y s
  | .mnot d a x => Sys2Proof.Machine.execMnot d a x s
  | .mpop d a x => Sys2Proof.Machine.execMpop d a x s
  | .mfirst d a x => Sys2Proof.Machine.execMfirst d a x s
  | .vfcmpEq m a x b e => Sys2Proof.Machine.execVfcmpEq m a x b e s
  | .vfcmpLt m a x b e => Sys2Proof.Machine.execVfcmpLt m a x b e s
  | .vcmpEq m a x b e => Sys2Proof.Machine.execVcmpEq m a x b e s
  | .vcmpNe m a x b e => Sys2Proof.Machine.execVcmpNe m a x b e s
  | .vcmpLt m a x b e => Sys2Proof.Machine.execVcmpLt m a x b e s
  | .vcmpLtu m a x b e => Sys2Proof.Machine.execVcmpLtu m a x b e s
  | .vcmpGe m a x b e => Sys2Proof.Machine.execVcmpGe m a x b e s
  | .vcmpGeu m a x b e => Sys2Proof.Machine.execVcmpGeu m a x b e s
  | .vfcmpLe m a x b e => Sys2Proof.Machine.execVfcmpLe m a x b e s
  | .chwaitf c n => Sys2Proof.Machine.execChwaitf c n s
  | .chwaite c n => Sys2Proof.Machine.execChwaite c n s
  | .chadvc c n => Sys2Proof.Machine.execChadvc c n s
  | .chadvp c n => Sys2Proof.Machine.execChadvp c n s
  | .chst r c u => Sys2Proof.Machine.execChst r c u s
  | .chaddr d c u => Sys2Proof.Machine.execChaddr d c u s
  | .send n a c => Sys2Proof.Machine.execSend n a c s
  | .put r a c => Sys2Proof.Machine.execPut r a c s
  | .get r a b => Sys2Proof.Machine.execGet r a b s
  | .window k g => Sys2Proof.Machine.execWindow k g s
  | .bdef imm k a x b y => Sys2Proof.Machine.execBdef imm k a x b y s
  | .badd a x b y => Sys2Proof.Machine.execBadd a x b y s
  | .band a x b y => Sys2Proof.Machine.execBand a x b y s
  | .bor a x b y => Sys2Proof.Machine.execBor a x b y s
  | .bxor a x b y => Sys2Proof.Machine.execBxor a x b y s
  | .bmin u a x b y => Sys2Proof.Machine.execBmin u a x b y s
  | .bmax u a x b y => Sys2Proof.Machine.execBmax u a x b y s
  | .bfxa f a x b y => Sys2Proof.Machine.execBfxa f a x b y s
  | .bminf a x b y => Sys2Proof.Machine.execBminf a x b y s
  | .bmaxf a x b y => Sys2Proof.Machine.execBmaxf a x b y s
  | .bvsa e a x b y => Sys2Proof.Machine.execBvsa e a x b y s
  | .brd d a x o => Sys2Proof.Machine.execBrd d a x o s
  | .swdef a x b y => Sys2Proof.Machine.execSwdef a x b y s
  | .arrive r a x => Sys2Proof.Machine.execArrive r a x s
  | .swait r a x b y => Sys2Proof.Machine.execSwait r a x b y s
  | .fence r => Sys2Proof.Machine.execFence r s
  | .flushas a x => Sys2Proof.Machine.execFlushas a x s
  | .drain => Sys2Proof.Machine.execDrain s
  | .xfer d a => Sys2Proof.Machine.execXfer d a s
  | .xferq d a => Sys2Proof.Machine.execXferq d a s
  | .xwait a k => Sys2Proof.Machine.execXwait a k s
  | .xstat d k => Sys2Proof.Machine.execXstat d k s
  | .cwld a v b => Sys2Proof.Machine.execCwld a v b s
  | .cwlds a v b => Sys2Proof.Machine.execCwlds a v b s
  | .cwswap => Sys2Proof.Machine.execCwswap s
  | .czclr z => Sys2Proof.Machine.execCzclr z s
  | .czwait l z => Sys2Proof.Machine.execCzwait l z s
  | .czout a b z => Sys2Proof.Machine.execCzout a b z s
  | .czld a b z => Sys2Proof.Machine.execCzld a b z s
  | .cmmaBf a f r z => Sys2Proof.Machine.execCmmaBf a f r z s
  | .cmmaHf a f r z => Sys2Proof.Machine.execCmmaHf a f r z s
  | .cmmaI8 a f r z => Sys2Proof.Machine.execCmmaI8 a f r z s
  | .cmmaE4e4 a f r z => Sys2Proof.Machine.execCmmaE4e4 a f r z s
  | .cmmaE4e5 a f r z => Sys2Proof.Machine.execCmmaE4e5 a f r z s
  | .cmmaE5e4 a f r z => Sys2Proof.Machine.execCmmaE5e4 a f r z s
  | .cmmaE5e5 a f r z => Sys2Proof.Machine.execCmmaE5e5 a f r z s
  | .cmmaF6a a f r z => Sys2Proof.Machine.execCmmaF6a a f r z s
  | .cmmaF6b a f r z => Sys2Proof.Machine.execCmmaF6b a f r z s
  | .cmmaF6ab a f r z => Sys2Proof.Machine.execCmmaF6ab a f r z s
  | .cmmaMxf4 a f r z => Sys2Proof.Machine.execCmmaMxf4 a f r z s
  | .cmmaKf4 a f r z => Sys2Proof.Machine.execCmmaKf4 a f r z s
  | .cmmaE4kf4 a f r z => Sys2Proof.Machine.execCmmaE4kf4 a f r z s
  | .cmmaMxi8 a f r z => Sys2Proof.Machine.execCmmaMxi8 a f r z s
  | .kvopen a b => Sys2Proof.Machine.execKvopen a b s
  | .kvapp h a b c p => Sys2Proof.Machine.execKvapp h a b c p s
  | .kvqry a b c => Sys2Proof.Machine.execKvqry a b c s
  | .kvseal a => Sys2Proof.Machine.execKvseal a s
  | .kvstat d a => Sys2Proof.Machine.execKvstat d a s
  | .kvdrop a => Sys2Proof.Machine.execKvdrop a s
  | .kvdropGrant a b => Sys2Proof.Machine.execKvdropGrant a b s
  | .kvdropRevoke a => Sys2Proof.Machine.execKvdropRevoke a s
  | .qrld a x b y => Sys2Proof.Machine.execQrld a x b y s
  | .qrseed a x b y => Sys2Proof.Machine.execQrseed a x b y s
  | .qri d a x b y => Sys2Proof.Machine.execQri d a x b y s
  | .qrf d a x b y => Sys2Proof.Machine.execQrf d a x b y s
  | .qrvI d a x b y => Sys2Proof.Machine.execQrvI d a x b y s
  | .qrvD d a x b y => Sys2Proof.Machine.execQrvD d a x b y s
  | .crd d imm => Sys2Proof.Machine.execCrd d imm s
  | .cwr a imm => Sys2Proof.Machine.execCwr a imm s
  | .trap imm => Sys2Proof.Machine.execTrap imm s
  | .brk imm => Sys2Proof.Machine.execBrk imm s
  | .rft => Sys2Proof.Machine.execRft s
  | .idle => Sys2Proof.Machine.execIdle s
  | .done => Sys2Proof.Machine.execDone s
  | .halt => Sys2Proof.Machine.execHalt s
  | .haltR => Sys2Proof.Machine.execHaltR s
  | .cMv d a => Sys2Proof.Machine.execCMv d a s
  | .cAdd d a => Sys2Proof.Machine.execCAdd d a s
  | .cAddi d imm => Sys2Proof.Machine.execCAddi d imm s
  | .cSub d a => Sys2Proof.Machine.execCSub d a s
  | .cAnd d a => Sys2Proof.Machine.execCAnd d a s
  | .cLi d imm => Sys2Proof.Machine.execCLi d imm s
  | .cLd d imm => Sys2Proof.Machine.execCLd d imm s
  | .cSd r imm => Sys2Proof.Machine.execCSd r imm s
  | .cLw d imm => Sys2Proof.Machine.execCLw d imm s
  | .cSw r imm => Sys2Proof.Machine.execCSw r imm s
  | .cSlli d imm => Sys2Proof.Machine.execCSlli d imm s
  | .cSrli d imm => Sys2Proof.Machine.execCSrli d imm s
  | .cJ o => Sys2Proof.Machine.execCJ o s
  | .cBrq o => Sys2Proof.Machine.execCBrq o s
  | .cRet => Sys2Proof.Machine.execCRet s
  | .interruptEntry => Sys2Proof.Machine.execInterruptEntry s
  | .timerExpiry b => Sys2Proof.Machine.execTimerExpiry b s
  | .idleWake b imm => Sys2Proof.Machine.execIdleWake b imm s
  | .slipSchedule b => Sys2Proof.Machine.execSlipSchedule b s
  | .slipInputsSuffice b imm => Sys2Proof.Machine.execSlipInputsSuffice b imm s
  | .waitSatisfied b imm => Sys2Proof.Machine.execWaitSatisfied b imm s
  | .haltDrainComplete b imm => Sys2Proof.Machine.execHaltDrainComplete b imm s
  | .handlerOverrun => Sys2Proof.Machine.execHandlerOverrun s
  | .itemArrival n => Sys2Proof.Machine.execItemArrival n s
  | .getReplyArrival n => Sys2Proof.Machine.execGetReplyArrival n s
  | .closeMarkerArrival b imm => Sys2Proof.Machine.execCloseMarkerArrival b imm s
  | .windowComplete b imm => Sys2Proof.Machine.execWindowComplete b imm s
  | .launchArrival n => Sys2Proof.Machine.execLaunchArrival n s
  | .advanceNoticeArrival n => Sys2Proof.Machine.execAdvanceNoticeArrival n s
  | .freeNoticeArrival n => Sys2Proof.Machine.execFreeNoticeArrival n s
  | .ackArrival n => Sys2Proof.Machine.execAckArrival n s
  | .busyResend n => Sys2Proof.Machine.execBusyResend n s
  | .arrivalDelivery n => Sys2Proof.Machine.execArrivalDelivery n s
  | .copyStart b => Sys2Proof.Machine.execCopyStart b s
  | .copyLanding c => Sys2Proof.Machine.execCopyLanding c s
  | .copyComplete c => Sys2Proof.Machine.execCopyComplete c s
  | .craneDispatch b => Sys2Proof.Machine.execCraneDispatch b s
  | .craneCommand b => Sys2Proof.Machine.execCraneCommand b s
  | .bankOpApply n => Sys2Proof.Machine.execBankOpApply n s
  | .pageService n => Sys2Proof.Machine.execPageService n s
  | .pageServiceComplete n entry leaf => Sys2Proof.Machine.execPageServiceComplete n entry leaf s
  | .migration pkg page dest => Sys2Proof.Machine.execMigration pkg page dest s
  | .kvAppendApply n => Sys2Proof.Machine.execKvAppendApply n s
  | .kvQueryResolve n => Sys2Proof.Machine.execKvQueryResolve n s
  | .tripleLanding n => Sys2Proof.Machine.execTripleLanding n s
  | .kvPageRecall key => Sys2Proof.Machine.execKvPageRecall key s
  | .regionSelect pkg => Sys2Proof.Machine.execRegionSelect pkg s
  | .regionBind pkg region place => Sys2Proof.Machine.execRegionBind pkg region place s
  | .preempt pkg region => Sys2Proof.Machine.execPreempt pkg region s
  | .preemptForce b imm => Sys2Proof.Machine.execPreemptForce b imm s
  | .regionSuspend pkg region => Sys2Proof.Machine.execRegionSuspend pkg region s
  | .victimBankClaim b bank => Sys2Proof.Machine.execVictimBankClaim b bank s
  | .faultDomainStop => Sys2Proof.Machine.execFaultDomainStop s
  | .rollback => Sys2Proof.Machine.execRollback s
  | .retentionEntry unit => Sys2Proof.Machine.execRetentionEntry unit s
  | .retentionExit unit => Sys2Proof.Machine.execRetentionExit unit s
  | .tcmpWrite b v => Sys2Proof.Machine.execTcmpWrite b v s
  | .ipendWrite b v => Sys2Proof.Machine.execIpendWrite b v s
  | .qrctlWrite v => Sys2Proof.Machine.execQrctlWrite v s
  | .fdstopWrite v => Sys2Proof.Machine.execFdstopWrite v s
  | .serrlogWrite b v => Sys2Proof.Machine.execSerrlogWrite b v s
  | .kverrWrite pkg bank v => Sys2Proof.Machine.execKverrWrite pkg bank v s
  | .plstatClr pkg port v => Sys2Proof.Machine.execPlstatClr pkg port v s
  | .registerWrite pkg reg v => Sys2Proof.Machine.execRegisterWrite pkg reg v s
  | .doorbell pkg q v => Sys2Proof.Machine.execDoorbell pkg q v s
  | .qctlEnable pkg q v => Sys2Proof.Machine.execQctlEnable pkg q v s
  | .qctlRestart pkg q => Sys2Proof.Machine.execQctlRestart pkg q s
  | .evctlWrite pkg v => Sys2Proof.Machine.execEvctlWrite pkg v s
  | .evheadWrite pkg v => Sys2Proof.Machine.execEvheadWrite pkg v s
  | .evstatWrite pkg v => Sys2Proof.Machine.execEvstatWrite pkg v s
  | .resync pkg v => Sys2Proof.Machine.execResync pkg v s
  | .resyncComplete pkg => Sys2Proof.Machine.execResyncComplete pkg s
  | .packetStart pkg q => Sys2Proof.Machine.execPacketStart pkg q s
  | .ldp pkg q => Sys2Proof.Machine.execLdp pkg q s
  | .ldi pkg q => Sys2Proof.Machine.execLdi pkg q s
  | .movi pkg q => Sys2Proof.Machine.execMovi pkg q s
  | .pilotAdd pkg q => Sys2Proof.Machine.execPilotAdd pkg q s
  | .pilotAnd pkg q => Sys2Proof.Machine.execPilotAnd pkg q s
  | .shr pkg q => Sys2Proof.Machine.execShr pkg q s
  | .pilotBeq pkg q => Sys2Proof.Machine.execPilotBeq pkg q s
  | .loopn pkg q => Sys2Proof.Machine.execLoopn pkg q s
  | .pilotLaunch pkg q => Sys2Proof.Machine.execPilotLaunch pkg q s
  | .regopReady pkg q => Sys2Proof.Machine.execRegopReady pkg q s
  | .regopPrio pkg q => Sys2Proof.Machine.execRegopPrio pkg q s
  | .regopArgs pkg q => Sys2Proof.Machine.execRegopArgs pkg q s
  | .waitr pkg q => Sys2Proof.Machine.execWaitr pkg q s
  | .pilotEvent pkg q => Sys2Proof.Machine.execPilotEvent pkg q s
  | .fail pkg q => Sys2Proof.Machine.execFail pkg q s
  | .haltp pkg q => Sys2Proof.Machine.execHaltp pkg q s
  | .pilotWaitResume pkg q => Sys2Proof.Machine.execPilotWaitResume pkg q s
  | .takeover pkg => Sys2Proof.Machine.execTakeover pkg s
  | .evpush pkg v => Sys2Proof.Machine.execEvpush pkg v s
  | .dbkick pkg v => Sys2Proof.Machine.execDbkick pkg v s
  | .dbpendWrite pkg k v => Sys2Proof.Machine.execDbpendWrite pkg k v s
  | .cbstatWrite pkg v => Sys2Proof.Machine.execCbstatWrite pkg v s
  | .flitReceive pkg port flit => Sys2Proof.Machine.execFlitReceive pkg port flit s
  | .portRetrain pkg port ok => Sys2Proof.Machine.execPortRetrain pkg port ok s
  | .portDown pkg port => Sys2Proof.Machine.execPortDown pkg port s
  | .exchangeLineSend pkg n => Sys2Proof.Machine.execExchangeLineSend pkg n s
  | .exchangeLineReceive n => Sys2Proof.Machine.execExchangeLineReceive n s
  | .transferRecordReceive n => Sys2Proof.Machine.execTransferRecordReceive n s
  | .powerGood pkg => Sys2Proof.Machine.execPowerGood pkg s
  | .phaseComplete pkg fail => Sys2Proof.Machine.execPhaseComplete pkg fail s
  | .phaseTimeout pkg => Sys2Proof.Machine.execPhaseTimeout pkg s
  | .monitorReading pkg plan margin => Sys2Proof.Machine.execMonitorReading pkg plan margin s
  | .pwrcapLower pkg => Sys2Proof.Machine.execPwrcapLower pkg s
  | .pwrcapRaise pkg => Sys2Proof.Machine.execPwrcapRaise pkg s
  | .getCertificate pkg => Sys2Proof.Machine.execGetCertificate pkg s
  | .challenge pkg nonce => Sys2Proof.Machine.execChallenge pkg nonce s
  | .getMeasurements pkg => Sys2Proof.Machine.execGetMeasurements pkg s
  | .pldmSensorRead pkg sensor => Sys2Proof.Machine.execPldmSensorRead pkg sensor s
  | .pldmFirmwareUpdate pkg image => Sys2Proof.Machine.execPldmFirmwareUpdate pkg image s
  | .objectLoad pkg addr len place => Sys2Proof.Machine.execObjectLoad pkg addr len place s
  | .containerLoad pkg addr len => Sys2Proof.Machine.execContainerLoad pkg addr len s
  | .illegalInstruction w cause => Sys2Proof.Machine.execIllegalInstruction w cause s
  | .fetchFault => Sys2Proof.Machine.execFetchFault s
  | .chstLanding n => Sys2Proof.Machine.execChstLanding n s
  | .regionResume pkg region => Sys2Proof.Machine.execRegionResume pkg region s
  | .regionReclaim pkg region => Sys2Proof.Machine.execRegionReclaim pkg region s
  | .kvPageMove key => Sys2Proof.Machine.execKvPageMove key s
  | .lostFrameRetransmit n => Sys2Proof.Machine.execLostFrameRetransmit n s
  | .containerWrite pkg addr rev => Sys2Proof.Machine.execContainerWrite pkg addr rev s

end Sys2Proof.Machine
end

