-- ==== Sys2Proof/Machine/Fetch.lean ====
section
/-! DEFINITION. What a berth does next (spec/01 R24, R40, spec/02 R62, R65, spec/07 R192, spec/11 R219, R226, R227), the inputs
that pass time (spec/14 R283, spec/23 R442), and a word placed where the next fetch reads it. -/
namespace Sys2Proof.Machine
open Sys2Proof

/-- What a berth does in its next instruction step: an instruction or event, a nullified instruction to pass over, nothing. -/
inductive Doing where
  | run (i : Instr)
  | skip (c : Ctx)
  | idle
  deriving DecidableEq, Repr

/-- The word at an address, with its length in bytes: none where a halfword of it cannot be fetched (R39, R40). -/
def State.fetchWord (s : State) (c : Ctx) (a : Word) : Option (Nat × Nat) :=
  match s.fetchHalf c a with
  | none => none
  | some lo =>
    if lo % 2 = 0 then some (2, lo)
    else match s.fetchHalf c (a + 2) with
      | none => none
      | some hi => some (4, lo + hi <<< 16)

/-- The instruction a word is (R62): its decoding, or the illegal-instruction event with its cause (R63). -/
noncomputable def instrOf (n w : Nat) : Instr :=
  match decodeWord n w with
  | .ok i => i
  | .error e => .illegalInstruction w (decodeCause e)

/-- A berth in retirement or in retention executes nothing (R438, R441). -/
def Berth.silent (x : Berth) : Bool := x.fenced

/-- The next doing of the current berth: a handler before the slips (R226), its step limit (R227); an interrupt between
instructions, and not while one that has issued stalls or waits (R192, R209); a fetch (R40); a nullified instruction (R24, R65); else
the scheduler (R219). -/
noncomputable def State.doing (s : State) : Doing :=
  let x := s.berth s.cur
  if x.silent then .idle
  else match s.ctx with
  | none => if x.slips.any (fun p => decide (p.2.st = .ready)) then .run (.slipSchedule s.cur) else .idle
  | some c =>
    if c.hnd && (match x.handler with
      | some h => decide (h.steps ≥ 256)
      | none => false) then .run .handlerOverrun
    else if !c.hnd && (s.slip c.b c.i).stopped then .idle
    else if !c.hnd && !(s.slip c.b c.i).intrap && !(s.slip c.b c.i).begun && s.pendingFor c.b c.i ≠ 0 then .run .interruptEntry
    else match s.fetchWord c (s.pcOf c) with
      | none => .run .fetchFault
      | some (n, w) => if (s.queueOf c).q0.nf then .skip c else .run (instrOf n w)

/-- Time passes at the current berth: CYCLE advances by the model's tick (log 3). -/
def State.ticked (s : State) : State := s.modBerth s.cur (fun x => { x with cycle := x.cycle + natWord s.tick })

/-- A structure that caches leaves for a berth changes; it holds no more entries than its size (R283). -/
def State.modTlb (s : State) (b : Nat) (t : TlbName) (f : List TlbEntry → List TlbEntry) : State :=
  match t with
  | .inst => s.modBerth b (fun x => { x with itlb := (f x.itlb).take 16 })
  | .data => s.modBerth b (fun x => { x with tlb := (f x.tlb).take 32 })
  | .second => { s with tlb2 := SMap.put s.tlb2 (harbourOf b) ((f (SMap.get [] s.tlb2 (harbourOf b))).take 4096) }

/-- A TLB fill (R283): the second level caches a leaf that a walk of the berth's tables gives, a TLB of the berth one that its access uses; only
leaves are cached. -/
def State.tlbFill (s : State) (b : Nat) (t : TlbName) (va : Word) : State :=
  let x := s.berth b
  match (if t = .second then s.walkFrom (pkgOf b) x.root (bitsOf va.toNat 56 0) else s.translate b (decide (t = .inst)) (bitsOf va.toNat 56 0)) with
  | .leaf e base size => s.modTlb b t (fun l => { asid := x.asid, base := base, size := size, leaf := e } :: l)
  | .absent => s
  | .malformed => s

/-- The n-th cached leaf of a structure is evicted. -/
def State.tlbEvict (s : State) (b : Nat) (t : TlbName) (n : Nat) : State := s.modTlb b t (fun l => dropAt l n)

/-- Is the bank of a key in retention (R438)? -/
def State.retainedAt (s : State) (k : Nat) : Bool :=
  s.cellAsleep k || (k >>> 60 == 2 && bitOf (s.berth (bitsOf k 47 40 * 8192 + bitsOf k 39 27)).retained (bitsOf k 18 15))

/-- A word of memory fails (R296, R439): its code word is poisoned, in retention one of 32 bytes (R438). -/
def State.failWord (s : State) (key : Nat) : State :=
  let n := codeSize key
  let ws := if s.retainedAt key then (upTo 4).map (fun j => key / 32 * 32 + 8 * j) else [key / n * n]
  { s with poison := ws.filter (fun w => !s.poison.contains w) ++ s.poison }

/-- A berth meets an uncorrectable word in an array that holds no software's data (R440), a TLB or walker (6) or a network buffer (7): the
error is recorded with its entry index, and a TLB entry is dropped. Other arrays are recorded as their words are read. -/
def State.arrayError (s : State) (b array entry : Nat) : State :=
  if array = 6 then (s.modTlb b .data (fun l => dropAt l entry)).modBerth b (fun x => x.logError 6 entry)
  else if array = 7 then s.modBerth b (fun x => x.logError 7 entry)
  else s

/-- The distributor fences a berth that carries no actor (R441): it binds no slip to it again. -/
def State.fenceBerth (s : State) (b : Nat) : State :=
  if (s.berth b).slips.any (fun q => q.2.bound) then s else s.modBerth b (fun x => { x with fenced := true })

/-- Cycles pass at a bank of the Plain without an access (R438). -/
def State.plainIdle (s : State) (pkg bank n : Nat) : State :=
  s.modPkg pkg (fun p => { p with cellIdle := SMap.set 0 p.cellIdle bank (SMap.get 0 p.cellIdle bank + n) })

/-- A word of n bytes stored where the next fetch of the current berth reads it: slip 0 runs it at LOCAL 0, in a bank it
holds, with no interrupt enabled and nothing waiting to happen. -/
def State.placeWord (s : State) (n w : Nat) : State :=
  let b := s.cur
  let bytes := leBytes (max 8 n) w
  let k := scratchKey b 0
  let x := s.berth b
  let free (p : Slip) : Slip :=
    { p with banks := p.banks - (withBit (bitOf p.banks 0) 0), st := if p.st = .running then .ready else p.st }
  let off (i : Nat) : QE := { addr := some (localAddr i) }
  let len := if w % 2 = 1 then 4 else 2
  let p0 : Slip := { x.s0 with
    st := .running
    wait := none
    stopped := false
    begun := false
    brd := none
    banks := x.s0.banks ||| 1
    tie := false
    mie := false
    dbie := false
    live := { q0 := off 0, q1 := off len, q2 := { addr := none } } }
  { (s.poke k bytes).setBerth b { x with handler := none, fenced := false, s0 := p0, s1 := free x.s1, s2 := free x.s2, s3 := free x.s3 } with
    agenda := []
    stops := []
    rollbacks := []
    takeovers := []
    poison := s.poison.filter (fun a => !(decide (k ≤ a) && decide (a < k + bytes.length))) }

end Sys2Proof.Machine
end

