-- ==== Sys2Proof/Machine/Step.lean ====
section
/-! DEFINITION. One step of the machine (spec/95): what must happen first, what the agenda says happens next, else one
instruction step of the current berth. -/
namespace Sys2Proof.Machine
open Sys2Proof

/-- One instruction step of the current berth (R24, R62): time passes, then what the berth does next. -/
noncomputable def berthStep (s : State) : Host.Outcome State Fault Refusal :=
  match s.doing with
  | .run i => exec i s.ticked
  | .skip c => .next (s.ticked.advance c none false)
  | .idle => .next s.ticked

/-- Is it a slip, or the handler of one of its messages, whose instruction the next step runs? -/
def State.nextIs (s : State) (b i : Nat) : Bool :=
  let at_ (t : State) : Bool := t.ctx.any (fun c => c.b == b && c.i == i)
  match s.agenda with
  | [] => at_ s
  | .berth x :: _ => at_ { s with cur := x }
  | _ => false

/-- Has nothing left a slip in a step that could be a release (R314): no message, copy, bank operation or valley command, no close of a window,
no halt? -/
def State.keepsToItself (s t : State) (b i : Nat) : Bool :=
  decide (t.net = s.net) && decide (t.copies = s.copies) && decide (t.bankOps = s.bankOps) && decide (t.kvCmds = s.kvCmds) &&
    (t.slip b i).closing.isNone && decide ((t.slip b i).st = (s.slip b i).st)

/-- Does the n-th step from a state on write a byte at a key, by another agent than a slip, and in a race with a read that the slip makes
now (R312): the slip has released nothing by then? run is a step. -/
def writesLate (run : State → Host.Outcome State Fault Refusal) (b i key : Nat) (v : Byte) : Nat → State → Bool
  | 0, _ => false
  | n + 1, s => match run s with
    | .next t =>
      if n = 0 then
        !s.nextIs b i && !(s.copies.any (fun k => k.berth == b && k.slip == i)) && decide (s.byteAt key ≠ v) && decide (t.byteAt key = v)
      else (!s.nextIs b i || s.keepsToItself t b i) && writesLate run b i key v n t
    | .fault _ => false
    | .refused _ => false

/-- One turn of the agenda (assumption log 2). late says whether a write that comes later in the order of the steps may be read now (R313). -/
noncomputable def turnStep (late : Nat → Nat → Nat → Byte → Nat → State → Bool) (t : Turn) (s : State) : Host.Outcome State Fault Refusal :=
  match t with
  | .berth b => berthStep { s with cur := b }
  | .event i => exec i s
  | .timing b k n => .next (s.modBerth b (fun x => x.addEvc k n))
  | .cycles b n => .next (s.modBerth b (fun x => { x with cycle := x.cycle + natWord n }))
  | .tlbFill b n va => .next (s.tlbFill b n va)
  | .tlbEvict b n k => .next (s.tlbEvict b n k)
  | .failWord key => .next (s.failWord key)
  | .breaks x => .next { s with broken := x :: s.broken }
  | .arrayError b array entry => .next (s.arrayError b array entry)
  | .fence b => .next (s.fenceBerth b)
  | .route pkg src dst port => .next (s.setRoute pkg src dst port)
  | .plainIdle pkg bank n => .next (s.plainIdle pkg bank n)
  | .craneFail b => .next (s.modBerth b (fun x => { x with crane := { x.crane with fails := true } }))
  | .readEarly b i key n => .next (s.readEarly b i key n)
  | .readLate b i key v n => .next (if late b i key v n (s.readBytes b i key [v]) then s.readBytes b i key [v] else s)
  | .kvError key cls => .next (s.kverrLog key cls)
  | .frame f => .next { s with wire := s.wire ++ [f] }
  | .lose n => .next { s with wire := setAt s.wire n (match s.wire[n]? with
      | some f => { f with lost := true }
      | none => { peer := 0, page := 0, tag := { actor := 0, chan := 0, id := 0 }, line := none }) }
  | .hostWrite a bs => .next (s.poke (hostKey (a % (1 <<< 64))) bs)
  | .prefetch pkg q a => .next (s.prefetch pkg q a)
  | .barAccess pkg size off v => .next (s.barAccess pkg size off v)
  | .classChange pkg => .next (s.classChange pkg)
  | .installKey pkg key m => .next (s.installKey pkg key m)
  | .request pkg bs => .next (s.request pkg bs)
  | .inbox b n => .next (s.modBerth b (fun x => { x with inbox := n }))

/-- One step: a stop, a rollback or a takeover that is due (R418, R428, R446), then the agenda, then the current berth. -/
noncomputable def stepWith (late : Nat → Nat → Nat → Byte → Nat → State → Bool) (s : State) : Host.Outcome State Fault Refusal :=
  if s.dueStop.isSome then exec .faultDomainStop s
  else if !s.rollbacks.isEmpty then exec .rollback s
  else match s.takeovers with
    | e :: _ => exec (.takeover (pkgOf e.1)) s
    | [] => match s.agenda with
      | t :: rest => turnStep late t { s with agenda := rest }
      | [] => berthStep s

/-- One step of a machine whose agenda holds at most so many turns. A read of a write yet to come (R313) is one only where the machine, going
on from it, makes that write. -/
noncomputable def stepWithin : Nat → State → Host.Outcome State Fault Refusal
  | 0 => stepWith (fun _ _ _ _ _ _ => false)
  | n + 1 => stepWith (writesLate (stepWithin n))

/-- One step of the machine. -/
noncomputable def step (s : State) : Host.Outcome State Fault Refusal := stepWithin s.agenda.length s

/-- The state with an instruction of nbits bits w stored where the next fetch reads it (log 1). -/
def State.withFetchWord (s : State) (nbits w : Nat) : State := s.placeWord (nbits / 8) w

end Sys2Proof.Machine
end

