-- ==== Sys2Proof/Safety.lean ====
section
/-! DEFINITION. What the claims mean: a safe state, an instruction that runs, what a completed instruction leaves alone. -/
namespace Sys2Proof
open Sys2Proof.Machine

/-- Memory is in its canonical form: keys strictly rising, no entry equal to what an unlisted key reads as. -/
def Safe (s : State) : Prop := Memory.wf s.mem

/-- Whoever c says executes on the current berth, and no check of R62 steps 4 and 5 or of R161 stops an instruction that stands
so to modes and names these registers. -/
def Runs (s : State) (c : Ctx) (md : Mode) (uses : List Use) : Prop :=
  s.ctx = some c ∧ ∀ word, s.contextFault c word md uses = none

end Sys2Proof

namespace Sys2Proof.Machine

/-! ### What is left of a part when what an instruction may change is taken out -/

/-- A slip without its registers, its queue and loops, what its instruction in progress leaves (R209), what its racing reads took early
(R313), its instruction count and its event counters. -/
def Slip.rest (p : Slip) : Slip :=
  { p with
    live := {}, levels := [], after := [], lastDmax := 0, lexit := 0, instret := 0, evc := [], begun := false, early := []
    cur := [], g := [], f := [], w := [], q := [], m := [] }

/-- A slip without its event counters and what its racing reads took early. -/
def Slip.uncounted (p : Slip) : Slip := { p with evc := [], early := [] }

/-- A berth without its slips, its handler bank and its timing counters. -/
def Berth.rest (x : Berth) : Berth := { x with s0 := {}, s1 := {}, s2 := {}, s3 := {}, handler := none, evcHi := [] }

/-- A state without its berths. -/
def State.rest (s : State) : State := { s with berths := [] }

/-- Slip j of a berth is another slip than the one that c names (an index above 3 names slip 3). -/
def Ctx.other (c : Ctx) (j : Nat) : Prop := Min.min j 3 ≠ Min.min c.i 3

/-- The berths of t are those of s but for what an instruction of c that wrote the registers ex and counted the events ev may
change: those registers, the queue with its loops, the counters of instructions and events. The other registers are compared at
distance 0, where carry-forward keeps them when a new iteration begins (R160). -/
structure Kept (s t : State) (c : Ctx) (ex : List (RSet × Nat)) (ev : Ev) : Prop where
  berths : ∀ b, b ≠ c.b → t.berth b = s.berth b
  unit : (t.berth c.b).rest = (s.berth c.b).rest
  slips : ∀ j, c.other j → t.slip c.b j = s.slip c.b j
  slip : (t.slip c.b c.i).rest = (s.slip c.b c.i).rest
  events : (t.slip c.b c.i).evc = ((s.slip c.b c.i).count ev).evc
  g : ∀ r, r < 32 → (RSet.g, r) ∉ ex → t.readG c r 0 = s.readG c r 0
  f : ∀ r, r < 32 → (RSet.f, r) ∉ ex → t.readF c r 0 = s.readF c r 0
  w : ∀ r, r < 32 → (RSet.w, r) ∉ ex → t.readW c r 0 = s.readW c r 0
  q : ∀ r, r < 8 → (RSet.q, r) ∉ ex → t.readQ c r 0 = s.readQ c r 0
  m : ∀ r, r < 8 → (RSet.m, r) ∉ ex → t.readM c r 0 = s.readM c r 0
  ownSlip : c.hnd = true → (t.slip c.b c.i).uncounted = (s.slip c.b c.i).uncounted
  tagged : c.hnd = true → (t.berth c.b).handler.map (fun h => (h.slip, h.source)) = (s.berth c.b).handler.map (fun h => (h.slip, h.source))
  handler : c.hnd = false → (t.berth c.b).handler = (s.berth c.b).handler

/-- As Kept, and nothing outside the berths changed, nor a timing counter: memory, marks, cells, copies, traffic. -/
structure KeptAll (s t : State) (c : Ctx) (ex : List (RSet × Nat)) (ev : Ev) : Prop extends Kept s t c ex ev where
  rest : t.rest = s.rest
  timing : (t.berth c.b).evcHi = (s.berth c.b).evcHi

end Sys2Proof.Machine

namespace Sys2Proof.Claims
open Sys2Proof Sys2Proof.Machine

/-! ### What a completed register instruction answers -/

/-- i completes: g d reads as v (g0 discards the write), the events ev are counted, and nothing else changes but the queue. -/
def GivesG (i : Instr) (s : State) (c : Ctx) (d : Nat) (v : Word) (ev : Ev) : Prop :=
  ∃ t, exec i s = .next t ∧ t.readG c d 0 = (if d = 0 then 0 else v) ∧ KeptAll s t c [(.g, d)] ev

/-- i completes: f d reads as v. -/
def GivesF (i : Instr) (s : State) (c : Ctx) (d : Nat) (v : W32) (ev : Ev) : Prop :=
  ∃ t, exec i s = .next t ∧ t.readF c d 0 = v ∧ KeptAll s t c [(.f, d)] ev

/-- i completes: q d reads as v (q0 discards the write). -/
def GivesQ (i : Instr) (s : State) (c : Ctx) (d : Nat) (v : Bool) : Prop :=
  ∃ t, exec i s = .next t ∧ t.readQ c d 0 = (if d = 0 then true else v) ∧ KeptAll s t c [(.q, d)] {}

/-- i completes: m d reads as v (m0 discards the write). -/
def GivesM (i : Instr) (s : State) (c : Ctx) (d : Nat) (v : Word) : Prop :=
  ∃ t, exec i s = .next t ∧ t.readM c d 0 = (if d = 0 then BitVec.allOnes 64 else v) ∧ KeptAll s t c [(.m, d)] {}

/-- i completes: the first n elements of k bits of w d are those of f, every later one is zero. -/
def GivesW (i : Instr) (s : State) (c : Ctx) (d k n : Nat) (f : Nat → Nat) (ev : Ev) : Prop :=
  ∃ t, exec i s = .next t ∧
    (∀ j, j < 512 / k → elemOf (t.readW c d 0) k j = if j < n then f j % (1 <<< k) else 0) ∧ KeptAll s t c [(.w, d)] ev

end Sys2Proof.Claims
end

