-- ==== Sys2Proof/Certificates/Slice0/Obligations.lean ====
section
/-! DEFINITION. The statements for the provers. Each names the rules of spec/ it formalises; the words of R are quoted in
OBLIGATIONS.json. -/
namespace Sys2Proof.Claims
open Sys2Proof Sys2Proof.Machine

/-! ### The tables of the scalar instructions (spec/04) -/

/-- An instruction of two g sources at distances, with its destination first. -/
abbrev RegReg := BitVec 5 → BitVec 5 → BitVec 3 → BitVec 5 → BitVec 3 → Instr
/-- A compare or condition of two g sources. -/
abbrev CmpReg := BitVec 3 → BitVec 5 → BitVec 3 → BitVec 5 → BitVec 3 → Instr

/-- The operations of R98 and R99 on two registers. -/
def aluOps : List (RegReg × (Word → Word → Word)) :=
  [(.add, fun a b => a + b), (.sub, fun a b => a - b), (.and, fun a b => a &&& b), (.or, fun a b => a ||| b),
   (.xor, fun a b => a ^^^ b), (.andn, fun a b => a &&& ~~~b), (.orn, fun a b => a ||| ~~~b), (.xnor, fun a b => ~~~(a ^^^ b)),
   (.sll, fun a b => a <<< (b.toNat % 64)), (.srl, fun a b => a >>> (b.toNat % 64)), (.sra, fun a b => a.sshiftRight (b.toNat % 64)),
   (.rol, fun a b => a.rotateLeft b.toNat), (.ror, fun a b => a.rotateRight b.toNat),
   (.min, fun a b => if a.toInt ≤ b.toInt then a else b), (.max, fun a b => if a.toInt ≤ b.toInt then b else a),
   (.minu, fun a b => if a ≤ b then a else b), (.maxu, fun a b => if a ≤ b then b else a),
   (.mul, fun a b => a * b), (.mulh, fun a b => BitVec.ofInt 64 (a.toInt * b.toInt / 18446744073709551616)),
   (.mulhu, fun a b => BitVec.ofNat 64 (a.toNat * b.toNat / 18446744073709551616)),
   (.div, fun a b => if b = 0 then BitVec.allOnes 64 else BitVec.ofInt 64 (a.toInt.tdiv b.toInt)),
   (.divu, fun a b => if b = 0 then BitVec.allOnes 64 else BitVec.ofNat 64 (a.toNat / b.toNat)),
   (.rem, fun a b => if b = 0 then a else BitVec.ofInt 64 (a.toInt.tmod b.toInt)),
   (.remu, fun a b => if b = 0 then a else BitVec.ofNat 64 (a.toNat % b.toNat))]

/-- The operations of R98 on one register: counts, reversal and extensions. -/
def unaryOps : List ((BitVec 5 → BitVec 5 → BitVec 3 → Instr) × (Word → Word)) :=
  [(.popc, fun a => BitVec.ofNat 64 (((List.range 64).filter (fun j => a.getLsbD j)).length)),
   (.brev, fun a => a.reverse), (.sxb, fun a => (a.setWidth 8).signExtend 64), (.sxh, fun a => (a.setWidth 16).signExtend 64),
   (.sxw, fun a => (a.setWidth 32).signExtend 64), (.zxb, fun a => (a.setWidth 8).setWidth 64),
   (.zxh, fun a => (a.setWidth 16).setWidth 64), (.zxw, fun a => (a.setWidth 32).setWidth 64)]

/-- The forms with a 12-bit immediate, sign-extended (R45, R102). -/
def immOps : List ((BitVec 5 → BitVec 5 → BitVec 3 → BitVec 12 → Instr) × (Word → Word → Word)) :=
  [(.addi, fun a b => a + b), (.andi, fun a b => a &&& b), (.ori, fun a b => a ||| b), (.xori, fun a b => a ^^^ b)]

/-- The forms with a 6-bit shift amount (R102). -/
def shiftOps : List ((BitVec 5 → BitVec 5 → BitVec 3 → BitVec 6 → Instr) × (Word → Nat → Word)) :=
  [(.slli, fun a n => a <<< n), (.srli, fun a n => a >>> n), (.srai, fun a n => a.sshiftRight n), (.rori, fun a n => a.rotateRight n)]

/-- The compares of R105 on two registers and on a 9-bit immediate. -/
def cmpOps : List (CmpReg × (BitVec 3 → BitVec 5 → BitVec 3 → BitVec 9 → Instr) × (Word → Word → Bool)) :=
  [(.ceq, .ceqi, fun a b => a == b), (.cne, .cnei, fun a b => a != b), (.clt, .clti, fun a b => a.slt b),
   (.cltu, .cltui, fun a b => a.ult b), (.cge, .cgei, fun a b => b.sle a), (.cgeu, .cgeui, fun a b => b.ule a)]

end Sys2Proof.Claims

open Sys2Proof Sys2Proof.Machine Sys2Proof.Claims

/-- R98, R99: each operation on two registers completes with its result in gD, and changes nothing else but the queue. -/
def Obligations.AluTwoRegisters : Prop :=
  ∀ e ∈ aluOps, ∀ (d a b : BitVec 5) (x y : BitVec 3) (s : State) (c : Ctx),
    Runs s c {} [.src .g a.toNat x.toNat, .src .g b.toNat y.toNat, .dst .g d.toNat] →
    GivesG (e.1 d a x b y) s c d.toNat (e.2 (s.readG c a.toNat x.toNat) (s.readG c b.toNat y.toNat)) {}

/-- R68, R98, R100: ADDS and SUBS clamp the exact sum or difference to the signed range, and count one saturation event when
they clamp. -/
def Sys2Proof.Claims.aluSaturating : Prop :=
  ∀ (d a b : BitVec 5) (x y : BitVec 3) (s : State) (c : Ctx),
    Runs s c {} [.src .g a.toNat x.toNat, .src .g b.toNat y.toNat, .dst .g d.toNat] →
    let u := (s.readG c a.toNat x.toNat).toInt
    let v := (s.readG c b.toNat y.toNat).toInt
    let lo : Int := -9223372036854775808
    let hi : Int := 9223372036854775807
    let clamp (z : Int) : Word := BitVec.ofInt 64 (if z < lo then lo else if hi < z then hi else z)
    let ev (z : Int) : Ev := { sat := if z < lo ∨ hi < z then 1 else 0 }
    GivesG (.adds d a x b y) s c d.toNat (clamp (u + v)) (ev (u + v)) ∧
    GivesG (.subs d a x b y) s c d.toNat (clamp (u - v)) (ev (u - v))

/-- R98: the operations on one register. CLZ gives 64 for zero and else the number of zero bits above the highest one; CTZ the
number of zero bits below the lowest one. -/
def Sys2Proof.Claims.aluOneRegister : Prop :=
  ∀ (d a : BitVec 5) (x : BitVec 3) (s : State) (c : Ctx), Runs s c {} [.src .g a.toNat x.toNat, .dst .g d.toNat] →
    (∀ e ∈ unaryOps, GivesG (e.1 d a x) s c d.toNat (e.2 (s.readG c a.toNat x.toNat)) {}) ∧
    (∃ n, n ≤ 64 ∧ (∀ j, 64 - n ≤ j → j < 64 → (s.readG c a.toNat x.toNat).getLsbD j = false) ∧
      (n < 64 → (s.readG c a.toNat x.toNat).getLsbD (63 - n) = true) ∧ GivesG (.clz d a x) s c d.toNat (BitVec.ofNat 64 n) {}) ∧
    (∃ n, n ≤ 64 ∧ (∀ j, j < n → (s.readG c a.toNat x.toNat).getLsbD j = false) ∧
      (n < 64 → (s.readG c a.toNat x.toNat).getLsbD n = true) ∧ GivesG (.ctz d a x) s c d.toNat (BitVec.ofNat 64 n) {})

/-- R45, R102: the immediate forms; UPIM places its immediate in bits 31:12, PCADD adds that to its own address. -/
def Sys2Proof.Claims.aluImmediates : Prop :=
  ∀ (d a : BitVec 5) (x : BitVec 3) (s : State) (c : Ctx),
    (Runs s c {} [.src .g a.toNat x.toNat, .dst .g d.toNat] →
      (∀ e ∈ immOps, ∀ i, GivesG (e.1 d a x i) s c d.toNat (e.2 (s.readG c a.toNat x.toNat) (i.signExtend 64)) {}) ∧
      (∀ e ∈ shiftOps, ∀ n, GivesG (e.1 d a x n) s c d.toNat (e.2 (s.readG c a.toNat x.toNat) n.toNat) {})) ∧
    (Runs s c {} [.dst .g d.toNat] → ∀ i : BitVec 20,
      GivesG (.upim d i) s c d.toNat ((i ++ (0 : BitVec 12)).signExtend 64) {} ∧
      GivesG (.pcadd d i) s c d.toNat (s.pcOf c + (i ++ (0 : BitVec 12)).signExtend 64) {})

/-- R60: each compact arithmetic form completes as its expansion, with the first source at distance 0. -/
def Sys2Proof.Claims.compactArithmetic : Prop :=
  ∀ (d a : BitVec 5) (i : BitVec 6) (s : State) (c : Ctx),
    (Runs s c {} [.src .g a.toNat 0, .dst .g d.toNat] → GivesG (.cMv d a) s c d.toNat (s.readG c a.toNat 0) {}) ∧
    (Runs s c {} [.src .g d.toNat 0, .src .g a.toNat 0, .dst .g d.toNat] →
      GivesG (.cAdd d a) s c d.toNat (s.readG c d.toNat 0 + s.readG c a.toNat 0) {} ∧
      GivesG (.cSub d a) s c d.toNat (s.readG c d.toNat 0 - s.readG c a.toNat 0) {} ∧
      GivesG (.cAnd d a) s c d.toNat (s.readG c d.toNat 0 &&& s.readG c a.toNat 0) {}) ∧
    (Runs s c {} [.src .g d.toNat 0, .dst .g d.toNat] →
      GivesG (.cAddi d i) s c d.toNat (s.readG c d.toNat 0 + i.signExtend 64) {} ∧
      GivesG (.cSlli d i) s c d.toNat (s.readG c d.toNat 0 <<< i.toNat) {} ∧
      GivesG (.cSrli d i) s c d.toNat (s.readG c d.toNat 0 >>> i.toNat) {}) ∧
    (Runs s c {} [.src .g 0 0, .dst .g d.toNat] → GivesG (.cLi d i) s c d.toNat (i.signExtend 64) {})

/-- R105, R106: the compares set qD by their relation, on a register or a sign-extended 9-bit immediate; the condition logic
combines q registers. -/
def Obligations.ComparesAndConditions : Prop :=
  (∀ e ∈ cmpOps, ∀ (q : BitVec 3) (a b : BitVec 5) (x y : BitVec 3) (i : BitVec 9) (s : State) (c : Ctx),
    (Runs s c {} [.src .g a.toNat x.toNat, .src .g b.toNat y.toNat, .dst .q q.toNat] →
      GivesQ (e.1 q a x b y) s c q.toNat (e.2.2 (s.readG c a.toNat x.toNat) (s.readG c b.toNat y.toNat))) ∧
    (Runs s c {} [.src .g a.toNat x.toNat, .dst .q q.toNat] →
      GivesQ (e.2.1 q a x i) s c q.toNat (e.2.2 (s.readG c a.toNat x.toNat) (i.signExtend 64)))) ∧
  (∀ (q a b x y : BitVec 3) (s : State) (c : Ctx),
    (Runs s c {} [.src .q a.toNat x.toNat, .src .q b.toNat y.toNat, .dst .q q.toNat] →
      GivesQ (.qand q a x b y) s c q.toNat (s.readQ c a.toNat x.toNat && s.readQ c b.toNat y.toNat) ∧
      GivesQ (.qor q a x b y) s c q.toNat (s.readQ c a.toNat x.toNat || s.readQ c b.toNat y.toNat) ∧
      GivesQ (.qxor q a x b y) s c q.toNat (s.readQ c a.toNat x.toNat != s.readQ c b.toNat y.toNat)) ∧
    (Runs s c {} [.src .q a.toNat x.toNat, .dst .q q.toNat] → GivesQ (.qnot q a x) s c q.toNat (!s.readQ c a.toNat x.toNat)))

/-! ### The PC queue, branches and loops -/

namespace Sys2Proof.Claims
open Sys2Proof Sys2Proof.Machine

/-- The entry of a slot after a branch: its nullify flag is set where the branch nullifies, and it is marked as a slot (R24, R154, R181). -/
def slotEntry (br : Branch) (e : QE) : QE :=
  { e with nf := e.nf || br.nullify, slot := true, taken := e.taken || br.taken }

/-- R166, and in a handler the rule of R227: a branch stands where it may, and its target too. -/
def MayBranch (s : State) (c : Ctx) (br : Branch) : Prop :=
  if c.hnd = true then br.taken = true → (s.pcOf c).toNat < br.target.toNat
  else ∀ l rest, (s.slip c.b c.i).levels = l :: rest →
    s.lengthWait c (s.queueOf c).q1 = none ∧ (s.queueOf c).q1.inBody l = true ∧ (s.queueOf c).q2.inBody l = true ∧ (br.taken = true → l.covers br.target = true)

/-- A signed offset in halfwords, in bytes (R45). -/
def halves {n : Nat} (o : BitVec n) : Word := BitVec.ofInt 64 (2 * o.toInt)

/-- The taken branch of a jump. -/
def jumpTo (a : Word) : Branch := { taken := true, target := a, nullify := false, leave := false }

end Sys2Proof.Claims

/-- R24: outside a loop the queue moves by one entry. Without a branch the entry after PCQ2 is its sequential successor; with a
taken branch it is the target; the two slots take the nullify flag. Nothing but the queue changes. -/
def Obligations.QueueStepOutsideLoops : Prop :=
  ∀ (p : Slip) (len : Word → Option Nat), p.levels = [] →
    let q := (p.resolve len).live
    p.advance len none = { p with live := { q0 := { q.q1 with tag := .plain }, q1 := q.q2, q2 := { addr := q.q2.after len } } } ∧
    ∀ br : Branch, p.advance len (some br) = { p with live :=
      { q0 := { slotEntry br q.q1 with tag := .plain }
        q1 := slotEntry br q.q2
        q2 := if br.taken then { addr := some br.target, tag := if br.leave then .leave else .plain } else { addr := q.q2.after len } } }

/-- R158, R160, R162: when the entry that comes to PCQ0 begins the next iteration of the innermost loop, the iteration index grows
by one, and every register the loop versions reads at distance 1 as it did at distance 0, and at distance 0 as before until it is
written. Iterations run one after another (log 7). -/
def Obligations.IterationCarriesForward : Prop :=
  ∀ (p : Slip) (len : Word → Option Nat) (l : Level) (rest : List Level), p.levels = l :: rest →
    (p.resolve len).live.q1.tag = .iter →
    let t := p.advance len none
    t.levels = { l with idx := l.idx + 1 } :: rest ∧
    (∀ r, r < 32 → l.masks.has .g r = true → t.getG r 1 = p.getG r 0 ∧ t.getG r 0 = p.getG r 0) ∧
    (∀ r, r < 32 → l.masks.has .f r = true → t.getF r 1 = p.getF r 0 ∧ t.getF r 0 = p.getF r 0) ∧
    (∀ r, r < 32 → l.masks.has .w r = true → t.getW r 1 = p.getW r 0 ∧ t.getW r 0 = p.getW r 0) ∧
    (∀ r, r < 8 → l.masks.has .q r = true → t.getQ r 1 = p.getQ r 0 ∧ t.getQ r 0 = p.getQ r 0) ∧
    (∀ r, r < 8 → l.masks.has .m r = true → t.getM r 1 = p.getM r 0 ∧ t.getM r 0 = p.getM r 0)

/-- R60, R109 to R112: the branch and the jumps complete where R166 lets them stand; JL and JLR write the address after PCQ2 to g1,
JLR after it has read its source. The readings of logs 14 and 15 are the model's, and a link that no slot's length determines is a free value (log 16). -/
def Sys2Proof.Claims.branchesAndJumps : Prop :=
  ∀ (s : State) (c : Ctx),
    (∀ (q : BitVec 3) (t : BitVec 1) (n : BitVec 2) (o : BitVec 19), Runs s c {} [.src .q q.toNat 0] →
      let taken := s.readQ c q.toNat 0 != (t == 1)
      let br : Branch := { taken := taken, target := s.pcOf c + halves o, nullify := (n == 1 && !taken) || (n == 2 && taken), leave := false }
      MayBranch s c br → exec (.br q t n o) s = .next (s.advance c (some br) true)) ∧
    (∀ (o : BitVec 11), Runs s c {} [.src .q 1 0] →
      let br : Branch := { taken := s.readQ c 1 0, target := s.pcOf c + halves o, nullify := false, leave := false }
      MayBranch s c br → exec (.cBrq o) s = .next (s.advance c (some br) true)) ∧
    (∀ (o : BitVec 25), Runs s c {} [] → MayBranch s c (jumpTo (s.pcOf c + halves o)) →
      exec (.j o) s = .next (s.advance c (some (jumpTo (s.pcOf c + halves o))) true)) ∧
    (∀ (o : BitVec 11), Runs s c {} [] → MayBranch s c (jumpTo (s.pcOf c + halves o)) →
      exec (.cJ o) s = .next (s.advance c (some (jumpTo (s.pcOf c + halves o))) true)) ∧
    (∀ (o : BitVec 25) (a : Word), Runs s c {} [.dst .g 1] → MayBranch s c (jumpTo (s.pcOf c + halves o)) →
      s.lengthWait c (s.queueOf c).q1 = none → s.lengthWait c (s.queueOf c).q2 = none → (s.queueOf c).q2.after (s.lenAt c) = some a →
      exec (.jl o) s = .next ((s.writeG c 1 a).advance c (some (jumpTo (s.pcOf c + halves o))) true)) ∧
    (∀ (a : BitVec 5) (x : BitVec 3) (i : BitVec 12), Runs s c {} [.src .g a.toNat x.toNat] →
      let t := s.readG c a.toNat x.toNat + i.signExtend 64
      t.toNat % 2 = 0 → MayBranch s c (jumpTo t) → exec (.jr a x i) s = .next (s.advance c (some (jumpTo t)) true)) ∧
    (∀ (a : BitVec 5) (x : BitVec 3) (i : BitVec 12) (link : Word), Runs s c {} [.src .g a.toNat x.toNat, .dst .g 1] →
      let t := s.readG c a.toNat x.toNat + i.signExtend 64
      t.toNat % 2 = 0 → MayBranch s c (jumpTo t) → s.lengthWait c (s.queueOf c).q1 = none → s.lengthWait c (s.queueOf c).q2 = none →
      (s.queueOf c).q2.after (s.lenAt c) = some link →
      exec (.jlr a x i) s = .next ((s.writeG c 1 link).advance c (some (jumpTo t)) true)) ∧
    (Runs s c {} [.src .g 1 0] → (s.readG c 1 0).toNat % 2 = 0 → MayBranch s c (jumpTo (s.readG c 1 0)) →
      exec .cRet s = .next (s.advance c (some (jumpTo (s.readG c 1 0))) true))

namespace Sys2Proof.Claims
open Sys2Proof Sys2Proof.Machine

/-- Where i, a branch or jump, traps instead of going on (R166, R227): in a handler, taken to a target not ahead, cause 17; in a loop, with a
slot outside the body, cause 7, and then taken to a target outside it, cause 6. The lengths it asks for can be read: that of the entry at
PCQ1, and for a link that at PCQ2. -/
def BranchTraps (i : Instr) (s : State) (c : Ctx) (br : Branch) (link : Bool) : Prop :=
  let q := s.queueOf c
  (link = true ∨ c.hnd = false → s.lengthWait c q.q1 = none) → (link = true → s.lengthWait c q.q2 = none) →
    (c.hnd = true → br.taken = true → br.target.toNat ≤ (s.pcOf c).toNat → exec i s = .next (s.raise c 17 br.target false)) ∧
    (∀ l rest, c.hnd = false → (s.slip c.b c.i).levels = l :: rest →
      (q.q1.inBody l = false ∨ q.q2.inBody l = false → exec i s = .next (s.raise c 7 (s.pcOf c) false)) ∧
      (q.q1.inBody l = true → q.q2.inBody l = true → br.taken = true → l.covers br.target = false →
        exec i s = .next (s.raise c 6 br.target false)))

/-- Where i, a jump through a register, traps: an odd target is cause 8 (R115), before what stops any branch. -/
def JumpTraps (i : Instr) (s : State) (c : Ctx) (t : Word) (link : Bool) : Prop :=
  (t.toNat % 2 = 1 → exec i s = .next (s.raise c 8 t false)) ∧ (t.toNat % 2 = 0 → BranchTraps i s c (jumpTo t) link)

end Sys2Proof.Claims

/-- R60, R115, R166, R227: where each branch and jump traps, the compact forms as their expansions: an odd target of JR, JLR and C.RET is
cause 8; in a loop, slots outside the body are cause 7, taken or not, and then a target outside it cause 6, each before the queue moves and
before a link is written; in a handler a target not ahead is cause 17. The readings of logs 14 and 15 are the model's. -/
def Sys2Proof.Claims.branchFaults : Prop :=
  ∀ (s : State) (c : Ctx),
    (∀ (q : BitVec 3) (t : BitVec 1) (n : BitVec 2) (o : BitVec 19), Runs s c {} [.src .q q.toNat 0] →
      BranchTraps (.br q t n o) s c
        { taken := s.readQ c q.toNat 0 != (t == 1), target := s.pcOf c + halves o, nullify := false, leave := false } false) ∧
    (∀ o : BitVec 11, Runs s c {} [.src .q 1 0] →
      BranchTraps (.cBrq o) s c { taken := s.readQ c 1 0, target := s.pcOf c + halves o, nullify := false, leave := false } false) ∧
    (∀ o : BitVec 25, Runs s c {} [] → BranchTraps (.j o) s c (jumpTo (s.pcOf c + halves o)) false) ∧
    (∀ o : BitVec 11, Runs s c {} [] → BranchTraps (.cJ o) s c (jumpTo (s.pcOf c + halves o)) false) ∧
    (∀ o : BitVec 25, Runs s c {} [.dst .g 1] → BranchTraps (.jl o) s c (jumpTo (s.pcOf c + halves o)) true) ∧
    (∀ (a : BitVec 5) (x : BitVec 3) (i : BitVec 12), Runs s c {} [.src .g a.toNat x.toNat] →
      JumpTraps (.jr a x i) s c (s.readG c a.toNat x.toNat + i.signExtend 64) false) ∧
    (∀ (a : BitVec 5) (x : BitVec 3) (i : BitVec 12), Runs s c {} [.src .g a.toNat x.toNat, .dst .g 1] →
      JumpTraps (.jlr a x i) s c (s.readG c a.toNat x.toNat + i.signExtend 64) true) ∧
    (Runs s c {} [.src .g 1 0] → JumpTraps .cRet s c (s.readG c 1 0) false)

namespace Sys2Proof.Claims
open Sys2Proof Sys2Proof.Machine

/-- A load of n bytes at an address passes every check of R119 or R295, and no earlier copy of the slip is still to land there: the
memory key it reads, the bytes it finds there, and the state with the marks a LOCAL access leaves. The bytes are those in memory but for a
racing read (R313), which may find bytes that it took before (log 6); with none taken it finds those in memory. -/
def LoadsAt (s : State) (c : Ctx) (ea : Word) (n key : Nat) (bs : List Byte) (t : State) : Prop :=
  s.poisoned key n = false ∧ ((s.slip c.b c.i).early = [] → bs = s.bytesAt key n) ∧
  ((bitsOf ea.toNat 63 60 = 1 ∧ s.localFault c ea.toNat n = none ∧ key = scratchKey c.b (bitsOf ea.toNat 18 0) ∧
      bs = s.bytesAt key n ∧ t = s.touchAll c (bitsOf ea.toNat 18 0) n) ∨
   (bitsOf ea.toNat 63 60 = 0 ∧ (∃ o, s.reachGlobal c .load ea.toNat n = .hit key o) ∧ s.copyBars c false ea.toNat n = false ∧
      s.loadBytes c false key n = (t, bs)) ∨
   (bitsOf ea.toNat 63 60 = 15 ∧ (∃ o, s.reachSystem c ea.toNat n = .hit key o) ∧ s.copyBars c false ea.toNat n = false ∧
      s.loadBytes c true key n = (t, bs)))

/-- A store of n bytes at an address passes every check, overtakes no earlier command that still reads the bytes, and writes no
part of a poisoned word: the memory key it writes. -/
def StoresAt (s : State) (c : Ctx) (ea : Word) (n key : Nat) : Prop :=
  s.commandBars c ea.toNat n = false ∧ s.partPoisoned key n = false ∧
  ((bitsOf ea.toNat 63 60 = 1 ∧ s.localFault c ea.toNat n = none ∧ key = scratchKey c.b (bitsOf ea.toNat 18 0)) ∨
   (bitsOf ea.toNat 63 60 = 0 ∧ ∃ o, s.reachGlobal c .store ea.toNat n = .hit key o) ∨
   (bitsOf ea.toNat 63 60 = 15 ∧ ∃ o, s.reachSystem c ea.toNat n = .hit key o))

/-- The little-endian bytes of v, n of them, stand at a key of t, and every other byte is that of s (R3). -/
def Stored (s t : State) (key n v : Nat) : Prop :=
  ∀ k, (t.byteAt k).toNat = if key ≤ k ∧ k < key + n then v / 256 ^ (k - key) % 256 else (s.byteAt k).toNat

/-- The loads with a 9-bit offset in units of the size, with their indexed forms: size, and whether sign-extended (R117, R118). -/
def loadOps : List ((BitVec 5 → BitVec 5 → BitVec 3 → BitVec 9 → Instr) × RegReg × Nat × Bool) :=
  [(.lb, .lxB, 1, true), (.lbu, .lxBu, 1, false), (.lh, .lxH, 2, true), (.lhu, .lxHu, 2, false), (.lw, .lxW, 4, true),
   (.lwu, .lxWu, 4, false), (.ld, .lxD, 8, false)]

/-- The stores with a 9-bit offset in units of the size, with their indexed forms: size (R117, R118). -/
def storeOps : List ((BitVec 5 → BitVec 5 → BitVec 3 → BitVec 9 → Instr) × RegReg × Nat) :=
  [(.sb, .sxB, 1), (.sh, .sxH, 2), (.sw, .sxW, 4), (.sd, .sxD, 8)]

/-- n bytes as a 64-bit value, sign- or zero-extended (R118). -/
def extended (signed : Bool) (n v : Nat) : Word :=
  if signed then (BitVec.ofNat (8 * n) v).signExtend 64 else BitVec.ofNat 64 v

/-- i completes as a load into gD: the bytes found, extended; no byte of memory changes. -/
def LoadsG (i : Instr) (s : State) (c : Ctx) (d : Nat) (ea : Word) (n : Nat) (signed : Bool) : Prop :=
  ∀ key bs t0, LoadsAt s c ea n key bs t0 → ∃ t, exec i s = .next t ∧
    t.readG c d 0 = (if d = 0 then 0 else extended signed n (leNat bs)) ∧ t.mem = s.mem ∧ Kept s t c [(.g, d)] {}

/-- i completes as a store: the bytes stand at the key, no other byte changes, no register does. -/
def StoresV (i : Instr) (s : State) (c : Ctx) (ea : Word) (n v : Nat) : Prop :=
  ∀ key, StoresAt s c ea n key → ∃ t, exec i s = .next t ∧ Stored s t key n v ∧ Kept s t c [] {}

/-- A signed offset in units of n bytes (R117, R130, R145). -/
def scaled {w : Nat} (i : BitVec w) (n : Nat) : Word := BitVec.ofInt 64 (i.toInt * n)

end Sys2Proof.Claims

/-- R3, R60, R117, R118, R130, R145: each load whose access passes its checks completes: the little-endian bytes at its address,
extended, are in its destination; memory and every other register are unchanged. -/
def Obligations.LoadsComplete : Prop :=
  ∀ (s : State) (c : Ctx) (d a b : BitVec 5) (x y : BitVec 3),
    (∀ e ∈ loadOps, ∀ i : BitVec 9,
      (Runs s c {} [.src .g a.toNat x.toNat, .dst .g d.toNat] →
        LoadsG (e.1 d a x i) s c d.toNat (s.readG c a.toNat x.toNat + scaled i e.2.2.1) e.2.2.1 e.2.2.2) ∧
      (Runs s c {} [.src .g a.toNat x.toNat, .src .g b.toNat y.toNat, .dst .g d.toNat] →
        LoadsG (e.2.1 d a x b y) s c d.toNat (s.readG c a.toNat x.toNat + s.readG c b.toNat y.toNat) e.2.2.1 e.2.2.2)) ∧
    (∀ i : BitVec 6, Runs s c {} [.src .g 2 0, .dst .g d.toNat] →
      LoadsG (.cLd d i) s c d.toNat (s.readG c 2 0 + BitVec.ofNat 64 (8 * i.toNat)) 8 false ∧
      LoadsG (.cLw d i) s c d.toNat (s.readG c 2 0 + BitVec.ofNat 64 (4 * i.toNat)) 4 true) ∧
    (∀ (i : BitVec 11) key bs t0, Runs s c {} [.src .g a.toNat x.toNat, .dst .f d.toNat] →
      LoadsAt s c (s.readG c a.toNat x.toNat + scaled i 4) 4 key bs t0 → ∃ t, exec (.flw d a x i) s = .next t ∧
        t.readF c d.toNat 0 = BitVec.ofNat 32 (leNat bs) ∧ t.mem = s.mem ∧ Kept s t c [(.f, d.toNat)] {}) ∧
    (∀ (i : BitVec 10) key bs t0, Runs s c {} [.src .g a.toNat x.toNat, .dst .w d.toNat] →
      LoadsAt s c (s.readG c a.toNat x.toNat + scaled i 64) 64 key bs t0 → ∃ t, exec (.vl d a x i) s = .next t ∧
        t.readW c d.toNat 0 = BitVec.ofNat 512 (leNat bs) ∧ t.mem = s.mem ∧ Kept s t c [(.w, d.toNat)] {})

/-- R3, R60, R117, R118, R130, R145: each store whose access passes its checks completes: the bytes at the address are the low bytes
of its source; every other byte of memory and every register is unchanged. -/
def Obligations.StoresComplete : Prop :=
  ∀ (s : State) (c : Ctx) (r a b : BitVec 5) (x y : BitVec 3),
    (∀ e ∈ storeOps, ∀ i : BitVec 9,
      (Runs s c {} [.src .g a.toNat x.toNat, .src .g r.toNat 0] →
        StoresV (e.1 r a x i) s c (s.readG c a.toNat x.toNat + scaled i e.2.2) e.2.2 (s.readG c r.toNat 0).toNat) ∧
      (Runs s c {} [.src .g a.toNat x.toNat, .src .g b.toNat y.toNat, .src .g r.toNat 0] →
        StoresV (e.2.1 r a x b y) s c (s.readG c a.toNat x.toNat + s.readG c b.toNat y.toNat) e.2.2 (s.readG c r.toNat 0).toNat)) ∧
    (∀ i : BitVec 6, Runs s c {} [.src .g 2 0, .src .g r.toNat 0] →
      StoresV (.cSd r i) s c (s.readG c 2 0 + BitVec.ofNat 64 (8 * i.toNat)) 8 (s.readG c r.toNat 0).toNat ∧
      StoresV (.cSw r i) s c (s.readG c 2 0 + BitVec.ofNat 64 (4 * i.toNat)) 4 (s.readG c r.toNat 0).toNat) ∧
    (∀ i : BitVec 11, Runs s c {} [.src .g a.toNat x.toNat, .src .f r.toNat 0] →
      StoresV (.fsw r a x i) s c (s.readG c a.toNat x.toNat + scaled i 4) 4 (s.readF c r.toNat 0).toNat) ∧
    (∀ i : BitVec 10, Runs s c {} [.src .g a.toNat x.toNat, .src .w r.toNat 0] →
      StoresV (.vs r a x i) s c (s.readG c a.toNat x.toNat + scaled i 64) 64 (s.readW c r.toNat 0).toNat)

namespace Sys2Proof.Claims
open Sys2Proof Sys2Proof.Machine

/-- Where i, a load or store of n bytes at ea, traps or is held, before anything changes, by the tables of R119 and R295. -/
def AccessTraps (i : Instr) (s : State) (c : Ctx) (store : Bool) (ea : Word) (n : Nat) : Prop :=
  let a := ea.toNat
  let p := a / 2 ^ 60
  let off := a % 2 ^ 19
  let va := a % 2 ^ 57
  let traps (cause : Nat) : Prop := exec i s = .next (s.raise c cause ea false)
  let isLocal := p = 1
  let isLocalAt := p = 1 ∧ a / 2 ^ 19 % 2 ^ 41 = 0 ∧ a % n = 0
  let isGlobalAt := p = 0 ∧ a / 2 ^ 57 % 2 ^ 3 = 0 ∧ a % n = 0
  let admitted (e : Nat) : Prop := (e / 8 % 8 = 1 ∧ store = false) ∨ (e / 8 % 8 = 2 ∧ (s.slip c.b c.i).owns (e / 2 ^ 56 % 256) = true) ∨
    (e / 8 % 8 = 5 ∧ isControl c.b = true)
  (p ≠ 0 → p ≠ 1 → p ≠ 15 → traps 9) ∧
  (isLocal → a / 2 ^ 19 % 2 ^ 41 ≠ 0 → traps 9) ∧
  (isLocal → a / 2 ^ 19 % 2 ^ 41 = 0 → a % n ≠ 0 → traps 8) ∧
  (isLocalAt → s.holdsBank c off = false → traps 12) ∧
  (isLocalAt → s.holdsBank c off = true → (∃ j, 16 * j < n ∧ (SMap.get? s.syncs (scratchKey c.b (off / 16 * 16 + 16 * j))).isSome = true) →
    traps 21) ∧
  (p = 0 → a / 2 ^ 57 % 2 ^ 3 ≠ 0 → traps 9) ∧
  (p = 0 → a / 2 ^ 57 % 2 ^ 3 = 0 → a % n ≠ 0 → traps 8) ∧
  (isGlobalAt → s.translate c.b false va = .malformed → traps 10) ∧
  (∀ e base size, isGlobalAt → s.translate c.b false va = .leaf e base size → ¬ admitted e → traps 10) ∧
  (∀ e base size, isGlobalAt → s.translate c.b false va = .leaf e base size → admitted e → e.testBit 6 = true →
    exec i s = .next (s.began c)) ∧
  (isGlobalAt → s.translate c.b false va = .absent →
    (s.slip c.b c.i).pageFailed ≠ some (pageName (s.berth c.b).asid (va / 2 ^ 16)) →
    s.notices.any (fun m => m.names (c.b / 2 ^ 13) (s.berth c.b).asid (va / 2 ^ 16)) = false →
    exec i s = .next (((s.noticeFor c.b (va / 2 ^ 16) none).timing c.b 12).raise c 11 ea false)) ∧
  (p = 15 → s.privOf c = false → exec i s = .next (s.raise c 3 (BitVec.ofNat 64 (encode i)) false)) ∧
  (p = 15 → s.privOf c = true →
    a / 2 ^ 52 % 2 ^ 8 ≠ 0 ∨ (s.inMemory (c.b / 2 ^ 13) (a % 2 ^ 52) 1 = false ∧ a % 2 ^ 52 / 2 ^ 48 ≠ 15) → traps 9) ∧
  (p = 15 → s.privOf c = true → a / 2 ^ 52 % 2 ^ 8 = 0 → s.inMemory (c.b / 2 ^ 13) (a % 2 ^ 52) 1 = true ∨ a % 2 ^ 52 / 2 ^ 48 = 15 →
    a % n ≠ 0 → traps 8)

end Sys2Proof.Claims

/-- R60, R119, R130, R145, R269, R276, R295: where every scalar and vector load and store traps, before anything changes, in the order of the
tables: a path that none reaches is cause 9. On the LOCAL path: bits 59:19 set, cause 9; misaligned, 8; the bank not held, 12; a defined sync
word, 21. On the GLOBAL path: bits 59:57 set, 9; misaligned, 8; no entry, 11, with a notice; a malformed entry, or a class that does not
admit the access, 10; a page in migration holds it. On the SYSTEM path: no privilege, 3; no place in the map, 9; misaligned, 8. -/
def Sys2Proof.Claims.accessFaults : Prop :=
  ∀ (s : State) (c : Ctx) (d a b : BitVec 5) (x y : BitVec 3),
    let ga := s.readG c a.toNat x.toNat
    let gb := s.readG c b.toNat y.toNat
    (∀ e ∈ loadOps, ∀ i : BitVec 9,
      (Runs s c {} [.src .g a.toNat x.toNat, .dst .g d.toNat] → AccessTraps (e.1 d a x i) s c false (ga + scaled i e.2.2.1) e.2.2.1) ∧
      (Runs s c {} [.src .g a.toNat x.toNat, .src .g b.toNat y.toNat, .dst .g d.toNat] →
        AccessTraps (e.2.1 d a x b y) s c false (ga + gb) e.2.2.1)) ∧
    (∀ i : BitVec 6, Runs s c {} [.src .g 2 0, .dst .g d.toNat] →
      AccessTraps (.cLd d i) s c false (s.readG c 2 0 + BitVec.ofNat 64 (8 * i.toNat)) 8 ∧
      AccessTraps (.cLw d i) s c false (s.readG c 2 0 + BitVec.ofNat 64 (4 * i.toNat)) 4) ∧
    (∀ i : BitVec 11, Runs s c {} [.src .g a.toNat x.toNat, .dst .f d.toNat] → AccessTraps (.flw d a x i) s c false (ga + scaled i 4) 4) ∧
    (∀ i : BitVec 10, Runs s c {} [.src .g a.toNat x.toNat, .dst .w d.toNat] → AccessTraps (.vl d a x i) s c false (ga + scaled i 64) 64) ∧
    (∀ e ∈ storeOps, ∀ i : BitVec 9,
      (Runs s c {} [.src .g a.toNat x.toNat, .src .g d.toNat 0] → AccessTraps (e.1 d a x i) s c true (ga + scaled i e.2.2) e.2.2) ∧
      (Runs s c {} [.src .g a.toNat x.toNat, .src .g b.toNat y.toNat, .src .g d.toNat 0] →
        AccessTraps (e.2.1 d a x b y) s c true (ga + gb) e.2.2)) ∧
    (∀ i : BitVec 6, Runs s c {} [.src .g 2 0, .src .g d.toNat 0] →
      AccessTraps (.cSd d i) s c true (s.readG c 2 0 + BitVec.ofNat 64 (8 * i.toNat)) 8 ∧
      AccessTraps (.cSw d i) s c true (s.readG c 2 0 + BitVec.ofNat 64 (4 * i.toNat)) 4) ∧
    (∀ i : BitVec 11, Runs s c {} [.src .g a.toNat x.toNat, .src .f d.toNat 0] → AccessTraps (.fsw d a x i) s c true (ga + scaled i 4) 4) ∧
    (∀ i : BitVec 10, Runs s c {} [.src .g a.toNat x.toNat, .src .w d.toNat 0] → AccessTraps (.vs d a x i) s c true (ga + scaled i 64) 64)

/-- R6, R276, R447, R488: the scalar loads and stores with an offset at device registers. One that the spec does not list completes: the load gives some value, the store
changes nothing (the model's choice, log 27); a store of ones to reserved bits of a device register is cause 2. -/
def Sys2Proof.Claims.deviceAccesses : Prop :=
  ∀ (s : State) (c : Ctx) (d a : BitVec 5) (x : BitVec 3) (i : BitVec 9),
    (∀ e ∈ loadOps, Runs s c {} [.src .g a.toNat x.toNat, .dst .g d.toNat] →
      let n := e.2.2.1
      let ea := s.readG c a.toNat x.toNat + scaled i n
      ∀ pa, ea.toNat / 2 ^ 60 = 15 → s.reachSystem c ea.toNat n = .device pa → s.copyBars c false ea.toNat n = false → devReg pa = none →
        ∃ t, exec (e.1 d a x i) s = .next t ∧ t.mem = s.mem ∧ Kept s t c [(.g, d.toNat)] {}) ∧
    (∀ e ∈ storeOps, Runs s c {} [.src .g a.toNat x.toNat, .src .g d.toNat 0] →
      let n := e.2.2
      let ea := s.readG c a.toNat x.toNat + scaled i n
      ∀ pa, ea.toNat / 2 ^ 60 = 15 → s.reachSystem c ea.toNat n = .device pa → s.commandBars c ea.toNat n = false →
        (∀ r, devReg pa = some r → isControl c.b = true → n = 8 → (s.readG c d.toNat 0).toNat &&& r.reserved ≠ 0 →
          exec (e.1 d a x i) s = .next (s.raise c 2 (BitVec.ofNat 64 (encode (e.1 d a x i))) false)) ∧
        (devReg pa = none → ∃ t, exec (e.1 d a x i) s = .next t ∧ t.mem = s.mem ∧ Kept s t c [] {}))

/-! ### Vector memory (R146, R147) -/

namespace Sys2Proof.Claims
open Sys2Proof Sys2Proof.Machine

/-- Every active element of a vector access of z bytes passes its checks (R119, R146): it lies on the LOCAL path, and where part says
so only a partly written poisoned word stops it. -/
def ElementsPass (s : State) (c : Ctx) (z mask : Nat) (ea : Nat → Word) (store : Bool) : Prop :=
  ∀ j, j < 64 / z → bitOf mask j = true →
    bitsOf (ea j).toNat 63 60 = 1 ∧ s.localFault c (ea j).toNat z = none ∧
    (if store then s.partPoisoned (elemKey c (ea j)) z = false ∧ s.commandBars c (ea j).toNat z = false
     else s.poisoned (elemKey c (ea j)) z = false)

/-- i completes as a gather into wD: active elements from memory, inactive ones zero; memory is unchanged. -/
def Gathers (i : Instr) (s : State) (c : Ctx) (d z mask : Nat) (ea : Nat → Word) : Prop :=
  ElementsPass s c z mask ea false → ∃ t, exec i s = .next t ∧
    (∀ j, j < 64 / z → elemOf (t.readW c d 0) (8 * z) j = if bitOf mask j then s.natAt (elemKey c (ea j)) z else 0) ∧
    t.mem = s.mem ∧ Kept s t c [(.w, d)] {}

/-- i completes as a scatter of v: a byte reads as the last active element that covers it, and as before where none does. -/
def Scatters (i : Instr) (s : State) (c : Ctx) (z mask : Nat) (ea : Nat → Word) (v : Wide) : Prop :=
  ElementsPass s c z mask ea true → ∃ t, exec i s = .next t ∧
    (∀ k, (∀ j, j < 64 / z → bitOf mask j = true → ¬ (elemKey c (ea j) ≤ k ∧ k < elemKey c (ea j) + z)) → t.byteAt k = s.byteAt k) ∧
    (∀ j, j < 64 / z → bitOf mask j = true →
      (∀ j', j < j' → j' < 64 / z → bitOf mask j' = true → elemKey c (ea j) + z ≤ elemKey c (ea j') ∨ elemKey c (ea j') + z ≤ elemKey c (ea j)) →
      t.natAt (elemKey c (ea j)) z = elemOf v (8 * z) j) ∧
    Kept s t c [] {}

end Sys2Proof.Claims

/-- R144, R146, R147: the strided and indexed vector accesses. Element i lies at base + i × stride, or at base + index i × size. A
load gives zero for inactive elements; a store writes the active ones in ascending order and no other byte. -/
def Obligations.VectorMemory : Prop :=
  ∀ (s : State) (c : Ctx) (d a b : BitVec 5) (x m : BitVec 3) (e : BitVec 2),
    let z := 2 ^ e.toNat
    let base := s.readG c a.toNat x.toNat
    let mask := (s.readM c m.toNat 0).toNat
    let stride (j : Nat) : Word := base + BitVec.ofNat 64 j * s.readG c b.toNat 0
    let index (j : Nat) : Word := base + BitVec.ofNat 64 (elemOf (s.readW c b.toNat 0) (8 * z) j * z)
    (Runs s c {} [.src .g a.toNat x.toNat, .src .g b.toNat 0, .src .m m.toNat 0, .dst .w d.toNat] →
      Gathers (.vls d a x b m e) s c d.toNat z mask stride) ∧
    (Runs s c {} [.src .g a.toNat x.toNat, .src .w b.toNat 0, .src .m m.toNat 0, .dst .w d.toNat] →
      Gathers (.vlg d a x b m e) s c d.toNat z mask index) ∧
    (Runs s c {} [.src .g a.toNat x.toNat, .src .g b.toNat 0, .src .m m.toNat 0, .src .w d.toNat 0] →
      Scatters (.vss d a x b m e) s c z mask stride (s.readW c d.toNat 0)) ∧
    (Runs s c {} [.src .g a.toNat x.toNat, .src .w b.toNat 0, .src .m m.toNat 0, .src .w d.toNat 0] →
      Scatters (.vsg d a x b m e) s c z mask index (s.readW c d.toNat 0))

namespace Sys2Proof.Claims
open Sys2Proof Sys2Proof.Machine

/-- Where a vector access of z-byte elements traps, with no element moved: at its first active element that fails a check of R119 (R146). -/
def ElementTraps (i : Instr) (s : State) (c : Ctx) (z mask : Nat) (ea : Nat → Word) : Prop :=
  ∀ j, j < 64 / z → bitOf mask j = true →
    (∀ k, k < j → bitOf mask k = true → bitsOf (ea k).toNat 63 60 = 1 ∧ s.localFault c (ea k).toNat z = none) →
    let a := (ea j).toNat
    let off := a % 2 ^ 19
    let traps (cause : Nat) : Prop := exec i s = .next (s.raise c cause (ea j) false)
    let isLocal := a / 2 ^ 60 = 1 ∧ a / 2 ^ 19 % 2 ^ 41 = 0
    (a / 2 ^ 60 ≠ 1 → traps 9) ∧ (a / 2 ^ 60 = 1 → a / 2 ^ 19 % 2 ^ 41 ≠ 0 → traps 9) ∧
    (isLocal → a % z ≠ 0 → traps 8) ∧
    (isLocal → a % z = 0 → s.holdsBank c off = false → traps 12) ∧
    (isLocal → a % z = 0 → s.holdsBank c off = true → (SMap.get? s.syncs (scratchKey c.b (off / 16 * 16))).isSome = true → traps 21)

end Sys2Proof.Claims

/-- R96, R119, R146: where the strided and indexed vector accesses trap: the first active element, in ascending order, that fails a check gives
the cause and TVAL, on any path but LOCAL cause 9, and no element is loaded or stored. -/
def Sys2Proof.Claims.elementFaults : Prop :=
  ∀ (s : State) (c : Ctx) (d a b : BitVec 5) (x m : BitVec 3) (e : BitVec 2),
    let z := 2 ^ e.toNat
    let base := s.readG c a.toNat x.toNat
    let mask := (s.readM c m.toNat 0).toNat
    let stride (j : Nat) : Word := base + BitVec.ofNat 64 j * s.readG c b.toNat 0
    let index (j : Nat) : Word := base + BitVec.ofNat 64 (elemOf (s.readW c b.toNat 0) (8 * z) j * z)
    (Runs s c {} [.src .g a.toNat x.toNat, .src .g b.toNat 0, .src .m m.toNat 0, .dst .w d.toNat] → ElementTraps (.vls d a x b m e) s c z mask stride) ∧
    (Runs s c {} [.src .g a.toNat x.toNat, .src .w b.toNat 0, .src .m m.toNat 0, .dst .w d.toNat] → ElementTraps (.vlg d a x b m e) s c z mask index) ∧
    (Runs s c {} [.src .g a.toNat x.toNat, .src .g b.toNat 0, .src .m m.toNat 0, .src .w d.toNat 0] → ElementTraps (.vss d a x b m e) s c z mask stride) ∧
    (Runs s c {} [.src .g a.toNat x.toNat, .src .w b.toNat 0, .src .m m.toNat 0, .src .w d.toNat 0] → ElementTraps (.vsg d a x b m e) s c z mask index)

/-! ### Floating point -/

namespace Sys2Proof.Claims
open Sys2Proof Sys2Proof.Machine

/-- The two-operand arithmetic of R127 and R133: the scalar form, the vector form, and the result in a format with its events. -/
def fpOps : List (RegReg × (BitVec 5 → BitVec 5 → BitVec 3 → BitVec 5 → BitVec 3 → Instr) × (Fmt → Nat → Nat → Nat × Ev)) :=
  [(.fadd, .vfadd, fun f a b => roundNE f (vadd (exact f a) (exact f b))),
   (.fsub, .vfsub, fun f a b => roundNE f (vadd (exact f a) (exact f b).neg)),
   (.fmul, .vfmul, fun f a b => roundNE f (vmul (exact f a) (exact f b))),
   (.fdiv, .vfdiv, fun f a b => withZeroDiv (vdiv (exact f a) (exact f b)).2 (roundNE f (vdiv (exact f a) (exact f b)).1)),
   (.fmin, .vfmin, fun f a b => fpMinMax f false a b), (.fmax, .vfmax, fun f a b => fpMinMax f true a b)]

/-- The fused forms of R127: are the product and the addend negated? -/
def fusedOps : List ((BitVec 5 → BitVec 5 → BitVec 5 → BitVec 5 → Instr) × Bool × Bool) :=
  [(.fma, false, false), (.fms, false, true), (.fnma, true, false), (.fnms, true, true)]

/-- Negate when asked. -/
def signed (n : Bool) (v : Val) : Val := if n then v.neg else v

/-- The one-operand lane operations of R133: the exact value before the one rounding, with a zero-divisor flag. -/
def laneOps : List ((BitVec 5 → BitVec 5 → BitVec 3 → BitVec 3 → Instr) × (Fmt → Nat → Nat × Ev)) :=
  [(.vfexp2, fun f a => roundNE f (vexp2 (exact f a)).1),
   (.vfrcp, fun f a => withZeroDiv (vdiv (.fin false 1 0 false) (exact f a)).2 (roundNE f (vdiv (.fin false 1 0 false) (exact f a)).1)),
   (.vfrsq, fun f a => withZeroDiv (vrsqrt (exact f a)).2 (roundNE f (vrsqrt (exact f a)).1)),
   (.vfabs, fun f a => (a % 2 ^ (f.width - 1), {})), (.vfneg, fun f a => (a ^^^ 2 ^ (f.width - 1), {}))]

/-- The events of the lanes of a value, added up (R93). -/
def laneEvents (n : Nat) (f : Nat → Ev) : Ev := Ev.sum ((List.range n).map f)

end Sys2Proof.Claims

/-- R81, R82, R127: the FP32 arithmetic completes with the exact result rounded once to nearest even (FMIN and FMAX by R82), its events
counted; FABS clears and FNEG inverts bit 31 and count nothing. -/
def Sys2Proof.Claims.scalarFloatArithmetic : Prop :=
  ∀ (s : State) (c : Ctx) (d a b r : BitVec 5) (x y : BitVec 3),
    let va := (s.readF c a.toNat x.toNat).toNat
    let vb := (s.readF c b.toNat y.toNat).toNat
    (Runs s c {} [.src .f a.toNat x.toNat, .src .f b.toNat y.toNat, .dst .f d.toNat] → ∀ e ∈ fpOps,
      GivesF (e.1 d a x b y) s c d.toNat (BitVec.ofNat 32 (e.2.2 .fp32 va vb).1) (e.2.2 .fp32 va vb).2) ∧
    (Runs s c {} [.src .f a.toNat x.toNat, .dst .f d.toNat] →
      GivesF (.fsqrt d a x) s c d.toNat (BitVec.ofNat 32 (roundNE .fp32 (vsqrt (exact .fp32 va))).1) (roundNE .fp32 (vsqrt (exact .fp32 va))).2 ∧
      GivesF (.fabs d a x) s c d.toNat (s.readF c a.toNat x.toNat &&& 0x7FFFFFFF) {} ∧
      GivesF (.fneg d a x) s c d.toNat (s.readF c a.toNat x.toNat ^^^ 0x80000000) {}) ∧
    (Runs s c {} [.src .f a.toNat 0, .src .f b.toNat 0, .src .f r.toNat 0, .dst .f d.toNat] → ∀ e ∈ fusedOps,
      let p := vmul (exact .fp32 (s.readF c a.toNat 0).toNat) (exact .fp32 (s.readF c b.toNat 0).toNat)
      let v := roundNE .fp32 (vadd (signed e.2.1 p) (signed e.2.2 (exact .fp32 (s.readF c r.toNat 0).toNat)))
      GivesF (e.1 d a b r) s c d.toNat (BitVec.ofNat 32 v.1) v.2)

/-- R82, R128, R129: the conversions round once under their mode; the moves copy bits; a relation with a NaN is false; FCLASS sets the
one bit of its operand's class. -/
def Sys2Proof.Claims.scalarFloatConversions : Prop :=
  ∀ (s : State) (c : Ctx) (d a b : BitVec 5) (q x y : BitVec 3) (r : BitVec 2) (h : BitVec 1),
    let va := (s.readF c a.toNat x.toNat).toNat
    let vb := (s.readF c b.toNat y.toNat).toNat
    let rm : Rm := if r = 0 then .ne else if r = 1 then .rz else if r = 2 then .up else .down
    (Runs s c {} [.src .f a.toNat x.toNat, .dst .g d.toNat] →
      GivesG (.fcvti d a x r h) s c d.toNat (BitVec.ofInt 64 (roundToInt 64 rm (h == 1) 0 (exact .fp32 va)).1)
        (roundToInt 64 rm (h == 1) 0 (exact .fp32 va)).2 ∧
      GivesG (.fmvgf d a x) s c d.toNat ((s.readF c a.toNat x.toNat).setWidth 64) {} ∧
      GivesG (.fclass d a x) s c d.toNat (BitVec.ofNat 64 (2 ^ fpClass .fp32 va)) {}) ∧
    (Runs s c {} [.src .g a.toNat x.toNat, .dst .f d.toNat] →
      (let v := roundTo .fp32 rm false 0 (Val.ofInt (s.readG c a.toNat x.toNat).toInt)
       GivesF (.fcvtf d a x r h) s c d.toNat (BitVec.ofNat 32 v.1) v.2) ∧
      GivesF (.fmvfg d a x) s c d.toNat ((s.readG c a.toNat x.toNat).setWidth 32) {}) ∧
    (Runs s c {} [.src .f a.toNat x.toNat, .dst .f d.toNat] →
      let v := roundTo .bf16 rm (h == 1) 0 (exact .fp32 va)
      GivesF (.fcvtb d a x r h) s c d.toNat (BitVec.ofNat 32 (v.1 * 65536)) v.2) ∧
    (Runs s c {} [.src .f a.toNat x.toNat, .src .f b.toNat y.toNat, .dst .q q.toNat] →
      GivesQ (.fceq q a x b y) s c q.toNat (vcompare (exact .fp32 va) (exact .fp32 vb) == some .eq) ∧
      GivesQ (.fclt q a x b y) s c q.toNat (vcompare (exact .fp32 va) (exact .fp32 vb) == some .lt) ∧
      GivesQ (.fcle q a x b y) s c q.toNat
        (vcompare (exact .fp32 va) (exact .fp32 vb) == some .lt || vcompare (exact .fp32 va) (exact .fp32 vb) == some .eq))

/-! ### Vector arithmetic -/

namespace Sys2Proof.Claims
open Sys2Proof Sys2Proof.Machine

/-- The vector forms of two w sources with an element code. -/
abbrev VecReg := BitVec 5 → BitVec 5 → BitVec 3 → BitVec 5 → BitVec 3 → Instr

/-- The integer lane operations of R132 that count no event, on lanes of k bits. -/
def vecIntOps : List (VecReg × ((k : Nat) → BitVec k → BitVec k → BitVec k)) :=
  [(.vadd, fun _ a b => a + b), (.vsub, fun _ a b => a - b), (.vmul, fun _ a b => a * b),
   (.vmulh, fun k a b => BitVec.ofInt k (a.toInt * b.toInt / 2 ^ k)), (.vmin, fun _ a b => if a.toInt ≤ b.toInt then a else b),
   (.vmax, fun _ a b => if a.toInt ≤ b.toInt then b else a), (.vminu, fun _ a b => if a ≤ b then a else b),
   (.vmaxu, fun _ a b => if a ≤ b then b else a), (.vand, fun _ a b => a &&& b), (.vor, fun _ a b => a ||| b),
   (.vxor, fun _ a b => a ^^^ b), (.vsll, fun k a b => a <<< (b.toNat % k)), (.vsrl, fun k a b => a >>> (b.toNat % k)),
   (.vsra, fun k a b => a.sshiftRight (b.toNat % k))]

/-- Element j of a w register as a lane of k bits. -/
def lane (v : Wide) (k j : Nat) : BitVec k := BitVec.ofNat k (elemOf v k j)

/-- An integer clamped to a signed range of k bits, and whether it was (R68). -/
def clamped (k : Nat) (z : Int) : BitVec k × Ev :=
  if z < -(2 ^ (k - 1)) then (BitVec.ofInt k (-(2 ^ (k - 1))), { sat := 1 })
  else if z > 2 ^ (k - 1) - 1 then (BitVec.ofInt k (2 ^ (k - 1) - 1), { sat := 1 })
  else (BitVec.ofInt k z, {})

end Sys2Proof.Claims

/-- R54, R124, R125, R132: the integer vector arithmetic completes lane by lane on lanes of 8, 16, 32 or 64 bits; VADDS and VSUBS clamp
and count one saturation for each lane that clamps. -/
def Obligations.VectorInteger : Prop :=
  ∀ (s : State) (c : Ctx) (d a b : BitVec 5) (x e : BitVec 3), e.toNat ≤ 3 →
    Runs s c {} [.src .w a.toNat x.toNat, .src .w b.toNat 0, .dst .w d.toNat] →
    let k := 8 * 2 ^ e.toNat
    let u := s.readW c a.toNat x.toNat
    let v := s.readW c b.toNat 0
    (∀ o ∈ vecIntOps, GivesW (o.1 d a x b e) s c d.toNat k (512 / k) (fun j => (o.2 k (lane u k j) (lane v k j)).toNat) {}) ∧
    GivesW (.vadds d a x b e) s c d.toNat k (512 / k) (fun j => (clamped k ((lane u k j).toInt + (lane v k j).toInt)).1.toNat)
      (laneEvents (512 / k) (fun j => (clamped k ((lane u k j).toInt + (lane v k j).toInt)).2)) ∧
    GivesW (.vsubs d a x b e) s c d.toNat k (512 / k) (fun j => (clamped k ((lane u k j).toInt - (lane v k j).toInt)).1.toNat)
      (laneEvents (512 / k) (fun j => (clamped k ((lane u k j).toInt - (lane v k j).toInt)).2))

/-- R133, R134: the float vector arithmetic completes lane by lane in FP32 or BF16, each lane rounded once, the events of the lanes
added up. The computation of 2^x is that of log 20. -/
def Obligations.VectorFloat : Prop :=
  ∀ (s : State) (c : Ctx) (d a b r : BitVec 5) (x e : BitVec 3), e.toNat ≤ 1 →
    let f : Fmt := if e = 0 then .fp32 else .bf16
    let n := 512 / f.width
    (Runs s c {} [.src .w a.toNat x.toNat, .src .w b.toNat 0, .dst .w d.toNat] → ∀ o ∈ fpOps,
      let g (j : Nat) : Nat × Ev := o.2.2 f (elemOf (s.readW c a.toNat x.toNat) f.width j) (elemOf (s.readW c b.toNat 0) f.width j)
      GivesW (o.2.1 d a x b e) s c d.toNat f.width n (fun j => (g j).1) (laneEvents n (fun j => (g j).2))) ∧
    (Runs s c {} [.src .w a.toNat x.toNat, .dst .w d.toNat] → ∀ o ∈ laneOps,
      let g (j : Nat) : Nat × Ev := o.2 f (elemOf (s.readW c a.toNat x.toNat) f.width j)
      GivesW (o.1 d a x e) s c d.toNat f.width n (fun j => (g j).1) (laneEvents n (fun j => (g j).2))) ∧
    (Runs s c {} [.src .w a.toNat 0, .src .w b.toNat 0, .src .w r.toNat 0, .dst .w d.toNat] →
      let g (h : Fmt) (neg : Bool) (j : Nat) : Nat × Ev :=
        roundNE h (vadd (vmul (exact h (elemOf (s.readW c a.toNat 0) h.width j)) (exact h (elemOf (s.readW c b.toNat 0) h.width j)))
          (signed neg (exact h (elemOf (s.readW c r.toNat 0) h.width j))))
      GivesW (.vfmaS d a b r) s c d.toNat 32 16 (fun j => (g .fp32 false j).1) (laneEvents 16 (fun j => (g .fp32 false j).2)) ∧
      GivesW (.vfmsS d a b r) s c d.toNat 32 16 (fun j => (g .fp32 true j).1) (laneEvents 16 (fun j => (g .fp32 true j).2)) ∧
      GivesW (.vfmaBf d a b r) s c d.toNat 16 32 (fun j => (g .bf16 false j).1) (laneEvents 32 (fun j => (g .bf16 false j).2)) ∧
      GivesW (.vfmsBf d a b r) s c d.toNat 16 32 (fun j => (g .bf16 true j).1) (laneEvents 32 (fun j => (g .bf16 true j).2)))

namespace Sys2Proof.Claims
open Sys2Proof Sys2Proof.Machine

/-- The width in bits of an element of a view of the permutes and reductions: bytes, halves, words, doublewords, FP32, BF16 (R54). -/
def widthOf (e : Nat) : Nat := if e = 4 then 32 else if e = 5 then 16 else 8 * 2 ^ e

/-- The selects by width. -/
def selOps : List ((BitVec 5 → BitVec 5 → BitVec 5 → BitVec 3 → Instr) × Nat) := [(.vselB, 8), (.vselH, 16), (.vselW, 32), (.vselD, 64)]

/-- The integer reductions of R136 with their identity, on k bits. -/
def redOps : List ((BitVec 5 → BitVec 5 → BitVec 3 → BitVec 3 → BitVec 3 → Instr) × ((k : Nat) → BitVec k) × ((k : Nat) → BitVec k → BitVec k → BitVec k)) :=
  [(.vrsum, fun _ => 0, fun _ a b => a + b),
   (.vrmax, fun k => BitVec.intMin k, fun _ a b => if a.toInt ≤ b.toInt then b else a),
   (.vrmin, fun k => BitVec.intMax k, fun _ a b => if a.toInt ≤ b.toInt then a else b)]

/-- The float reductions of R84 and R136: identity code and operation in a format. -/
def fltRedOps : List ((BitVec 5 → BitVec 5 → BitVec 3 → BitVec 3 → BitVec 3 → Instr) × (Fmt → Nat) × (Fmt → Nat → Nat → Nat × Ev)) :=
  [(.vrsum, fun f => 2 ^ (f.width - 1), fun f a b => roundNE f (vadd (exact f a) (exact f b))),
   (.vrmax, fun f => if f = .fp32 then 0xFF800000 else 0xFF80, fun f a b => fpMinMax f true a b),
   (.vrmin, fun f => if f = .fp32 then 0x7F800000 else 0x7F80, fun f a b => fpMinMax f false a b)]

end Sys2Proof.Claims

/-- R134, R137: select takes each element by the mask's bit; VPERM, VBCAST and VSPLAT move elements, indices taken modulo the number
of elements. -/
def Obligations.VectorSelectAndPermute : Prop :=
  ∀ (s : State) (c : Ctx) (d a b : BitVec 5) (m x e : BitVec 3),
    (Runs s c {} [.src .w a.toNat 0, .src .w b.toNat 0, .src .m m.toNat 0, .dst .w d.toNat] → ∀ o ∈ selOps,
      GivesW (o.1 d a b m) s c d.toNat o.2 (512 / o.2) (fun j =>
        if (s.readM c m.toNat 0).getLsbD j then elemOf (s.readW c a.toNat 0) o.2 j else elemOf (s.readW c b.toNat 0) o.2 j) {}) ∧
    (e.toNat ≤ 5 →
      let k := widthOf e.toNat
      (Runs s c {} [.src .w a.toNat x.toNat, .src .w b.toNat 0, .dst .w d.toNat] →
        GivesW (.vperm d a x b e) s c d.toNat k (512 / k)
          (fun j => elemOf (s.readW c a.toNat x.toNat) k (elemOf (s.readW c b.toNat 0) k j % (512 / k))) {}) ∧
      (Runs s c {} [.src .w a.toNat x.toNat, .src .g b.toNat 0, .dst .w d.toNat] →
        GivesW (.vbcast d a x b e) s c d.toNat k (512 / k)
          (fun _ => elemOf (s.readW c a.toNat x.toNat) k ((s.readG c b.toNat 0).toNat % (512 / k))) {}) ∧
      (Runs s c {} [.src .g a.toNat x.toNat, .dst .w d.toNat] →
        GivesW (.vsplat d a x e) s c d.toNat k (512 / k) (fun _ => (s.readG c a.toNat x.toNat).toNat % 2 ^ k) {}))

/-- R84, R136: a reduction of the active elements goes to element 0, every other element is zero. An integer reduction folds them, an
inactive element standing as the identity; a float reduction adds over the pairwise tree of R84 and counts at most one event of a kind. -/
def Obligations.VectorReductions : Prop :=
  ∀ (s : State) (c : Ctx) (d a : BitVec 5) (x m e : BitVec 3),
    Runs s c {} [.src .w a.toNat x.toNat, .src .m m.toNat 0, .dst .w d.toNat] →
    let k := widthOf e.toNat
    let act (j : Nat) : Bool := (s.readM c m.toNat 0).getLsbD j
    (e.toNat ≤ 3 → ∀ o ∈ redOps, GivesW (o.1 d a x m e) s c d.toNat k 1 (fun _ =>
      (((List.range (512 / k)).filter act).foldl (fun t j => o.2.2 k t (lane (s.readW c a.toNat x.toNat) k j)) (o.2.1 k)).toNat) {}) ∧
    (e.toNat = 4 ∨ e.toNat = 5 → ∀ o ∈ fltRedOps,
      let f : Fmt := if e = 4 then .fp32 else .bf16
      let r := pairTree (o.2.2 f) 5 ((List.range (512 / k)).map (fun j => if act j then elemOf (s.readW c a.toNat x.toNat) k j else o.2.1 f))
      GivesW (o.1 d a x m e) s c d.toNat k 1 (fun _ => r.1) r.2.once)

namespace Sys2Proof.Claims
open Sys2Proof Sys2Proof.Machine

/-- The narrowing and rounding conversions of R141: lanes, source and destination width, and the conversion of a lane under a mode, a
saturation flag and its random bits. -/
def cvtOps : List (VecReg × Nat × Nat × Nat × (Rm → Bool → Nat → Nat → Nat × Ev)) :=
  [(.vcvtBfS, 16, 32, 16, fun rm t r v => roundTo .bf16 rm t r (exact .fp32 v)),
   (.vcvtHfS, 16, 32, 16, fun rm t r v => roundTo .fp16 rm t r (exact .fp32 v)),
   (.vcvtI32S, 16, 32, 32, fun rm t r v => (((roundToInt 32 rm t r (exact .fp32 v)).1 % 2 ^ 32).toNat, (roundToInt 32 rm t r (exact .fp32 v)).2)),
   (.vcvtSI32, 16, 32, 32, fun rm _ r v => roundTo .fp32 rm false r (Val.ofInt (BitVec.ofNat 32 v).toInt)),
   (.vcvtI8S, 16, 32, 8, fun rm t r v => (((roundToInt 8 rm t r (exact .fp32 v)).1 % 2 ^ 8).toNat, (roundToInt 8 rm t r (exact .fp32 v)).2)),
   (.vcvtHfBf, 32, 16, 16, fun rm t r v => roundTo .fp16 rm t r (exact .bf16 v)),
   (.vcvtBfHf, 32, 16, 16, fun rm t r v => roundTo .bf16 rm t r (exact .fp16 v))]

/-- The widening conversions of R141, exact: source width and the conversion of a lane. -/
def widenOps : List ((BitVec 5 → BitVec 5 → BitVec 3 → Instr) × Nat × (Nat → Nat × Ev)) :=
  [(.vcvtSBf, 16, fun v => roundTo .fp32 .ne false 0 (exact .bf16 v)), (.vcvtSHf, 16, fun v => roundTo .fp32 .ne false 0 (exact .fp16 v)),
   (.vcvtSI8, 8, fun v => roundTo .fp32 .ne false 0 (Val.ofInt (BitVec.ofNat 8 v).toInt))]

end Sys2Proof.Claims

/-- R57, R78, R141 to R143: the conversions round each lane once. Under stochastic rounding lane i takes halfword i mod 32 of wB as its
random bits and does not saturate; otherwise bit 0 of the B field asks for saturation. Packing and unpacking of block images complete
with the image and the lanes that R142 and R143 give. -/
def Obligations.VectorConversions : Prop :=
  ∀ (s : State) (c : Ctx) (d a b : BitVec 5) (x r : BitVec 3) (h : BitVec 1),
    let u := s.readW c a.toNat x.toNat
    let rm : Rm := if r = 0 then .ne else if r = 1 then .rz else if r = 2 then .up else .down
    (Runs s c {} [.src .w a.toNat x.toNat, .dst .w d.toNat] → r.toNat < 4 → ∀ o ∈ cvtOps,
      let g (j : Nat) := o.2.2.2.2 rm (b.getLsbD 0) 0 (elemOf u o.2.2.1 j)
      GivesW (o.1 d a x b r) s c d.toNat o.2.2.2.1 o.2.1 (fun j => (g j).1) (laneEvents o.2.1 (fun j => (g j).2))) ∧
    (Runs s c {} [.src .w a.toNat x.toNat, .dst .w d.toNat, .src .w b.toNat 0] → r = 4 → ∀ o ∈ cvtOps,
      let g (j : Nat) := o.2.2.2.2 .sr false (elemOf (s.readW c b.toNat 0) 16 (j % 32)) (elemOf u o.2.2.1 j)
      GivesW (o.1 d a x b r) s c d.toNat o.2.2.2.1 o.2.1 (fun j => (g j).1) (laneEvents o.2.1 (fun j => (g j).2))) ∧
    (Runs s c {} [.src .w a.toNat x.toNat, .dst .w d.toNat] →
      (∀ o ∈ widenOps, GivesW (o.1 d a x) s c d.toNat 32 16 (fun j => (o.2.2 (elemOf u o.2.1 j)).1)
        (laneEvents 16 (fun j => (o.2.2 (elemOf u o.2.1 j)).2))) ∧
      (r.toNat ≤ 6 →
        GivesW (.vpackmx d a x h r) s c d.toNat 512 1 (fun _ => (packMx r.toNat (h == 1) u).1) (packMx r.toNat (h == 1) u).2 ∧
        GivesW (.vunpkmx d a x r) s c d.toNat 16 32 (fun j => (unpackMx r.toNat u.toNat j).1)
          (laneEvents 32 (fun j => (unpackMx r.toNat u.toNat j).2))))

namespace Sys2Proof.Claims
open Sys2Proof Sys2Proof.Machine

/-- i completes: bit j of m d is f j for the n elements, zero above (m0 discards the write). -/
def GivesMask (i : Instr) (s : State) (c : Ctx) (d n : Nat) (f : Nat → Bool) : Prop :=
  ∃ v, GivesM i s c d v ∧ ∀ j, j < 64 → v.getLsbD j = (decide (j < n) && f j)

/-- The integer compares of R139. -/
def vecCmpOps : List ((BitVec 3 → BitVec 5 → BitVec 3 → BitVec 5 → BitVec 3 → Instr) × ((k : Nat) → BitVec k → BitVec k → Bool)) :=
  [(.vcmpEq, fun _ a b => a == b), (.vcmpNe, fun _ a b => a != b), (.vcmpLt, fun _ a b => a.slt b), (.vcmpLtu, fun _ a b => a.ult b),
   (.vcmpGe, fun _ a b => b.sle a), (.vcmpGeu, fun _ a b => b.ule a)]

/-- The float compares of R139. -/
def vecFltCmpOps : List ((BitVec 3 → BitVec 5 → BitVec 3 → BitVec 5 → BitVec 3 → Instr) × (Option Ordering → Bool)) :=
  [(.vfcmpEq, fun o => o == some .eq), (.vfcmpLt, fun o => o == some .lt), (.vfcmpLe, fun o => o == some .lt || o == some .eq)]

end Sys2Proof.Claims

/-- R138, R139: a vector compare sets one mask bit for each element and clears the bits above; the mask logic is bitwise; MPOP counts
one bits; MFIRST gives the index of the lowest one bit, 64 for none. -/
def Obligations.VectorCompareAndMasks : Prop :=
  ∀ (s : State) (c : Ctx),
    (∀ (m x e : BitVec 3) (a b : BitVec 5), Runs s c {} [.src .w a.toNat x.toNat, .src .w b.toNat 0, .dst .m m.toNat] →
      let u := s.readW c a.toNat x.toNat
      let v := s.readW c b.toNat 0
      (e.toNat ≤ 3 → ∀ o ∈ vecCmpOps,
        let k := 8 * 2 ^ e.toNat
        GivesMask (o.1 m a x b e) s c m.toNat (512 / k) (fun j => o.2 k (lane u k j) (lane v k j))) ∧
      (e.toNat ≤ 1 → ∀ o ∈ vecFltCmpOps,
        let f : Fmt := if e = 0 then .fp32 else .bf16
        GivesMask (o.1 m a x b e) s c m.toNat (512 / f.width) (fun j =>
          o.2 (vcompare (exact f (elemOf u f.width j)) (exact f (elemOf v f.width j)))))) ∧
    (∀ (d a b x y : BitVec 3),
      (Runs s c {} [.src .m a.toNat x.toNat, .src .m b.toNat y.toNat, .dst .m d.toNat] →
        GivesM (.mand d a x b y) s c d.toNat (s.readM c a.toNat x.toNat &&& s.readM c b.toNat y.toNat) ∧
        GivesM (.mor d a x b y) s c d.toNat (s.readM c a.toNat x.toNat ||| s.readM c b.toNat y.toNat) ∧
        GivesM (.mxor d a x b y) s c d.toNat (s.readM c a.toNat x.toNat ^^^ s.readM c b.toNat y.toNat)) ∧
      (Runs s c {} [.src .m a.toNat x.toNat, .dst .m d.toNat] → GivesM (.mnot d a x) s c d.toNat (~~~ s.readM c a.toNat x.toNat))) ∧
    (∀ (d : BitVec 5) (a x : BitVec 3), Runs s c {} [.src .m a.toNat x.toNat, .dst .g d.toNat] →
      let v := s.readM c a.toNat x.toNat
      GivesG (.mpop d a x) s c d.toNat (BitVec.ofNat 64 ((List.range 64).filter (fun j => v.getLsbD j)).length) {} ∧
      ∃ n, n ≤ 64 ∧ (∀ j, j < n → v.getLsbD j = false) ∧ (n < 64 → v.getLsbD n = true) ∧
        GivesG (.mfirst d a x) s c d.toNat (BitVec.ofNat 64 n) {})

/-! ### Loops (spec/06) -/

namespace Sys2Proof.Claims
open Sys2Proof Sys2Proof.Machine

/-- t is s with the loop state of the executing slip as iteration 0 of a loop of n iterations entered at its LOOP leaves it (R155): a
new innermost level from the pending descriptor, which is taken; every register a version of which it makes reads alike at every
distance; nothing else changed. -/
def Entered (s t : State) (c : Ctx) (start stop : Word) (n : Nat) : Prop :=
  let p := s.slip c.b c.i
  let q := t.slip c.b c.i
  q.levels = { width := p.pend.width, dmax := p.pend.dmax, masks := p.pend.masks, start := start, stop := stop, count := n, idx := 0 } :: p.levels ∧
  q.pend = {} ∧ q.after = [] ∧
  (∀ r dist, r < 32 → dist < 8 → p.pend.masks.has .g r = true → q.getG r dist = p.getG r 0) ∧
  (∀ r dist, r < 32 → dist < 8 → p.pend.masks.has .f r = true → q.getF r dist = p.getF r 0) ∧
  (∀ r dist, r < 32 → dist < 8 → p.pend.masks.has .w r = true → q.getW r dist = p.getW r 0) ∧
  (∀ r dist, r < 8 → dist < 8 → p.pend.masks.has .q r = true → q.getQ r dist = p.getQ r 0) ∧
  (∀ r dist, r < 8 → dist < 8 → p.pend.masks.has .m r = true → q.getM r dist = p.getM r 0) ∧
  (∀ r, r < 32 → q.getG r 0 = p.getG r 0) ∧ (∀ r, r < 32 → q.getF r 0 = p.getF r 0) ∧ (∀ r, r < 32 → q.getW r 0 = p.getW r 0) ∧
  (∀ r, r < 8 → q.getQ r 0 = p.getQ r 0) ∧ (∀ r, r < 8 → q.getM r 0 = p.getM r 0) ∧
  q.rest = { p.rest with pend := {} } ∧ q.evc = p.evc ∧ q.live = p.live ∧ t = s.setSlip c.b c.i q

end Sys2Proof.Claims

/-- R150, R153, R155: LSET fills the pending descriptor from its fields and two registers and nothing else but the queue moves; LOOP and
LOOPS, where no check of R154 stops them, enter a loop of the count in gC, or in the first word of the record at gS. With a count of
zero the body is passed over: the queue starts again at the body's end and the registers keep their values. -/
def Sys2Proof.Claims.loopsEnter : Prop :=
  ∀ (s : State) (c : Ctx), (s.slip c.b c.i).aside = [] →
    (∀ (w m : BitVec 3) (a b : BitVec 5), Runs s c { hnd := false } [.src .g a.toNat 0, .src .g b.toNat 0] →
      let ga := (s.readG c a.toNat 0).toNat
      let gb := (s.readG c b.toNat 0).toNat
      let pend : Pend := { width := w.toNat + 1, dmax := m.toNat, masks :=
        { g := ga % 2 ^ 32, f := ga / 2 ^ 32, w := gb % 2 ^ 32, q := gb / 2 ^ 32 % 2 ^ 8, m := gb / 2 ^ 40 % 2 ^ 8 } }
      exec (.lset w m a b) s = .next ((s.setSlip c.b c.i { s.slip c.b c.i with pend := pend }).advance c none true)) ∧
    (∀ (r : BitVec 5) (o : BitVec 16), Runs s c { hnd := false } [.src .g r.toNat 0] →
      let pc := s.pcOf c
      let stop := pc + BitVec.ofNat 64 (2 * o.toNat)
      (∀ word, (s.slip c.b c.i).loopFault word o.toNat pc = none) →
      ((s.readG c r.toNat 0).toNat % 2 ^ 32 ≠ 0 →
        ∃ t, Entered s t c (pc + 4) stop ((s.readG c r.toNat 0).toNat % 2 ^ 32) ∧ exec (.loop r o) s = .next (t.advance c none true)) ∧
      (∀ key bs t0, LoadsAt s c (s.readG c r.toNat 0) 8 key bs t0 → leNat (bs.take 4) ≠ 0 →
        ∃ t, Entered t0 t c (pc + 4) stop (leNat (bs.take 4)) ∧ exec (.loops r o) s = .next (t.advance c none true)) ∧
      ((s.readG c r.toNat 0).toNat % 2 ^ 32 = 0 → (s.slip c.b c.i).levels = [] →
        ∃ t, exec (.loop r o) s = .next t ∧ (t.slip c.b c.i).live.q0 = { addr := some stop } ∧ (t.slip c.b c.i).levels = [] ∧
          (t.slip c.b c.i).lexit = 0 ∧ (∀ r, r < 32 → (t.slip c.b c.i).getG r 0 = (s.slip c.b c.i).getG r 0) ∧ t.rest = s.rest))

/-- R166, R167, R495: LEAVE always exits the innermost loop, LEAVEQ when its condition holds; the exit is a branch to the body's end that
ends the loop when it arrives, and the slots are nullified as for a branch. Outside a body both raise cause 6; with a slot outside the
body, or in a slot of a taken branch, cause 7; with levels held aside by a trap, cause 1. -/
def Sys2Proof.Claims.leaveExits : Prop :=
  ∀ (s : State) (c : Ctx) (q : BitVec 3) (t : BitVec 1) (n : BitVec 2),
    let goes (i : Instr) (e : Bool) : Prop :=
      ((s.slip c.b c.i).aside ≠ [] → exec i s = .next (s.raise c 1 (BitVec.ofNat 64 (encode i)) false)) ∧
      ((s.slip c.b c.i).aside = [] → (s.slip c.b c.i).levels = [] → exec i s = .next (s.raise c 6 (s.pcOf c) false)) ∧
      (∀ l rest, (s.slip c.b c.i).aside = [] → (s.slip c.b c.i).levels = l :: rest →
        let qu := s.queueOf c
        (l.covers (s.pcOf c) = false → exec i s = .next (s.raise c 6 (s.pcOf c) false)) ∧
        (l.covers (s.pcOf c) = true → s.lengthWait c qu.q1 = none → qu.q0.taken = true ∨ qu.q1.inBody l = false ∨ qu.q2.inBody l = false →
          exec i s = .next (s.raise c 7 (s.pcOf c) false)) ∧
        (l.covers (s.pcOf c) = true → s.lengthWait c qu.q1 = none → qu.q0.taken = false → qu.q1.inBody l = true → qu.q2.inBody l = true →
          exec i s = .next (s.advance c (some { taken := e, target := l.stop, nullify := (n == 1 && !e) || (n == 2 && e), leave := true }) true)))
    (Runs s c { hnd := false } [] → goes (.leave n) true) ∧
    (Runs s c { hnd := false } [.src .q q.toNat 0] → goes (.leaveq q t n) (s.readQ c q.toNat 0 != (t == 1)))

/-! ### Traps (spec/07, spec/11 R227, spec/23) -/

namespace Sys2Proof.Claims
open Sys2Proof Sys2Proof.Machine

/-- The slip after trap entry with a cause, a TVAL and a vector (R174, R180, R181): the queue, the enables and the mode are saved, the
enables cleared, the levels held aside, and the queue starts at the vector. -/
def TrapEntered (p q : Slip) (cause : Nat) (tv vec : Word) (priv : Bool) : Prop :=
  q.saved = p.live ∧ q.ppriv = p.priv ∧
  q.pie = (if p.dbie then 1 else 0) + (if p.mie then 2 else 0) + (if p.tie then 4 else 0) ∧
  q.tie = false ∧ q.mie = false ∧ q.dbie = false ∧ q.priv = priv ∧ q.intrap = true ∧
  q.tcause = cause % 64 + (if p.live.q0.slot then 64 else 0) + (if p.levels.isEmpty then 0 else 128) ∧ q.tval = tv ∧
  q.aside = p.levels ∧ q.levels = [] ∧ q.live.q0 = { addr := some vec } ∧
  q = { p with saved := q.saved, ppriv := q.ppriv, pie := q.pie, tie := q.tie, mie := q.mie, dbie := q.dbie, priv := q.priv
               intrap := q.intrap, tcause := q.tcause, tval := q.tval, aside := q.aside, levels := q.levels, live := q.live, begun := false }

/-- A cause that is answered by rollback: 25, 29, and 30 with reason 12 (R328, R427). -/
def RollbackCause (cause : Nat) (tv : Word) : Prop := cause = 25 ∨ cause = 29 ∨ (cause = 30 ∧ tv.toNat % 256 = 12)

/-- Causes 11 and 23 of a user program on a berth with UPVEC are upcalls (R183, R289, R393). -/
def IsUpcall (s : State) (b i cause : Nat) (hard : Bool) : Prop :=
  (cause = 11 ∨ cause = 23) ∧ hard = false ∧ (s.slip b i).priv = false ∧ (s.berth b).upvec ≠ 0

end Sys2Proof.Claims

/-- R174, R180, R181, R183: trap entry is one step: with INTRAP clear and TVEC set it saves and clears what R180 says and starts the queue
at TVEC in privileged mode; causes 11 and 23 of a user program with UPVEC go to UPVEC without privilege. No other slip, no memory and
no register changes. The readings of logs 18 and 19 are the model's. -/
def Obligations.TrapEntrySaves : Prop :=
  ∀ (s : State) (b i cause : Nat) (tv : Word) (hard : Bool), (s.slip b i).intrap = false → ¬ RollbackCause cause tv →
    (IsUpcall s b i cause hard →
      ∃ q, TrapEntered (s.slip b i) q cause tv (s.berth b).upvec false ∧ s.raiseSlip b i cause tv hard = s.setSlip b i q) ∧
    (¬ IsUpcall s b i cause hard → (s.berth b).tvec ≠ 0 →
      ∃ q, TrapEntered (s.slip b i) q cause tv (s.berth b).tvec true ∧ s.raiseSlip b i cause tv hard = s.setSlip b i q)

/-- R182, R227, R417, R427, R446: a fault with INTRAP set, or with no TVEC, is a double fault: the slip stops with its saved state and its
domain is told, or on the active control berth a takeover is due. A rollback-class cause writes TCAUSE and TVAL, stops the slip and
calls for a rollback. A handler's fault ends the handler and stops its slip's domain with kind 4. That INTRAP goes before the upcall, and a
rollback-class cause before a double fault, is log 19; that a handler's page fault too is kind 4, log 32; and that a double fault of the standby
stops in the ordinary way, log 69: these clauses are the model's. -/
def Obligations.FaultsThatStop : Prop :=
  ∀ (s : State) (c : Ctx) (cause : Nat) (tv : Word) (hard : Bool),
    let p := s.slip c.b c.i
    let pcq0 : Word := if p.intrap then p.saved.q0.addr.getD 0 else p.live.q0.addr.getD 0
    let told (kind : Nat) (pc : Word) : Stop := { berth := c.b, slip := c.i, kind := kind, cause := cause, tval := tv, pcq0 := pc, owner := p.owner }
    (c.hnd = false → ¬ RollbackCause cause tv → (p.intrap = true ∨ ((s.berth c.b).tvec = 0 ∧ ¬ IsUpcall s c.b c.i cause hard)) →
      let t := s.raise c cause tv hard
      t.slip c.b c.i = { p with stopped := true } ∧
      (s.isActive c.b = false → t.stops = s.stops ++ [told 2 pcq0] ∧ t.takeovers = s.takeovers) ∧
      (s.isActive c.b = true → t.takeovers = s.takeovers ++ [(c.b, cause)] ∧ t.stops = s.stops) ∧ t.mem = s.mem) ∧
    (c.hnd = false → RollbackCause cause tv → (s.isActive c.b = false ∨ cause ≠ 25) →
      let t := s.raise c cause tv hard
      t.rollbacks = s.rollbacks ++ [told 3 pcq0] ∧ (t.slip c.b c.i).stopped = true ∧ (t.slip c.b c.i).tval = tv ∧
      (t.slip c.b c.i).tcause % 64 = cause % 64 ∧ t.mem = s.mem) ∧
    (∀ h, c.hnd = true → ¬ RollbackCause cause tv → (s.berth c.b).handler = some h →
      let t := s.raise c cause tv hard
      (t.berth c.b).handler = none ∧ t.stops = s.stops ++ [told 4 pcq0] ∧ t.mem = s.mem)

/-- R188, R495: RFT outside a trap, or with a loop active, is illegal; in a trap it restores the queue, the mode, the enables and the loop
levels that entry saved, clears INTRAP, and changes nothing else but the loop state of the entry that comes to PCQ0: no other slip, no memory,
and, read at distance 0, no register. That the restored entries keep their loop and slot marks is the model's reading (log 18). -/
def Obligations.ReturnFromTrap : Prop :=
  ∀ (s : State) (c : Ctx), Runs s c { hnd := false } [] →
    let p := s.slip c.b c.i
    (p.intrap = false ∨ p.levels ≠ [] → exec .rft s = .next (s.raise c 1 (BitVec.ofNat 64 (encode .rft)) false)) ∧
    (p.intrap = true → p.levels = [] → ∃ t, exec .rft s = .next t ∧ t.rest = s.rest ∧
      (∀ b, b ≠ c.b → t.berth b = s.berth b) ∧ (t.berth c.b).rest = (s.berth c.b).rest ∧ (t.berth c.b).handler = (s.berth c.b).handler ∧
      (t.berth c.b).evcHi = (s.berth c.b).evcHi ∧ (∀ j, c.other j → t.slip c.b j = s.slip c.b j) ∧
      (let q := t.slip c.b c.i
       q.priv = p.ppriv ∧ q.dbie = p.pie.testBit 0 ∧ q.mie = p.pie.testBit 1 ∧ q.tie = p.pie.testBit 2 ∧ q.intrap = false ∧ q.aside = [] ∧
       (p.saved.q0.tag = .plain → q.live = p.saved ∧ q.levels = p.aside) ∧
       (∀ r, r < 32 → q.getG r 0 = p.getG r 0 ∧ q.getF r 0 = p.getF r 0 ∧ q.getW r 0 = p.getW r 0) ∧
       (∀ r, r < 8 → q.getQ r 0 = p.getQ r 0 ∧ q.getM r 0 = p.getM r 0) ∧
       q.tcause = p.tcause ∧ q.tval = p.tval ∧ q.saved = p.saved ∧ q.evc = p.evc))

/-- R40, R63, R65, R180, R184, R192, R227, R288, R296: the events that take a trap. TRAP completes and then raises cause 26, BRK raises cause 27, each
with its immediate as TVAL; an interrupt is cause 28 with the enabled pending sources; an illegal word raises its cause with the word
as TVAL, in a handler too, unless it is nullified, when the queue passes it; a fetch that fails, of the first halfword or of the second, raises
its cause with that halfword's address: a check's, 11 with a notice where no entry maps the page, 25 where the word cannot be corrected; a handler
that has executed 256 instructions raises cause 18. -/
def Obligations.TrapInstructionsAndEvents : Prop :=
  ∀ (s : State) (c : Ctx), s.ctx = some c →
    (∀ i : BitVec 12, Runs s c {} [] →
      exec (.trap i) s = .next ((s.advance c none true).raise c 26 (i.setWidth 64) false) ∧
      exec (.brk i) s = .next (s.raise c 27 (i.setWidth 64) false)) ∧
    (c.hnd = false → (s.slip c.b c.i).intrap = false → (s.slip c.b c.i).begun = false → s.pendingFor c.b c.i ≠ 0 →
      exec .interruptEntry s = .next (s.raise c 28 (BitVec.ofNat 64 (s.pendingFor c.b c.i)) false)) ∧
    (∀ w cause, c.hnd = false →
      ((s.slip c.b c.i).live.q0.nf = false → exec (.illegalInstruction w cause) s = .next (s.raise c cause (BitVec.ofNat 64 w) false)) ∧
      ((s.slip c.b c.i).live.q0.nf = true → exec (.illegalInstruction w cause) s = .next (s.advance c none false))) ∧
    (∀ w cause, c.hnd = true → exec (.illegalInstruction w cause) s = .next (s.raise c cause (BitVec.ofNat 64 w) false)) ∧
    (∀ a, (a = s.pcOf c ∧ s.fetchHalf c a = none) ∨ (a = s.pcOf c + 2 ∧ (s.fetchHalf c (s.pcOf c)).isSome = true) →
      (∀ cause, s.reachFetch c a.toNat = .trap cause → exec .fetchFault s = .next (s.raise c cause a false)) ∧
      (∀ v, s.reachFetch c a.toNat = .absent v → (s.slip c.b c.i).pageFailed ≠ some (pageName (s.berth c.b).asid v) →
        s.notices.any (fun m => m.names (c.b / 2 ^ 13) (s.berth c.b).asid v) = false →
        exec .fetchFault s = .next (((s.noticeFor c.b v none).timing c.b 12).raise c 11 a false)) ∧
      (∀ k e, s.reachFetch c a.toNat = .hit k e → s.poisoned k 2 = true → exec .fetchFault s = .next ((s.logBad c.b k 2).raise c 25 a false))) ∧
    (∀ h, (s.berth c.b).handler = some h → h.steps ≥ 256 → exec .handlerOverrun s = .next (s.raise c 18 (s.pcOf c) false))

/-- R62 steps 4 and 5, R161, R226: in this order, an instruction in a handler that is not legal there or names a register outside the
bank raises cause 17, a distance in a handler cause 4; a privileged instruction without privilege raises cause 3, a distance beyond
what is readable cause 4, a write of a loop-invariant register cause 5 with the register's number. Shown by ADDI, DRAIN and LSET. -/
def Sys2Proof.Claims.contextChecks : Prop :=
  ∀ (s : State) (c : Ctx) (d a : BitVec 5) (x w m : BitVec 3) (i : BitVec 12), s.ctx = some c →
    let p := s.slip c.b c.i
    let word := BitVec.ofNat 64 (encode (.addi d a x i))
    (c.hnd = true → a.toNat ≥ 16 ∨ d.toNat ≥ 16 → exec (.addi d a x i) s = .next (s.raise c 17 word false)) ∧
    (c.hnd = true → a.toNat < 16 → d.toNat < 16 → x ≠ 0 → exec (.addi d a x i) s = .next (s.raise c 4 word false)) ∧
    (c.hnd = true → exec (.lset w m a d) s = .next (s.raise c 17 (BitVec.ofNat 64 (encode (.lset w m a d))) false)) ∧
    (c.hnd = true → exec .drain s = .next (s.raise c 17 (BitVec.ofNat 64 (encode .drain)) false)) ∧
    (c.hnd = false → p.priv = false → exec .drain s = .next (s.raise c 3 (BitVec.ofNat 64 (encode .drain)) false)) ∧
    (c.hnd = false → p.dmax < x.toNat → exec (.addi d a x i) s = .next (s.raise c 4 word false)) ∧
    (∀ l rest, c.hnd = false → p.levels = l :: rest → p.distanceBad .g a.toNat x.toNat = false → l.width > 1 → d ≠ 0 → l.masks.has .g d.toNat = false →
      exec (.addi d a x i) s = .next (s.raise c 5 (BitVec.ofNat 64 d.toNat) false))

/-- R13: g0 reads as zero, q0 as one and m0 as all ones at every distance, and a write of one of them changes nothing; a write of
another register is what a read at distance 0 then gives. -/
def Sys2Proof.Claims.constantRegisters : Prop :=
  ∀ (s : State) (c : Ctx) (dist : Nat) (v : Word) (z : Bool), s.ctx = some c → c.hnd = false →
    s.readG c 0 dist = 0 ∧ s.readQ c 0 dist = true ∧ s.readM c 0 dist = BitVec.allOnes 64 ∧
    (s.writeG c 0 v).slip c.b c.i = s.slip c.b c.i ∧ (s.writeQ c 0 z).slip c.b c.i = s.slip c.b c.i ∧
    (s.writeM c 0 v).slip c.b c.i = s.slip c.b c.i ∧
    (∀ r, r ≠ 0 → (s.writeG c r v).readG c r 0 = v) ∧ (∀ r, r ≠ 0 → (s.writeQ c r z).readQ c r 0 = z) ∧
    (∀ r, r ≠ 0 → (s.writeM c r v).readM c r 0 = v)

/-! ### Control registers (spec/01 R26 to R32, spec/07 R184 to R192) -/

namespace Sys2Proof.Claims
open Sys2Proof Sys2Proof.Machine

/-- What STATUS reads as outside a handler (R28). -/
def statusValue (p : Slip) (i : Nat) : Word :=
  let bit (b : Bool) (n : Nat) : Nat := if b then 2 ^ n else 0
  BitVec.ofNat 64 (bit p.dbie 8 + bit p.mie 9 + bit p.tie 10 + bit p.priv 11 + bit p.intrap 12 + i * 2 ^ 14 +
    bit (match p.levels with
      | l :: _ => decide (l.width > 1)
      | [] => false) 16 + p.allLevels.length * 2 ^ 17 + p.prio % 16 * 2 ^ 20)

/-- What LCTL and LIDX read as outside a handler (R27). -/
def lctlValue (p : Slip) : Word := BitVec.ofNat 64 ((match p.allLevels with
  | l :: _ => l.width - 1
  | [] => 0) + p.dmax * 8)
def lidxValue (p : Slip) : Word := BitVec.ofNat 64 (match p.allLevels with
  | l :: _ => l.idx % 2 ^ 32
  | [] => 0)

/-- The queue that PCQ0 to PCQ2 and PCQF.NF name (R186): in a trap the saved one, else the live one. -/
def namedQueue (s : State) (c : Ctx) : Queue :=
  if (s.slip c.b c.i).intrap then (s.slip c.b c.i).savedQueue (s.lenAt c) else s.queueOf c

/-- What PCQF reads as (R29). -/
def pcqfValue (s : State) (c : Ctx) : Word :=
  let p := s.slip c.b c.i
  let q := namedQueue s c
  let bit (b : Bool) (n : Nat) : Nat := if b then 2 ^ n else 0
  BitVec.ofNat 64 (bit q.q0.nf 0 + bit q.q1.nf 1 + bit q.q2.nf 2 + p.pie * 16 + bit p.ppriv 7)

/-- What EVC0 to EVC7 read as (R443): a slip's own share, for privileged code the sum of the four, which stays at its top. -/
def evcValue (s : State) (c : Ctx) (k : Nat) : Word :=
  let p := s.slip c.b c.i
  BitVec.ofNat 64 (if p.priv then min (2 ^ 32 - 1) (((s.berth c.b).slips.map (fun e => SMap.get 0 e.2.evc k)).foldl (· + ·) 0)
    else SMap.get 0 p.evc k)

/-- What an assigned register reads as by its number, for a slip outside a handler; of PCQ0 to PCQ2 apart. -/
def csrValues (s : State) (c : Ctx) : List (Nat × Word) :=
  let x := s.berth c.b
  let p := s.slip c.b c.i
  [(0x000, statusValue p c.i), (0x001, BitVec.ofNat 64 p.tcause), (0x002, p.tval), (0x006, pcqfValue s c), (0x007, x.tvec), (0x008, x.upvec),
   (0x009, x.hbase), (0x00A, x.hlimit), (0x00B, BitVec.ofNat 64 (p.actor * 2 ^ 32 + p.incarn)), (0x00C, lctlValue p), (0x00D, lidxValue p),
   (0x00E, BitVec.ofNat 64 p.lexit), (0x00F, BitVec.ofNat 64 (p.banks + p.tiles * 2 ^ 16)), (0x020, x.cycle), (0x021, BitVec.ofNat 64 c.b),
   (0x022, BitVec.ofNat 64 p.wgroup), (0x023, BitVec.ofNat 64 p.wseq), (0x040, p.qr.ctl), (0x100, BitVec.ofNat 64 x.asid),
   (0x101, BitVec.ofNat 64 (x.root * 2 ^ 12)), (0x102, p.plwin), (0x104, p.own0), (0x105, p.own1), (0x106, p.own2), (0x107, p.own3), (0x108, 0),
   (0x109, x.serrlog), (0x10A, (s.pkg (c.b / 8192)).xregbase), (0x10B, p.instret), (0x110, x.tcmp),
   (0x111, BitVec.ofNat 64 ((if x.tim then 1 else 0) + (if x.ipMsg then 2 else 0) + (if x.ipDbell then 4 else 0)))] ++
  (List.range 8).map (fun k => (0x010 + k, evcValue s c k)) ++
  (List.range 8).map (fun k => (0x018 + k, BitVec.ofNat 64 (SMap.get 0 x.evcHi (8 + k)))) ++
  (List.range 4).map (fun k => (0x030 + k, BitVec.ofNat 64 (SMap.get 0 p.xdone k).toNat))

/-- The reserved fields of the registers that have some (R28, R29, R32, R404, R282, R420, R440, R191), as masks. -/
def csrMasks : List (Nat × Nat) :=
  [(0x000, 0xFFFFFFFFFF0000FF), (0x006, 0xFFFFFFFFFFFFFF08), (0x00F, 0xFFFFFFFFFF000000), (0x040, 0xFFFFFFFF0000FFFE), (0x100, 0xFFFFFFFFFFFF0000),
   (0x101, 0xFFF0000000000FFF), (0x108, 0x00000000FFFFFFC0), (0x109, 0x03F0000000000000), (0x111, 0xFFFFFFFFFFFFFFF8)]

/-- The effects of the permitted writes of registers of one slip (R27 to R29, R185, R186); what is left of TCAUSE and of a counter is the
model's choice (log 96). -/
def slipWrites (v : Word) : List (Nat × (Slip → Slip)) :=
  [(0x000, fun p => { p with dbie := v.getLsbD 8, mie := v.getLsbD 9, tie := v.getLsbD 10 }),
   (0x001, fun p => { p with tcause := v.toNat % 256 }),
   (0x002, fun p => { p with tval := v }),
   (0x006, fun p => { p with
      saved := if p.intrap then { q0 := { p.saved.q0 with nf := v.toNat.testBit 0 }, q1 := { p.saved.q1 with nf := v.toNat.testBit 1 }
                                  q2 := { p.saved.q2 with nf := v.toNat.testBit 2 } } else p.saved
      pie := v.toNat / 16 % 8, ppriv := v.toNat.testBit 7 }),
   (0x040, fun p => { p with qr := { p.qr with ctl := v &&& 0xFFFF0001 } }),
   (0x102, fun p => { p with plwin := v }), (0x104, fun p => { p with own0 := v }), (0x105, fun p => { p with own1 := v }),
   (0x106, fun p => { p with own2 := v }), (0x107, fun p => { p with own3 := v }), (0x10B, fun p => { p with instret := v })] ++
  (List.range 8).map (fun k => (0x010 + k, fun p => { p with evc := SMap.put p.evc k (v.toNat % 2 ^ 32) }))

/-- The effects of the permitted writes of registers of the berth. -/
def berthWrites (v : Word) : List (Nat × (Berth → Berth)) :=
  [(0x007, fun x => { x with tvec := BitVec.ofNat 64 (v.toNat / 2 * 2) }), (0x008, fun x => { x with upvec := v }),
   (0x009, fun x => { x with hbase := v }), (0x00A, fun x => { x with hlimit := v }), (0x100, fun x => { x with asid := v.toNat }),
   (0x101, fun x => { x with root := v.toNat / 2 ^ 12 % 2 ^ 40 }), (0x110, fun x => { x with tcmp := v }),
   (0x111, fun x => { x with ipMsg := x.ipMsg && !v.toNat.testBit 1, ipDbell := x.ipDbell && !v.toNat.testBit 2 })] ++
  (List.range 8).map (fun k => (0x018 + k, fun x => { x with evcHi := SMap.put x.evcHi (8 + k) (v.toNat % 2 ^ 32) }))

/-- A control register number that R26 and the chapters assign. -/
def assignedCsr (n : Nat) : Prop :=
  n ≤ 0x023 ∨ (0x030 ≤ n ∧ n ≤ 0x033) ∨ n = 0x040 ∨ (0x100 ≤ n ∧ n ≤ 0x102) ∨ (0x104 ≤ n ∧ n ≤ 0x10B) ∨ n = 0x110 ∨ n = 0x111

/-- A read of PCQk gives an entry's address (R186), where the lengths it needs can be read; two marks for free values are used up. -/
def GivesPcq (i : Instr) (s : State) (c : Ctx) (d : Nat) (a : Word) : Prop :=
  ∃ t, exec i s = .next t ∧ t.readG c d 0 = (if d = 0 then 0 else a) ∧ Kept s t c [(.g, d)] {} ∧ t.rest = { s.rest with fresh := s.fresh + 2 }

end Sys2Proof.Claims

/-- R6, R26 to R32, R185, R186, R443: CRD reads each register that software may read here, STATUS, the PC queue and the counters among them; a
register of 0x100 and above, or one R27 reserves for privileged code, is cause 3 without privilege, an unassigned number cause 1. CWR writes a
register as R185 says: a read-only register, to user code most of them, and PCQ outside a trap keep their values, a one in a reserved field is
cause 2; what CRD may not read, CWR may not write. The writes of TCMP, IPEND, QRCTL, FDSTOP and SERRLOG as events have the same effects: ones clear MSG and DBELL of IPEND, and VALID and
OVF of SERRLOG; a nonzero CAUSE in FDSTOP reports kind 5. What a write of TCAUSE and of a counter keeps is the model's choice (log 96), that STATUS,
LCTL and LIDX count in a trap the levels held aside, with OVL 0 for them (log 25), and that the events make no check of reserved fields (log 80). -/
def Obligations.ControlRegisters : Prop :=
  (∀ (s : State) (c : Ctx) (d : BitVec 5) (n : BitVec 12), Runs s c {} [.dst .g d.toNat] → c.hnd = false →
    let p := s.slip c.b c.i
    let q := namedQueue s c
    let marked : Prop := n.toNat ≥ 0x100 ∨ (0x018 ≤ n.toNat ∧ n.toNat ≤ 0x020)
    (∀ e ∈ csrValues s c, e.1 = n.toNat → ¬ marked ∨ p.priv = true → GivesG (.crd d n) s c d.toNat e.2 {}) ∧
    (∀ a, n = 0x003 → q.q0.addr = some a → GivesPcq (.crd d n) s c d.toNat a) ∧
    (∀ a, n = 0x004 → s.lengthWait c q.q0 = none → q.q1.addr = some a → GivesPcq (.crd d n) s c d.toNat a) ∧
    (∀ a, n = 0x005 → s.lengthWait c q.q0 = none → s.lengthWait c q.q1 = none → q.q2.addr = some a → GivesPcq (.crd d n) s c d.toNat a) ∧
    (marked → p.priv = false → exec (.crd d n) s = .next (s.raise c 3 (BitVec.ofNat 64 (encode (.crd d n))) false)) ∧
    (¬ assignedCsr n.toNat → n.toNat < 0x100 ∨ p.priv = true → exec (.crd d n) s = .next (s.raise c 1 (BitVec.ofNat 64 (encode (.crd d n))) false))) ∧
  (∀ (s : State) (c : Ctx) (a : BitVec 5) (n : BitVec 12), Runs s c {} [.src .g a.toNat 0] → c.hnd = false →
    let v := s.readG c a.toNat 0
    let p := s.slip c.b c.i
    let q := namedQueue s c
    let writes : Prop := p.priv = true ∨ n = 0x008 ∨ (0x010 ≤ n.toNat ∧ n.toNat ≤ 0x017) ∨ n = 0x040
    let clean : Prop := ∀ m ∈ csrMasks, m.1 = n.toNat → v.toNat &&& m.2 = 0
    let traps (cause : Nat) : Prop := exec (.cwr a n) s = .next (s.raise c cause (BitVec.ofNat 64 (encode (.cwr a n))) false)
    (n.toNat ≥ 0x100 ∨ (0x018 ≤ n.toNat ∧ n.toNat ≤ 0x020) → p.priv = false → traps 3) ∧
    (¬ assignedCsr n.toNat → n.toNat < 0x100 ∨ p.priv = true → traps 1) ∧
    (∀ m ∈ csrMasks, m.1 = n.toNat → writes → v.toNat &&& m.2 ≠ 0 → traps 2) ∧
    (∀ e ∈ slipWrites v, e.1 = n.toNat → writes → clean → exec (.cwr a n) s = .next ((s.setSlip c.b c.i (e.2 p)).advance c none true)) ∧
    (∀ e ∈ berthWrites v, e.1 = n.toNat → writes → clean →
      exec (.cwr a n) s = .next ((s.setBerth c.b (e.2 (s.berth c.b))).advance c none true)) ∧
    (n = 0x109 → writes → clean → exec (.cwr a n) s = .next ((s.setBerth c.b { s.berth c.b with
      serrlog := (s.berth c.b).serrlog &&& ~~~(BitVec.ofNat 64 (v.toNat &&& 0xC000000000000000)) }).advance c none true)) ∧
    (n = 0x108 → writes → clean → v.toNat % 64 ≠ 0 →
      exec (.cwr a n) s = .next ((s.report c.b c.i 5 (v.toNat % 64) (BitVec.ofNat 64 (v.toNat / 2 ^ 32))).advance c none true)) ∧
    (n = 0x10A → writes → exec (.cwr a n) s = .next ((s.setPkg (c.b / 8192) { s.pkg (c.b / 8192) with xregbase := v }).advance c none true)) ∧
    (0x003 ≤ n.toNat → n.toNat ≤ 0x005 → p.priv = true → p.intrap = true → s.lengthWait c q.q0 = none → s.lengthWait c q.q1 = none →
      ∃ t, exec (.cwr a n) s = .next t ∧
        let r := (t.slip c.b c.i).saved
        r.q0.addr = (if n = 0x003 then some v else q.q0.addr) ∧ (q.q1.addr.isSome = true → r.q1.addr = if n = 0x004 then some v else q.q1.addr) ∧
        (q.q2.addr.isSome = true → r.q2.addr = if n = 0x005 then some v else q.q2.addr) ∧
        r.q0.nf = q.q0.nf ∧ r.q1.nf = q.q1.nf ∧ r.q2.nf = q.q2.nf ∧
        t.rest = { s.rest with fresh := s.fresh + 2 } ∧ Kept (s.setSlip c.b c.i { p with saved := r }) t c [] {}) ∧
    (0x003 ≤ n.toNat → n.toNat ≤ 0x005 → p.intrap = false → exec (.cwr a n) s = .next (s.advance c none true)) ∧
    (n.toNat < 0x010 → n ≠ 0x008 → p.priv = false → exec (.cwr a n) s = .next (s.advance c none true)) ∧
    (n = 0x00B ∨ n = 0x00C ∨ n = 0x00D ∨ n = 0x00E ∨ n = 0x021 ∨ n = 0x022 ∨ n = 0x023 ∨ (0x030 ≤ n.toNat ∧ n.toNat ≤ 0x033) →
      exec (.cwr a n) s = .next (s.advance c none true)) ∧
    (n = 0x00F ∨ n = 0x020 → p.priv = true → clean → exec (.cwr a n) s = .next (s.advance c none true))) ∧
  (∀ (s : State) (b v : Nat),
    (∃ t, exec (.tcmpWrite b v) s = .next t ∧ t.berth b = { s.berth b with tcmp := BitVec.ofNat 64 v } ∧ t.rest = s.rest) ∧
    (∃ t, exec (.ipendWrite b v) s = .next t ∧ t.rest = s.rest ∧
      t.berth b = { s.berth b with ipMsg := (s.berth b).ipMsg && !v.testBit 1, ipDbell := (s.berth b).ipDbell && !v.testBit 2 }) ∧
    (∃ t, exec (.serrlogWrite b v) s = .next t ∧ t.rest = s.rest ∧ (∀ j, j < 62 → (t.berth b).serrlog.getLsbD j = (s.berth b).serrlog.getLsbD j) ∧
      (∀ j, j = 62 ∨ j = 63 → (t.berth b).serrlog.getLsbD j = ((s.berth b).serrlog.getLsbD j && !v.testBit j)))) ∧
  (∀ (s : State) (i v : Nat), (s.berth s.cur).running = some i →
    (∃ t, exec (.qrctlWrite v) s = .next t ∧ t.rest = s.rest ∧
      t.slip s.cur i = { s.slip s.cur i with qr := { (s.slip s.cur i).qr with ctl := BitVec.ofNat 64 v &&& 0xFFFF0001 } }) ∧
    (v % 64 = 0 → exec (.fdstopWrite v) s = .next s) ∧
    (v % 64 ≠ 0 → ∃ t, exec (.fdstopWrite v) s = .next t ∧ t.berths = s.berths ∧ t.mem = s.mem ∧
      ∃ e, t.stops = s.stops ++ [e] ∧ e.berth = s.cur ∧ e.slip = i ∧ e.kind = 5 ∧ e.cause = v % 64 ∧
        e.tval = BitVec.ofNat 64 (v / 2 ^ 32 % 2 ^ 32) ∧ e.owner = (s.slip s.cur i).owner))

/-! ### Slips, firings, waits (spec/11 R218 to R222) -/

namespace Sys2Proof.Claims
open Sys2Proof Sys2Proof.Machine

/-- The slip is READY with the berth's next stamp (R218, R219), as p would be otherwise. -/
def Ready (s t : State) (b i : Nat) (p : Slip) : Prop :=
  t.slip b i = { p with st := .ready, wait := none, stamp := (s.berth b).stamps } ∧ (t.berth b).stamps = (s.berth b).stamps + 1 ∧ t.rest = s.rest

end Sys2Proof.Claims

/-- R189, R190, R192, R218: IDLE completes at once when no source is enabled or one is pending, and else blocks the slip at it; IDLE_WAKE
passes a woken slip over it and makes it READY. TIMER_EXPIRY brings CYCLE to TCMP. A WAITING slip whose inputs suffice, and a BLOCKED slip
whose wait is over, become READY with the next stamp. -/
def Obligations.WaitsAndWakes : Prop :=
  (∀ (s : State) (c : Ctx), Runs s c { priv := true, hnd := false } [] →
    let p := s.slip c.b c.i
    let idle := ¬ (p.tie = false ∧ p.mie = false ∧ p.dbie = false) ∧ s.pendingFor c.b c.i = 0
    (¬ idle → exec .idle s = .next (s.advance c none true)) ∧
    (idle → ∃ t, exec .idle s = .next t ∧ t.rest = s.rest ∧
      t.slip c.b c.i = { p.resolve (s.lenAt c) with st := .blocked, wait := some .idle, begun := true })) ∧
  (∀ (s : State) (b i : Nat),
    let p := s.slip b i
    let c : Ctx := { b := b, i := i, hnd := false }
    (p.st = .blocked → p.wait = some .idle → s.pendingFor b i ≠ 0 →
      ∃ t, exec (.idleWake b i) s = .next t ∧ Ready s t b i ((s.advance c none true).slip b i)) ∧
    (p.st = .waiting → p.inputsSuffice = true → ∃ t, exec (.slipInputsSuffice b i) s = .next t ∧ Ready s t b i p) ∧
    (∀ w, p.st = .blocked → p.wait = some w → p.stopped = false → s.waitOver b i w = true →
      ∃ t, exec (.waitSatisfied b i) s = .next t ∧ Ready s t b i p) ∧
    ((s.berth b).tcmp ≠ 0 → (s.berth b).cycle < (s.berth b).tcmp →
      ∃ t, exec (.timerExpiry b) s = .next t ∧ t.berth b = { s.berth b with cycle := (s.berth b).tcmp } ∧ (t.berth b).tim = true ∧ t.rest = s.rest))

/-- R18, R28, R175, R219: SLIP_SCHEDULE runs the slip that R219 picks. One in the middle of a firing runs on; one at the start of a firing
has every register zero but the carry set, no loop, and starts at its entry; one that takes launches starts the handler of its oldest
launch first. -/
def Obligations.SlipScheduling : Prop :=
  ∀ (s : State) (b i : Nat), (s.berth b).running = none → (s.berth b).fenced = false → (s.berth b).pick = some i →
    let p := s.slip b i
    (p.firing = true ∨ p.act = none → ∃ t, exec (.slipSchedule b) s = .next t ∧ t.slip b i = { p with st := .running } ∧ t.rest = s.rest) ∧
    (∀ a, p.firing = false → p.late = none → p.act = some a → a.launch = false → ∃ t, exec (.slipSchedule b) s = .next t ∧ t.rest = s.rest ∧
      let q := t.slip b i
      q.st = .running ∧ q.firing = true ∧ q.levels = [] ∧ q.aside = [] ∧ q.pend = {} ∧ q.lexit = 0 ∧ q.live.q0 = { addr := some a.entry } ∧
      q.priv = (b % 8192 == Config.controlBerth 0 || b % 8192 == Config.controlBerth 1) ∧
      (∀ r, r < 24 → q.getG r 0 = 0 ∧ q.getF r 0 = 0) ∧ (∀ r, r < 32 → q.getW r 0 = 0) ∧ (∀ r, 0 < r → r < 8 → q.getQ r 0 = false ∧ q.getM r 0 = 0)) ∧
    (∀ a l rest, p.firing = false → p.act = some a → a.launch = true → p.launches = l :: rest → (s.berth b).handler = none →
      ∃ t, exec (.slipSchedule b) s = .next t ∧ (t.slip b i).st = .running ∧ (t.slip b i).launches = rest ∧
        ∃ h, (t.berth b).handler = some h ∧ h.slip = i ∧ h.source = .launch ∧ h.steps = 0)

/-- R18, R175, R220, R221: DONE ends the firing: the carry set is taken at distance 0, the levels end, and the slip WAITS, or is READY when
its inputs suffice already, and only then; in a handler DONE ends the handler. HALT ends the levels and halts the slip; HALT.R needs a successor, else
cause 1, and keeps the banks. A drained HALT that has nothing to report lets the slip go, and waits where its region's DONE has no place in the
record ring, since R449 has what ends in a commit wait for its records (log 88). The readings of logs 33, 88 and 94 are the model's. -/
def Obligations.FiringsEnd : Prop :=
  (∀ (s : State) (c : Ctx), Runs s c {} [] →
    let p := s.slip c.b c.i
    (c.hnd = false → p.levels.length ≤ 8 → ∃ t, exec .done s = .next t ∧ t.rest = s.rest ∧
      let q := t.slip c.b c.i
      q.firing = false ∧ q.levels = [] ∧ q.aside = [] ∧ q.intrap = false ∧ q.st = (if q.inputsSuffice then .ready else .waiting) ∧
      q.carryG = (List.range 8).map (fun j => (24 + j, p.getG (24 + j) 0)) ∧ q.carryF = (List.range 8).map (fun j => (24 + j, p.getF (24 + j) 0))) ∧
    (∀ h, c.hnd = true → (s.berth c.b).handler = some h → h.source = .item → ∃ t, exec .done s = .next t ∧
      t.berth c.b = { s.berth c.b with handler := none } ∧ t.rest = s.rest)) ∧
  (∀ (s : State) (c : Ctx), Runs s c { hnd := false } [] →
    let p := s.slip c.b c.i
    let halts (t : State) (keep : Bool) : Prop :=
      let q := t.slip c.b c.i
      q.st = .halting ∧ q.halting = true ∧ q.retain = keep ∧ q.levels = [] ∧ q.parked = [] ∧ t.mem = s.mem
    (p.levels.length ≤ 8 → ∃ t, exec .halt s = .next t ∧ halts t false) ∧
    (p.levels.length ≤ 8 → (∃ a, p.act = some a ∧ a.succ ≠ noActor) → ∃ t, exec .haltR s = .next t ∧ halts t true) ∧
    ((p.act = none ∨ ∃ a, p.act = some a ∧ a.succ = noActor) → exec .haltR s = .next (s.raise c 1 (BitVec.ofNat 64 (encode .haltR)) false))) ∧
  (∀ (s : State) (b i : Nat), s.haltReady b i = true → (s.haltReports b i).2 = false →
    (s.doneWaits b i = false → exec (.haltDrainComplete b i) s = .next ((s.haltReports b i).1.unbindSlip b i)) ∧
    (s.doneWaits b i = true → exec (.haltDrainComplete b i) s = .next s))

/-! ### Channels (spec/13 R246 to R252) -/

namespace Sys2Proof.Claims
open Sys2Proof Sys2Proof.Machine

/-- The TVAL of cause 16 for a handle (R250). -/
def channelTrap (reason h : Nat) : Word := BitVec.ofNat 64 (reason + h * 256)

/-- s with one packet more on its way, behind all others (R455); one to another package leaves in a flit (R454, log 111). -/
def sent (s : State) (src dst : Nat) (body : Body) : State :=
  { s.linkFlit src dst with net := s.net ++ [{ src := src, dst := dst, body := body }] }

/-- s without packet n of the network. -/
def taken (s : State) (n : Nat) : State := { s with net := s.net.take n ++ s.net.drop (n + 1) }

/-- s after the interface of berth b has taken packet n of src, which leaves the list of refused senders (R266, R267). -/
def received (s : State) (n src b : Nat) : State :=
  if (s.berth b).refused.contains src then (taken s n).setBerth b { s.berth b with refused := (s.berth b).refused.erase src } else taken s n

/-- s with handle h of the executing slip as x. -/
def withHandle (s : State) (c : Ctx) (h : Nat) (x : Chan) : State :=
  s.setSlip c.b c.i { s.slip c.b c.i with chans := SMap.put (s.slip c.b c.i).chans h x }

/-- i completes by putting one packet on its way to the channel's other end, after the touch marks of the slip's banks are cleared and
handle h has become x. -/
def SendsNotice (i : Instr) (s : State) (c : Ctx) (h : Nat) (x : Chan) (body : Body) : Prop :=
  exec i s = .next ((sent (withHandle (s.clearTouch c.b c.i) c h x) c.b x.peer body).advance c none true)

end Sys2Proof.Claims

/-- R246, R248, R249, R250: the six channel instructions. A wait of n slots takes the grant once they are there and else blocks; an advance
of n granted slots moves the index, shrinks the grant and tells the other end; CHST sends the 64 bytes of wS to a ring byte of the
producer's window; CHADDR gives the address of one. A handle unbound or in the other role is misuse 1, a count above CAP misuse 2, more
than the grant misuse 3, and then nothing changes. CHADVC waits while a command of its slip still reads the slots it frees (R252), CHADVP while
its CHST and copies into the ring are to land. A notice or CHST to another package leaves in a flit whose bytes are free (log 111). -/
def Obligations.ChannelInstructions : Prop :=
  ∀ (s : State) (c : Ctx) (h : BitVec 4) (n : BitVec 12) (r : BitVec 5),
    let p := s.slip c.b c.i
    let x : Chan := SMap.get {} p.chans h.toNat
    let filled := (x.tk + 2 ^ 32 - x.ri % 2 ^ 32) % 2 ^ 32
    let free := x.cap - (x.wi + 2 ^ 32 - x.hk % 2 ^ 32) % 2 ^ 32
    let ring (index : Nat) := (index * x.slotb + n.toNat * 32) % (x.cap * x.slotb)
    let waits (i : Instr) (role : ChRole) (there : Nat) (w : Wait) : Prop :=
      (x.role = role → n.toNat ≤ x.cap → n.toNat ≤ there →
        exec i s = .next (((withHandle s c h.toNat { x with granted := Nat.max x.granted n.toNat }).acquired c).advance c none true)) ∧
      (x.role = role → n.toNat ≤ x.cap → there < n.toNat → exec i s = .next (s.setSlip c.b c.i { p with st := .blocked, wait := some w, begun := true })) ∧
      (x.role = role → x.cap < n.toNat → exec i s = .next (s.raise c 16 (channelTrap 2 h.toNat) false)) ∧
      (x.role ≠ role → exec i s = .next (s.raise c 16 (channelTrap 1 h.toNat) false))
    let bounds (i : Instr) (role : ChRole) (beyond : Prop) : Prop :=
      (x.role = role → beyond → exec i s = .next (s.raise c 16 (channelTrap 3 h.toNat) false)) ∧
      (x.role ≠ role → exec i s = .next (s.raise c 16 (channelTrap 1 h.toNat) false))
    (Runs s c { hnd := false } [.handle h.toNat] →
      waits (.chwaitf h n) .consumer filled (.filled h.toNat n.toNat) ∧ waits (.chwaite h n) .producer free (.space h.toNat n.toNat) ∧
      (x.role = .consumer → n.toNat ≤ x.granted → (s.clearTouch c.b c.i).slotsRead c x n.toNat = false →
        SendsNotice (.chadvc h n) s c h.toNat { x with ri := (x.ri + n.toNat) % 2 ^ 32, granted := x.granted - n.toNat }
          (.freed x.peerSlip x.peerHandle x.peerTag n.toNat)) ∧
      (x.role = .consumer → n.toNat ≤ x.granted → (s.clearTouch c.b c.i).slotsRead c x n.toNat = true →
        exec (.chadvc h n) s = .next ((s.clearTouch c.b c.i).began c)) ∧
      (x.role = .producer → n.toNat ≤ x.granted → (s.clearTouch c.b c.i).ringPending c x = false →
        SendsNotice (.chadvp h n) s c h.toNat { x with wi := (x.wi + n.toNat) % 2 ^ 32, granted := x.granted - n.toNat }
          (.advance x.peerSlip x.peerHandle x.peerTag n.toNat)) ∧
      (x.role = .producer → n.toNat ≤ x.granted → (s.clearTouch c.b c.i).ringPending c x = true →
        exec (.chadvp h n) s = .next ((s.clearTouch c.b c.i).began c)) ∧
      bounds (.chadvc h n) .consumer (x.granted < n.toNat) ∧ bounds (.chadvp h n) .producer (x.granted < n.toNat)) ∧
    (Runs s c { hnd := false } [.handle h.toNat, .src .w r.toNat 0] →
      (x.role = .producer → n.toNat * 32 + 64 ≤ x.granted * x.slotb →
        exec (.chst r h n) s = .next ((sent s c.b x.peer
          (.chst x.peerSlip x.peerHandle x.peerTag x.base (ring x.wi) (s.readW c r.toNat 0) c.i p.tag)).advance c none true)) ∧
      bounds (.chst r h n) .producer (x.granted * x.slotb < n.toNat * 32 + 64)) ∧
    (Runs s c { hnd := false } [.handle h.toNat, .dst .g r.toNat] →
      (x.role = .unbound → exec (.chaddr r h n) s = .next (s.raise c 16 (channelTrap 1 h.toNat) false)) ∧
      (x.role ≠ .unbound → x.granted * x.slotb ≤ n.toNat * 32 → exec (.chaddr r h n) s = .next (s.raise c 16 (channelTrap 3 h.toNat) false)) ∧
      (x.role = .consumer → n.toNat * 32 < x.granted * x.slotb → GivesG (.chaddr r h n) s c r.toNat (BitVec.ofNat 64 (2 ^ 60 + x.base + ring x.ri)) {}) ∧
      (x.role = .producer → n.toNat * 32 < x.granted * x.slotb → GivesG (.chaddr r h n) s c r.toNat (BitVec.ofNat 64 (scratchKey x.peer (x.base + ring x.wi))) {}))

/-- R249, R266, R267, R455: a packet that may arrive, and for which its receiver has an entry, leaves the network. An advance notice adds its
count to TK of the consumer's handle, a free notice to HK of the producer's, where the slip still carries the actor it was sent to; CHST data
is stored at its ring bytes, wrapping at the ring's end. A notice for which there is no entry is refused BUSY. A CHST landing in a bank that
the consumer does not hold is dropped, and its producer takes cause 12 where it is, or as its next firing begins, which is the model's choice
(log 101); one that would write only part of an uncorrectable word is dropped too, with the word's fault (R439). -/
def Sys2Proof.Claims.channelArrivals : Prop :=
  ∀ (s : State) (n src b i h tag k bz : Nat),
    let p := s.slip b i
    let x : Chan := SMap.get {} p.chans h
    let left := taken s n
    let advance : Packet := { src := src, dst := b, body := .advance i h tag k, busy := bz }
    let freed : Packet := { src := src, dst := b, body := .freed i h tag k, busy := bz }
    p.bound = true → p.tag = tag → x.role ≠ .unbound →
    (s.arriving n = some advance → s.entryFree advance = true → exec (.advanceNoticeArrival n) s =
      .next ((received s n src b).setSlip b i { p with chans := SMap.put p.chans h { x with tk := (x.tk + k) % 2 ^ 32 } })) ∧
    (s.arriving n = some freed → s.entryFree freed = true → exec (.freeNoticeArrival n) s =
      .next ((received s n src b).setSlip b i { p with chans := SMap.put p.chans h { x with hk := (x.hk + k) % 2 ^ 32 } })) ∧
    (s.arriving n = some advance → s.entryFree advance = false → exec (.advanceNoticeArrival n) s = .next (s.refuseBusy n advance)) ∧
    (s.arriving n = some freed → s.entryFree freed = false → exec (.freeNoticeArrival n) s = .next (s.refuseBusy n freed)) ∧
    (∀ ring at_ (data : Wide) ss st o, x.role = .consumer → p.ringOutside x at_ 64 = some o →
      s.arriving n = some { src := src, dst := b, body := .chst i h tag ring at_ data ss st, busy := bz } →
      let pr := left.slip src ss
      let tv : Word := BitVec.ofNat 64 (2 ^ 60 + o)
      (pr.bound = false ∨ pr.tag ≠ st ∨ pr.stopped = true → exec (.chstLanding n) s = .next left) ∧
      (pr.bound = true → pr.tag = st → pr.stopped = false →
        (pr.firing = false → exec (.chstLanding n) s = .next (left.setSlip src ss { pr with late := pr.late.or (some (12, tv)) })) ∧
        (pr.firing = true → pr.st ≠ .blocked → pr.st ≠ .halting → exec (.chstLanding n) s = .next (left.raiseSlip src ss 12 tv false)) ∧
        (pr.firing = true → pr.st = .blocked ∨ pr.st = .halting → exec (.chstLanding n) s =
          .next (((left.setSlip src ss { pr with closing := none, brd := none }).makeReady src ss).raiseSlip src ss 12 tv false)))) ∧
    (∀ ring at_ (data : Wide) ss st, x.role = .consumer → at_ < x.cap * x.slotb → 64 ≤ x.cap * x.slotb → p.ringOutside x at_ 64 = none →
      s.ringBad b x.base (x.cap * x.slotb) at_ 64 = none →
      s.arriving n = some { src := src, dst := b, body := .chst i h tag ring at_ data ss st, busy := bz } →
      ∃ t, exec (.chstLanding n) s = .next t ∧ t.net = left.net ∧
        (∀ j, j < 64 → t.byteAt (scratchKey b (x.base + (at_ + j) % (x.cap * x.slotb))) = BitVec.ofNat 8 (data.toNat / 2 ^ (8 * j))) ∧
        (∀ a, (∀ j, j < 64 → a ≠ scratchKey b (x.base + (at_ + j) % (x.cap * x.slotb))) → t.byteAt a = s.byteAt a) ∧ t.berths = s.berths) ∧
    (∀ ring at_ (data : Wide) ss st e, x.role = .consumer → p.ringOutside x at_ 64 = none → s.ringBad b x.base (x.cap * x.slotb) at_ 64 = some e →
      s.arriving n = some { src := src, dst := b, body := .chst i h tag ring at_ data ss st, busy := bz } →
      exec (.chstLanding n) s = .next (left.landingBad src ss st b e.1 e.2))

/-! ### Messages and windows (spec/13 R253 to R268) -/

namespace Sys2Proof.Claims
open Sys2Proof Sys2Proof.Machine

/-- i completes by issuing one item of a kind to member m (R256): it takes the window and the next sequence number of the slip, or in a
handler that a SEND entered those of the window after it; it is unacknowledged, and on its way. The frame: no memory and no register. -/
def Issues (i : Instr) (s : State) (c : Ctx) (m : Member) (kind : ItemKind) (gets : List GetDest) : Prop :=
  let p := s.slip c.b c.i
  let own := ¬ (c.hnd = true ∧ ∃ h, (s.berth c.b).handler = some h ∧ h.source = .item)
  ∃ win seq, (own → win = p.wseq ∧ seq = p.sseq) ∧ (¬ own → win = (p.wseq + 1) % 2 ^ 32 ∧ seq = p.hseq) ∧
    (let x : Item := { kind := kind, sidx := p.sidx, sseq := seq, win := win, src := c.b, srcSlip := c.i, srcTag := p.tag,
                       dst := m.berth, dstSlip := m.slip, dtag := m.tag }
     ∃ q : Slip, (own → q.sseq = (p.sseq + 1) % 2 ^ 32 ∧ q.hseq = p.hseq) ∧ (¬ own → q.hseq = p.hseq + 1 ∧ q.sseq = p.sseq) ∧
      q = { p with sseq := q.sseq, hseq := q.hseq, unacked := p.unacked ++ [x], gets := p.gets ++ gets } ∧
      exec i s = .next ((sent (s.setSlip c.b c.i q) c.b m.berth (.item x)).advance c none true))

/-- Whose a bank of a berth is among the group: by GRANT of the slip that holds it, else by the placement (R256). -/
def BankOf (s : State) (p : Slip) (b bank : Nat) (m : Member) : Prop := s.bankMember p b bank = some m

end Sys2Proof.Claims

/-- R254 to R256, R261: SEND, PUT and GET make their checks, in R256's order, and then issue one item: the low 8n bytes of wC with word 0 in the
handler window, the low s bytes of wC for a REMOTE offset, a REMOTE offset and a LOCAL destination that stays barred until the window closes.
A slip with no group, or a target that is no member of it, is cause 16 with reason 5; a path cause 9; alignment cause 8; GET's destination in a
bank not held cause 12; a handler address outside the window cause 17. WINDOW blocks the slip with the close under way. Which number SSEQ gives a
handler's item (log 13) and the flit of an item to another package (log 111) are the model's. -/
def Obligations.MessageIssue : Prop :=
  ∀ (s : State) (c : Ctx) (a r : BitVec 5),
    let p := s.slip c.b c.i
    let ea := s.readG c a.toNat 0
    let off := ea.toNat % 2 ^ 19
    (∀ k : BitVec 3, Runs s c {} [.src .g a.toNat 0, .src .w r.toNat 0] →
      let v := s.readW c r.toNat 0
      let pc := v.setWidth 64
      (p.members.find? (fun m => m.actor == ea.toNat % 2 ^ 32) = none → exec (.send k a r) s = .next (s.raise c 16 (channelTrap 5 0) false)) ∧
      (∀ m, p.members.find? (fun m => m.actor == ea.toNat % 2 ^ 32) = some m →
        (pc < (s.berth c.b).hbase ∨ (s.berth c.b).hlimit ≤ pc → exec (.send k a r) s = .next (s.raise c 17 pc false)) ∧
        ((s.berth c.b).hbase ≤ pc → pc < (s.berth c.b).hlimit →
          Issues (.send k a r) s c m (.send (BitVec.ofNat 512 (v.toNat % 2 ^ (64 * (k.toNat + 1)))) (k.toNat + 1)) []))) ∧
    (∀ z : BitVec 3, Runs s c {} [.src .g a.toNat 0, .src .w r.toNat 0] → p.members = [] →
      exec (.put z a r) s = .next (s.raise c 16 (channelTrap 5 0) false)) ∧
    (∀ z : BitVec 3, Runs s c {} [.src .g a.toNat 0, .src .w r.toNat 0] → p.members ≠ [] →
      (s.remoteBerth ea.toNat = none → exec (.put z a r) s = .next (s.raise c 9 ea false)) ∧
      (∀ b, s.remoteBerth ea.toNat = some b →
        (ea.toNat % 2 ^ z.toNat ≠ 0 → exec (.put z a r) s = .next (s.raise c 8 ea false)) ∧
        (ea.toNat % 2 ^ z.toNat = 0 → s.bankMember p b (off / 0x8000) = none → exec (.put z a r) s = .next (s.raise c 16 (channelTrap 5 0) false)) ∧
        (∀ m, ea.toNat % 2 ^ z.toNat = 0 → BankOf s p b (off / 0x8000) m →
          Issues (.put z a r) s c m (.put off (2 ^ z.toNat) (BitVec.ofNat 512 ((s.readW c r.toNat 0).toNat % 2 ^ (8 * 2 ^ z.toNat)))) []))) ∧
    (∀ z : BitVec 3, Runs s c { hnd := false } [.src .g a.toNat 0, .src .g r.toNat 0] →
      let da := s.readG c r.toNat 0
      let traps (cause : Nat) (tv : Word) : Prop := exec (.get z a r) s = .next (s.raise c cause tv false)
      (p.members = [] → traps 16 (channelTrap 5 0)) ∧
      (p.members ≠ [] → s.remoteBerth ea.toNat = none → traps 9 ea) ∧
      (∀ b, p.members ≠ [] → s.remoteBerth ea.toNat = some b →
        (da.toNat / 2 ^ 19 ≠ 2 ^ 41 → traps 9 da) ∧
        (da.toNat / 2 ^ 19 = 2 ^ 41 → ea.toNat % 2 ^ z.toNat ≠ 0 → traps 8 ea) ∧
        (da.toNat / 2 ^ 19 = 2 ^ 41 → ea.toNat % 2 ^ z.toNat = 0 → da.toNat % 2 ^ z.toNat ≠ 0 → traps 8 da) ∧
        (da.toNat / 2 ^ 19 = 2 ^ 41 → ea.toNat % 2 ^ z.toNat = 0 → da.toNat % 2 ^ z.toNat = 0 →
          (s.bankMember p b (off / 0x8000) = none → traps 16 (channelTrap 5 0)) ∧
          (∀ m, BankOf s p b (off / 0x8000) m →
            (p.banks.testBit (da.toNat % 2 ^ 19 / 0x8000) = false → traps 12 da) ∧
            (p.banks.testBit (da.toNat % 2 ^ 19 / 0x8000) = true →
              Issues (.get z a r) s c m (.get off (2 ^ z.toNat) (da.toNat % 2 ^ 19))
                [{ win := p.wseq, seq := p.sseq, off := da.toNat % 2 ^ 19, size := 2 ^ z.toNat }]))))) ∧
    (∀ k g : BitVec 1, Runs s c { hnd := false } [] →
      exec (.window k g) s = .next ((s.clearTouch c.b c.i).setSlip c.b c.i
        { p.resolve (s.lenAt c) with closing := some { k := k == 1, g := g == 1 }, st := .blocked, wait := some .window, begun := true }))

/-- R257, R259, R260, R262, R265 to R268: what arrives. An item is parked under its window with ACCEPT; dropped with STALE where its
receiver is no longer the one named, and with OVERFLOW where its buffers are full; refused BUSY where the input queue is, or where its next
entry is an older refused sender's. The answer goes back, and the sender strikes the item, recording a STALE. A GET reply is held. A launch is
queued, or at a control berth run; for a slip that has gone its queue takes error 5. A refused packet, or query, is sent again after its
back-off, crossing the links again (log 111). An item beyond 16 takes a record of the spill area (log 57). What is refused BUSY is an input (log 46); the sender of a launch (log 64) and the packet that a late error 5 names (log 113) are the model's. -/
def Obligations.MessageArrivals : Prop :=
  ∀ (s : State) (n src b bz : Nat),
    let left := received s n src b
    let answer (t : State) (x : Item) (r : AckReason) : State := sent t x.dst x.src (.ack x.srcSlip x.srcTag r x)
    (∀ x, s.arriving n = some { src := src, dst := b, body := .item x, busy := bz } →
      s.entryFree { src := src, dst := b, body := .item x, busy := bz } = true →
      let p := s.slip x.dst x.dstSlip
      let full := (p.parked.filter (fun y => y.win % 2 == x.win % 2)).length ≥ 16 + p.spillCap
      (p.bound = false ∨ p.tag ≠ x.dtag ∨ p.halting = true → exec (.itemArrival n) s = .next (answer left x .stale)) ∧
      (p.bound = true → p.tag = x.dtag → p.halting = false → ¬ full →
        ∃ q : Slip, q.parked = p.parked ++ [x] ∧ q = { p with parked := q.parked, addressed := q.addressed } ∧
          exec (.itemArrival n) s = .next (answer ((left.spillItem x).setSlip x.dst x.dstSlip q) x .accept) ∧
          ((p.parked.filter (fun y => y.win % 2 == x.win % 2)).length < 16 → left.spillItem x = left)) ∧
      (p.bound = true → p.tag = x.dtag → p.halting = false → full →
        ∃ q : Slip, q.overflowed = x.win :: p.overflowed ∧ q = { p with overflowed := q.overflowed, addressed := q.addressed } ∧
          exec (.itemArrival n) s = .next (answer (left.setSlip x.dst x.dstSlip q) x .overflow))) ∧
    (∀ x, s.arriving n = some { src := src, dst := b, body := .item x, busy := bz } →
      s.entryFree { src := src, dst := b, body := .item x, busy := bz } = false →
      ∃ t, exec (.itemArrival n) s = .next t ∧ t.mem = s.mem ∧
        t.net = s.net.take n ++ { src := src, dst := b, body := .item x, busy := bz + 1, waiting := true } :: s.net.drop (n + 1)) ∧
    (∀ i tag r x, s.arriving n = some { src := src, dst := b, body := .ack i tag r x, busy := bz } → (s.slip b i).bound = true → (s.slip b i).tag = tag →
      ∃ t, exec (.ackArrival n) s = .next t ∧ t.net = (taken s n).net ∧ t.mem = s.mem ∧
        (t.slip b i).unacked = (s.slip b i).unacked.filter (fun y => !(y.win == x.win && y.sseq == x.sseq)) ∧
        (t.slip b i).stale = (if r = .stale then (s.slip b i).stale ++ [{ win := x.win, actor := x.dtag / 2 ^ 32, sseq := x.sseq }] else (s.slip b i).stale)) ∧
    (∀ i tag r, s.arriving n = some { src := src, dst := b, body := .reply i tag r, busy := bz } →
      s.entryFree { src := src, dst := b, body := .reply i tag r, busy := bz } = true → (s.slip b i).bound = true → (s.slip b i).tag = tag →
      ∃ t, exec (.getReplyArrival n) s = .next t ∧ t.net = left.net ∧ t.mem = s.mem ∧ (t.slip b i).replies = (s.slip b i).replies ++ [r] ∧
        ∀ g ∈ (t.slip b i).gets, g.win = r.win → g.seq = r.seq → g.owed = false) ∧
    (∀ i tag l, s.arriving n = some { src := src, dst := b, body := .launch i tag l, busy := bz } →
      s.entryFree { src := src, dst := b, body := .launch i tag l, busy := bz } = true →
      let p := s.slip b i
      (p.bound = false ∨ p.tag ≠ tag ∨ p.halting = true → exec (.launchArrival n) s = .next (left.queueErrorWith l.pkg l.queue 5 (BitVec.ofNat 8 l.packet :: BitVec.ofNat 8 (l.packet / 256) ::
        [BitVec.ofNat 8 (l.packet / 65536), BitVec.ofNat 8 (l.packet / 16777216)]))) ∧
      (isControl b = false → p.bound = true → p.tag = tag → p.halting = false → p.launches.length < 16 →
        exec (.launchArrival n) s = .next (left.setSlip b i { p with launches := p.launches ++ [l] })) ∧
      (isControl b = true → p.bound = true → p.tag = tag → p.halting = false → (s.berth b).handler = none →
        ∃ t h, exec (.launchArrival n) s = .next t ∧ (t.berth b).ipMsg = true ∧ (t.berth b).handler = some h ∧ h.slip = i ∧ h.source = .control ∧
          h.steps = 0 ∧ h.live.q0 = { addr := some (BitVec.ofNat 64 ((l.words.getD 0 0).toNat)) } ∧ SMap.get 0 h.g 1 = BitVec.ofNat 64 (l.queue % 256) ∧
          SMap.get 0 h.g 2 = BitVec.ofNat 64 (l.packet % 2 ^ 17) ∧ t.net = left.net)) ∧
    (∀ p, s.net[n]? = some p → p.waiting = true →
      ∃ t, exec (.busyResend n) s = .next t ∧ t = { s.linkFlit p.src p.dst with net := t.net } ∧ t.net[n]? = some { p with waiting := false } ∧
        ∀ m, m ≠ n → t.net[m]? = s.net[m]?) ∧
    (∀ k m, s.kvCmds[m]? = some k → exec (.busyResend (s.net.length + m)) s = .next {
      (if k.backoff = true then s.linkFlits k.berth (unitPort k.page) k.op.bytes else s) with
      kvCmds := s.kvCmds.take m ++ { k with backoff := false } :: s.kvCmds.drop (m + 1) })

namespace Sys2Proof.Claims
open Sys2Proof Sys2Proof.Machine

/-- The blocked slip of a WINDOW whose markers are all in and for whom no handler runs. -/
def Closable (s : State) (b i : Nat) (c : Closing) : Prop :=
  (s.slip b i).closing = some c ∧ c.marked = true ∧ s.markersIn b i = true ∧ (s.berth b).handler = none ∧ (s.slip b i).stopped = false ∧
  (s.slip b i).st = .blocked

/-- The bytes of memory, by key, with the low n of v at a key (R3). -/
def putBytes (key n v : Nat) (m : Nat → Nat) : Nat → Nat := fun k => if key ≤ k ∧ k < key + n then v / 256 ^ (k - key) % 256 else m k

/-- The little-endian value of n bytes at a key. -/
def valueAt (m : Nat → Nat) (key : Nat) : Nat → Nat
  | 0 => 0
  | n + 1 => valueAt m key n + m (key + n) * 256 ^ n

/-- The bytes once the held replies of the window are at their destinations, in the order of their GETs (R257, R258). -/
def repliesPut (b : Nat) (p : Slip) (m : Nat → Nat) : Nat → Nat :=
  (p.gets.filter (fun g => g.win == p.wseq)).foldl (fun m g => match p.replies.find? (fun r => r.win == g.win && r.seq == g.seq) with
    | some r => putBytes (scratchKey b g.off) g.size r.data.toNat m
    | none => m) m

/-- What the application of items in order leaves (R257, R258, R263): the bytes, the replies that have left, the SEND whose handler runs, and
the items behind it, which wait. -/
def appliedItems (b : Nat) : List Item → (Nat → Nat) → (Nat → Nat) × List Packet × Option Item × List Item
  | [], m => (m, [], none, [])
  | x :: xs, m => match x.kind with
    | .put off n data => appliedItems b xs (putBytes (scratchKey b off) n data.toNat m)
    | .get off n dst =>
      let r := appliedItems b xs m
      (r.1, { src := b, dst := x.src, body := .reply x.srcSlip x.srcTag ({
        win := x.win, seq := x.sseq, off := dst, size := n, data := BitVec.ofNat 512 (valueAt m (scratchKey b off) n) } : Reply) } :: r.2.1, r.2.2)
    | .send _ _ => (m, [], some x, xs)

/-- t is s with items applied from the bytes m on. -/
def AppliedFrom (s t : State) (b i : Nat) (c : Closing) (l : List Item) (m : Nat → Nat) : Prop :=
  let r := appliedItems b l m
  (∀ k, (t.byteAt k).toNat = r.1 k) ∧ t.net = s.net ++ r.2.1 ∧
  (t.slip b i).closing = some { c with applying := true, items := r.2.2.2 } ∧
  (r.2.2.1 = none → (t.berth b).handler = none) ∧
  (∀ x data k, r.2.2.1 = some x → x.kind = .send data k → ∃ h, (t.berth b).handler = some h ∧ h.slip = i ∧ h.source = .item ∧
    h.live.q0 = { addr := some (data.setWidth 64) } ∧ SMap.get 0 h.g 1 = BitVec.ofNat 64 x.sidx ∧ SMap.get 0 h.g 2 = BitVec.ofNat 64 x.sseq ∧
    SMap.get 0 h.g 3 = BitVec.ofNat 64 x.win ∧ SMap.get 0 h.w 0 = data ∧
    ∀ j, 0 < j → j < 8 → SMap.get 0 h.g (8 + j) = BitVec.ofNat 64 (data.toNat / 2 ^ (64 * j)))

end Sys2Proof.Claims

/-- R36, R257, R258, R260, R262, R263, R268: the close of a window. A slip's marker leaves once everything it issued is complete, and every member
sees it; a halting member's stands for every later window. The checks come before anything is applied, in this order: an item dropped for want
of room is cause 22 with the items addressed and the room; a PUT or a reply that falls in a ring granule cause 16 with reason 6; a bank not
held cause 12; a STALE cause 19 with the actor and SSEQ of its first item. Then the held replies are written, and the items are applied in
ascending order of SIDX and SSEQ: a PUT stores its bytes, a GET answers with the bytes as they then are, a SEND runs its handler with its
words, and the items behind it wait until that handler ends and are then applied in the same way. A window with no G, no checkpoint to take and nothing left
completes: WSEQ grows by one, its items are gone, the slip is READY after the WINDOW. The readings of logs 40, 41, 42, 101 and 103 are the model's. -/
def Obligations.WindowsClose : Prop :=
  (∀ (s : State) (b i : Nat),
    let p := s.slip b i
    let ms := s.group b i
    (s.quiet b i p.wseq = false → exec (.closeMarkerArrival b i) s = .next s) ∧
    (∀ c, p.closing = some c → c.marked = false → p.halting = false → s.quiet b i p.wseq = true → (c.k = true → s.arrivalsUnderWay b i = false) →
      (∀ m ∈ ms, s.pairHolds b m.berth = false) →
      ∃ t, exec (.closeMarkerArrival b i) s = .next t ∧ (t.slip b i).closing = some { c with marked := true } ∧ t.mem = s.mem ∧ t.net = s.net ∧
        (∀ m ∈ ms, (s.slip m.berth m.slip).tag = m.tag → (p.sidx, p.wseq) ∈ (t.slip m.berth m.slip).markers) ∧
        ∀ b' j, t.slip b' j = { s.slip b' j with markers := (t.slip b' j).markers, closing := (t.slip b' j).closing }) ∧
    (p.halting = true → s.quiet b i p.wseq = true → (∀ m ∈ p.left, m.tag ≠ p.tag) → (∀ m ∈ ms, s.pairHolds b m.berth = false) →
      ∃ t, exec (.closeMarkerArrival b i) s = .next t ∧ t.mem = s.mem ∧ t.net = s.net ∧
        (∀ m ∈ ms, (s.slip m.berth m.slip).tag = m.tag →
          ∃ x ∈ (t.slip m.berth m.slip).left, x.tag = p.tag ∧ x.berth = b ∧ x.slip = i) ∧
        ∀ b' j, t.slip b' j = { s.slip b' j with left := (t.slip b' j).left })) ∧
  (∀ (s : State) (b i : Nat) (c : Closing), Closable s b i c → c.applying = false →
    let p := s.slip b i
    let w := p.wseq
    let raised (cause : Nat) (tv : Word) : Prop :=
      exec (.windowComplete b i) s = .next (((s.setSlip b i { p with closing := none }).makeReady b i).raiseSlip b i cause tv false)
    (w ∈ p.overflowed → raised 22 (BitVec.ofNat 64 ((((p.addressed.find? (fun e => e.1 == w)).map (fun e => e.2)).getD 0) % 2 ^ 32 +
      (16 + p.spillCap) * 2 ^ 32))) ∧
    (w ∉ p.overflowed →
      (((∃ y ∈ p.parked, y.win = w ∧ ∃ off n data, y.kind = .put off n data ∧ (s.berth b).ringsIn off n ≠ []) ∨
        (∃ g ∈ p.gets, g.win = w ∧ (∃ r ∈ p.replies, r.win = w ∧ r.seq = g.seq) ∧ (s.berth b).ringsIn g.off g.size ≠ [])) →
        ∃ tv, tv.toNat % 256 = 6 ∧ raised 16 tv) ∧
      (s.windowRing b p = none →
        (∀ tv, p.windowOutside = some tv → raised 12 tv) ∧
        (∀ y ∈ p.stale, p.windowOutside = none → y.win = w → (∀ z ∈ p.stale, z.win = w → z = y ∨ y.sseq < z.sseq) →
          raised 19 (BitVec.ofNat 64 (y.actor % 2 ^ 32 + y.sseq * 2 ^ 32))))) ∧
    (∀ l, s.windowFault b i = none → s.poison = [] → l.Perm (p.parked.filter (fun x => x.win == w)) →
      l.Pairwise (fun x y => x.sidx < y.sidx ∨ (x.sidx = y.sidx ∧ x.sseq < y.sseq)) →
      ∃ t, exec (.windowComplete b i) s = .next t ∧ AppliedFrom s t b i c l (repliesPut b p (fun k => (s.byteAt k).toNat)))) ∧
  (∀ (s : State) (b i : Nat) (c : Closing), Closable s b i c → c.applying = true →
    (c.items ≠ [] → s.poison = [] → ∃ t, exec (.windowComplete b i) s = .next t ∧ AppliedFrom s t b i c c.items (fun k => (s.byteAt k).toNat)) ∧
    (c.items = [] → c.g = false → (c.decided = some false ∨ (c.decided = none ∧ s.asksCheckpoint b i = false)) → (c.voided ≠ none ∨ s.voidOpen b i = false) →
      ∃ t, exec (.windowComplete b i) s = .next t ∧ (t.slip b i).wseq = ((s.slip b i).wseq + 1) % 2 ^ 32 ∧
        (t.slip b i).sseq = (s.slip b i).hseq ∧ (t.slip b i).hseq = 0 ∧ (t.slip b i).st = .ready ∧ (t.slip b i).closing = none ∧
        (∀ y ∈ (t.slip b i).parked, y.win ≠ (s.slip b i).wseq) ∧ t.mem = s.mem))

/-! ### Cells and bank operations (spec/15 R298 to R305, spec/03 R88 to R90) -/

namespace Sys2Proof.Claims
open Sys2Proof Sys2Proof.Machine

/-- The operation of the executing slip on its way to a cell, with the address space it was translated under (R287, R301): none in the Plain. -/
def bankOpOf (s : State) (c : Ctx) (key : Nat) (op : BOp) (v : Word) : BankOp :=
  { key := key, op := op, value := v, berth := c.b, slip := c.i, asid := if key / 2 ^ 60 = 3 then none else some (s.berth c.b).asid }

/-- s with one operation of the executing slip more on its way to a cell (R301). -/
def posted (s : State) (c : Ctx) (ea key : Nat) (op : BOp) (v : Word) : State :=
  { s.noteReduce c ea key with bankOps := s.bankOps ++ [bankOpOf s c key op v] }

/-- A bank operation of two g registers at distances. -/
abbrev BankReg := BitVec 5 → BitVec 3 → BitVec 5 → BitVec 3 → Instr

/-- The contributions with one doubleword: form, operation, alignment (R302). -/
noncomputable def bankForms : List (BankReg × BOp × Nat) :=
  [(.badd, .add, 8), (.band, .and, 8), (.bor, .or, 8), (.bxor, .xor, 8), (.bmin 0, .min false, 8), (.bmin 1, .min true, 8),
   (.bmax 0, .max false, 8), (.bmax 1, .max true, 8), (.bminf, .minf, 8), (.bmaxf, .maxf, 8), (.bfxa 0, .fxa false, 64), (.bfxa 1, .fxa true, 64)]

/-- The new doubleword of an integer contribution (R302). -/
def cellFunctions : List (BOp × (Word → Word → Word)) :=
  [(.add, fun x v => x + v), (.and, fun x v => x &&& v), (.or, fun x v => x ||| v), (.xor, fun x v => x ^^^ v),
   (.min false, fun x v => if x.toInt ≤ v.toInt then x else v), (.min true, fun x v => if x ≤ v then x else v),
   (.max false, fun x v => if x.toInt ≤ v.toInt then v else x), (.max true, fun x v => if x ≤ v then v else x),
   (.minf, fun x v => BitVec.ofNat 64 (fpMinMax .fp32 false (x.toNat % 2 ^ 32) (v.toNat % 2 ^ 32)).1),
   (.maxf, fun x v => BitVec.ofNat 64 (fpMinMax .fp32 true (x.toNat % 2 ^ 32) (v.toNat % 2 ^ 32)).1)]

/-- Operation n, at a doubleword as R301 aligns it, may reach its cell: no earlier one of its slip to that cell is before it, no checkpoint holds it, the bank is
awake and no migration has moved it (R294, R305, R422, R438). -/
def MayApply (s : State) (n : Nat) (o : BankOp) : Prop :=
  s.bankOps[n]? = some o ∧ o.key % 8 = 0 ∧ (∀ e ∈ s.bankOps.take n, ¬ (e.berth = o.berth ∧ e.slip = o.slip ∧ e.key / 64 = o.key / 64)) ∧
  s.heldByCheckpoint o.berth o.slip = false ∧ s.cellAsleep o.key = false ∧ s.forwardKey o.key = o.key

end Sys2Proof.Claims

/-- R273, R301 to R303: where its address passes the checks of R301, a bank operation is sent to its cell and the slip goes on; nothing else
changes. A Plain address reaches the cell of the slip's window. BVSA sends 16 contributions, lane l to the cell 64 l bytes on. -/
def Sys2Proof.Claims.bankOperationsIssue : Prop :=
  ∀ (s : State) (c : Ctx) (a b : BitVec 5) (x y : BitVec 3),
    let ea := s.readG c a.toNat x.toNat
    (∀ z n brd, ea.toNat / 2 ^ 60 = 3 → ea.toNat / 2 ^ 32 % 2 ^ 28 = 0 → ea.toNat % z = 0 →
      let w := (s.slip c.b c.i).plwin.toNat
      s.cellReach c ea.toNat z n brd = if (ea.toNat % 2 ^ 32 + n - 1) / 64 < w / 2 ^ 32
        then .hit (plainKey (pkgOf c.b) (64 * (w % 2 ^ 32) + ea.toNat % 2 ^ 32)) else .trap 9) ∧
    (Runs s c {} [.src .g a.toNat x.toNat, .src .g b.toNat y.toNat] →
      let v := s.readG c b.toNat y.toNat
      (∀ e ∈ bankForms, ∀ key, s.cellReach c ea.toNat e.2.2 e.2.2 false = .hit key →
        exec (e.1 a x b y) s = .next ((posted s c ea.toNat key e.2.1 v).advance c none true)) ∧
      (∀ e ∈ bankForms, ∀ cause, s.cellReach c ea.toNat e.2.2 e.2.2 false = .trap cause →
        exec (e.1 a x b y) s = .next (s.raise c cause ea false)) ∧
      (∀ (i : BitVec 3) (k : BitVec 1) key, s.cellReach c ea.toNat 64 64 false = .hit key →
        exec (.bdef i k a x b y) s = .next ((posted s c ea.toNat key (.define (k == 1) i.toNat (v.toNat % 2 ^ 32)) v).advance c none true))) ∧
    (∀ (e : BitVec 4) key, Runs s c {} [.src .g a.toNat x.toNat, .src .w b.toNat y.toNat] → s.cellReach c ea.toNat 64 1024 false = .hit key →
      ∃ t, exec (.bvsa e a x b y) s = .next t ∧ t.mem = s.mem ∧ t.cells = s.cells ∧
        t.bankOps = s.bankOps ++ (List.range 16).map (fun l =>
          bankOpOf s c (key + 64 * l) (.vsa l e.toNat) (((s.readW c b.toNat y.toNat) >>> (32 * l)).setWidth 32 |>.setWidth 64)))

/-- R88, R89, R298 to R300, R302, R303: an operation at its cell. BDEF starts a round: the kind, the pattern, COUNT 0, EXPECT, and MISUSE where the cell
was OPEN. A contribution to an OPEN cell of its kind gives the doubleword, or the 320-bit sum, its new value and adds one to COUNT; to a
SEALED cell or one of the other kind, an integer or an exact one alike (BFXA, BVSA), it only sets MISUSE. No other byte changes. A contribution that meets a word its code cannot correct
changes no cell, and its issuer's domain rolls back with cause 25 (R439; the model's reading, log 115). -/
def Obligations.BankOperationsApply : Prop :=
  ∀ (s : State) (n : Nat) (o : BankOp), MayApply s n o →
    let k := o.key / 64 * 64
    let tag : CellTag := SMap.get {} s.cells k
    (∀ e ∈ cellFunctions, ∀ w, o.op = e.1 → tag.exact = false → tag.count < tag.expect → s.badWord o.key 8 = some w → s.isActive o.berth = false →
      ∃ t e, exec (.bankOpApply n) s = .next t ∧ t.bankOps = s.bankOps.take n ++ s.bankOps.drop (n + 1) ∧ t.mem = s.mem ∧ t.cells = s.cells ∧
        t.rollbacks = s.rollbacks ++ [e] ∧ e.berth = o.berth ∧ e.slip = o.slip ∧ e.cause = 25 ∧ e.owner = (s.slip o.berth o.slip).owner) ∧
    (s.poisoned k 64 = false →
    ∃ t, exec (.bankOpApply n) s = .next t ∧ t.bankOps = s.bankOps.take n ++ s.bankOps.drop (n + 1) ∧ t.berths = s.berths ∧
      (∀ a, a < k ∨ k + 64 ≤ a → t.byteAt a = s.byteAt a) ∧
      (∀ init expect, o.op = .define false init expect →
        (∀ j, j < 8 → t.natAt (k + 8 * j) 8 = [0, 2 ^ 64 - 1, 2 ^ 63 - 1, 2 ^ 63, 0x7F800000].getD init 0xFF800000) ∧
        SMap.get {} t.cells k = { exact := false, count := 0, expect := expect % 2 ^ 32, misuse := tag.misuse || !s.sealed k }) ∧
      (∀ init expect, o.op = .define true init expect →
        t.natAt k 40 = 0 ∧ t.natAt (k + 40) 4 = 0 ∧ t.natAt (k + 44) 4 = expect % 2 ^ 32 ∧ t.natAt (k + 48) 1 = 0 ∧
        (SMap.get {} t.cells k : CellTag).exact = true ∧ (SMap.get {} t.cells k : CellTag).misuse = (tag.misuse || !s.sealed k)) ∧
      (∀ e ∈ cellFunctions, o.op = e.1 → tag.exact = false → tag.count < tag.expect →
        t.natAt o.key 8 = (e.2 (BitVec.ofNat 64 (s.natAt o.key 8)) o.value).toNat ∧
        (∀ a, a < o.key ∨ o.key + 8 ≤ a → t.byteAt a = s.byteAt a) ∧ SMap.get {} t.cells k = { tag with count := tag.count + 1 }) ∧
      (∀ v, o.op.exactValue o.value.toNat = some v → tag.exact = true → s.natAt (k + 40) 4 < s.natAt (k + 44) 4 →
        (t.natAt k 40 : Int) = (s.natAt k 40 + gridInt v) % 2 ^ 320 ∧ t.natAt (k + 40) 4 = s.natAt (k + 40) 4 + 1 ∧
        t.natAt (k + 44) 4 = s.natAt (k + 44) 4 ∧
        t.natAt (k + 48) 1 = s.natAt (k + 48) 1 ||| (match v with | .nan => 1 | .inf neg => if neg then 4 else 2 | .fin _ _ _ _ => 0)) ∧
      (∀ e ∈ cellFunctions, o.op = e.1 → tag.exact = true ∨ tag.expect ≤ tag.count →
        t.mem = s.mem ∧ SMap.get {} t.cells k = { tag with misuse := true }) ∧
      (∀ v, o.op.exactValue o.value.toNat = some v → tag.exact = false ∨ s.natAt (k + 44) 4 ≤ s.natAt (k + 40) 4 →
        t.mem = s.mem ∧ SMap.get {} t.cells k = { tag with misuse := true }))

namespace Sys2Proof.Claims
open Sys2Proof Sys2Proof.Machine

/-- i completes: g d reads as v; a bank of the Plain may begin to count its idle cycles anew (R438), and nothing else changes but the queue. -/
def ReadsCell (i : Instr) (s : State) (c : Ctx) (d : Nat) (v : Word) (ev : Ev) : Prop :=
  ∃ t, exec i s = .next t ∧ t.readG c d 0 = (if d = 0 then 0 else v) ∧ Kept s t c [(.g, d)] ev ∧
    (t.berth c.b).evcHi = (s.berth c.b).evcHi ∧ { t.rest with pkgs := [] } = { s.rest with pkgs := [] } ∧
    ∀ p, { t.pkg p with cellIdle := [] } = { s.pkg p with cellIdle := [] }

end Sys2Proof.Claims

/-- R90, R301, R304, R305: BRD reads a SEALED cell of its kind: a doubleword, or an exact sum rounded to FP32 or BF16. It waits while the cell is OPEN
or an earlier operation of the slip to it is on its way, with its address translated once (R287); the other kind is cause 10. -/
def Sys2Proof.Claims.cellReads : Prop :=
  ∀ (s : State) (c : Ctx) (d a : BitVec 5) (x : BitVec 3) (o : BitVec 2) (key : Nat),
    Runs s c { hnd := false } [.src .g a.toNat x.toNat, .dst .g d.toNat] →
    let ea := s.readG c a.toNat x.toNat
    let k := key / 64 * 64
    let z := if o = 0 then 8 else 64
    s.cellReach c ea.toNat z z true = .hit key → s.cellAsleep k = false → (s.slip c.b c.i).brd = none →
    let queued := ∃ e ∈ s.bankOps, e.berth = c.b ∧ e.slip = c.i ∧ e.key / 64 = k / 64
    (queued ∨ s.sealed k = false → exec (.brd d a x o) s = .next (s.setSlip c.b c.i { s.slip c.b c.i with
      st := .blocked, wait := some (.cell k), begun := true
      brd := some { key := key, asid := if key / 2 ^ 60 = 3 then none else some (s.berth c.b).asid } })) ∧
    (¬ queued → s.sealed k = true → s.poisoned (if o = 0 then key else k) z = false →
      ((SMap.get {} s.cells k : CellTag).exact ≠ decide (o ≠ 0) → exec (.brd d a x o) s = .next (s.raise c 10 ea false)) ∧
      ((SMap.get {} s.cells k : CellTag).exact = false → o = 0 → ReadsCell (.brd d a x o) s c d.toNat (BitVec.ofNat 64 (s.natAt key 8)) {}) ∧
      ((SMap.get {} s.cells k : CellTag).exact = true → o ≠ 0 →
        let r := s.cellRound k (if o = 1 then .fp32 else .bf16)
        ReadsCell (.brd d a x o) s c d.toNat (BitVec.ofNat 64 r.1) r.2))

/-! ### Sync words, arrivals, fences, drains (spec/15 R306 to R310, spec/16, spec/14 R285 to R287) -/

namespace Sys2Proof.Claims
open Sys2Proof Sys2Proof.Machine

/-- Is generation a at or before b, modulo 2^32 (R309)? -/
def AtOrBefore (a b : Nat) : Prop := (b + 2 ^ 32 - a % 2 ^ 32) % 2 ^ 32 < 2 ^ 31

/-- n phases close as counts bc and ac complete targets bt and at (R307): as many as both admit, a zero target none. -/
def Closes (bt at_ bc ac n : Nat) : Prop := (n * bt ≤ bc ∧ n * at_ ≤ ac) ∧ ¬ ((n + 1) * bt ≤ bc ∧ (n + 1) * at_ ≤ ac)

/-- A LOCAL address of a sync word of the slip (R310). -/
def SyncAddress (s : State) (c : Ctx) (ea : Word) : Prop :=
  ea.toNat / 2 ^ 19 = 2 ^ 41 ∧ ea.toNat % 16 = 0 ∧ (s.slip c.b c.i).banks.testBit (ea.toNat % 2 ^ 19 / 0x8000) = true

end Sys2Proof.Claims

/-- R306 to R310, R317 to R320, R439: SWDEF writes the 16 bytes of a sync word with its targets, zero counts and generation 0, and clears its
landing records; both targets zero undefine it. It is cause 21 on a word that is counting, and cause 20 for an overlap that nothing has raised
yet, which then counts as raised (log 102). SWAIT blocks until the generation, or raises what it finds: the error mark is cause 21, an earlier
generation's overlap cause 20, one that a SWDEF or SWAIT has raised before among them (log 102), an absent mark cause 23; else it acquires the
generation. Of both, a path is cause 9, a bank not held 12, misaligned 8, a word that cannot be read 25. ARRIVE sends one arrival once the slip's
bank operations are done; no place is cause 9, misaligned 8, scope 0 cause 21. FENCE waits for them, its PUTs and its CHSTs. The order of the
causes of SWDEF (log 36), the overlaps raised again (log 102), the poisoned word (log 115) and the readings of logs 28, 29 and 35 are the model's. -/
def Obligations.SyncInstructions : Prop :=
  ∀ (s : State) (c : Ctx) (a b : BitVec 5) (x y sc : BitVec 3),
    let ea := s.readG c a.toNat x.toNat
    let k := scratchKey c.b (ea.toNat % 2 ^ 19)
    (∀ i : Instr, ((i = .swdef a x b y ∧ Runs s c {} [.src .g a.toNat x.toNat, .src .g b.toNat y.toNat]) ∨
        (i = .swait sc a x b y ∧ Runs s c { hnd := false } [.src .g a.toNat x.toNat, .src .g b.toNat y.toNat])) →
      let held := (s.slip c.b c.i).banks.testBit (ea.toNat % 2 ^ 19 / 0x8000)
      (ea.toNat / 2 ^ 19 ≠ 2 ^ 41 → exec i s = .next (s.raise c 9 ea false)) ∧
      (ea.toNat / 2 ^ 19 = 2 ^ 41 → held = false → exec i s = .next (s.raise c 12 ea false)) ∧
      (ea.toNat / 2 ^ 19 = 2 ^ 41 → held = true → ea.toNat % 16 ≠ 0 → exec i s = .next (s.raise c 8 ea false)) ∧
      (SyncAddress s c ea → (SMap.get? s.syncs k).isSome = true → s.poisoned k 16 = true →
        exec i s = .next ((s.logBad c.b k 16).raise c 25 ea false))) ∧
    (Runs s c {} [.src .g a.toNat x.toNat, .src .g b.toNat y.toNat] → SyncAddress s c ea → s.poisoned k 16 = false →
      let bt := (s.readG c b.toNat y.toNat).toNat % 2 ^ 32
      let at_ := (s.readG c b.toNat y.toNat).toNat / 2 ^ 32 % 2 ^ 16
      (∀ w, SMap.get? s.syncs k = some w → s.natAt (k + 4) 4 ≠ 0 ∨ s.natAt (k + 10) 2 ≠ 0 →
        exec (.swdef a x b y) s = .next (s.raise c 21 ea false)) ∧
      (∀ w o, SMap.get? s.syncs k = some w → s.natAt (k + 4) 4 = 0 → s.natAt (k + 10) 2 = 0 → w.overlaps = [o] →
        ∃ (t : State) (w' : SyncWord), exec (.swdef a x b y) s = .next (t.raise c 20 (BitVec.ofNat 64 (2 ^ 60 + (o.2 - scratchKey c.b 0))) false) ∧
          t.mem = s.mem ∧ t.berths = s.berths ∧ SMap.get? t.syncs k = some w' ∧ w'.overlaps = [] ∧ o ∈ w'.raised) ∧
      ((∀ w, SMap.get? s.syncs k = some w → w.overlaps = [] ∧ s.natAt (k + 4) 4 = 0 ∧ s.natAt (k + 10) 2 = 0) →
        s.commandBars c ea.toNat 16 = false → k ∉ s.heldArrivals →
        ∃ t, exec (.swdef a x b y) s = .next t ∧ t.natAt k 16 = bt + at_ * 2 ^ 64 ∧
          (∀ adr, adr < k ∨ k + 16 ≤ adr → t.byteAt adr = s.byteAt adr) ∧
          SMap.get? t.syncs k = (if bt = 0 ∧ at_ = 0 then none else some {}) ∧ (∀ j, j ≠ k → SMap.get? t.syncs j = SMap.get? s.syncs j) ∧
          ∀ e ∈ t.grans, ∀ r ∈ e.2.records, r.1 ≠ k)) ∧
    (Runs s c { hnd := false } [.src .g a.toNat x.toNat, .src .g b.toNat y.toNat] → SyncAddress s c ea → s.poisoned k 16 = false →
      let v := (s.readG c b.toNat y.toNat).toNat % 2 ^ 32
      (SMap.get? s.syncs k = none → exec (.swait sc a x b y) s = .next (s.raise c 21 ea false)) ∧
      (∀ w, SMap.get? s.syncs k = some w →
        (¬ AtOrBefore v (s.natAt (k + 12) 4) → w.overflow = false →
          exec (.swait sc a x b y) s = .next (s.setSlip c.b c.i { s.slip c.b c.i with st := .blocked, wait := some (.syncWord k v), begun := true })) ∧
        (AtOrBefore v (s.natAt (k + 12) 4) ∨ w.overflow = true →
          (w.error = true → exec (.swait sc a x b y) s = .next (s.raise c 21 ea false)) ∧
          (∀ o, w.error = false → w.overlaps ++ w.raised = [o] → AtOrBefore o.1 v → o.1 % 2 ^ 32 ≠ v →
            ∃ (t : State) (w' : SyncWord), exec (.swait sc a x b y) s = .next (t.raise c 20 (BitVec.ofNat 64 (2 ^ 60 + (o.2 - scratchKey c.b 0))) false) ∧
              t.mem = s.mem ∧ t.berths = s.berths ∧ SMap.get? t.syncs k = some w' ∧ w'.overlaps = [] ∧ w'.raised = [o]) ∧
          (∀ tv, w.error = false → w.overlaps = [] → w.raised = [] → w.absent = some tv → exec (.swait sc a x b y) s =
            .next (((s.jotScratch c.b (ea.toNat % 2 ^ 19)).setSync k { w with absent := none }).raise c 23 tv false)) ∧
          (w.error = false → w.overlaps = [] → w.raised = [] → w.absent = none → ∃ t, exec (.swait sc a x b y) s = .next t ∧ t.mem = s.mem ∧ t.grans = s.grans ∧
            SMap.get? t.syncs k = some { w with aq := if (v + 2 ^ 32 - w.aq % 2 ^ 32) % 2 ^ 32 < 2 ^ 31 then v else w.aq })))) ∧
    (Runs s c {} [.src .g a.toNat x.toNat] →
      (s.arriveTarget c.b ea.toNat = none → exec (.arrive sc a x) s = .next (s.raise c 9 ea false)) ∧
      (∀ dst, s.arriveTarget c.b ea.toNat = some dst →
        (ea.toNat % 16 ≠ 0 → exec (.arrive sc a x) s = .next (s.raise c 8 ea false)) ∧
        (ea.toNat % 16 = 0 → sc = 0 → exec (.arrive sc a x) s = .next (s.raise c 21 ea false)))) ∧
    (Runs s c {} [.src .g a.toNat x.toNat] → ea.toNat % 16 = 0 → sc ≠ 0 → ∀ dst, s.arriveTarget c.b ea.toNat = some dst →
      ((∀ o ∈ s.bankOps, ¬ (o.berth = c.b ∧ o.slip = c.i)) →
        exec (.arrive sc a x) s = .next ((sent (s.clearTouch c.b c.i) c.b dst (.arrival ea c.i (s.slip c.b c.i).owner)).advance c none true)) ∧
      ((∃ o ∈ s.bankOps, o.berth = c.b ∧ o.slip = c.i) → exec (.arrive sc a x) s = .next ((s.clearTouch c.b c.i).began c))) ∧
    (Runs s c {} [] →
      let pending := (∃ o ∈ s.bankOps, o.berth = c.b ∧ o.slip = c.i) ∨ s.chstPending c.b c.i = true ∨ (s.slip c.b c.i).putPending = true
      (¬ pending → exec (.fence sc) s = .next ((s.acquired c).advance c none true)) ∧ (pending → exec (.fence sc) s = .next (s.began c)))

/-- R307, R310, R318: an arrival at its granule. Where the sync word is defined it counts one arrival and closes the phases that the counts
complete; where it is not it is held; where it cannot be read its sender's domain rolls back (log
115); one that a halted actor sent between a member's WINDOW.K and the last member's joins the checkpoint being taken (R369, R422); where no slip holds the bank its sender's domain takes kind 1 with cause 21. With no entry for it in
the receiver's input queue it is refused BUSY (R267). -/
def Sys2Proof.Claims.arrivalsCount : Prop :=
  ∀ (s : State) (n src b i bz : Nat) (ea : Word) (owner : Option Owner),
    let p : Packet := { src := src, dst := b, body := .arrival ea i owner, busy := bz }
    s.arriving n = some p → (s.entryFree p = false → exec (.arrivalDelivery n) s = .next (s.refuseBusy n p)) ∧ (s.entryFree p = true →
    let off := ea.toNat % 2 ^ 19
    let k := scratchKey b off
    let noted := (received s n src b).noteArrival b off { p with busy := 0 }
    ((s.berth b).holder (off / 0x8000) = none → exec (.arrivalDelivery n) s = .next { received s n src b with
      stops := s.stops ++ [{ berth := src, slip := i, kind := 1, cause := 21, tval := ea, pcq0 := (s.slip src i).recordPc, owner := owner }] }) ∧
    (∀ h, (s.berth b).holder (off / 0x8000) = some h →
      (SMap.get? s.syncs k = none → exec (.arrivalDelivery n) s = .next { noted with heldArrivals := s.heldArrivals ++ [k] }) ∧
      ((SMap.get? s.syncs k).isSome = true → s.poisoned k 16 = true →
        exec (.arrivalDelivery n) s = .next ((noted.logBad b k 16).rollbackFor src i 25 ea owner)) ∧
      (∀ w, SMap.get? s.syncs k = some w → s.poisoned k 16 = false → w.overflow = false → s.natAt (k + 10) 2 + 1 < 2 ^ 16 → s.natAt k 4 ≠ 0 ∨ s.natAt (k + 8) 2 ≠ 0 →
        ∃ t m, exec (.arrivalDelivery n) s = .next t ∧ t.net = (taken s n).net ∧
          Closes (s.natAt k 4) (s.natAt (k + 8) 2) (s.natAt (k + 4) 4) (s.natAt (k + 10) 2 + 1) m ∧
          t.natAt (k + 4) 4 = s.natAt (k + 4) 4 - m * s.natAt k 4 ∧ t.natAt (k + 10) 2 = s.natAt (k + 10) 2 + 1 - m * s.natAt (k + 8) 2 ∧
          t.natAt (k + 12) 4 = (s.natAt (k + 12) 4 + m) % 2 ^ 32 ∧ (∀ adr, adr < k ∨ k + 16 ≤ adr → t.byteAt adr = s.byteAt adr))))

/-- R285 to R287: FLUSHAS drops every cached leaf of the space at every berth of the package and notes the space; a reserved bit is cause 2. What is
under way under the space takes the mark for which the slip's DRAIN waits; DRAIN then empties the set. Neither changes memory. -/
def Sys2Proof.Claims.flushAndDrain : Prop :=
  ∀ (s : State) (c : Ctx) (a : BitVec 5) (x : BitVec 3),
    (Runs s c { priv := true, hnd := false } [.src .g a.toNat x.toNat] →
      let v := (s.readG c a.toNat x.toNat).toNat
      (2 ^ 16 ≤ v → exec (.flushas a x) s = .next (s.raise c 2 (BitVec.ofNat 64 (encode (.flushas a x))) false)) ∧
      (v < 2 ^ 16 → ∃ t, exec (.flushas a x) s = .next t ∧ t.mem = s.mem ∧ v ∈ (t.slip c.b c.i).flushed ∧
        (∀ b, pkgOf b = pkgOf c.b → (t.berth b).tlb = (s.berth b).tlb.filter (fun e => e.asid ≠ v) ∧
          (t.berth b).itlb = (s.berth b).itlb.filter (fun e => e.asid ≠ v)) ∧
        (∀ h, h / 48 = pkgOf c.b → SMap.get [] t.tlb2 h = (SMap.get [] s.tlb2 h).filter (fun e => e.asid ≠ v)) ∧
        (∀ h, h / 48 ≠ pkgOf c.b → SMap.get [] t.tlb2 h = SMap.get [] s.tlb2 h) ∧
        s.marks ∈ (t.slip c.b c.i).drains ∧
        (∀ o ∈ s.bankOps, pkgOf o.berth = pkgOf c.b → o.asid = some v → { o with flushers := s.marks :: o.flushers } ∈ t.bankOps) ∧
        (∀ k ∈ s.copies, pkgOf k.berth = pkgOf c.b → v ∈ k.spaces → { k with flushers := s.marks :: k.flushers } ∈ t.copies) ∧
        (∀ b, pkgOf b ≠ pkgOf c.b → t.berth b = s.berth b))) ∧
    (Runs s c { priv := true, hnd := false } [] →
      let mine := (s.slip c.b c.i).drains
      let busy := (∃ o ∈ s.bankOps, ∃ m ∈ mine, m ∈ o.flushers) ∨ (∃ k ∈ s.copies, ∃ m ∈ mine, m ∈ k.flushers) ∨
        ∃ e ∈ s.berths, ∃ q ∈ e.2.slips, ∃ w, q.2.brd = some w ∧ ∃ m ∈ mine, m ∈ w.flushers
      (¬ busy → exec .drain s = .next ((s.setSlip c.b c.i { s.slip c.b c.i with flushed := [], drains := [] }).advance c none true)) ∧
      (busy → exec .drain s = .next (s.began c)))

/-! ### Copies (spec/17) -/

namespace Sys2Proof.Claims
open Sys2Proof Sys2Proof.Machine

/-- i completes by accepting the request in v, as the slip and the FIFO stand in u, as identifier id of its channel (R323, R326, R333, R335): gD := id,
the slip has one more request outstanding, the FIFO one more copy with the fields of R323. No memory changes. -/
def AcceptsAfter (i : Instr) (s u : State) (c : Ctx) (d : Nat) (v : Wide) : Prop :=
  let p := u.slip c.b c.i
  let w (j : Nat) : Nat := (v.toNat / 2 ^ (64 * j)) % 2 ^ 64
  let chan := w 3 / 2 ^ 46 % 4
  let id := ((SMap.get 0 p.xnext chan).toNat + 1) % 2 ^ 32
  ∃ t k, exec i s = .next t ∧ t.mem = s.mem ∧ t.copies = s.copies ++ [k] ∧ t.readG c d 0 = (if d = 0 then 0 else BitVec.ofNat 64 id) ∧
    (t.slip c.b c.i).outstanding = p.outstanding ++ [{ chan := chan, id := id }] ∧
    (t.slip c.b c.i).xnext = SMap.put p.xnext chan (BitVec.ofNat 32 id) ∧
    k.berth = c.b ∧ k.slip = c.i ∧ k.src = BitVec.ofNat 64 (w 0) ∧ k.dst = BitVec.ofNat 64 (w 1) ∧ k.kind = w 2 / 2 ^ 28 % 16 ∧
    k.len = w 2 % 2 ^ 28 ∧ k.sync = w 3 / 2 ^ 48 ∧ k.chan = chan ∧ k.arr = (w 3).testBit 45 ∧ k.pv = (w 3).testBit 44 ∧ k.pref = w 3 % 2 ^ 19 ∧
    k.id = id ∧ k.stage = .queued ∧ k.pos = 0 ∧ k.geo = s.bytesAt (scratchKey c.b (w 2 / 2 ^ 32)) (if k.kind = 0 then 0 else if k.kind = 1 then 128 else 32)

/-- i completes by accepting the request in v in s itself. -/
abbrev Accepts (i : Instr) (s : State) (c : Ctx) (d : Nat) (v : Wide) : Prop := AcceptsAfter i s s c d v

/-- s with a request of the executing slip acknowledged (R333): no longer outstanding, and XDONE of its channel its identifier. -/
def acknowledged (c : Ctx) (s : State) (o : Outstanding) : State :=
  s.setSlip c.b c.i { s.slip c.b c.i with
    outstanding := (s.slip c.b c.i).outstanding.filter (fun x => !(x.chan == o.chan && x.id == o.id))
    xdone := SMap.put (s.slip c.b c.i).xdone o.chan (BitVec.ofNat 32 o.id) }

/-- s with the executing slip blocked in a wait. -/
def blockedIn (c : Ctx) (s : State) (w : Wait) : State :=
  s.setSlip c.b c.i { s.slip c.b c.i with st := .blocked, wait := some w, begun := true }

/-- One side of an element lies in a scratchpad, or in memory of a class other than EXCHANGE, at a key. -/
def PlainSide (x : Side) (key : Nat) : Prop := x.reason = 0 ∧ x.waits = false ∧
  ((∃ b off, x = .scratch b off ∧ key = scratchKey b off) ∨ ∃ cls line, x = .mem key cls line ∧ cls ≠ .exchange)

end Sys2Proof.Claims

/-- R323, R326, R328, R333, R335 to R337: XFER and XFERQ raise cause 30 for a request that fails its checks; accept it where the slip has fewer than
8 requests outstanding and the FIFO has room, and wait where it has not; with 8 outstanding XFERQ answers all ones, and XFER first acknowledges the
oldest, waiting for it and raising its error. Both wait while an earlier copy of the slip is to land on the request's records (R332). XWAIT on an
identifier never assigned is cause 30 with reason 13; it acknowledges the requests up to the identifier in order, waits at the first that is not
complete and raises the first error. XSTAT gives the last identifier and the number outstanding. Which reason a malformed request takes is the
model's choice in part (log 37). -/
def Obligations.CopiesIssue : Prop :=
  ∀ (s : State) (c : Ctx) (d a : BitVec 5) (k : BitVec 2),
    let p := s.slip c.b c.i
    let last := (SMap.get 0 p.xnext k.toNat).toNat
    (Runs s c { hnd := false } [.src .w a.toNat 0, .dst .g d.toNat] →
      let v := s.readW c a.toNat 0
      let fifo := (s.copies.filter (fun x => x.berth == c.b && x.stage == .queued)).length
      let r := Request.ofWide v
      (s.recordBehind c r = true → exec (.xfer d a) s = .next (s.began c) ∧ exec (.xferq d a) s = .next (s.began c)) ∧
      (∀ tv, s.recordBehind c r = false → s.requestFault c r = some tv →
        exec (.xfer d a) s = .next (s.raise c 30 tv false) ∧ exec (.xferq d a) s = .next (s.raise c 30 tv false)) ∧
      (s.recordBehind c r = false → s.requestFault c r = none →
        (p.outstanding.length < 8 → fifo < 8 → Accepts (.xfer d a) s c d.toNat v ∧ Accepts (.xferq d a) s c d.toNat v) ∧
        (p.outstanding.length < 8 → 8 ≤ fifo →
          exec (.xfer d a) s = .next (blockedIn c s .fifo) ∧ exec (.xferq d a) s = .next (blockedIn c s .fifo)) ∧
        (8 ≤ p.outstanding.length → GivesG (.xferq d a) s c d.toNat (BitVec.allOnes 64) {}) ∧
        (∀ o rest, p.outstanding = o :: rest → 8 ≤ p.outstanding.length →
          let u := acknowledged c s o
          (o.done = false → exec (.xfer d a) s = .next (blockedIn c s (.copies o.chan o.id))) ∧
          (∀ tv, o.done = true → o.err = some tv → exec (.xfer d a) s = .next (u.raise c 30 tv false)) ∧
          (o.done = true → o.err = none → fifo < 8 → AcceptsAfter (.xfer d a) s u c d.toNat v) ∧
          (o.done = true → o.err = none → 8 ≤ fifo → exec (.xfer d a) s = .next (blockedIn c u .fifo))))) ∧
    (Runs s c { hnd := false } [.src .g a.toNat 0] →
      let t := (s.readG c a.toNat 0).toNat % 2 ^ 32
      let xdone := (SMap.get 0 p.xdone k.toNat).toNat
      (¬ AtOrBefore t last → exec (.xwait a k) s = .next (s.raise c 30 (BitVec.ofNat 64 (13 + k.toNat * 2 ^ 30 + t * 2 ^ 32)) false)) ∧
      (AtOrBefore t last → AtOrBefore t xdone → exec (.xwait a k) s = .next ((s.acquired c).advance c none true)) ∧
      (∀ front back, AtOrBefore t last → ¬ AtOrBefore t xdone → (∀ o ∈ front, o.done = true ∧ o.err = none) →
        p.outstanding.filter (fun o => o.chan == k.toNat && genLe o.id t) = front ++ back →
        let u := front.foldl (acknowledged c) (s.acquired c)
        (back = [] → exec (.xwait a k) s = .next (u.advance c none true)) ∧
        (∀ o rest, back = o :: rest →
          (o.done = false → exec (.xwait a k) s = .next (blockedIn c u (.copies o.chan o.id))) ∧
          (∀ tv, o.done = true → o.err = some tv → exec (.xwait a k) s = .next ((acknowledged c u o).raise c 30 tv false))))) ∧
    (Runs s c {} [.dst .g d.toNat] →
      GivesG (.xstat d k) s c d.toNat (BitVec.ofNat 64 (last + p.outstanding.length * 2 ^ 32)) {})

/-- R308, R326 to R333: a copy's walk. The lighter takes the oldest request of a berth's FIFO. An element whose checks pass lands: its bytes at the
destination are those of its source, no other byte changes, and the walk moves on; one with a bad path or alignment ends the copy with that
reason. A copy that has landed all it lands contributes its bytes, and its arrival, to its sync word, and retires: its request is done; a sync word that cannot be read is reason 12 (log 115). A landing whose sync word lies in a bank not held ends with reason 7, and a copy
that lands in no scratchpad then raises cause 12 as it retires (R36, log 121). The readings of logs 37, 38, 39, 115 and 121, and what a privileged
copy's racing read returns (R313, log 6), are the model's. -/
def Obligations.CopiesWalk : Prop :=
  ∀ (s : State) (n : Nat) (k : Copy), s.copies[n]? = some k →
    (k.stage = .queued → k.reason = 0 → (∀ x ∈ s.copies.take n, ¬ (x.berth = k.berth ∧ x.stage = .queued)) →
      ∃ t, exec (.copyStart k.berth) s = .next t ∧ t = { s with copies := t.copies } ∧ t.copies[n]? = some { k with stage := .active } ∧
        ∀ m, m ≠ n → t.copies[m]? = s.copies[m]?) ∧
    (k.stage = .active → k.reason = 0 → k.pos < k.total → k.buf = none → s.copyBehind n k (s.srcOf k k.pos) (k.dstOf k.pos) = false →
      s.awaitsTransfer k = false →
      let dst := s.copySide k (k.dstOf k.pos).toNat true
      ∀ a, s.srcOf k k.pos = some a →
        let src := s.copySide k a.toNat false
        (∀ from_ to_, PlainSide src from_ → PlainSide dst to_ → s.elementReason k src dst (k.dstOf k.pos).toNat 0 = 0 →
          s.landingHeld k dst = false → s.landingUndefined k dst = false → s.landingBehind k dst = false →
          ∃ t k1, exec (.copyLanding n) s = .next t ∧ t.copies[n]? = some k1 ∧ k1.pos = k.pos + 1 ∧ k1.stage = .active ∧ k1.reason = 0 ∧
            (∀ j, j < k.esize → t.byteAt (to_ + j) = (s.readSide k src).getD j 0) ∧
            ((s.slip k.berth k.slip).early = [] → ∀ j, j < k.esize → t.byteAt (to_ + j) = s.byteAt (from_ + j)) ∧
            (∀ adr, adr < to_ ∨ to_ + k.esize ≤ adr → t.byteAt adr = s.byteAt adr)) ∧
        (∀ r, src.reason = r → r = 5 ∨ r = 6 → dst.reason = 0 →
          ∃ t, exec (.copyLanding n) s = .next t ∧ t.mem = s.mem ∧ t.copies[n]? = some { k with reason := r, buf := none, waitPage := none }) ∧
        (∀ from_ b off, PlainSide src from_ → dst = .scratch b off → k.sync ≠ 0xFFFF → s.syncHeld k b = false →
          ∃ t, exec (.copyLanding n) s = .next t ∧ t.mem = s.mem ∧ t.copies[n]? = some { k with reason := 7, buf := none, waitPage := none })) ∧
    (k.stage = .active → k.buf = none → k.reason = 0 → k.total ≤ k.pos →
      (k.sync = 0xFFFF → k.lines = [] → ∃ t, exec (.copyComplete n) s = .next t ∧ t.mem = s.mem ∧
        t.copies = s.copies.take n ++ s.copies.drop (n + 1) ∧
        (t.slip k.berth k.slip).outstanding = (s.slip k.berth k.slip).outstanding.map (fun o =>
          if o.chan = k.chan ∧ o.id = k.id then { o with done := true, err := none } else o)) ∧
      (s.syncOutside k = true → exec (.copyComplete n) s =
        .next ((s.retireCopy n k).lateRaise k.berth k.slip k.tag 12 (BitVec.ofNat 64 (2 ^ 60 + 16 * k.sync)))) ∧
      (∀ b, s.contribution k = some (some b) →
        let w := scratchKey b (16 * k.sync)
        (s.poisoned w 16 = false →
          exec (.copyComplete n) s = .next ((s.contribute b (16 * k.sync) (k.total * k.esize) (if k.arr then 1 else 0) false).retireCopy n k)) ∧
        (s.poisoned w 16 = true →
          exec (.copyComplete n) s = .next ((s.logBad k.berth w 16).failCopy n { k with bad := some ((s.badWord w 16).getD w) } 12))))

/-! ### The crane (spec/18) -/

namespace Sys2Proof.Claims
open Sys2Proof Sys2Proof.Machine

/-- The crane of the executing slip's berth with one command more in its queue, under the next sequence number (R340). -/
def enqueued (s : State) (c : Ctx) (op : CraneOp) : Crane :=
  let k := (s.berth c.b).crane
  let n := (k.seq + 1) % 2 ^ 32
  { k with seq := n, queue := k.queue ++ [{ seq := n, slip := c.i, op := op, counts := !(s.slip c.b c.i).intrap }] }

/-- s with the crane of a berth as k. -/
def withCrane (s : State) (b : Nat) (k : Crane) : State := s.setBerth b { s.berth b with crane := k }

/-- The multiplies with their pair index (R342). -/
noncomputable def mmaForms : List ((BitVec 5 → BitVec 4 → BitVec 5 → BitVec 3 → Instr) × Nat) :=
  [(.cmmaBf, 0), (.cmmaHf, 1), (.cmmaI8, 2), (.cmmaE4e4, 3), (.cmmaE4e5, 4), (.cmmaE5e4, 5), (.cmmaE5e5, 6), (.cmmaF6a, 7), (.cmmaF6b, 8),
   (.cmmaF6ab, 9), (.cmmaMxf4, 10), (.cmmaKf4, 11), (.cmmaE4kf4, 12), (.cmmaMxi8, 13)]

/-- The tags of a load descriptor (R353). -/
def loadTag (d n : Nat) : PlaneTag := { fmt := d % 16, sp := d / 2 ^ 4 % 4, n := n, kg := d / 2 ^ 8 % 256 }

/-- A load descriptor d at an address passes the checks of R351 and R353 as a load of a dense, or of a sparse, plane of n columns. -/
def LoadPasses (s : State) (c : Ctx) (addr : Word) (d n : Nat) (sparse : Bool) : Prop :=
  let g := loadTag d n
  let stride := 32 * (d / 2 ^ 16 % 2 ^ 11)
  let off := addr.toNat % 2 ^ 19
  d < 2 ^ 27 ∧ shapeN (d / 2 ^ 6 % 4) = some n ∧ g.fmt ≤ 9 ∧ g.sp ≠ 3 ∧ g.kg ≠ 0 ∧ (sparse = true ↔ g.sp ≠ 0) ∧
  s.spanFault c addr ((List.range n).map (fun j => (off + j * stride, colBytes g))) = none ∧
  32 * g.kg / 2 ^ g.sp % 32 = 0 ∧ 32 * g.kg / 2 ^ g.sp ≤ kmaxOf g.fmt ∧ colBytes g ≤ stride ∧
  (sparse = true → s.badMask c.b g off stride = none ∧
    ∀ j, j < n → s.poisoned (scratchKey c.b (off + j * stride + rowBytes g.fmt (32 * g.kg / 2 ^ g.sp))) (4 * g.kg) = false)

end Sys2Proof.Claims

/-- R339, R340, R351 to R357: the crane instructions that queue a command. With the grant, the checks passed and room in the queue, the command
takes the next sequence number and the mirror follows: a load sets the tags of its plane, CWSWAP swaps the planes, CZCLR unlatches its tile,
a CMMA latches its scale pair; the last two add to the pending set of the tile. Without the grant it is cause 12; a CMMA whose shape code is
unassigned is cause 14; a full queue is waited for. That the events of a command issued with INTRAP set count nowhere is log 34's reading. -/
def Obligations.CraneCommandsQueue : Prop :=
  ∀ (s : State) (c : Ctx),
    let k := (s.berth c.b).crane
    let granted (z : Nat) : Prop := (s.slip c.b c.i).tiles.testBit z = true
    (Runs s c { hnd := false } [] →
      ((s.slip c.b c.i).tiles = 0 → exec .cwswap s = .next (s.raise c 12 8 false)) ∧
      ((s.slip c.b c.i).tiles ≠ 0 → 16 ≤ k.queue.length → exec .cwswap s = .next (s.began c)) ∧
      ((s.slip c.b c.i).tiles ≠ 0 → k.queue.length < 16 → exec .cwswap s =
        .next ((withCrane s c.b { enqueued s c .swap with mactive := !k.mactive }).advance c none true))) ∧
    (∀ (a b : BitVec 5) (v : BitVec 1) (n : Nat), Runs s c { hnd := false } [.src .g a.toNat 0, .src .g b.toNat 0] →
      let addr := s.readG c a.toNat 0
      let d := (s.readG c b.toNat 0).toNat
      let g := loadTag d n
      let stride := 32 * (d / 2 ^ 16 % 2 ^ 11)
      let off := addr.toNat % 2 ^ 19
      let rows := (List.range n).map (fun j => (off + j * stride, colBytes g))
      let masks := (List.range n).map (fun j => s.bytesAt (scratchKey c.b (off + j * stride + rowBytes g.fmt (32 * g.kg / 2 ^ g.sp))) (4 * g.kg))
      let t := s.touchSpan c rows
      let tagged (x : Crane) : Crane := if (v == 1) = k.mactive then { x with m1 := some g } else { x with m0 := some g }
      ((s.slip c.b c.i).tiles = 0 →
        exec (.cwld a v b) s = .next (s.raise c 12 8 false) ∧ exec (.cwlds a v b) s = .next (s.raise c 12 8 false)) ∧
      ((s.slip c.b c.i).tiles ≠ 0 → 16 ≤ k.queue.length →
        (LoadPasses s c addr d n false → exec (.cwld a v b) s = .next (s.began c)) ∧
        (LoadPasses s c addr d n true → exec (.cwlds a v b) s = .next (s.began c))) ∧
      ((s.slip c.b c.i).tiles ≠ 0 → k.queue.length < 16 → LoadPasses s c addr d n false → exec (.cwld a v b) s =
        .next ((withCrane t c.b (tagged (enqueued t c (.load (v == 1) g off stride [])))).advance c none true)) ∧
      ((s.slip c.b c.i).tiles ≠ 0 → k.queue.length < 16 → LoadPasses s c addr d n true → exec (.cwlds a v b) s =
        .next ((withCrane t c.b (tagged (enqueued t c (.load (v == 1) g off stride masks)))).advance c none true))) ∧
    (∀ z : BitVec 3, Runs s c { hnd := false } [.tile z.toNat] →
      (¬ granted z.toNat → exec (.czclr z) s = .next (s.raise c 12 (BitVec.ofNat 64 z.toNat) false)) ∧
      (granted z.toNat → 16 ≤ k.queue.length → exec (.czclr z) s = .next (s.began c)) ∧
      (granted z.toNat → k.queue.length < 16 →
        let t : Tile := SMap.get {} k.tiles z.toNat
        exec (.czclr z) s = .next ((withCrane s c.b { enqueued s c (.clear z.toNat) with
          tiles := SMap.put k.tiles z.toNat { t with latch := none, int32 := false, pending := t.pending ++ [(k.seq + 1) % 2 ^ 32] } }).advance c none true))) ∧
    (∀ e ∈ mmaForms, ∀ (a h : BitVec 5) (f : BitVec 4) (z : BitVec 3),
      Runs s c { hnd := false } [.tile z.toNat, .src .g a.toNat 0, .src .f (2 * f.toNat) 0, .src .f (2 * f.toNat + 1) 0] →
      let d := (s.readG c a.toNat 0).toNat
      let off := d % 2 ^ 19
      let m := d / 2 ^ 20 % 2 ^ 6 + 1
      let stride := 32 * (d / 2 ^ 32 % 2 ^ 8)
      let sa := s.readF c (2 * f.toNat) 0
      let sb := s.readF c (2 * f.toNat + 1) 0
      let x : Tile := SMap.get {} k.tiles z.toNat
      (¬ granted z.toNat → exec (e.1 a f h z) s = .next (s.raise c 12 (BitVec.ofNat 64 z.toNat) false)) ∧
      (granted z.toNat → d / 2 ^ 40 = 0 → d / 2 ^ 26 % 2 ^ 6 = 0 → d.testBit 19 = false →
      (shapeOf e.2 h.toNat = none → exec (e.1 a f h z) s = .next (s.raise c 14 (BitVec.ofNat 64 (1 + h.toNat * 2 ^ 8 + e.2 * 2 ^ 16)) false)) ∧
      (∀ n depth need, shapeOf e.2 h.toNat = some (n, depth, need) →
        (∀ cause tv, s.mmaFault c e.2 z.toNat h.toNat n depth need off stride m sa sb = some (cause, tv) →
          exec (e.1 a f h z) s = .next (s.raise c cause tv false)) ∧
        (s.mmaFault c e.2 z.toNat h.toNat n depth need off stride m sa sb = none → 16 ≤ k.queue.length →
          exec (e.1 a f h z) s = .next (s.began c)) ∧
        (s.mmaFault c e.2 z.toNat h.toNat n depth need off stride m sa sb = none → k.queue.length < 16 →
          let op : CraneOp := .mma z.toNat e.2 off stride m n depth
          let t := s.touchSpan c ((List.range m).map (fun r => (off + r * stride, rowBytes (pairAct e.2) depth)))
          let latched : Tile := { x with
            latch := some (x.latch.getD (sa, sb)), int32 := if x.latch = none then decide (e.2 = 2) else x.int32
            pending := x.pending ++ [(k.seq + 1) % 2 ^ 32] }
          exec (e.1 a f h z) s = .next ((withCrane t c.b { enqueued t c op with tiles := SMap.put k.tiles z.toNat latched }).advance c none true)))))

/-- R359 to R362, R366: CZWAIT blocks until the commands it covers are complete, then counts their events, empties the pending sets and raises the
first error. CZOUT stores the rows of a tile, raw or rounded, or its 16-byte record, and changes no other byte and no tile; CZLD loads raw rows or
the record into the tile, and changes no byte and no other tile. Both wait while a command of the berth is not complete. -/
def Obligations.CraneTiles : Prop :=
  ∀ (s : State) (c : Ctx) (z : BitVec 3), (s.slip c.b c.i).tiles.testBit z.toNat = true →
    let k := (s.berth c.b).crane
    let x : Tile := SMap.get {} k.tiles z.toNat
    (Runs s c { hnd := false } [.tile z.toNat] →
      (k.settled (some z.toNat) = false →
        exec (.czwait 0 z) s = .next (s.setSlip c.b c.i { s.slip c.b c.i with st := .blocked, wait := some (.tiles z.toNat), begun := true })) ∧
      (k.settled (some z.toNat) = true → (∀ e ∈ k.finished, e.seq ∈ x.pending → e.err = none) →
        ∃ t, exec (.czwait 0 z) s = .next t ∧ t.mem = s.mem ∧
          (t.berth c.b).crane = { k with finished := k.finished.filter (fun e => !x.pending.contains e.seq)
                                         tiles := SMap.put k.tiles z.toNat { x with pending := [] } } ∧
          (t.slip c.b c.i).evc = ((s.slip c.b c.i).count (Ev.sum ((k.finished.filter (fun e => x.pending.contains e.seq)).map (fun e => e.ev)))).evc) ∧
      (∀ e cause tv, k.settled (some z.toNat) = true → k.finished = [e] → e.seq ∈ x.pending → e.err = some (cause, tv) →
        exec (.czwait 0 z) s = .next (((withCrane s c.b { k with
          finished := [], tiles := SMap.put k.tiles z.toNat { x with pending := [] } }).count c e.ev).raise c cause tv false))) ∧
    (Runs s c { hnd := false } [] → k.settled none = true → (∀ e ∈ k.finished, e.err = none) →
      ∃ t, exec (.czwait 1 z) s = .next t ∧ (t.berth c.b).crane.finished = [] ∧
        ∀ j, (SMap.get {} (t.berth c.b).crane.tiles j : Tile).pending = []) ∧
    (∀ (a b : BitVec 5), Runs s c { hnd := false } [.tile z.toNat, .src .g a.toNat 0, .src .g b.toNat 0] →
      let addr := s.readG c a.toNat 0
      let opt := (s.readG c b.toNat 0).toNat
      let off := addr.toNat % 2 ^ 19
      let ofmt := opt % 8
      let size := if ofmt = 1 ∨ ofmt = 2 then 2 else 4
      let place (r cc : Nat) : Nat := scratchKey c.b (off + r * (32 * (opt / 2 ^ 8 % 2 ^ 8)) + cc * size)
      let rows := opt / 2 ^ 16 % 2 ^ 6 + 1
      let word (r cc : Nat) : Nat := SMap.get 0 x.words (32 * r + cc)
      let pair := x.latch.getD (0x3F800000#32, 0x3F800000#32)
      (k.idle = false →
        (s.tileFault c (encode (.czout a b z)) z.toNat addr opt (fun n => decide (n < 4) || n == 7) = none →
          exec (.czout a b z) s = .next (s.began c)) ∧
        (s.tileFault c (encode (.czld a b z)) z.toNat addr opt (fun n => n == 3 || n == 7) = none → exec (.czld a b z) s = .next (s.began c))) ∧
      (k.idle = true → s.tileFault c (encode (.czout a b z)) z.toNat addr opt (fun n => decide (n < 4) || n == 7) = none →
        (∀ row ∈ tileRows off opt, s.commandBars c (localAddr row.1).toNat row.2 = false) →
        (ofmt ≠ 7 → ∃ t, exec (.czout a b z) s = .next t ∧ (t.berth c.b).crane = k ∧
          (∀ r cc, r < rows → cc < 32 → t.natAt (place r cc) size = (if ofmt = 3 then word r cc
            else (tileElem ofmt (opt.testBit 3) (x.latch.isSome && x.int32) pair.1.toNat pair.2.toNat (word r cc)).1) % 2 ^ (8 * size)) ∧
          (∀ adr, (∀ r, r < rows → adr < place r 0 ∨ place r 32 ≤ adr) → t.byteAt adr = s.byteAt adr)) ∧
        (ofmt = 7 → ∃ t, exec (.czout a b z) s = .next t ∧ (t.berth c.b).crane = k ∧
          (∀ adr, adr < scratchKey c.b off ∨ scratchKey c.b off + 16 ≤ adr → t.byteAt adr = s.byteAt adr) ∧ t.natAt (scratchKey c.b off) 4 = pair.1.toNat ∧ t.natAt (scratchKey c.b off + 4) 4 = pair.2.toNat ∧
          t.natAt (scratchKey c.b off + 8) 8 = (if x.latch.isSome then (if x.int32 then 3 else 1) else 0))) ∧
      (k.idle = true → s.tileFault c (encode (.czld a b z)) z.toNat addr opt (fun n => n == 3 || n == 7) = none → s.badRow c.b (tileRows off opt) = none →
        ∃ t y, exec (.czld a b z) s = .next t ∧ t.mem = s.mem ∧ (t.berth c.b).crane = { k with tiles := SMap.put k.tiles z.toNat y } ∧
          (ofmt = 3 → (∀ r cc, r < rows → cc < 32 → SMap.get 0 y.words (32 * r + cc) = s.natAt (place r cc) 4) ∧
            (∀ j, 32 * rows ≤ j → SMap.get 0 y.words j = SMap.get 0 x.words j) ∧ y.latch = x.latch ∧ y.pending = x.pending) ∧
          (ofmt = 7 → y.words = x.words ∧ ((s.natAt (scratchKey c.b off + 8) 1).testBit 0 = false → y.latch = none) ∧
            ((s.natAt (scratchKey c.b off + 8) 1).testBit 0 = true → y.latch = some (BitVec.ofNat 32 (s.natAt (scratchKey c.b off) 4),
              BitVec.ofNat 32 (s.natAt (scratchKey c.b off + 4) 4))))))

/-- R341, R353 to R358, R363, R364: the crane at work. The arbiter takes the next command of the berth it serves. A command that reads no
uncorrectable word has its effect: a swap changes the active plane, a clear zeroes the tile, a load sets its plane's columns, a multiply adds the
products of each row and column to the tile's words. It is then complete, with its events. A failure of the crane's own storage is recorded
as cause 29 and one of a word it reads as cause 25, for the wait that covers it. The words after a failure are free values (log 4); which commands' events
count, those issued with INTRAP clear, is log 34's reading. -/
def Obligations.CraneWorks : Prop :=
  (∀ (s : State) (b : Nat) (cmd : CraneCmd) (rest : List CraneCmd) (starts : Bool), (s.berth b).crane.queue = cmd :: rest →
    (∀ x, x / 8 = b / 8 → (s.berth x).crane.running = none) → s.cranePick b = some (b, starts) →
    ∃ t, exec (.craneDispatch b) s = .next t ∧ t.mem = s.mem ∧ (t.berth b).crane = { (s.berth b).crane with queue := rest, running := some cmd } ∧
      (∀ x, x ≠ b → t.berth x = s.berth x) ∧
      (starts = true → (SMap.get {} t.arbiters (b / 8) : Arbiter) = { turn := b % 8, used := 1 })) ∧
  (∀ (s : State) (b : Nat) (cmd : CraneCmd), (s.berth b).crane.running = some cmd →
    let k := (s.berth b).crane
    ∃ t, exec (.craneCommand b) s = .next t ∧ t.mem = s.mem ∧ (t.berth b).crane.running = none ∧ (t.berth b).crane.queue = k.queue ∧
      (∀ x, x ≠ b → t.berth x = s.berth x) ∧
      (s.badRow b cmd.op.reads = none → k.fails = false →
        (cmd.op = .swap → (t.berth b).crane.active = !k.active ∧ (t.berth b).crane.tiles = k.tiles) ∧
        (∀ z, cmd.op = .clear z → (∀ j, SMap.get 0 (SMap.get {} (t.berth b).crane.tiles z : Tile).words j = 0) ∧ (t.berth b).crane.active = k.active) ∧
        (∀ toActive g off stride masks, cmd.op = .load toActive g off stride masks → ∃ x, x.tag = some g ∧ x.cols.length = g.n ∧
          (∀ j, j < g.n → x.cols.getD j [] = s.bytesAt (scratchKey b (off + j * stride)) (rowBytes g.fmt (32 * g.kg / 2 ^ g.sp)) ++ masks.getD j []) ∧
          (if toActive = k.active then (t.berth b).crane.p1 = x ∧ (t.berth b).crane.p0 = k.p0 else (t.berth b).crane.p0 = x ∧ (t.berth b).crane.p1 = k.p1)) ∧
        (∀ z pair off stride m n depth g, cmd.op = .mma z pair off stride m n depth → (if k.active then k.p1 else k.p0).tag = some g →
          let r := passTile pair g m n depth (fun r => s.natAt (scratchKey b (off + r * stride)) (rowBytes (pairAct pair) depth))
            (fun cc => leNat ((if k.active then k.p1 else k.p0).cols.getD cc [])) (SMap.get {} k.tiles z : Tile).words
          (SMap.get {} (t.berth b).crane.tiles z : Tile).words = r.1 ∧
          (t.berth b).crane.finished = k.finished ++ [{ seq := cmd.seq, tile := some z, ev := if cmd.counts then r.2 else {} }])) ∧
      (s.badRow b cmd.op.reads = none → k.fails = true → (t.berth b).crane.fails = false ∧ (t.berth b).crane.finished =
        k.finished ++ [{ seq := cmd.seq, tile := cmd.op.tile, err := some (29, BitVec.ofNat 64 (cmd.op.tile.getD 0 + cmd.seq * 2 ^ 32)) }]) ∧
      (∀ o, s.badRow b cmd.op.reads = some o → (t.berth b).crane.finished =
        k.finished ++ [{ seq := cmd.seq, tile := cmd.op.tile, err := some (25, BitVec.ofNat 64 (2 ^ 60 + o)) }]))

/-! ### Key-value pages (spec/20) -/

namespace Sys2Proof.Claims
open Sys2Proof Sys2Proof.Machine

/-- A slip with nothing to report of its valley commands, which no checkpoint holds, at a berth that holds none for the unit, and a page it may use
at once (R267, R377, R382, R422). -/
def KvQuiet (s : State) (c : Ctx) (page : Nat) : Prop :=
  s.heldByCheckpoint c.b c.i = false ∧ s.kvBusy c.b c.i = false ∧ s.kvHolds c.b (page / 2 ^ 27) = false ∧
  (SMap.get {} s.kv page : KvHdr).resident = true ∧ (s.slip c.b c.i).kvRefusals = [] ∧ (s.slip c.b c.i).kvClips = 0

/-- The page is the slip's: its berth's ASID and its actor (R373). -/
def Owns (s : State) (c : Ctx) (h : KvHdr) : Prop :=
  h.st ≠ .unalloc ∧ h.asid = (s.berth c.b).asid ∧ h.actor = (s.slip c.b c.i).actor

/-- s after the unit of query k has taken it: a sender that it refused before leaves its list (R267). -/
def entered (s : State) (k : KvCmd) : State :=
  if k.busy = 0 then s
  else { s with kvRefused := SMap.put s.kvRefused (k.page / 2 ^ 27) ((SMap.get [] s.kvRefused (k.page / 2 ^ 27)).erase k.berth) }

/-- i completes by making h the header of a page: no other page, no memory, no g register and no waiting command changes. -/
def SetsHeader (i : Instr) (s : State) (c : Ctx) (page : Nat) (h : KvHdr) : Prop :=
  ∃ t, exec i s = .next t ∧ t.kv = SMap.set {} s.kv page h ∧ t.mem = s.mem ∧ t.kvCmds = s.kvCmds ∧ ∀ r, r < 32 → t.readG c r 0 = s.readG c r 0

end Sys2Proof.Claims

/-- R370 to R378, R383 to R386: the valley instructions at a page of the slip, with nothing to wait for. KVOPEN opens a FREE page with its scales; a page
in another state or of another owner is cause 10, an illegal option word cause 2. KVSEAL seals an OPEN page; KVSTAT reads the header. KVAPP and KVQRY
read their operands and post a command. KVDROP frees a page, GRANT gives it an owner, REVOKE takes it, behind the slip's earlier commands to
the bank and what its berth holds for the unit (R267); they are privileged. An address that names no page is cause 9. -/
def Obligations.ValleyInstructions : Prop :=
  ∀ (s : State) (c : Ctx) (a b d : BitVec 5),
    let ea := s.readG c a.toNat 0
    let o := (s.readG c b.toNat 0).toNat
    (Runs s c { hnd := false } [.src .g a.toNat 0] → s.kvPage ea.toNat = none → exec (.kvseal a) s = .next (s.raise c 9 ea false)) ∧
    (∀ page, s.kvPage ea.toNat = some page →
      let h : KvHdr := SMap.get {} s.kv page
      (Runs s c { hnd := false } [.src .g a.toNat 0, .src .g b.toNat 0] →
        (2 ^ 24 ≤ o → exec (.kvopen a b) s = .next (s.raise c 2 (BitVec.ofNat 64 (encode (.kvopen a b))) false)) ∧
        (KvQuiet s c page → Owns s c h → h.st = .free → o < 2 ^ 24 → o / 2 ^ 4 % 2 ^ 4 = 0 → o % 4 ≠ 3 →
          (∀ xk xv, o.testBit 2 = false → o.testBit 3 = true → o / 2 ^ 8 % 2 ^ 8 = xk → o / 2 ^ 16 = xv → xk ≠ 255 → xv ≠ 255 →
            SetsHeader (.kvopen a b) s c page { h with st := .opened, len := 0, clip := 0, err := 0, dh := o % 4, fmt := false, fix := true, xk := xk, xv := xv }) ∧
          (o.testBit 2 = true → o < 8 →
            SetsHeader (.kvopen a b) s c page { h with st := .opened, len := 0, clip := 0, err := 0, dh := o % 4, fmt := true, fix := true, xk := 127, xv := 127 }) ∧
          (o < 3 →
            SetsHeader (.kvopen a b) s c page { h with st := .opened, len := 0, clip := 0, err := 0, dh := o, fmt := false, fix := false, xk := 0, xv := 0 })) ∧
        (KvQuiet s c page → o < 3 → ¬ Owns s c h ∨ h.st ≠ .free → ∃ t : State, exec (.kvopen a b) s = .next (t.raise c 10 ea false) ∧ t.kv = s.kv ∧ t.mem = s.mem)) ∧
      (Runs s c { hnd := false } [.src .g a.toNat 0] → KvQuiet s c page → Owns s c h →
        (h.st = .opened → ∃ t, exec (.kvseal a) s = .next t ∧ SMap.get {} t.kv page = { h with st := .sealed } ∧ t.mem = s.mem) ∧
        (h.st = .sealed → ∃ t, exec (.kvseal a) s = .next t ∧ t.kv = s.kv ∧ t.mem = s.mem)) ∧
      (Runs s c { hnd := false } [.src .g a.toNat 0, .dst .g d.toNat] → KvQuiet s c page → Owns s c h → h.st ≠ .free →
        ∃ t, exec (.kvstat d a) s = .next t ∧ t.kv = s.kv ∧ t.mem = s.mem ∧ t.readG c d.toNat 0 = (if d = 0 then 0 else BitVec.ofNat 64
          (h.len + h.xk * 2 ^ 8 + h.xv * 2 ^ 16 + h.dh * 2 ^ 25 + (if h.fmt then 2 ^ 27 else 0) + (if h.fix then 2 ^ 28 else 0) +
           (match h.st with | .unalloc => 0 | .free => 1 | .opened => 2 | .sealed => 3) * 2 ^ 30 + h.clip * 2 ^ 32 + h.err * 2 ^ 52))) ∧
      (∀ (e : BitVec 5) (hc : BitVec 2), Runs s c { hnd := false } [.src .g a.toNat 0, .src .g b.toNat 0, .src .g e.toNat 0] →
        let tok := s.readG c b.toNat 0
        let n := 256 * 2 ^ hc.toNat
        s.operandFault c tok n 64 = none → s.operandPoison c tok n = none →
        ∃ t k, exec (.kvapp hc a b e 0) s = .next t ∧ t.mem = s.mem ∧ t.kv = s.kv ∧ t.kvCmds = s.kvCmds ++ [k] ∧ k.berth = c.b ∧ k.slip = c.i ∧ k.page = page ∧
          k.addr = ea ∧ k.asid = (s.berth c.b).asid ∧ k.actor = (s.slip c.b c.i).actor ∧ k.seq = (s.slip c.b c.i).kvSeq ∧
          ∃ succ sa, k.op = .append 0 succ sa hc.toNat ((List.range (n / 2)).map (fun j => s.natAt (scratchKey c.b (tok.toNat % 2 ^ 19) + 2 * j) 2))) ∧
      (∀ (e : BitVec 5), Runs s c { hnd := false } [.src .g a.toNat 0, .src .g b.toNat 0, .src .g e.toNat 0] →
        let ra := s.readG c b.toNat 0
        let va := s.readG c e.toNat 0
        let rk := scratchKey c.b (ra.toNat % 2 ^ 19)
        let fl := s.natAt (rk + 10) 1
        let n := 256 * 2 ^ (fl / 8 % 4)
        s.operandFault c ra 32 32 = none → s.operandPoison c ra 32 = none → s.natAt (rk + 11) 1 = 0 → s.natAt (rk + 24) 8 = 0 → fl < 64 →
        fl / 2 % 4 ≠ 3 → fl / 8 % 4 ≠ 3 → s.operandFault c va n 64 = none → s.operandPoison c va n = none →
        s.destFault (BitVec.ofNat 64 (s.natAt rk 8)) = none → s.natAt (rk + 8) 2 ≤ 0x7FFF →
        ∃ t k, exec (.kvqry a b e) s = .next t ∧ t.mem = s.mem ∧ t.kvCmds = s.kvCmds ++ [k] ∧ k.page = page ∧ k.berth = c.b ∧ k.slip = c.i ∧
          k.op = .query (BitVec.ofNat 64 (s.natAt rk 8)) (s.natAt (rk + 8) 2) (fl.testBit 0) (fl / 2 % 4) (fl / 8 % 4) (fl.testBit 5) (s.natAt (rk + 12) 4)
            (s.natAt (rk + 16) 4) (s.natAt (rk + 20) 4) ((List.range (n / 4)).map (fun j => s.natAt (scratchKey c.b (va.toNat % 2 ^ 19) + 4 * j) 4))) ∧
      (Runs s c { priv := true, hnd := false } [.src .g a.toNat 0] →
        s.heldByCheckpoint c.b c.i = true ∨ s.kvHolds c.b (page / 2 ^ 27) = true ∨ (∃ k ∈ s.kvCmds, k.berth = c.b ∧ k.slip = c.i ∧ k.page / 2 ^ 27 = page / 2 ^ 27 ∧ k.waits = false) →
        exec (.kvdrop a) s = .next (s.began c) ∧ exec (.kvdropRevoke a) s = .next (s.began c)) ∧
      ((∀ k ∈ s.kvCmds, ¬ (k.page = page ∧ k.waits = true)) → s.heldByCheckpoint c.b c.i = false → s.kvHolds c.b (page / 2 ^ 27) = false →
        (∀ k ∈ s.kvCmds, ¬ (k.berth = c.b ∧ k.slip = c.i ∧ k.page / 2 ^ 27 = page / 2 ^ 27 ∧ k.waits = false)) →
        let gone : KvHdr := { resident := h.resident }
        (Runs s c { priv := true, hnd := false } [.src .g a.toNat 0] →
          SetsHeader (.kvdrop a) s c page (if h.st = .unalloc then h else { gone with st := .free, asid := h.asid, actor := h.actor }) ∧
          SetsHeader (.kvdropRevoke a) s c page gone) ∧
        (Runs s c { priv := true, hnd := false } [.src .g a.toNat 0, .src .g b.toNat 0] →
          (o / 2 ^ 16 % 2 ^ 16 = 0 → SetsHeader (.kvdropGrant a b) s c page { gone with st := .free, asid := o % 2 ^ 16, actor := o / 2 ^ 32 }) ∧
          (o / 2 ^ 16 % 2 ^ 16 ≠ 0 → exec (.kvdropGrant a b) s = .next (s.raise c 2 (BitVec.ofNat 64 (encode (.kvdropGrant a b))) false)))))

namespace Sys2Proof.Claims
open Sys2Proof Sys2Proof.Machine

/-- An append is refused with reason r from 2 on (R381): its page, with header h, seals at its LEN with ERR r, nothing is stored, no other page
changes, and the slip keeps the refusal until its next report. -/
def RefusedAs (s : State) (n : Nat) (k : KvCmd) (h : KvHdr) (r : Nat) : Prop :=
  ∃ t, exec (.kvAppendApply n) s = .next t ∧ SMap.get {} t.kv k.page = { h with st := .sealed, err := r } ∧
    (∀ q, q ≠ k.page → (SMap.get {} t.kv q : KvHdr) = SMap.get {} s.kv q) ∧ t.mem = s.mem ∧ t.kvCmds = s.kvCmds.take n ++ s.kvCmds.drop (n + 1) ∧
    (t.slip k.berth k.slip).kvRefusals = (s.slip k.berth k.slip).kvRefusals ++
      [{ seq := k.seq, cause := if r = 6 then 24 else 10, tval := k.addr ||| BitVec.ofNat 64 r }]

/-- t holds the elements of one token at place LEN of a page with header h (R372, R378), BF16 as they are, E4M3 rounded at the page's scales,
saturated where it clips; every other byte is as in s. -/
def TokenStored (s t : State) (page : Nat) (h : KvHdr) (es : List Nat) (clip : Bool) : Prop :=
  let d := 64 * 2 ^ h.dh
  let z := if h.fmt then 2 else 1
  let code (x c : Nat) : Nat := (if h.fmt then c else kvEnc (exact .bf16 c) x clip) % 2 ^ (8 * z)
  (∀ j, j < d → t.natAt (page + z * (h.len * d + j)) z = code h.xk (es.getD j 0) ∧
    t.natAt (page + 8192 + z * (h.len * d + j)) z = code h.xv (es.getD (d + j) 0)) ∧
  (∀ adr, (adr < page + z * h.len * d ∨ page + z * (h.len + 1) * d ≤ adr) →
    (adr < page + 8192 + z * h.len * d ∨ page + 8192 + z * (h.len + 1) * d ≤ adr) → t.byteAt adr = s.byteAt adr)

/-- The finite elements of a half fit scale x (R379): none is larger than 448 · 2^(x − 127). -/
def FitsScale (l : List Val) (x : Nat) : Prop := ∀ neg n e i, Val.fin neg n e i ∈ l → n * 2 ^ (e + 127 - x).toNat ≤ 448 * 2 ^ ((x : Int) - 127 - e).toNat

end Sys2Proof.Claims

/-- R378 to R381, R387 to R393: what the unit does. An append to an OPEN page with room stores its key and value rows after the LEN tokens before
it, and adds one to LEN: BF16 as they are, E4M3 at the page's scales, which the first token gives where KVOPEN fixed none (R379). Where an element
exceeds them, SAT stores it saturated and counts a clip, TRAP refuses the token, and SEAL, also on a full page, seals the page and stores the
token as token 0 of the successor (R380). The refusals of R381 come in its order, and the slip keeps them until its next report. A query that no row of R388 turns away
sends the triple of the scan of its tokens; one of no token, of another's page, of another shape, or beyond the capacity sends the
empty triple with its status; one beyond the tokens of an OPEN page waits, and one that finds its unit full is refused BUSY, with the berth's later
commands to the unit held behind it. A triple lands at its place and counts there; one that R390 drops stops its domain. A page moves to the second
tier and comes back with its header. The readings of logs 45, 115 (a sync word that cannot be read) and 116 (the TVAL of a triple that is dropped for
a ring) are the model's, and the words of a POISON triple are free values (log 4). -/
def Obligations.ValleyEvents : Prop :=
  (∀ (s : State) (n : Nat) (k : KvCmd), s.kvCmds[n]? = some k → s.heldByCheckpoint k.berth k.slip = false → s.kvBehind n k = false →
    let h : KvHdr := SMap.get {} s.kv k.page
    let left := s.kvCmds.take n ++ s.kvCmds.drop (n + 1)
    let own := h.st ≠ .unalloc ∧ h.asid = k.asid ∧ h.actor = k.actor
    (∀ policy succ sa dh es, k.op = .append policy succ sa dh es → h.resident = true →
      (s.kvMoves k policy dh es = true → (SMap.get {} s.kv succ : KvHdr).resident = true) →
      (¬ own → ∃ t, exec (.kvAppendApply n) s = .next t ∧ t.kv = s.kv ∧ t.mem = s.mem ∧ t.kvCmds = left ∧
        (t.slip k.berth k.slip).kvRefusals = (s.slip k.berth k.slip).kvRefusals ++ [{ seq := k.seq, cause := 10, tval := k.addr ||| 1 }]) ∧
      (own → h.st ≠ .opened → ∃ t, exec (.kvAppendApply n) s = .next t ∧ t.kv = s.kv ∧ t.mem = s.mem ∧ t.kvCmds = left ∧
        (t.slip k.berth k.slip).kvRefusals = (s.slip k.berth k.slip).kvRefusals ++ [{ seq := k.seq, cause := 10, tval := k.addr ||| 2 }]) ∧
      let ks := (es.map (exact .bf16)).take (64 * 2 ^ dh)
      let vs := (es.map (exact .bf16)).drop (64 * 2 ^ dh)
      let g : KvHdr := if h.len = 0 ∧ h.fix = false then { h with xk := kvScale ks, xv := kvScale vs } else h
      let exceeds := h.fmt = false ∧ ((∃ v ∈ ks, v.isNaN = false ∧ kvEnc v g.xk false % 128 = 127) ∨ ∃ v ∈ vs, v.isNaN = false ∧ kvEnc v g.xv false % 128 = 127)
      let infinite := h.fmt = false ∧ ∃ v ∈ ks ++ vs, v.isInf = true
      let full := h.capacity ≤ h.len
      (own → h.st = .opened → policy ≤ 2 → dh ≤ 2 → (h.fmt = true → h.fix = true) → es.length = 128 * 2 ^ dh → s.poison = [] →
        (dh ≠ h.dh → RefusedAs s n k h 3) ∧
        (dh = h.dh → full → policy ≠ 1 → RefusedAs s n k h 4) ∧
        (dh = h.dh → policy = 1 → infinite → RefusedAs s n k g 6) ∧
        (dh = h.dh → ¬ full → policy = 2 → exceeds → RefusedAs s n k g 6) ∧
        (dh = h.dh → policy = 1 → ¬ infinite → full ∨ exceeds →
          let to_ : KvHdr := SMap.get {} s.kv succ
          let ours := to_.st = .free ∧ to_.asid = k.asid ∧ to_.actor = k.actor ∧ succ ≠ k.page
          let o : KvHdr := { to_ with
            st := .opened, len := 0, clip := 0, err := 0, dh := h.dh, fmt := h.fmt, fix := h.fmt
            xk := if h.fmt then 127 else kvScale ks, xv := if h.fmt then 127 else kvScale vs }
          (¬ ours → RefusedAs s n k g 5) ∧
          (ours → ∃ t, exec (.kvAppendApply n) s = .next t ∧ t.kvCmds = left ∧ SMap.get {} t.kv k.page = { g with st := .sealed } ∧
            SMap.get {} t.kv succ = { o with len := 1 } ∧ TokenStored s t succ o es false)) ∧
        (dh = h.dh → ¬ full → (policy = 1 → ¬ infinite) → (exceeds → policy = 0) →
          (exceeds → ∃ t, exec (.kvAppendApply n) s = .next t ∧ t.kvCmds = left ∧ TokenStored s t k.page g es true ∧
            SMap.get {} t.kv k.page = { g with len := h.len + 1, clip := Nat.min 65535 (h.clip + 1) } ∧
            (t.slip k.berth k.slip).kvClips = (s.slip k.berth k.slip).kvClips + 1) ∧
          (¬ exceeds → ∃ t, exec (.kvAppendApply n) s = .next t ∧ t.kvCmds = left ∧ TokenStored s t k.page g es false ∧
            SMap.get {} t.kv k.page = { g with len := h.len + 1 } ∧ (t.slip k.berth k.slip).kvClips = (s.slip k.berth k.slip).kvClips)))) ∧
    (∀ dest sync arr amode dh fmt sigma l tag q, k.op = .query dest sync arr amode dh fmt sigma l tag q → k.waits = false → k.backoff = false →
      (s.kvFull k = true → ∃ t, exec (.kvQueryResolve n) s = .next t ∧ t.kv = s.kv ∧ t.mem = s.mem ∧ t.triples = s.triples ∧
        t.kvCmds[n]? = some { k with busy := k.busy + 1, backoff := true } ∧
        ∀ j e, j ≠ n → s.kvCmds[j]? = some e → t.kvCmds[j]? = some
          (if n < j ∧ e.berth = k.berth ∧ e.page / 2 ^ 27 = k.page / 2 ^ 27 ∧ e.waits = false then { e with held := true } else e)) ∧ (s.kvFull k = false →
      let answers (data : List Byte) : Prop := exec (.kvQueryResolve n) s = .next { (entered s k).linkFlits (unitPort k.page) (destBerth k.berth dest) data.length with
        kvCmds := left, triples := s.triples ++ [{ berth := k.berth, slip := k.slip, page := k.page, owner := k.owner, dest := dest, sync := sync, arr := arr, data := data }] }
      let empty (status : Nat) : List Byte := leBytes 4 0xFF800000 ++ leBytes 4 0 ++ leBytes 4 tag ++ leBytes 4 status ++ leBytes (4 * (64 * 2 ^ dh)) 0
      (l = 0 → answers (empty 0)) ∧
      (l ≠ 0 → h.st = .unalloc ∨ h.asid ≠ k.asid → answers (empty 4)) ∧
      (l ≠ 0 → h.st ≠ .unalloc → h.asid = k.asid → h.resident = true → h.st ≠ .free →
        (dh ≠ h.dh ∨ fmt ≠ h.fmt → answers (empty 3)) ∧
        (dh = h.dh → fmt = h.fmt → h.capacity < l → answers (empty 2)) ∧
        (dh = h.dh → fmt = h.fmt → l ≤ h.capacity → h.len < l → h.st = .sealed → answers (empty 1)) ∧
        (dh = h.dh → fmt = h.fmt → l ≤ h.capacity → h.len < l → h.st = .opened →
          exec (.kvQueryResolve n) s = .next { entered s k with kvCmds := s.kvCmds.set n { k with busy := 0, waits := true } }) ∧
        (dh = h.dh → fmt = h.fmt → l ≤ h.capacity → l ≤ h.len → s.poison = [] →
          let r := s.kvScan k.page h q sigma l
          answers (leBytes 4 r.1 ++ leBytes 4 r.2.1 ++ leBytes 4 tag ++ leBytes 4 (l * 2 ^ 8) ++ r.2.2.flatMap (leBytes 4))))))) ∧
  (∀ (s : State) (n : Nat) (x : Triple), s.triples[n]? = some x → s.heldByCheckpoint x.berth x.slip = false →
    let k := scratchKey x.place (16 * x.sync)
    let left := s.triples.take n ++ s.triples.drop (n + 1)
    (∀ cause tv, s.tripleFault x = some (cause, tv) → exec (.tripleLanding n) s = .next { s with
      fresh := s.fresh + 1, triples := left, stops := s.stops ++
        [{ berth := x.berth, slip := x.slip, kind := 1, cause := cause, tval := tv, pcq0 := (s.slip x.berth x.slip).recordPc, owner := x.owner }] }) ∧
    (s.tripleFault x = none → SMap.get? s.syncs k = none → exec (.tripleLanding n) s = .next s) ∧
    (s.tripleFault x = none → SMap.get? s.syncs k ≠ none → s.poisoned k 16 = true → exec (.tripleLanding n) s = .next
      (({ s with triples := left }.logBad x.place k 16).rollbackFor x.berth x.slip 25 x.syncAddr x.owner)) ∧
    (∀ w, s.tripleFault x = none → SMap.get? s.syncs k = some w → s.poisoned k 16 = false → w.overflow = false → s.natAt k 4 ≠ 0 ∨ s.natAt (k + 8) 2 ≠ 0 →
      s.natAt (k + 4) 4 + x.data.length < 2 ^ 32 → s.natAt (k + 10) 2 + 1 < 2 ^ 16 →
      (∀ j, j < x.data.length → (x.dest.toNat % 2 ^ 19 + j) / 16 ≠ x.sync) →
      ∃ t m, exec (.tripleLanding n) s = .next t ∧ t.triples = left ∧
        (∀ j, j < x.data.length → t.byteAt (scratchKey x.place (x.dest.toNat % 2 ^ 19) + j) = x.data.getD j 0) ∧
        Closes (s.natAt k 4) (s.natAt (k + 8) 2) (s.natAt (k + 4) 4 + x.data.length) (s.natAt (k + 10) 2 + if x.arr then 1 else 0) m ∧
        t.natAt (k + 12) 4 = (s.natAt (k + 12) 4 + m) % 2 ^ 32 ∧
        (∀ adr, adr < k ∨ k + 16 ≤ adr → adr < scratchKey x.place (x.dest.toNat % 2 ^ 19) ∨ scratchKey x.place (x.dest.toNat % 2 ^ 19) + x.data.length ≤ adr →
          t.byteAt adr = s.byteAt adr))) ∧
  (∀ (s : State) (page : Nat), let h : KvHdr := SMap.get {} s.kv page
    (h.st ≠ .unalloc → exec (.kvPageMove page) s = .next { s with kv := SMap.set {} s.kv page { h with resident := false } }) ∧
    (h.resident = false → exec (.kvPageRecall page) s = .next { s with kv := SMap.set {} s.kv page { h with resident := true } })) ∧
  (∀ l : List Val, kvScale l ≤ 254 ∧
    ((∀ neg n e i, Val.fin neg n e i ∈ l → n = 0) → kvScale l = 127) ∧
    ((∃ neg n e i, Val.fin neg n e i ∈ l ∧ n ≠ 0) →
      (∀ x, x ≤ 254 → FitsScale l x → kvScale l ≤ x ∧ FitsScale l (kvScale l)) ∧ ((∀ x, x ≤ 254 → ¬ FitsScale l x) → kvScale l = 254)))

/-! ### The quasi-random unit (spec/22) -/

/-- R406, R409, R411 to R413: the generator. QRI gives point i of dimension d, QRF the same as a fraction in FP32, QRV 16 of them along the
index or along the dimension. QRSEED sets the seed of a dimension; QRLD loads the direction numbers of N dimensions from F on, word
32 j + b of the table for bit b of dimension F + j. Unscrambled, point 0 is zero, point 2^b is direction number b, and the point of i xor j is
the xor of their points. -/
def Obligations.QuasiRandom : Prop :=
  (∀ (s : State) (c : Ctx) (d a b : BitVec 5) (x y : BitVec 3),
    let qr := (s.slip c.b c.i).qr
    let index := (s.readG c a.toNat x.toNat).toNat % 2 ^ 32
    let dim := (s.readG c b.toNat y.toNat).toNat % 2 ^ 6
    (Runs s c { hnd := false } [.src .g a.toNat x.toNat, .src .g b.toNat y.toNat, .dst .g d.toNat] →
      GivesG (.qri d a x b y) s c d.toNat ((qr.point dim index).setWidth 64) {}) ∧
    (Runs s c { hnd := false } [.src .g a.toNat x.toNat, .src .g b.toNat y.toNat, .dst .f d.toNat] →
      GivesF (.qrf d a x b y) s c d.toNat (BitVec.ofNat 32 (qr.pointF dim index)) {}) ∧
    (Runs s c { hnd := false } [.src .g a.toNat x.toNat, .src .g b.toNat y.toNat, .dst .w d.toNat] →
      GivesW (.qrvI d a x b y) s c d.toNat 32 16 (fun l => qr.pointF dim ((index + l) % 2 ^ 32)) {} ∧
      GivesW (.qrvD d a x b y) s c d.toNat 32 16 (fun l => qr.pointF ((dim + l) % 64) index) {}) ∧
    (Runs s c { hnd := false } [.src .g a.toNat x.toNat, .src .g b.toNat y.toNat] →
      exec (.qrseed a x b y) s = .next ((s.setSlip c.b c.i { s.slip c.b c.i with qr := { qr with
        s := SMap.put qr.s dim (BitVec.ofNat 32 (s.readG c a.toNat x.toNat).toNat) } }).advance c none true) ∧
      (let ga := s.readG c a.toNat x.toNat
       let gb := s.readG c b.toNat y.toNat
       let n := gb.toNat / 2 ^ 8 % 2 ^ 6 + 1
       let key := scratchKey c.b (ga.toNat % 2 ^ 19)
       (∀ cause tv, s.qrldFault c (encode (.qrld a x b y)) ga gb = some (cause, tv) → exec (.qrld a x b y) s = .next (s.raise c cause tv false)) ∧
       (s.qrldFault c (encode (.qrld a x b y)) ga gb = none → s.poison = [] → ∃ t, exec (.qrld a x b y) s = .next t ∧ t.mem = s.mem ∧
         (t.slip c.b c.i).qr.s = qr.s ∧ (t.slip c.b c.i).qr.ctl = qr.ctl ∧
         (∀ j bit, j < n → bit < 32 →
           SMap.get 0 (t.slip c.b c.i).qr.v (32 * ((gb.toNat % 2 ^ 6 + j) % 64) + bit) = BitVec.ofNat 32 (s.natAt (key + 4 * (32 * j + bit)) 4)) ∧
         (∀ k, (∀ j, j < n → k / 32 ≠ (gb.toNat % 2 ^ 6 + j) % 64) → SMap.get 0 (t.slip c.b c.i).qr.v k = SMap.get 0 qr.v k))))) ∧
  (∀ (q : QrBank) (d i j b : Nat), q.ctl.getLsbD 0 = true → b < 32 →
    q.point d 0 = 0 ∧ q.point d (2 ^ b) = SMap.get 0 q.v (32 * d + b) ∧ q.point d (i ^^^ j) = q.point d i ^^^ q.point d j)

/-! ### Page service and migration (spec/14 R288 to R294) -/

/-- R288 to R294: page service and migration. The Harbourmaster takes a notice up; its completion gives the page a leaf that the walk finds, or finds
no backing, and then the slips that wait fail. A migration starts by setting MIG in the leaf, with the page out of every TLB; it waits for the
bank operations and BRDs translated before; it moves the page's lines in order, and ends by naming the new page in the leaf. A page is named by its
address space and virtual page. -/
def Sys2Proof.Claims.pagesServedAndMoved : Prop :=
  (∀ (s : State) (n : Nat) (x : Notice), s.notices[n]? = some x →
    let left := s.notices.take n ++ s.notices.drop (n + 1)
    (∃ t, exec (.pageService n) s = .next t ∧ t = { s with notices := t.notices } ∧ t.notices[n]? = some { x with started := true } ∧
      ∀ m, m ≠ n → t.notices[m]? = s.notices[m]?) ∧
    (x.started = true → ∀ entry,
      (∃ t, exec (.pageServiceComplete n entry 0) s = .next t ∧ t.notices = left ∧ t.mem = s.mem ∧
        (∀ w ∈ x.waiters, (t.slip w.1 w.2).pageFailed = some (pageName x.asid x.vpage)) ∧
        (∀ k ∈ t.copies, pkgOf k.berth = x.pkg → k.waitPage ≠ some (pageName x.asid x.vpage))) ∧
      (∀ leaf e base size, leaf ≠ 0 → leaf < 2 ^ 64 →
        (({ s with notices := left } : State).pokeNat (physKey x.pkg (entry % 2 ^ 52)) 8 leaf).walkFrom x.pkg x.root (x.vpage * 65536) = .leaf e base size →
        ∃ t, exec (.pageServiceComplete n entry leaf) s = .next t ∧ t.notices = left ∧ t.berths = s.berths ∧
          t.natAt (physKey x.pkg (entry % 2 ^ 52)) 8 = leaf ∧
          ∀ adr, adr < physKey x.pkg (entry % 2 ^ 52) ∨ physKey x.pkg (entry % 2 ^ 52) + 8 ≤ adr → t.byteAt adr = s.byteAt adr))) ∧
  (∀ (s : State) (pkg page leafAddr dest : Nat),
    let k := physKey pkg leafAddr
    let e := s.natAt k 8
    ((∀ m ∈ (s.pkg pkg).migrations, m.page ≠ page) →
      s.leafPlace pkg (page % 2 ^ 41 * 65536) 4 (s.spaceRoot pkg (page / 2 ^ 48) * 4096) = some (leafAddr, 0) → e % 8 = 3 → e.testBit 6 = false → 1 ≤ e / 2 ^ 3 % 8 → e / 2 ^ 3 % 8 ≤ 4 →
      s.badLeaf pkg 0 e = false → dest % 65536 = 0 → s.inMemory pkg dest 65536 = true → dest ≠ addrOf e →
      ∃ t, exec (.migration pkg page dest) s = .next t ∧ t.natAt k 8 = e + 2 ^ 6 ∧
        (∀ adr, adr < k ∨ k + 8 ≤ adr → t.byteAt adr = s.byteAt adr) ∧
        (t.pkg pkg).migrations = (s.pkg pkg).migrations ++ [{ page := page, leafAddr := leafAddr, old := addrOf e, new := dest }] ∧
        (∀ b, pkgOf b = pkg → ∀ x ∈ (t.berth b).tlb ++ (t.berth b).itlb, addrOf x.leaf ≠ addrOf e) ∧
        (∀ h, h / 48 = pkg → ∀ x ∈ SMap.get [] t.tlb2 h, addrOf x.leaf ≠ addrOf e) ∧
        (∀ o ∈ t.bankOps, onPage pkg (addrOf e) o.key = true → o.early = true) ∧
        (∀ b i w, (t.slip b i).brd = some w → onPage pkg (addrOf e) w.key = true → w.early = true)) ∧
    (∀ m, (s.pkg pkg).migrations.find? (fun m => m.page == page) = some m →
      let brds : Prop := ∃ x ∈ s.berths, ∃ p ∈ x.2.slips, ∃ w, p.2.brd = some w ∧ w.early = true ∧ onPage pkg m.old w.key = true
      ((∃ o ∈ s.bankOps, o.early = true ∧ onPage pkg m.old o.key = true) ∨ brds → exec (.migration pkg page dest) s = .next s) ∧
      ((∀ o ∈ s.bankOps, ¬ (o.early = true ∧ onPage pkg m.old o.key = true)) → ¬ brds →
      (m.copied < 1024 → ∃ t, exec (.migration pkg page dest) s = .next t ∧
        (∀ j, j < 64 → t.byteAt (physKey pkg (m.new + 64 * m.copied) + j) = s.byteAt (physKey pkg (m.old + 64 * m.copied) + j)) ∧
        (∀ adr, adr < physKey pkg (m.new + 64 * m.copied) ∨ physKey pkg (m.new + 64 * m.copied) + 64 ≤ adr → t.byteAt adr = s.byteAt adr) ∧
        (t.pkg pkg).migrations.find? (fun m => m.page == page) = some { m with copied := m.copied + 1 }) ∧
      (1024 ≤ m.copied → m.leafAddr = leafAddr → ∃ t, exec (.migration pkg page dest) s = .next t ∧
        t.natAt k 8 = (e - addrOf e - 2 ^ 6 + m.new) % 2 ^ 64 ∧ (∀ adr, adr < k ∨ k + 8 ≤ adr → t.byteAt adr = s.byteAt adr) ∧
        (t.pkg pkg).migrations.find? (fun m => m.page == page) = none))))

/-! ### Regions (spec/11, spec/23) -/

namespace Sys2Proof.Claims
open Sys2Proof Sys2Proof.Machine

/-- Every byte of the block at an address outside the given fields, and every byte outside the block, is as before. -/
def BlockKept (s t : State) (pkg a : Nat) (fields : List (Nat × Nat)) : Prop :=
  ∀ adr, (∀ f ∈ fields, adr < globKey pkg a + f.1 ∨ globKey pkg a + f.1 + f.2 ≤ adr) → t.byteAt adr = s.byteAt adr

end Sys2Proof.Claims

/-- R211, R212, R214, R217, R223, R224, R242: the distributor. It selects the READY node of highest effective priority, the oldest among equals. Binding a
selected region that fails its admission check makes it FAULTED with its FCODE and stops its queue with error 10; one that passes, with
its budgets and places at hand, becomes BOUND, and each actor's slip WAITS with its banks, its tiles and a new tag. A suspended region is made
READY again with a new age, and the grouping nodes that nothing bound or suspended draws on end their admissions; an ended region is FREE. The addresses of the blocks (log 21), the FCODE readings (log 48), the placement (log 49), AGE
after a store of software (log 12) and a block read at its binding (log 123) are the model's. -/
def Obligations.RegionsSelectedAndBound : Prop :=
  ∀ (s : State) (pkg : Nat),
    let prio (a : Nat) : Nat := s.effective pkg 0 a fPrio % 16
    (∀ a, s.choice pkg = some a →
      (a ∈ s.treeNodes pkg ∧ s.selectable pkg a = true ∧ (∀ x ∈ s.treeNodes pkg, s.selectable pkg x = true →
        prio x < prio a ∨ (prio x = prio a ∧ s.blk pkg a fAge ≤ s.blk pkg x fAge))) ∧
      ∃ t, exec (.regionSelect pkg) s = .next t ∧ t.regionState pkg a = 2 ∧ t.blk pkg a fSnap = prio a ∧ BlockKept s t pkg a [fState, fSnap] ∧
        (t.pkg pkg).selected = (s.pkg pkg).selected ++ [a] ∧
        (t.pkg pkg).snapOf a = prio a ∧ t.berths = s.berths) ∧
    (∀ a, s.regionState pkg a = 4 → ∃ t, exec (.regionResume pkg a) s = .next t ∧ t.berths = s.berths ∧
      (∀ e ∈ (t.pkg pkg).admitted, e.groups = true → e.node ≠ a → ∃ r ∈ (t.pkg pkg).regions, r.chain.contains (e.pool, e.node) = true) ∧
      ((∀ e ∈ (s.pkg pkg).admitted, e.groups = true → e.node ≠ a →
          ∃ r ∈ (s.pkg pkg).regions, r.block ≠ 0 ∧ r.suspended = false ∧ r.chain.contains (e.pool, e.node) = true) →
        t.regionState pkg a = 1 ∧ t.blk pkg a fAge = ((s.pkg pkg).ageSeq + 1) % 2 ^ 32 ∧ BlockKept s t pkg a [fState, fAge] ∧
        (t.pkg pkg).admitted = (s.pkg pkg).admitted)) ∧
    (∀ a, 5 ≤ s.regionState pkg a → ∃ t, exec (.regionReclaim pkg a) s = .next t ∧ t.regionState pkg a = 0 ∧ BlockKept s t pkg a [fState] ∧
      t.berths = s.berths) ∧
    (∀ a place, s.regionState pkg a = 2 → (s.pkg pkg).selected.contains a = true → (∀ r ∈ (s.pkg pkg).regions, r.block ≠ a) →
      let d := s.pipeRec pkg (s.blk pkg a fPipe)
      (s.admission pkg a ≠ 0 → pkg < 256 → a % 2 ^ 52 + 256 ≤ 2 ^ 52 → (s.pkg pkg).admitted = [] →
        ∃ t, exec (.regionBind pkg a place) s = .next t ∧ t.regionState pkg a = 6 ∧ t.blk pkg a fFcode = s.admission pkg a % 2 ^ 32 ∧
          (let q := SMap.get {} (t.pkg pkg).queues (s.blk pkg (s.rootOf pkg a) fQueue)
           q.st = 2 ∧ q.err = 10) ∧ t.berths = s.berths) ∧
      (s.admission pkg a = 0 → s.placeSuits pkg a place false = false → exec (.regionBind pkg a place) s = .next s) ∧
      (s.admission pkg a = 0 → s.placeSuits pkg a place false = true → (∀ x ∈ d.actors, s.imageReady pkg (s.regionEnv pkg a d).root x = true) →
        ∃ t, exec (.regionBind pkg a place) s = .next t ∧ t.regionState pkg a = 3 ∧
          (∃ r ∈ (t.pkg pkg).regions, r.block = a ∧ r.fdom = s.effective pkg 1 a fFdom ∧ r.suspended = false) ∧
          (∀ x ∈ d.actors, ∀ b i, placeOf place x.number = some (b, i) →
            let p := t.slip b i
            p.st = .waiting ∧ p.bound = true ∧ p.actor = x.number ∧ p.incarn = ((s.slip b i).incarn + 1) % 2 ^ 32 ∧ p.banks = d.needed x ∧
            p.tiles = x.tiles ∧ p.wgroup = x.wgrp ∧ p.prio = (s.pkg pkg).snapOf a ∧ p.wseq = 0 ∧ p.levels = [] ∧ (∀ r, r < 32 → p.getG r 0 = 0 ∧ p.getW r 0 = 0) ∧
            (t.berth b).asid = s.effective pkg 2 a fAsid ∧ (t.berth b).tvec = BitVec.ofNat 64 d.tvec ∧
            (t.berth b).hbase = BitVec.ofNat 64 d.hbase ∧ (t.berth b).hlimit = BitVec.ofNat 64 d.hlimit)))

/-- R431 to R434, R438: pre-emption. A BOUND region gives way to a selected one of higher SNAP that cannot be bound: each of its slips is marked, and taken at its next
firing boundary, or at an instruction boundary after 65,536 cycles. A quiescent region with every slip taken becomes SUSPENDED: its slips are
FREE, their state saved, their banks left in place, until a claim for a region that needs one saves and zeroes a bank. Banks enter retention, those of
the Plain after 65,536 cycles without an access, and leave it. The readings of logs 50 and 53 are the model's. -/
def Obligations.PreemptionAndRetention : Prop :=
  (∀ (s : State) (pkg a : Nat) (r : Region), (s.pkg pkg).regions.find? (fun r => r.block == a) = some r → s.regionState pkg a = 3 →
    (∀ x, x ∈ (s.pkg pkg).selected → (s.pkg pkg).snapOf a < (s.pkg pkg).snapOf x → s.bindable pkg x true = false → r.suspended = false →
      ∃ t, exec (.preempt pkg a) s = .next t ∧ t.mem = s.mem ∧
        ∀ m ∈ s.boundMembers r, (t.slip m.berth m.slip).preemptAt.isSome = true ∧
          ((s.slip m.berth m.slip).preemptAt = none → (s.slip m.berth m.slip).st = .waiting → (t.slip m.berth m.slip).taken = true)) ∧
    (r.suspended = false → s.boundMembers r ≠ [] → s.regionQuiet (s.boundMembers r) = true →
      ∃ t, exec (.regionSuspend pkg a) s = .next t ∧ t.regionState pkg a = 4 ∧ BlockKept s t pkg a [fState] ∧
        (∀ m ∈ s.boundMembers r, (t.slip m.berth m.slip).st = .free ∧ (t.slip m.berth m.slip).bound = false ∧
          (t.slip m.berth m.slip).incarn = (s.slip m.berth m.slip).incarn))) ∧
  (∀ (s : State) (b i : Nat) (at_ : Word), (s.slip b i).preemptAt = some at_ → (s.slip b i).taken = false → (s.slip b i).halting = false →
    (s.berth b).handler = none → 65536 ≤ ((s.berth b).cycle - at_).toNat →
    exec (.preemptForce b i) s = .next (s.setSlip b i { s.slip b i with
      taken := true, st := if (s.slip b i).st = .running then .ready else (s.slip b i).st })) ∧
  (∀ (s : State) (b bank : Nat) (v : Victim), bank < 16 → (s.berth b).victims = [v] → v.banks = 2 ^ bank → s.landingsInto b (2 ^ bank) = false →
    (s.needsVictim = false → exec (.victimBankClaim b bank) s = .next s) ∧ (s.needsVictim = true →
    ∃ t, exec (.victimBankClaim b bank) s = .next t ∧ (t.berth b).victims = [] ∧
      (∀ j, j < 0x8000 → t.byteAt (scratchKey b (0x8000 * bank) + j) = 0) ∧
      (∀ adr, adr < scratchKey b (0x8000 * bank) ∨ scratchKey b (0x8000 * bank) + 0x8000 ≤ adr → t.byteAt adr = s.byteAt adr) ∧
      (∀ r ∈ (s.pkg v.pkg).regions, r.block = v.region → { r with banks := r.banks ++ [s.saveBank b v.actor bank] } ∈ (t.pkg v.pkg).regions))) ∧
  (∀ (s : State) (b bank : Nat), b < 2 ^ 21 → bank < 16 →
    let m := 2 ^ bank
    let k := scratchKey b (0x8000 * bank)
    ((∃ v ∈ (s.berth b).victims, v.banks.testBit bank = true) → (s.berth b).retained.testBit bank = false → s.poison = [] →
      exec (.retentionEntry k) s = .next (s.setBerth b { s.berth b with retained := (s.berth b).retained ||| m })) ∧
    ((s.berth b).retained.testBit bank = true → s.poison = [] → s.sleptBad = [] →
      exec (.retentionExit k) s = .next (s.setBerth b { s.berth b with retained := (s.berth b).retained - m }))) ∧
  (∀ (s : State) (k : Nat), k / 2 ^ 60 = 3 →
    let idle := SMap.get 0 (s.pkg (bitsOf k 59 52)).cellIdle (plainBank k)
    (s.cellAsleep k = false → idle < 65536 → exec (.retentionEntry k) s = .next s) ∧
    (s.cellAsleep k = false → 65536 ≤ idle → ∃ t, exec (.retentionEntry k) s = .next t ∧ t.cellAsleep k = true ∧ t.mem = s.mem) ∧
    (s.cellAsleep k = true → ∃ t, exec (.retentionExit k) s = .next t ∧ t.cellAsleep k = false ∧ t.mem = s.mem))

/-! ### Fault domains (spec/23) -/

/-- R416 to R419, R423, R427 to R430: a stop takes every event of its domain; the domain's slips stop at once, and what they issued is dropped. When
the landings in flight have drained, its slips become FREE and the queue of its regions stops with error 7 and the fault record. A rollback restores every slip of the checkpoint, its registers, queue and loops, and makes
it READY, where a checkpoint answers for it; else the fault stops the domain with kind 3, or with kind 6 during a replay. The readings of logs 40, 43, 51, 72, 104, 106 and 109 are the model's. -/
def Obligations.FaultDomains : Prop :=
  (∀ (s : State) (x : Stop) (rest : List Stop), s.stops = x :: rest →
    (x.owner = none → exec .faultDomainStop s = .next { s with stops := rest }) ∧
    (∀ o, x.owner = some o → rest = [] → s.rollbacks = [] → x.begun = false →
      ∃ t, exec .faultDomainStop s = .next t ∧ t.stops = [{ x with begun := true }] ∧ t.mem = s.mem ∧
        ∀ e ∈ s.boundPlaces o.dom, (t.slip e.1 e.2).stopped = true ∧ (∀ k ∈ t.copies, ¬ (k.berth = e.1 ∧ k.slip = e.2)) ∧
          ∀ k ∈ t.kvCmds, ¬ (k.berth = e.1 ∧ k.slip = e.2)) ∧
    (∀ o, x.owner = some o → rest = [] → x.begun = true → s.drains o.dom = true → exec .faultDomainStop s = .next s) ∧
    (∀ o r, x.owner = some o → rest = [] → s.rollbacks = [] → x.begun = true → s.drains o.dom = false → s.regionsOf o.dom = [r] → r.suspended = false →
      ∃ t, exec .faultDomainStop s = .next t ∧ t.stops = [] ∧
        (∀ m ∈ s.boundMembers r, (t.slip m.berth m.slip).bound = false ∧ (t.slip m.berth m.slip).st = .free) ∧
        (let q := SMap.get {} (t.pkg o.dom.pkg).queues r.queue
         q.st = 2 ∧ q.err = 7) ∧
        SMap.get [] (t.pkg o.dom.pkg).faultRecords r.block = leBytes 8 o.region ++ leBytes 4 o.dom.fdom ++ leBytes 1 x.cause ++ leBytes 1 x.kind ++
          leBytes 2 0 ++ leBytes 4 o.actor ++ leBytes 4 x.berth ++ leBytes 8 x.tval.toNat ++ leBytes 8 x.pcq0.toNat)) ∧
  (∀ (s : State) (x : Stop) (rest : List Stop) (o : Owner), s.rollbacks = x :: rest → x.owner = some o →
    (∀ kind, s.rollbackKind x o.dom = some kind → ∃ t, exec .rollback s = .next t ∧ t.stops = s.stops ++ [{ x with kind := kind }] ∧
      t.mem = s.mem ∧ t.berths = s.berths) ∧
    (s.dom o.dom = none → s.rollbackKind x o.dom = some 3) ∧
    (∀ m, s.dom o.dom = some m → m.replaying = true → s.rollbackKind x o.dom = some 6) ∧
    (∀ m k n, s.rollbackKind x o.dom = none → s.dom o.dom = some m → m.ckpt = some k → k.snaps = [n] → k.halted = [] → s.slipsOf o.dom = [(n.berth, n.index)] →
      n.index < 4 → n.slip.tag = (s.slip n.berth n.index).tag →
      ∃ t, exec .rollback s = .next t ∧
        (let q := t.slip n.berth n.index
         q.st = .ready ∧ q.g = n.slip.g ∧ q.f = n.slip.f ∧ q.w = n.slip.w ∧ q.q = n.slip.q ∧ q.m = n.slip.m ∧ q.cur = n.slip.cur ∧
         q.live = n.slip.live ∧ q.levels = n.slip.levels ∧ q.wseq = n.slip.wseq ∧ q.instret = (s.slip n.berth n.index).instret ∧ q.stopped = false)))

/-! ### The host's registers and the event ring (spec/12 R229 to R233, R240 to R245, spec/24 R447 to R450, R396, R458) -/

namespace Sys2Proof.Claims
open Sys2Proof Sys2Proof.Machine

/-- s with the Harbourmaster of a package as x. -/
def withPkg (s : State) (pk : Nat) (x : Pkg) : State := { s with pkgs := SMap.put s.pkgs pk x }

/-- s with queue q of a package as x. -/
def withQueue (s : State) (pk q : Nat) (x : HQueue) : State :=
  withPkg s pk { s.pkg pk with queues := SMap.put (s.pkg pk).queues q x }

/-- Queue q of a package. -/
def queueOf (s : State) (pk q : Nat) : HQueue := SMap.get {} (s.pkg pk).queues q

/-- A queue error (R233): the queue STOPPED with its code, HEAD and TAIL as they were, its packet's program abandoned; memory but for the
event ring, and every berth, unchanged. -/
def Stopped (s t : State) (pk q err : Nat) : Prop :=
  queueOf t pk q = { queueOf s pk q with err := err, st := 2, engine := none } ∧ t.berths = s.berths ∧
  ∀ a, a < 2 ^ 64 → t.byteAt a = s.byteAt a

/-- An event stands in the ring: its 64 bytes at the tail's slot, EVTAIL one further, one MSI-X message on vector 0 (R240). -/
def Posted (s t : State) (pk : Nat) (bs : List Byte) : Prop :=
  let p := s.pkg pk
  let k := hostKey (p.evbase.toNat + 64 * (p.evtail % 2 ^ p.esize))
  (∀ j, j < 64 → t.byteAt (k + j) = bs.getD j 0) ∧ (∀ a, a < k ∨ k + 64 ≤ a → t.byteAt a = s.byteAt a) ∧
  (t.pkg pk).evtail = (p.evtail + 1) % 2 ^ 17 ∧ (t.pkg pk).msix0 = p.msix0 + 1 ∧ t.berths = s.berths

/-- Entries of a ring of 17-bit numbers between HEAD and TAIL (R232, R240). -/
def between (tail head : Nat) : Nat := (tail + 2 ^ 17 - head % 2 ^ 17) % 2 ^ 17

/-- The event ring has a free slot (R240, R241). -/
def Roomy (p : Pkg) : Prop := p.evEn = true ∧ between p.evtail p.evhead ≠ 2 ^ p.esize

end Sys2Proof.Claims

/-- R231, R232, R236, R241, R243 to R245, R447, R450: the host's registers while READY = 1. A doorbell moves TAIL and pends; one outside the ring
stops a RUNNING queue with error 2, reserved bits with error 8, and where no queue runs they discard the write. ENABLE runs a queue whose image passes its checks, and stops it with error
1 else. RESTART runs a STOPPED queue on. EVCTL, EVHEAD and EVSTAT change the event ring; a slot freed while OVF = 1 takes the coalesced
event. RESYNC takes the summary, and its completion writes it. The numbering of REGISTER_WRITE (log 70), what log 113 chooses (EVSTAT's write leaves LOST, reserved bits of
QCTL, EVCTL and EVSTAT are dropped, word 0 of the coalesced event names no queue, when error 2 is raised, low bits of an address are kept) and
the readings of logs 60, 62, 65 and 67 are the model's. -/
def Obligations.HostRegisters : Prop :=
  ∀ (s : State) (pk q v : Nat), q < 256 → v < 2 ^ 64 → (s.pkg pk).ready = true →
    let p := s.pkg pk
    let x := queueOf s pk q
    (v < 2 ^ 17 → (x.st = 1 → between v x.head ≤ 2 ^ x.size) → ∃ t, exec (.doorbell pk q v) s = .next t ∧
      queueOf t pk q = { x with tail := v } ∧ (t.pkg pk).dbpend = p.dbpend ||| 2 ^ q ∧ t.mem = s.mem ∧
      t.berths = (s.modBerth (activeControl pk p) (fun b => { b with ipDbell := true })).berths) ∧
    (x.st = 1 → (2 ^ 17 ≤ v → ∃ t, exec (.doorbell pk q v) s = .next t ∧ (queueOf t pk q).st = 2 ∧ (queueOf t pk q).err = 8) ∧
      (v < 2 ^ 17 → 2 ^ x.size < between v x.head → ∃ t, exec (.doorbell pk q v) s = .next t ∧ (queueOf t pk q).st = 2 ∧
        (queueOf t pk q).err = 2)) ∧
    (x.st ≠ 1 → 2 ^ 17 ≤ v → exec (.doorbell pk q v) s = .next s) ∧
    (v.testBit 8 = true → x.enable = false → x.st = 0 →
      (∀ bs, s.pilotImage pk x.qpilot.toNat = some bs → p.signed 1 15 bs = true → pilotChecks (bs.take (bs.length - 448)) = true →
        ∃ t, exec (.qctlEnable pk q v) s = .next t ∧ t.mem = s.mem ∧ (t.pkg pk).meas = sha256 (p.meas ++ sha256 bs) ∧
          queueOf t pk q = { x with enable := true, st := 1, image := bs.take (bs.length - 448), err := if v.testBit 9 then 0 else x.err,
                                    size := if 4 ≤ v % 32 ∧ v % 32 ≤ 16 then v % 32 else x.size }) ∧
      ((∀ bs, s.pilotImage pk x.qpilot.toNat = some bs → p.signed 1 15 bs = false ∨ pilotChecks (bs.take (bs.length - 448)) = false) →
        ∃ t, exec (.qctlEnable pk q v) s = .next t ∧ (queueOf t pk q).st = 2 ∧ (queueOf t pk q).err = 1)) ∧
    (x.st = 2 → x.enable = true → x.image ≠ [] → x.size ≤ 16 →
      exec (.qctlRestart pk q) s = .next (withQueue s pk q { x with err := 0, st := 1 })) ∧
    (p.ovf = false →
      exec (.evctlWrite pk v) s = .next (withPkg s pk { p with
        evEn := v.testBit 8, esize := if p.evEn = false ∧ 3 ≤ v % 32 ∧ v % 32 ≤ 16 then v % 32 else p.esize }) ∧
      exec (.evheadWrite pk v) s = .next (withPkg s pk { p with evhead := v % 2 ^ 17 })) ∧
    (p.ovf = true → p.evEn = true → between p.evtail (v % 2 ^ 17) ≠ 2 ^ p.esize → ∃ t, exec (.evheadWrite pk v) s = .next t ∧
      Posted s t pk (leBytes 8 3 ++ leBytes 4 p.lost ++ List.replicate 20 0 ++ queueBitmap p.latched) ∧
      (t.pkg pk).ovf = false ∧ (t.pkg pk).lost = 0) ∧
    (v.testBit 0 = true → exec (.evstatWrite pk v) s = .next (withPkg s pk { p with ovf := false })) ∧
    (p.resyncst = false → exec (.resync pk v) s = .next (withPkg s pk { p with resyncst := true, resyncAddr := v, resyncImage := p.summary })) ∧
    (p.resyncst = true → ∃ t, exec (.resyncComplete pk) s = .next t ∧ (t.pkg pk).resyncst = false ∧ t.berths = s.berths ∧
      (∀ j, j < p.resyncImage.length → t.byteAt (hostKey p.resyncAddr + j) = p.resyncImage.getD j 0) ∧
      (∀ a, a < hostKey p.resyncAddr ∨ hostKey p.resyncAddr + p.resyncImage.length ≤ a → t.byteAt a = s.byteAt a)) ∧
    (p.evEn = false → exec (.registerWrite pk 8 v) s = .next (withPkg s pk { p with evbase := BitVec.ofNat 64 v })) ∧
    (exec (.registerWrite pk (0x4000 + 64 * q) v) s = .next (withQueue s pk q { x with qbase := BitVec.ofNat 64 v }) ∧
      exec (.registerWrite pk (0x4010 + 64 * q) v) s = .next (withQueue s pk q { x with qpilot := BitVec.ofNat 64 v }) ∧
      exec (.registerWrite pk (0x4018 + 64 * q) v) s = .next (withQueue s pk q { x with qroot := BitVec.ofNat 64 v })) ∧
    (∀ bs, x.st = 1 → x.engine = none → x.head ≠ x.tail → between x.tail x.head ≤ 2 ^ x.size →
      bs = s.bytesAt (hostKey (x.qbase.toNat + 64 * (x.head % 2 ^ x.size))) 64 → leNat (bs.take 8) < 2 ^ 11 →
      exec (.packetStart pk q) s = .next (withQueue s pk q { x with engine := some { packet := bs } }) ∧
      exec (.dbkick pk (256 * (v / 256) + q)) s = .next (withQueue s pk q { x with engine := some { packet := bs } }))

/-- R396, R447 to R449, R458: the control berth's registers. Ones clear DBPEND, TKO, a port's REPLAYS and the marks of KVERR; EVPUSH of the next
held completion posts its record. A write into the saved queue waits for the lengths that its open entries need (R7). -/
def Sys2Proof.Claims.controlPlane : Prop :=
  ∀ (s : State) (pk k v : Nat),
    let p := s.pkg pk
    let y : Port := SMap.get {} p.ports k
    (k < 4 → v < 2 ^ 64 → exec (.dbpendWrite pk k v) s = .next (withPkg s pk { p with dbpend := p.dbpend ^^^ (p.dbpend &&& v * 2 ^ (64 * k)) })) ∧
    (v.testBit 0 = true → exec (.cbstatWrite pk v) s = .next (withPkg s pk { p with tko := false }) ∧
      exec (.plstatClr pk k v) s = .next (withPkg s pk { p with ports := SMap.put p.ports k { y with replays := 0 } })) ∧
    (∃ t, exec (.kverrWrite pk k v) s = .next t ∧ t.mem = s.mem ∧ t.berths = s.berths ∧
      SMap.get 0 (t.pkg pk).kverr k = SMap.get 0 p.kverr k &&& ~~~(BitVec.ofNat 64 v &&& 0xC000000000000000) ∧
      ∀ j, j ≠ k → SMap.get 0 (t.pkg pk).kverr j = SMap.get 0 p.kverr j) ∧
    (p.jposted < p.jheld → Roomy p → ∃ t, exec (.evpush pk p.jposted) s = .next t ∧
      Posted s t pk (s.bytesAt (physKey pk (p.jbase + 64 * (p.jposted % 256))) 64) ∧ (t.pkg pk).jposted = p.jposted + 1 ∧
      (t.pkg pk).jheld = p.jheld) ∧
    (∀ n c, s.ctx = some c →
      (∀ t, s.csrWrite c n (BitVec.ofNat 64 v) = .inl t →
        (s.pcqWait c n = none → exec (.registerWrite pk (0x10000 + n) v) s = .next t) ∧
        (s.pcqWait c n = some none → exec (.registerWrite pk (0x10000 + n) v) s = .next s) ∧
        (∀ page, s.pcqWait c n = some (some page) → exec (.registerWrite pk (0x10000 + n) v) s = .next (s.noticeFor c.b page none))) ∧
      (∀ cause, s.csrWrite c n (BitVec.ofNat 64 v) = .inr cause →
        exec (.registerWrite pk (0x10000 + n) v) s = .next (({ s with fresh := s.fresh + 1 } : State).raise c cause (Config.freeWord s.fresh) false)))

/-! ### The pilot engine (spec/12 R234 to R239) -/

namespace Sys2Proof.Claims
open Sys2Proof Sys2Proof.Machine

/-- The engine of queue q stands, not blocked, at the instruction i of its image. -/
def AtPilot (s : State) (pk q : Nat) (g : Engine) (i : PilotIns) : Prop :=
  (queueOf s pk q).engine = some g ∧ g.blocked = none ∧ i = pilotIns (((queueOf s pk q).image.drop g.off).take 8)

/-- The pilot instruction completes: the engine of queue q is h, and nothing else changed. -/
def Pilots (i : Instr) (s : State) (pk q : Nat) (h : Engine) : Prop :=
  exec i s = .next (withQueue s pk q { queueOf s pk q with engine := some h })

/-- The engine goes on behind its instruction with v in x(n), where x0 stays zero. -/
def PutsX (g h : Engine) (n : Nat) (v : Word) : Prop :=
  (∀ r, h.reg r = if r = 0 then 0 else if r = n then v else g.reg r) ∧ { h with x := g.x } = g.go (g.off + 8)

end Sys2Proof.Claims

/-- R235, R237 to R239, R242, R244: the pilot instructions. Each reads and writes x registers as R235 lists; BEQ and LOOPN go forward, and a body that
ends goes round again while passes are left. LDI reads the one unit of its queue's host window that holds its address, which
it keeps for the packet, error 4 outside; bytes past the unit are free values (log 61). LAUNCH to a block not in the tree is error 6;
of a region that is not BOUND it waits; of a bound one it sends x1 to x8 to the owner of the data at x2. REGOP, WAITR, EVENT, FAIL and HALTP
act on regions of the tree, the event ring and the queue. That LOOPN takes x(X) as unsigned is log 113's choice; AGE as READY gives it (log 12),
the walk of the tree (log 47) and the readings of logs 61, 63, 64, 66, 68 and 74 are the model's. -/
def Obligations.PilotInstructions : Prop :=
  (∀ (g : Engine) (off : Nat),
    (g.loops = [] → g.go off = { g with off := off, blocked := none }) ∧
    (∀ l ls, g.loops = l :: ls →
      (off ≠ l.stop → g.go off = { g with off := off, blocked := none }) ∧
      (off = l.stop → 1 < l.left → g.go off = { g with off := l.start, loops := { l with left := l.left - 1 } :: ls, blocked := none }) ∧
      (off = l.stop → l.left ≤ 1 → g.go off = ({ g with loops := ls } : Engine).go off))) ∧
  (∀ (s : State) (pk q : Nat) (g : Engine) (i : PilotIns), AtPilot s pk q g i →
    let p := s.pkg pk
    let x := queueOf s pk q
    let a := (g.reg i.y).toNat
    let puts (n : Instr) (v : Word) : Prop := ∃ h, PutsX g h i.x v ∧ Pilots n s pk q h
    (i.op = 1 → puts (.ldp pk q) (BitVec.ofNat 64 (leNat ((g.packet.drop (8 * i.imm16)).take 8)))) ∧
    (i.op = 2 →
      let e := (g.reg i.y + BitVec.ofInt 64 i.imm32).toNat
      let u := e / 64 * 64
      let bs := (SMap.get? g.units u).getD (s.bytesAt (hostKey u) 64)
      (x.qiwbase.toNat ≤ u → u + 64 ≤ x.qiwbase.toNat + x.qiwsize.toNat → bs.length = 64 →
        (e % 64 ≤ 56 → ∃ h : Engine,
          (∀ r, h.reg r = if r = 0 then 0 else if r = i.x then BitVec.ofNat 64 (leNat ((bs.drop (e % 64)).take 8)) else g.reg r) ∧
          { h with x := g.x, last := g.last, units := g.units } = g.go (g.off + 8) ∧ h.last = some u ∧ h.units = SMap.put g.units u bs ∧
          Pilots (.ldi pk q) s pk q h) ∧
        (56 < e % 64 → ∃ t h, exec (.ldi pk q) s = .next t ∧ t.mem = s.mem ∧ (queueOf t pk q).engine = some h ∧
          { h with x := g.x, last := g.last, units := g.units } = g.go (g.off + 8) ∧ h.last = some u ∧ h.units = SMap.put g.units u bs ∧
          (i.x ≠ 0 → (h.reg i.x).toNat % 256 ^ (64 - e % 64) = leNat (bs.drop (e % 64))))) ∧
      (u < x.qiwbase.toNat ∨ x.qiwbase.toNat + x.qiwsize.toNat < u + 64 →
        ∃ t, exec (.ldi pk q) s = .next t ∧ (queueOf t pk q).st = 2 ∧ (queueOf t pk q).err = 4)) ∧
    (i.op = 3 → puts (.movi pk q) (BitVec.ofInt 64 i.imm32)) ∧
    (i.op = 4 → puts (.pilotAdd pk q) (g.reg i.x + g.reg i.y)) ∧
    (i.op = 5 → puts (.pilotAnd pk q) (g.reg i.x &&& g.reg i.y)) ∧
    (i.op = 6 → puts (.shr pk q) (g.reg i.x >>> ((g.reg i.y).toNat % 64))) ∧
    (i.op = 7 → Pilots (.pilotBeq pk q) s pk q (g.go (if g.reg i.x = g.reg i.y then g.off + 8 + 8 * i.imm16 else g.off + 8))) ∧
    (i.op = 8 →
      let n := Nat.min (g.reg i.x).toNat i.imm32.toNat
      (0 < n → 0 < i.imm16 → Pilots (.loopn pk q) s pk q
        { g with off := g.off + 8, loops := { start := g.off + 8, stop := g.off + 8 + 8 * i.imm16, left := n } :: g.loops }) ∧
      (n = 0 → Pilots (.loopn pk q) s pk q (g.go (g.off + 8 + 8 * i.imm16)))) ∧
    (i.op = 9 →
      let st := s.regionState pk a
      (s.inTree pk q a = false → ∃ t, exec (.pilotLaunch pk q) s = .next t ∧ (queueOf t pk q).st = 2 ∧ (queueOf t pk q).err = 6) ∧
      (s.inTree pk q a = true → (st = 6 ∨ st = 7) → p.regions.find? (fun r => r.block == a && !r.suspended) = none → ∃ t, exec (.pilotLaunch pk q) s = .next t ∧ (queueOf t pk q).st = 2 ∧ (queueOf t pk q).err = 7) ∧
      (s.inTree pk q a = true → st < 3 → p.regions.find? (fun r => r.block == a && !r.suspended) = none → ∃ t, exec (.pilotLaunch pk q) s = .next t ∧ t.net = s.net ∧ t.mem = s.mem ∧
        (queueOf t pk q).engine = some { g with blocked := some .launch }) ∧
      (∀ r m leaf base size, s.inTree pk q a = true →
        p.regions.find? (fun r => r.block == a && !r.suspended) = some r → (leNat (g.packet.take 8)).testBit 10 = false →
        let msg : Launch := { words := (List.range 8).map (fun j => g.reg (j + 1)), queue := q, packet := x.head, pkg := pk }
        r.hbase ≤ (g.reg 1).toNat → (g.reg 1).toNat < r.hlimit → (g.reg 2).toNat < 2 ^ 57 →
        s.walkFrom pk r.ptroot (g.reg 2).toNat = .leaf leaf base size → classOf leaf = .owned →
        ∀ slot, r.owners[ownerOf leaf]? = some slot → slot ∈ r.launches → (s.boundMembers r).find? (fun m => m.actor == slot) = some m →
        ∃ t, exec (.pilotLaunch pk q) s = .next t ∧ t.mem = s.mem ∧ t.berths = s.berths ∧
          (∃ src, t.net = (sent s src m.berth (.launch m.slip m.tag msg)).net) ∧
          (∃ h, (queueOf t pk q).engine = some h ∧ h.off = (g.go (g.off + 8)).off ∧ h.blocked = none ∧ h.x = g.x))) ∧
    (i.op = 10 → s.inTree pk q a = true →
      (i.imm16 = 0 → s.regionState pk a = 0 → ∃ t, exec (.regopReady pk q) s = .next t ∧ t.regionState pk a = 1 ∧
        t.blk pk a fAge = (p.ageSeq + 1) % 2 ^ 32 ∧ BlockKept s t pk a [fState, fAge] ∧ (queueOf t pk q).engine = some (g.go (g.off + 8))) ∧
      (i.imm16 = 0 → s.regionState pk a ≠ 0 → ∃ t, exec (.regopReady pk q) s = .next t ∧ (queueOf t pk q).st = 2 ∧ (queueOf t pk q).err = 9) ∧
      (i.imm16 = 1 → ∃ t, exec (.regopPrio pk q) s = .next t ∧ t.blk pk a fPrio = (g.reg i.x).toNat % 16 ∧ BlockKept s t pk a [fPrio] ∧
        (queueOf t pk q).engine = some (g.go (g.off + 8))) ∧
      (i.imm16 = 2 → ∃ t, exec (.regopArgs pk q) s = .next t ∧ t.blk pk a fArgs = (g.reg i.x).toNat ∧ BlockKept s t pk a [fArgs] ∧
        (queueOf t pk q).engine = some (g.go (g.off + 8)))) ∧
    (i.op = 11 → (5 ≤ s.regionState pk a → Pilots (.waitr pk q) s pk q (g.go (g.off + 8))) ∧
      (s.regionState pk a < 5 → Pilots (.waitr pk q) s pk q { g with blocked := some .waitr })) ∧
    (i.op = 12 → Roomy p → p.ovf = false → p.eventBefore q = false → ∃ t, exec (.pilotEvent pk q) s = .next t ∧
      Posted s t pk (leBytes 8 (1 + q * 256) ++ leBytes 8 (g.reg i.x).toNat ++ leBytes 4 (BitVec.ofInt 64 i.imm32).toNat ++ leBytes 4 x.head) ∧
      (queueOf t pk q).engine = some (g.go (g.off + 8))) ∧
    (i.op = 12 → (¬ Roomy p ∨ p.ovf = true ∨ p.eventBefore q = true) → Pilots (.pilotEvent pk q) s pk q { g with blocked := some .event }) ∧
    (i.op = 13 → ∃ t, exec (.fail pk q) s = .next t ∧ Stopped s t pk q 3) ∧
    (i.op = 14 → exec (.haltp pk q) s = .next (withQueue s pk q { x with head := (x.head + 1) % 2 ^ 17, engine := none }))) ∧
  (∀ (s : State) (pk q : Nat) (g : Engine), (queueOf s pk q).engine = some g → g.blocked = some .waitr →
    let i := pilotIns (((queueOf s pk q).image.drop g.off).take 8)
    5 ≤ s.regionState pk (g.reg i.y).toNat → Pilots (.pilotWaitResume pk q) s pk q (g.go (g.off + 8)))

/-! ### Takeover, pass links, scale-out (spec/24 R446, R448, spec/25 R456 to R458, R462) -/

namespace Sys2Proof.Claims
open Sys2Proof Sys2Proof.Machine

/-- s with a port of a package as x. -/
def withPort (s : State) (pk n : Nat) (x : Port) : State := withPkg s pk { s.pkg pk with ports := SMap.put (s.pkg pk).ports n x }

end Sys2Proof.Claims

/-- R446, R448, R456 to R458, R462: a takeover fences the active control berth that failed and makes the standby active; a second one stops the module with
error 3. A flit is accepted as it was sent; one whose CRC fails is replayed, and after 16 failed replays the port retrains, which EVC10 counts; a port
whose retraining fails goes down, its pairs without traffic move to another port to the same neighbour, or each domain with traffic on it rolls
back, as each package that held such traffic reports. Released lines go to the mirror with a record behind
them, once their pages are resident; a line lands once, with its tag. The readings of logs 69, 71, 72, 73 and 111 are the model's. -/
def Obligations.TakeoverAndLinks : Prop :=
  (∀ (s : State) (pk b cause : Nat), s.takeovers.find? (fun e => pkgOf e.1 == pk) = some (b, cause) →
    let p := s.pkg pk
    (p.takeover = false → ∃ t, exec (.takeover pk) s = .next t ∧
      t.pkg pk = { p with actcb := 1 - p.actcb, takeover := true, tko := true, failed := p.actcb, fcause := cause % 256 } ∧ t.mem = s.mem ∧
      (t.berth b).fenced = true ∧ (t.berth b).handler = none ∧ (∀ i, (t.slip b i).stopped = true) ∧
      (t.berth (pk * 8192 + Config.controlBerth (1 - p.actcb))).ipDbell = true) ∧
    (p.takeover = true → ∃ t, exec (.takeover pk) s = .next t ∧ (t.pkg pk).ready = false ∧ (t.berth b).fenced = true ∧
      ∀ e ∈ (t.pkg pk).queues, e.2.st = 2 ∧ e.2.err = 3)) ∧
  (∀ (s : State) (pk n : Nat),
    let p := s.pkg pk
    let x : Port := SMap.get {} p.ports n
    (n < 36 → x.down = false → x.retraining = false →
      ∀ flit : Bytes,
        (flitOk flit = true → (∃ f ∈ (SMap.get {} (s.pkg x.peer).ports x.pport : Port).sent, f.bytes = flit) →
          exec (.flitReceive pk n flit) s = .next (withPort s pk n { x with failed := 0 })) ∧
        (flitOk flit = true → (∀ f ∈ (SMap.get {} (s.pkg x.peer).ports x.pport : Port).sent, f.bytes ≠ flit) →
          exec (.flitReceive pk n flit) s = .next s) ∧
        (flitOk flit = false → x.failed < 16 → exec (.flitReceive pk n flit) s = .next ((withPort s pk n
          { x with failed := x.failed + 1, replays := Nat.min 0xFFFF (x.replays + 1) }).timing (activeControl x.peer (s.pkg x.peer)) 10)) ∧
        (flitOk flit = false → 16 ≤ x.failed → exec (.flitReceive pk n flit) s =
          .next ((withPort s pk n { x with retraining := true, failed := 0 }).timing (activeControl pk p) 10))) ∧
    (n < 36 → x.retraining = true →
      exec (.portRetrain pk n true) s = .next (withPort s pk n { x with retraining := false, trained := true }) ∧
      exec (.portRetrain pk n false) s = .next (withPort s pk n { x with trained := false })) ∧
    (n < 36 → x.retraining = false → p.powered = true → p.phase = 1 → x.down = true → ∀ peer pport, SMap.get? s.cables (pk * 36 + n) = some (peer, pport) →
      exec (.portRetrain pk n true) s = .next (withPort s pk n { x with peer := peer, pport := pport, down := false, trained := true })) ∧
    (x.retraining = true → x.trained = false → ∃ t, exec (.portDown pk n) s = .next t ∧
      SMap.get {} (t.pkg pk).ports n = { x with down := true, retraining := false, failed := 0 } ∧ t.mem = s.mem ∧
      ((∃ e ∈ p.ports, e.1 ≠ n ∧ e.2.down = false ∧ e.2.peer = x.peer) → t.rollbacks = s.rollbacks ∧
        ∀ e ∈ (t.pkg pk).routes, e.2 = n → s.pairTraffic (e.1 / 2 ^ 21) (e.1 % 2 ^ 21) = true) ∧
      ((∀ e ∈ p.ports, e.1 ≠ n → e.2.down = false → e.2.peer ≠ x.peer) →
        t.berths = s.berths ∧ (∀ y ∈ s.rollbacks, y ∈ t.rollbacks) ∧
        ∀ m ∈ s.traffic, s.linkCarries pk n m.src m.dst = true → ∀ e ∈ m.work, ∀ o, e.2.2 = some o →
          ∀ at_ ∈ s.routePkgs m.src m.dst 256 (pkgOf m.src), ∃ y ∈ t.rollbacks, y.owner.map Owner.dom = some o.dom ∧ y.seenAt = some at_))) ∧
  (∀ (s : State) (pk n : Nat) (u : Landed), (s.pkg pk).outgoing[n]? = some u →
    (∀ x, s.lineAbsent pk u = some x →
      exec (.exchangeLineSend pk n) s = .next (s.engineNotice pk u.root u.asid (x % 2 ^ 51 * 64 / 65536))) ∧
    (s.lineAbsent pk u = none → ∃ t, exec (.exchangeLineSend pk n) s = .next t ∧ t.mem = s.mem ∧ t.berths = s.berths ∧
      (t.pkg pk).outgoing = (s.pkg pk).outgoing.take n ++ (s.pkg pk).outgoing.drop (n + 1) ∧ (∀ f ∈ s.wire, f ∈ t.wire) ∧
      ∀ x ∈ u.lines, ∀ e, (s.pkg pk).pageEntry (linePage x) = some e → fieldAt e 14 2 ≠ 0xFFFF →
        (∃ f ∈ t.wire, f.peer = fieldAt e 14 2 ∧ f.page = fieldAt e 16 8 ∧ f.tag = u.tag ∧ f.line = none ∧
          f.count = (u.lines.filter (fun y => linePage y == linePage x)).length) ∧
        ∀ leaf base size, s.walkFrom pk u.root (x % 2 ^ 51 * 64) = .leaf leaf base size →
          ∃ f ∈ t.wire, f.peer = fieldAt e 14 2 ∧ f.page = fieldAt e 16 8 ∧ f.tag = u.tag ∧
            f.line = some (x % 1024, s.bytesAt (physKey pk (leafAddr leaf base (x % 2 ^ 51 * 64))) 64))) ∧
  (∀ (s : State) (n : Nat) (f : Frame), s.wire[n]? = some f →
    let left := s.wire.take n ++ s.wire.drop (n + 1)
    (∃ t, exec (.lostFrameRetransmit n) s = .next t ∧ t = { s with wire := t.wire } ∧ t.wire[n]? = some { f with lost := false } ∧
      ∀ m, m ≠ n → t.wire[m]? = s.wire[m]?) ∧
    (f.lost = false → f.peer = s.scaleId → ∀ pk e, s.mirrorOf f.page = some (pk, e) →
      (f.line = none → ∃ t, exec (.transferRecordReceive n) s = .next t ∧ t.wire = left ∧ t.mem = s.mem ∧
        ∃ x ∈ (t.pkg pk).transfers, x.page = linePage (lineName (fieldAt e 12 2) f.page) ∧ x.tag = f.tag ∧ x.count = some f.count) ∧
      (∀ o data leaf base size, f.line = some (o, data) → data.length = 64 →
        let va := f.page % 2 ^ 57 + 64 * (o % 1024)
        let line := lineName (fieldAt e 12 2) va
        let k := physKey pk (leafAddr leaf base va)
        s.walkFrom pk (s.spaceRoot pk (fieldAt e 12 2)) va = .leaf leaf base size → classOf leaf = .exchange →
        (SMap.get? (s.pkg pk).lines line = none → ∃ t, exec (.exchangeLineReceive n) s = .next t ∧ t.wire = left ∧
          (∀ j, j < 64 → t.byteAt (k + j) = data.getD j 0) ∧ (∀ a, a < k ∨ k + 64 ≤ a → t.byteAt a = s.byteAt a) ∧
          SMap.get? (t.pkg pk).lines line = some f.tag) ∧
        ((SMap.get? (s.pkg pk).lines line).isSome = true → exec (.exchangeLineReceive n) s = .next { s with wire := left }))))

/-! ### Bring-up, power, identity (spec/28) -/

namespace Sys2Proof.Claims
open Sys2Proof Sys2Proof.Machine

/-- What a reading w of the margins, 16 bits a class, makes of a package: AGECAP falls below each class without margin, OPCLASS stays within CAP,
and a class 0 without margin stops every queue with error 3 under FAILCODE 5 (R489, R490). -/
def Aged (p q : Pkg) (w : Nat) : Prop :=
  let margin (c : Nat) : Nat := w / 2 ^ (16 * c) % 2 ^ 16
  q.agemargin = BitVec.ofNat 64 w ∧ q.agecap ≤ p.agecap ∧ (margin 2 = 0 → q.agecap ≤ 1) ∧ (margin 1 = 0 → q.agecap = 0) ∧
  (0 < margin 1 → 0 < margin 2 → q.agecap = p.agecap) ∧ q.opclass ≤ q.cap ∧
  (margin 0 = 0 → q.ready = false ∧ q.failcode = 5 ∧ ∀ e ∈ q.queues, e.2.st = 2 ∧ e.2.err = 3) ∧
  (0 < margin 0 → q.ready = p.ready ∧ q.queues = p.queues ∧ q.phase = p.phase ∧ q.failcode = p.failcode)

end Sys2Proof.Claims

/-- R487 to R494: power-good starts the reset phase with every register and array of the package as reset leaves them. The reset phase ends with
the firmware checked and measured, or fails with code 1; the calibrating phase ends with a plan; the last one makes the module READY with
its memory zero. A phase over its limit fails with code 4. Readings lower AGECAP, and with class 0 exhausted the module stops with code 5. Power
moves PWRCAP; OPCLASS never stands above CAP. The endpoint answers, signing its challenge and its measurements with the identity key, and changes
nothing else. The sensors' numbers (log 91), the empty flash (log 78), the opaque answers (log 90), a calibration without margin (log 119) and the
layout of the measurement blocks (log 120) are the model's. -/
def Obligations.BringUp : Prop :=
  ∀ (s : State) (pk : Nat),
    let p := s.pkg pk
    (∃ t, exec (.powerGood pk) s = .next t ∧ (∀ k, keyIn pk k = true → t.byteAt k = 0) ∧ (∀ k, keyIn pk k = false → t.byteAt k = s.byteAt k) ∧
      (∀ b, pkgOf b = pk → t.berth b = {}) ∧ (∀ b, pkgOf b ≠ pk → t.berth b = s.berth b) ∧
      (t.pkg pk).powered = true ∧ (t.pkg pk).phase = 0 ∧ (t.pkg pk).ready = false ∧ (t.pkg pk).cap = 2 ∧ (t.pkg pk).meas = List.replicate 32 0 ∧
      (t.pkg pk).queues = [] ∧ (t.pkg pk).keys = p.keys ∧ (t.pkg pk).fuses = p.fuses ∧ (t.pkg pk).firmware = (p.staged.map (fun x => [x])).getD p.firmware) ∧
    (p.powered = true → p.phase = 0 → ∀ fail,
      let good := p.firmware.takeWhile (p.signed 0 0)
      let measured : Pkg := { p with meas := good.foldl (fun m x => sha256 (m ++ sha256 x)) p.meas, digests := p.digests ++ good.map sha256 }
      (p.firmware.all (p.signed 0 0) = true → exec (.phaseComplete pk fail) s = .next (withPkg s pk { measured with phase := 1 })) ∧
      (p.firmware.all (p.signed 0 0) = false → exec (.phaseComplete pk fail) s = .next (withPkg s pk { measured with phase := 4, failcode := 1 }))) ∧
    (p.powered = true → p.phase = 1 → (p.ageplan ≠ 0 → exec (.phaseComplete pk 0) s = .next (withPkg s pk { p with phase := 2 })) ∧
      exec (.phaseComplete pk 2) s = .next (withPkg s pk { p with phase := 4, failcode := 2 })) ∧
    (p.powered = true → p.phase = 2 →
      (∃ t, exec (.phaseComplete pk 0) s = .next t ∧ t.pkg pk = { p with phase := 3, ready := true, opclass := Nat.min 1 p.cap } ∧
        ∀ k, keyIn pk k = true → t.byteAt k = 0) ∧
      exec (.phaseComplete pk 3) s = .next (withPkg s pk { p with phase := 4, failcode := 3 })) ∧
    (p.powered = true → p.phase < 3 → exec (.phaseTimeout pk) s = .next (withPkg s pk { p with phase := 4, failcode := 4 })) ∧
    (p.powered = true → p.changing = false → ∀ plan w, plan < 2 ^ 48 → w < 2 ^ 48 →
      (p.phase = 1 → ∃ t, exec (.monitorReading pk plan w) s = .next t ∧ t.mem = s.mem ∧ t.berths = s.berths ∧ Aged p (t.pkg pk) plan ∧
        (t.pkg pk).ageplan = BitVec.ofNat 64 plan ∧ (plan % 2 ^ 16 = 0 → (t.pkg pk).phase = 4)) ∧
      (p.phase = 3 → ∃ t, exec (.monitorReading pk plan w) s = .next t ∧ t.mem = s.mem ∧ t.berths = s.berths ∧ Aged p (t.pkg pk) w ∧
        (t.pkg pk).ageplan = p.ageplan)) ∧
    (∃ t, exec (.pwrcapLower pk) s = .next t ∧ (t.pkg pk).pwrcap = p.pwrcap - 1 ∧ (t.pkg pk).opclass = Nat.min p.opclass (t.pkg pk).cap ∧
      t.mem = s.mem ∧ t.berths = s.berths) ∧
    exec (.pwrcapRaise pk) s = .next (withPkg s pk { p with pwrcap := Nat.min 2 (p.pwrcap + 1) }) ∧
    (∃ bs, exec (.getCertificate pk) s = .next (withPkg s pk { p with response := bs })) ∧
    (let signature (use : Nat) (bs salt : List Byte) : List Byte :=
       pssSign (Config.identityKey pk).1 (Config.identityKey pk).2 (Config.spdmMessage pk use bs) salt
     let values := p.meas :: p.digests
     let blocks := (List.range values.length).flatMap (fun j => measBlock (j + 1) (values.getD j []))
     (∀ nonce, ∃ salt, salt.length = 32 ∧
       exec (.challenge pk nonce) s = .next (withPkg s.freshened pk { p with response := signature 0 (leBytes 32 nonce) salt })) ∧
     ∃ salt, salt.length = 32 ∧
       exec (.getMeasurements pk) s = .next (withPkg s.freshened pk { p with response := blocks ++ signature 1 blocks salt })) ∧
    (∀ n, n < 16 → ∃ v, exec (.pldmSensorRead pk n) s = .next (withPkg s.freshened pk { p with response := leBytes 8 v }) ∧
      (n = 9 → v = p.phase) ∧ (n = 10 → v = p.failcode) ∧ (n = 11 → v = p.opclass) ∧ (n = 12 → v = p.cap)) ∧
    (∀ n, 16 ≤ n → ∃ bs, exec (.pldmSensorRead pk n) s = .next (withPkg s.freshened pk { p with response := bs })) ∧
    (∀ bs, (p.signed 0 0 bs = true → exec (.pldmFirmwareUpdate pk bs) s = .next (withPkg s pk { p with staged := some bs })) ∧
      (p.signed 0 0 bs = false → exec (.pldmFirmwareUpdate pk bs) s = .next (withPkg s pk { p with failcode := 1 })))

/-! ### Code objects and containers (spec/25 R465 to R467, spec/26 R471 to R484) -/

/-- R465 to R467, R472 to R474, R477 to R484: the loader takes all of an object or nothing: a file that is none is refused with code 1, no image with code 2, a base
that is not aligned with code 3, and a record that is refused leaves only its report. A module becomes its actors and channels, or is
refused: its code fills executable pages, and its descriptor (R216) stands where the loader puts it. A HI field and the LO field beside it make up v. The container that a device writes is one it reads back, record by record; a
container whose digest or FORMAT is wrong, or whose bodies say nothing, changes nothing; one that is accepted gives a FREE block its saved
region. The records' numbers and bodies (log 31), the order of the codes (logs 75 and 112), the translator's choices (log 77) and the placement
(log 76) are the model's. -/
def Obligations.ObjectsAndContainers : Prop :=
  (∀ (s : State) (pk adr len : Nat) (place : Places),
    let bs := s.bytesAt (globKey pk adr) len
    let reports (code : Nat) : Prop := ∃ rep, leNat (rep.take 4) = code ∧ rep.length = 48 ∧
      exec (.objectLoad pk adr len place) s = .next (withPkg s pk { s.pkg pk with report := rep })
    let sound := isObject bs = true ∧ ((leNat ((bs.drop 12).take 4)).testBit 0 = true → fatZero bs = true)
    (¬ sound → reports 1) ∧
    (sound → selectImage Config.revision (imagesOf bs) = none → reports 2) ∧
    (∀ x, sound → selectImage Config.revision (imagesOf bs) = some x → x.syn = true →
      (isModule x.body = false → reports 1) ∧ (isModule x.body = true → translateModule x.body = none → reports 2) ∧
      ∀ l, isModule x.body = true → translateModule x.body = some l →
        let acts := placeCode (((placedAt place 0).map (fun p => p.1)).getD 0) l.1
        let text : Sect := { kind := 0, align := 2, owner := 0, base := 0, body := textBytes acts }
        let pipe := descriptorBytes acts l.2
        let fits := s.placeable pk place adr len [text] = true ∧ s.pipeApart pk place adr len pipe.length text = true
        (text.loadBase place % 65536 ≠ 0 → reports 3) ∧
        (text.loadBase place % 65536 = 0 → ¬ fits → exec (.objectLoad pk adr len place) s = .next s) ∧
        (text.loadBase place % 65536 = 0 → fits → ∃ t, exec (.objectLoad pk adr len place) s = .next t ∧ t.berths = s.berths ∧
          (t.pkg pk).program = acts ∧ (t.pkg pk).graph = l.2 ∧ leNat ((t.pkg pk).report.take 4) = 0 ∧
          (∀ j, j < pipe.length → t.byteAt (globKey pk (placePipe place) + j) = pipe.getD j 0) ∧
          (∀ base phys, placedAt place 0 = some (base, phys) → ∀ j, j < text.body.length → t.byteAt (physKey pk phys + j) = text.body.getD j 0) ∧
          ∀ p ∈ text.pages place, ∃ slot, s.leafSlot pk p.1 4 (placeRoot place) = some slot ∧ t.natAt (physKey pk slot) 8 = p.2 + 139)) ∧
    (∀ x, sound → selectImage Config.revision (imagesOf bs) = some x → x.syn = false →
      isObject x.body = false ∨ (leNat ((x.body.drop 12).take 4)).testBit 0 = true ∨ reservedZero x.body = false ∨ (readObject x.body).formed = false → reports 1) ∧
    (∀ x, sound → selectImage Config.revision (imagesOf bs) = some x → x.syn = false → isObject x.body = true →
      (leNat ((x.body.drop 12).take 4)).testBit 0 = false → reservedZero x.body = true →
      (readObject x.body).formed = true →
      let o := readObject x.body
      let mapped := o.sects.filter (fun y => y.kind < 3)
      ((∃ y ∈ mapped, y.loadBase place % 65536 ≠ 0) → reports 3) ∧
      ((∀ y ∈ mapped, y.loadBase place % 65536 = 0) → s.placeable pk place adr len mapped = false → exec (.objectLoad pk adr len place) s = .next s) ∧
      ((∀ y ∈ mapped, y.loadBase place % 65536 = 0) → s.placeable pk place adr len mapped = true →
        (∀ rep, o.relocateAll place 0 o.rels = .inr rep →
          exec (.objectLoad pk adr len place) s = .next (withPkg s pk { s.pkg pk with report := rep })) ∧
        (∀ ps, o.relocateAll place 0 o.rels = .inl ps → ∃ t, exec (.objectLoad pk adr len place) s = .next t ∧ t.berths = s.berths ∧
          leNat ((t.pkg pk).report.take 4) = 0 ∧
          ∀ y base phys slot, o.sects = [y] → o.rels = [] → y.kind = 0 → 0 < y.body.length → y.body.length ≤ 65536 →
            placedAt place 0 = some (base, phys) → s.leafSlot pk base 4 (placeRoot place) = some slot →
            (∀ j, j < 65536 → t.byteAt (physKey pk phys + j) = y.body.getD j 0) ∧ t.natAt (physKey pk slot) 8 = phys + 139 ∧
            (∀ a, (a < physKey pk phys ∨ physKey pk phys + 65536 ≤ a) → (a < physKey pk slot ∨ physKey pk slot + 8 ≤ a) →
              t.byteAt a = s.byteAt a))))) ∧
  (∀ v : Int, hiPart v * 4096 + patchValue 4 v = v ∧ -2048 ≤ patchValue 4 v ∧ patchValue 4 v < 2048 ∧ patchValue 3 v = hiPart v) ∧
  (∀ l : List CRec, l.length < 2 ^ 32 →
    (∀ r ∈ l, r.type < 2 ^ 16 ∧ r.ver < 2 ^ 8 ∧ r.body.length < 2 ^ 32 ∧ Config.recordVer r.type = some r.ver) →
    readContainer (containerBytes l) = some l) ∧
  (∀ (s : State) (pk region adr len : Nat),
    let bs := s.bytesAt (globKey pk adr) len
    (leNat (bs.take 4) ≠ 1 ∨ len < 64 ∨ sha256 (bs.drop 64) ≠ (bs.drop 32).take 32 → exec (.containerLoad pk (region, adr) len) s = .next s) ∧
    ((readContainer bs).bind contextOf = none → exec (.containerLoad pk (region, adr) len) s = .next s) ∧
    (∀ l, readContainer bs = some l →
      (∀ c, contextOf l = some c → s.regionState pk region = 0 → (∀ r ∈ (s.pkg pk).regions, r.block ≠ region) →
        exec (.containerLoad pk (region, adr) len) s = .next (withPkg s pk { s.pkg pk with
          regions := (s.pkg pk).regions ++ [s.movedRegion pk region c] })))) ∧
  (∀ (s : State) (pk adr rev region : Nat) (x : Region), (s.pkg pk).regions.find? (fun r => r.block == region && r.suspended) = some x →
    let l := s.contextRecords pk x
    let k := globKey pk adr
    (∀ r ∈ l, r.must = true) ∧
    ∃ t, exec (.containerWrite pk (region, adr) rev) s = .next t ∧ t = { s with mem := t.mem } ∧
      if l.all (fun r => Config.representable rev r.type r.body) = true then
        (∀ j, j < (containerBytes l).length → t.byteAt (k + j) = (containerBytes l).getD j 0) ∧
        (∀ a, a < k ∨ k + (containerBytes l).length ≤ a → t.byteAt a = s.byteAt a)
      else t = s)

/-! ### The machine as a whole -/

/-- A step runs the decoded instruction (R24, R39, R40, R62, R65, R192, R218, R219, R226, R227): what a berth that nothing disturbs does. The bytes at the
program counter are the word; the instruction that the word is executes after CYCLE has advanced (assumption log 3), a nullified one is
passed over, a word that is none raises its cause. An overrun handler, a pending interrupt and the scheduler come first where they are due; an
instruction that has issued and stalls or waits goes on before an interrupt is taken (R209). What must happen first, and the agenda (assumption
log 2), come before all. -/
def Obligations.StepRunsDecodedInstruction : Prop :=
  (∀ (s : State) (c : Ctx), s.dueStop = none → s.rollbacks = [] → s.takeovers = [] → s.agenda = [] → (s.berth s.cur).fenced = false →
    s.ctx = some c → (∀ h, (s.berth s.cur).handler = some h → h.steps < 256) →
    (c.hnd = false → (s.slip c.b c.i).stopped = false ∧ ((s.slip c.b c.i).intrap = true ∨ (s.slip c.b c.i).begun = true ∨ s.pendingFor c.b c.i = 0)) →
    (∀ n w i, s.fetchWord c (s.pcOf c) = some (n, w) → decodeWord n w = .ok i →
      ((s.queueOf c).q0.nf = false → step s = exec i s.ticked) ∧ ((s.queueOf c).q0.nf = true → step s = .next (s.ticked.advance c none false))) ∧
    (∀ n w e, s.fetchWord c (s.pcOf c) = some (n, w) → decodeWord n w = .error e → (s.queueOf c).q0.nf = false →
      step s = exec (.illegalInstruction w (if e = .reserved then 2 else 1)) s.ticked) ∧
    (s.fetchWord c (s.pcOf c) = none → step s = exec .fetchFault s.ticked)) ∧
  (∀ (s : State) (c : Ctx) (a : Word) k o, s.reachFetch c a.toNat = .hit k o → s.poisoned k 2 = false →
    (s.natAt k 2 % 2 = 0 → s.fetchWord c a = some (2, s.natAt k 2)) ∧
    (∀ k' o', s.natAt k 2 % 2 = 1 → s.reachFetch c (a + 2).toNat = .hit k' o' → s.poisoned k' 2 = false →
      s.fetchWord c a = some (4, s.natAt k 2 + 65536 * s.natAt k' 2))) ∧
  (∀ s : State, s.ticked = s.setBerth s.cur { s.berth s.cur with cycle := (s.berth s.cur).cycle + BitVec.ofNat 64 s.tick }) ∧
  (∀ s : State, (s.dueStop ≠ none → step s = exec .faultDomainStop s) ∧ (s.dueStop = none → s.rollbacks ≠ [] → step s = exec .rollback s) ∧
    (∀ e rest, s.dueStop = none → s.rollbacks = [] → s.takeovers = e :: rest → step s = exec (.takeover (pkgOf e.1)) s) ∧
    (s.dueStop = none → s.rollbacks = [] → s.takeovers = [] →
      (∀ i rest, s.agenda = .event i :: rest → step s = exec i { s with agenda := rest }) ∧
      (∀ b, s.agenda = [.berth b] → step s = step { s with agenda := [], cur := b }) ∧
      (s.agenda = [] → (s.berth s.cur).fenced = true → step s = .next s.ticked) ∧
      (s.agenda = [] → (s.berth s.cur).fenced = false →
        (s.ctx = none → (∃ e ∈ (s.berth s.cur).slips, e.2.st = .ready) → step s = exec (.slipSchedule s.cur) s.ticked) ∧
        (s.ctx = none → (∀ e ∈ (s.berth s.cur).slips, e.2.st ≠ .ready) → step s = .next s.ticked) ∧
        (∀ h, (s.berth s.cur).handler = some h → 256 ≤ h.steps → step s = exec .handlerOverrun s.ticked) ∧
        (∀ c, s.ctx = some c → c.hnd = false → (s.slip c.b c.i).stopped = true → step s = .next s.ticked) ∧
        (∀ c, s.ctx = some c → c.hnd = false → (s.slip c.b c.i).stopped = false → (s.slip c.b c.i).intrap = false → (s.slip c.b c.i).begun = false →
          s.pendingFor c.b c.i ≠ 0 → step s = exec .interruptEntry s.ticked))))

/-- R41 to R60: words written bit by bit from their encodings decode to what they stand for: one of each layout of R46 to R49 and R51, some of the
fields of R55, R56 and R58, one compact form, and the word of zeros, which is none. -/
def Obligations.SampleWordsDecode : Prop :=
  decodeWord 4 0x02201181 = .ok (.add 3 1 0 2 1) ∧ decodeWord 4 0xFFF04287 = .ok (.addi 5 4 0 (-1)) ∧
  decodeWord 4 0xFFFFF519 = .ok (.br 2 1 2 (-1)) ∧ decodeWord 4 0xFE4023A3 = .ok (.lw 7 2 0 (-4)) ∧
  decodeWord 4 0x003020AF = .ok (.fadd 1 2 0 3 0) ∧ decodeWord 4 0x40095241 = .ok (.chst 4 5 9) ∧
  decodeWord 4 0xB0201345 = .ok (.brd 6 1 0 2) ∧ decodeWord 4 0x490620D5 = .ok (.kvapp 1 2 3 4 1) ∧
  decodeWord 4 0x00420159 = .ok (.crd 2 0x21) ∧ decodeWord 4 0xE0000059 = .ok .halt ∧
  decodeWord 4 0xFFFFD091 = .ok (.upim 1 1048573) ∧ decodeWord 4 0x01CA30B1 = .ok (.fma 1 3 5 7) ∧ decodeWord 4 0xFFFFFE9B = .ok (.j 33554429) ∧
  decodeWord 4 0x001CACA1 = .ok (.lset 1 3 5 7) ∧ decodeWord 4 0x1000A1A1 = .ok (.loop 3 10) ∧ decodeWord 4 0x014030C3 = .ok (.send 1 3 5) ∧
  decodeWord 4 0x0394C24D = .ok (.cmmaBf 1 3 5 7) ∧ decodeWord 4 0x0052104B = .ok (.cwld 1 1 5) ∧ decodeWord 4 0x0E561057 = .ok (.qrld 1 3 5 7) ∧
  decodeWord 4 0x007A30B3 = .ok (.fcvti 1 3 5 3 1) ∧ decodeWord 4 0xC27A30AD = .ok (.vls 1 3 5 7 1 3) ∧
  decodeWord 2 0xFC66 = .ok (.cAddi 3 (-1)) ∧ decodeWord 2 0 = .error .illegal

/-- Decode and encode agree (R39, R41 to R60): the bytes of every well-formed instruction that has a word decode to it, with every operand at every
value, and leave what follows them. -/
def Obligations.DecodeEncodeRoundTrip : Prop :=
  ∀ (i : Instr) (rest : List Byte), i.wellFormed = true → i.len ≠ 0 → decode (encodeBytes i ++ rest) = .ok (i, rest)

/-- Every step keeps memory in its canonical form: keys strictly rising, no entry equal to what an unlisted key reads as. -/
def Obligations.MemoryStaysCanonical : Prop :=
  ∀ s t : State, Safe s → step s = .next t → Safe t

/-- R13, R27, R28, R38, R230, R458, R487, R488: what reset leaves. The registers of slips and berths read zero, but for the constant registers and PRIV; every byte reads zero; no slip
is bound; bring-up is in its reset phase, not READY, with class 1 and both caps at 2; every port is down. That host memory reads zero (log 11) is the model's choice. -/
def Obligations.ResetState : Prop :=
  Safe State.reset ∧ (∀ k, State.reset.byteAt k = 0) ∧
  (∀ b i,
    let p := State.reset.slip b i
    p.priv = true ∧ p.bound = false ∧ p.st = .free ∧ p.intrap = false ∧ p.levels = [] ∧
    (∀ r d, p.getG r d = 0 ∧ p.getF r d = 0 ∧ p.getW r d = 0 ∧ p.getQ r d = (r == 0) ∧ p.getM r d = if r = 0 then BitVec.allOnes 64 else 0) ∧
    p.tcause = 0 ∧ p.tval = 0 ∧ p.tie = false ∧ p.mie = false ∧ p.dbie = false ∧ p.lexit = 0 ∧ p.plwin = 0 ∧ p.own0 = 0 ∧ p.own1 = 0 ∧
    p.own2 = 0 ∧ p.own3 = 0 ∧ p.instret = 0 ∧ p.tag = 0 ∧ p.banks = 0 ∧ p.tiles = 0 ∧ p.wseq = 0) ∧
  (∀ b,
    let x := State.reset.berth b
    x.handler = none ∧ x.tvec = 0 ∧ x.upvec = 0 ∧ x.hbase = 0 ∧ x.hlimit = 0 ∧ x.asid = 0 ∧ x.root = 0 ∧ x.cycle = 0 ∧ x.tcmp = 0 ∧
    x.serrlog = 0 ∧ x.ipend = 0) ∧
  (∀ pk,
    let p := State.reset.pkg pk
    p.ready = false ∧ p.hmStatus = 0x2100 ∧ p.hkstat = 0x2200 ∧ p.phase = 0 ∧ ∀ n, (p.port n).plstat = 4)

/-! ### Every form of these families completes, named one by one -/

namespace Sys2Proof.Claims
open Sys2Proof Sys2Proof.Machine

/-- i completes: it writes the registers ex, counts some events, and nothing else changes but the queue. -/
def Completes (i : Instr) (s : State) (c : Ctx) (ex : List (RSet × Nat)) : Prop :=
  ∃ t ev, exec i s = .next t ∧ KeptAll s t c ex ev

/-- i completes, and no byte of memory changes. -/
def CompletesKeepingMemory (i : Instr) (s : State) : Prop := ∃ t, exec i s = .next t ∧ t.mem = s.mem

/-- The conversions of R141 to R143 complete: under each rounding mode of R57, with wB named for stochastic rounding alone. -/
def ConversionsComplete : Prop :=
  ∀ (s : State) (c : Ctx) (d a b : BitVec 5) (x r : BitVec 3) (h : BitVec 1),
    (r.toNat < 4 ∧ Runs s c {} [.src .w a.toNat x.toNat, .dst .w d.toNat] ∨
      r = 4 ∧ Runs s c {} [.src .w a.toNat x.toNat, .dst .w d.toNat, .src .w b.toNat 0] →
      Completes (.vcvtBfS d a x b r) s c [(.w, d.toNat)] ∧ Completes (.vcvtHfS d a x b r) s c [(.w, d.toNat)] ∧
      Completes (.vcvtI32S d a x b r) s c [(.w, d.toNat)] ∧ Completes (.vcvtSI32 d a x b r) s c [(.w, d.toNat)] ∧
      Completes (.vcvtI8S d a x b r) s c [(.w, d.toNat)] ∧ Completes (.vcvtHfBf d a x b r) s c [(.w, d.toNat)] ∧
      Completes (.vcvtBfHf d a x b r) s c [(.w, d.toNat)]) ∧
    (Runs s c {} [.src .w a.toNat x.toNat, .dst .w d.toNat] →
      Completes (.vcvtSBf d a x) s c [(.w, d.toNat)] ∧ Completes (.vcvtSHf d a x) s c [(.w, d.toNat)] ∧
      Completes (.vcvtSI8 d a x) s c [(.w, d.toNat)] ∧ Completes (.vpackmx d a x h r) s c [(.w, d.toNat)] ∧
      Completes (.vunpkmx d a x r) s c [(.w, d.toNat)])

/-- The vector compares and the mask logic of R138 and R139 complete. -/
def MasksComplete : Prop :=
  ∀ (s : State) (c : Ctx),
    (∀ (m x e : BitVec 3) (a b : BitVec 5), Runs s c {} [.src .w a.toNat x.toNat, .src .w b.toNat 0, .dst .m m.toNat] →
      Completes (.vcmpEq m a x b e) s c [(.m, m.toNat)] ∧ Completes (.vcmpNe m a x b e) s c [(.m, m.toNat)] ∧
      Completes (.vcmpLt m a x b e) s c [(.m, m.toNat)] ∧ Completes (.vcmpLtu m a x b e) s c [(.m, m.toNat)] ∧
      Completes (.vcmpGe m a x b e) s c [(.m, m.toNat)] ∧ Completes (.vcmpGeu m a x b e) s c [(.m, m.toNat)] ∧
      Completes (.vfcmpEq m a x b e) s c [(.m, m.toNat)] ∧ Completes (.vfcmpLt m a x b e) s c [(.m, m.toNat)] ∧
      Completes (.vfcmpLe m a x b e) s c [(.m, m.toNat)]) ∧
    (∀ (d a b x y : BitVec 3),
      (Runs s c {} [.src .m a.toNat x.toNat, .src .m b.toNat y.toNat, .dst .m d.toNat] →
        Completes (.mand d a x b y) s c [(.m, d.toNat)] ∧ Completes (.mor d a x b y) s c [(.m, d.toNat)] ∧
        Completes (.mxor d a x b y) s c [(.m, d.toNat)]) ∧
      (Runs s c {} [.src .m a.toNat x.toNat, .dst .m d.toNat] → Completes (.mnot d a x) s c [(.m, d.toNat)])) ∧
    (∀ (d : BitVec 5) (a x : BitVec 3), Runs s c {} [.src .m a.toNat x.toNat, .dst .g d.toNat] →
      Completes (.mpop d a x) s c [(.g, d.toNat)] ∧ Completes (.mfirst d a x) s c [(.g, d.toNat)])

/-- The bank operations of R302 and R303 complete by sending their contributions, where R301 lets their address through. -/
def BankSendsComplete : Prop :=
  ∀ (s : State) (c : Ctx) (a b : BitVec 5) (x y : BitVec 3) (u : BitVec 1) (i : BitVec 3) (e : BitVec 4) (key : Nat),
    let ea := s.readG c a.toNat x.toNat
    let v := s.readG c b.toNat y.toNat
    let sends (f : Instr) (op : BOp) : Prop := exec f s = .next ((posted s c ea.toNat key op v).advance c none true)
    (Runs s c {} [.src .g a.toNat x.toNat, .src .g b.toNat y.toNat] →
      (s.cellReach c ea.toNat 8 8 false = .hit key →
        sends (.badd a x b y) .add ∧ sends (.band a x b y) .and ∧ sends (.bor a x b y) .or ∧ sends (.bxor a x b y) .xor ∧
        sends (.bmin u a x b y) (.min (u == 1)) ∧ sends (.bmax u a x b y) (.max (u == 1)) ∧
        sends (.bminf a x b y) .minf ∧ sends (.bmaxf a x b y) .maxf) ∧
      (s.cellReach c ea.toNat 64 64 false = .hit key →
        sends (.bfxa u a x b y) (.fxa (u == 1)) ∧ sends (.bdef i u a x b y) (.define (u == 1) i.toNat (v.toNat % 2 ^ 32)))) ∧
    (Runs s c {} [.src .g a.toNat x.toNat, .src .w b.toNat y.toNat] → s.cellReach c ea.toNat 64 1024 false = .hit key →
      ∃ t, exec (.bvsa e a x b y) s = .next t ∧ t.mem = s.mem ∧ t.bankOps.length = s.bankOps.length + 16)

/-- The crane multiply of pair index n completes: with the grant, its checks passed and room in the queue, its command is queued (R340). -/
def MultiplyQueues (form : BitVec 5 → BitVec 4 → BitVec 5 → BitVec 3 → Instr) (n : Nat) : Prop :=
  ∀ (s : State) (c : Ctx) (a h : BitVec 5) (f : BitVec 4) (z : BitVec 3) (cols depth need : Nat),
    Runs s c { hnd := false } [.tile z.toNat, .src .g a.toNat 0, .src .f (2 * f.toNat) 0, .src .f (2 * f.toNat + 1) 0] →
    (s.slip c.b c.i).tiles.testBit z.toNat = true → (s.berth c.b).crane.queue.length < 16 →
    let d := (s.readG c a.toNat 0).toNat
    let off := d % 2 ^ 19
    let m := d / 2 ^ 20 % 2 ^ 6 + 1
    let stride := 32 * (d / 2 ^ 32 % 2 ^ 8)
    d / 2 ^ 40 = 0 → d / 2 ^ 26 % 2 ^ 6 = 0 → d.testBit 19 = false → shapeOf n h.toNat = some (cols, depth, need) →
    s.mmaFault c n z.toNat h.toNat cols depth need off stride m (s.readF c (2 * f.toNat) 0) (s.readF c (2 * f.toNat + 1) 0) = none →
    ∃ t, exec (form a f h z) s = .next t ∧ t.mem = s.mem ∧ (t.berth c.b).crane.seq = ((s.berth c.b).crane.seq + 1) % 2 ^ 32 ∧
      (t.berth c.b).crane.queue.map (fun e => e.op) = (s.berth c.b).crane.queue.map (fun e => e.op) ++ [.mma z.toNat n off stride m cols depth]

/-- The multiplies of R342, each with its pair index. -/
def MultipliesComplete : Prop :=
  MultiplyQueues .cmmaBf 0 ∧ MultiplyQueues .cmmaHf 1 ∧ MultiplyQueues .cmmaI8 2 ∧ MultiplyQueues .cmmaE4e4 3 ∧ MultiplyQueues .cmmaE4e5 4 ∧
  MultiplyQueues .cmmaE5e4 5 ∧ MultiplyQueues .cmmaE5e5 6 ∧ MultiplyQueues .cmmaF6a 7 ∧ MultiplyQueues .cmmaF6b 8 ∧ MultiplyQueues .cmmaF6ab 9 ∧
  MultiplyQueues .cmmaMxf4 10 ∧ MultiplyQueues .cmmaKf4 11 ∧ MultiplyQueues .cmmaE4kf4 12 ∧ MultiplyQueues .cmmaMxi8 13

/-- The quasi-random instructions of R411 to R413 and the flushes of R285 and R287 complete. -/
def UnitsComplete : Prop :=
  ∀ (s : State) (c : Ctx) (d a b : BitVec 5) (x y : BitVec 3),
    let ga := s.readG c a.toNat x.toNat
    let gb := s.readG c b.toNat y.toNat
    let two (to_ : List Use) : Prop := Runs s c { hnd := false } ([.src .g a.toNat x.toNat, .src .g b.toNat y.toNat] ++ to_)
    (two [.dst .g d.toNat] → Completes (.qri d a x b y) s c [(.g, d.toNat)]) ∧
    (two [.dst .f d.toNat] → Completes (.qrf d a x b y) s c [(.f, d.toNat)]) ∧
    (two [.dst .w d.toNat] → Completes (.qrvI d a x b y) s c [(.w, d.toNat)] ∧ Completes (.qrvD d a x b y) s c [(.w, d.toNat)]) ∧
    (two [] → CompletesKeepingMemory (.qrseed a x b y) s ∧
      (s.qrldFault c (encode (.qrld a x b y)) ga gb = none → s.poison = [] → CompletesKeepingMemory (.qrld a x b y) s)) ∧
    (Runs s c { priv := true, hnd := false } [.src .g a.toNat x.toNat] → ga.toNat < 2 ^ 16 → CompletesKeepingMemory (.flushas a x) s) ∧
    (Runs s c { priv := true, hnd := false } [] → (s.slip c.b c.i).drains = [] → CompletesKeepingMemory .drain s)

/-- Copies, the crane's own turns, page service and the writes of the registers complete with what each of them does. -/
def TurnsComplete : Prop :=
  (∀ (s : State) (b n v : Nat),
    (∀ k, s.copies.findIdx? (fun k => k.berth == b && k.stage == .queued) = some n → s.copies[n]? = some k → k.reason = 0 →
      ∃ t, exec (.copyStart b) s = .next t ∧ t.copies[n]? = some { k with stage := .active }) ∧
    (∀ k, s.copies[n]? = some k → k.stage = .active → k.buf = none → k.reason = 0 → k.total ≤ k.pos → k.sync = 0xFFFF → k.lines = [] →
      ∃ t, exec (.copyComplete n) s = .next t ∧ t.copies = s.copies.take n ++ s.copies.drop (n + 1)) ∧
    (∀ x, s.notices[n]? = some x → ∃ t, exec (.pageService n) s = .next t ∧ t.notices[n]? = some { x with started := true }) ∧
    (∀ x entry, s.notices[n]? = some x → x.started = true →
      ∃ t, exec (.pageServiceComplete n entry 0) s = .next t ∧ t.notices = s.notices.take n ++ s.notices.drop (n + 1)) ∧
    (∀ cmd, (s.berth b).crane.running = some cmd → ∃ t, exec (.craneCommand b) s = .next t ∧ (t.berth b).crane.running = none) ∧
    (∀ cmd rest starts, (s.berth b).crane.queue = cmd :: rest → (∀ x, x / 8 = b / 8 → (s.berth x).crane.running = none) →
      s.cranePick b = some (b, starts) → ∃ t, exec (.craneDispatch b) s = .next t ∧ (t.berth b).crane.running = some cmd) ∧
    (∃ t, exec (.tcmpWrite b v) s = .next t ∧ (t.berth b).tcmp = BitVec.ofNat 64 v) ∧
    (∃ t, exec (.ipendWrite b v) s = .next t ∧ (t.berth b).ipMsg = ((s.berth b).ipMsg && !v.testBit 1)) ∧
    (∃ t, exec (.serrlogWrite b v) s = .next t ∧ (t.berth b).serrlog.getLsbD 63 = ((s.berth b).serrlog.getLsbD 63 && !v.testBit 63)) ∧
    (∀ i, (s.berth s.cur).running = some i →
      (∃ t, exec (.qrctlWrite v) s = .next t ∧ (t.slip s.cur i).qr.ctl = BitVec.ofNat 64 v &&& 0xFFFF0001) ∧
      (v % 64 ≠ 0 → ∃ t, exec (.fdstopWrite v) s = .next t ∧ t.stops.length = s.stops.length + 1))) ∧
  (∀ (s : State) (pk k v : Nat),
    (∃ t, exec (.kverrWrite pk k v) s = .next t ∧
      SMap.get 0 (t.pkg pk).kverr k = SMap.get 0 (s.pkg pk).kverr k &&& ~~~(BitVec.ofNat 64 v &&& 0xC000000000000000)) ∧
    (v.testBit 0 = true → ∃ t, exec (.plstatClr pk k v) s = .next t ∧ (SMap.get {} (t.pkg pk).ports k : Port).replays = 0) ∧
    (v.testBit 0 = true → ∃ t, exec (.cbstatWrite pk v) s = .next t ∧ (t.pkg pk).tko = false) ∧
    (k < 4 → v < 2 ^ 64 → ∃ t, exec (.dbpendWrite pk k v) s = .next t ∧
      (t.pkg pk).dbpend = (s.pkg pk).dbpend ^^^ ((s.pkg pk).dbpend &&& v * 2 ^ (64 * k))) ∧
    ((s.pkg pk).jposted < (s.pkg pk).jheld → Roomy (s.pkg pk) → ∃ t, exec (.evpush pk (s.pkg pk).jposted) s = .next t ∧
      (t.pkg pk).jposted = (s.pkg pk).jposted + 1) ∧
    (∀ page dest m, (s.pkg pk).migrations.find? (fun m => m.page == page) = some m →
      (∀ o ∈ s.bankOps, o.early = false) → (∀ e ∈ s.berths, ∀ q ∈ e.2.slips, q.2.brd = none) → m.copied < 1024 → ∃ t, exec (.migration pk page dest) s = .next t ∧
        (t.pkg pk).migrations.find? (fun m => m.page == page) = some { m with copied := m.copied + 1 }) ∧
    (∀ n c t, s.ctx = some c → s.csrWrite c n (BitVec.ofNat 64 v) = .inl t → s.pcqWait c n = none →
      exec (.registerWrite pk (0x10000 + n) v) s = .next t))

end Sys2Proof.Claims

/-- R138, R139, R141 to R143, R190, R191, R285, R287 to R292, R302, R303, R326 to R333, R340 to R342, R364, R396, R404, R411 to R413, R420, R440, R447 to
R449, R458: each form of these families, named one by one, completes wherever no check of its own and none of R62 stops it. What the results are is
stated family by family in the statements above. The numbering of REGISTER_WRITE (log 70), and that a write that an event
makes is not checked for ones in reserved fields (log 80), are the model's. -/
def Obligations.FormsCompleteByName : Prop :=
  ConversionsComplete ∧ MasksComplete ∧ BankSendsComplete ∧ MultipliesComplete ∧ UnitsComplete ∧ TurnsComplete

/-! ### Statements of several parts -/

/-- R6, R60, R96, R119, R130, R145, R146, R269, R276, R295: where every scalar and vector load and store, the strided and indexed ones too, traps or is held, on the LOCAL, GLOBAL and SYSTEM paths and on none, with its cause and TVAL, and what one at a device register does. The value of a load where the spec lists no register is the model's choice (log 27). -/
def Obligations.AccessFaults : Prop :=
  Sys2Proof.Claims.accessFaults ∧ Sys2Proof.Claims.deviceAccesses ∧ Sys2Proof.Claims.elementFaults

/-- R45, R60, R102: the immediate forms, and the compact arithmetic forms as their expansions. -/
def Obligations.AluImmediates : Prop :=
  Sys2Proof.Claims.aluImmediates ∧ Sys2Proof.Claims.compactArithmetic

/-- R68, R98, R100: the saturating sum and difference, and the operations on one register. -/
def Obligations.AluOneRegisterAndSaturating : Prop :=
  Sys2Proof.Claims.aluSaturating ∧ Sys2Proof.Claims.aluOneRegister

/-- R60, R109 to R112, R115, R166, R227: BR and every jump, compact forms too, complete where they may stand, and each traps where it may not. The readings of logs 14 and 15 are the model's, and a link that no slot's length determines is a free value (log 16). -/
def Obligations.BranchesAndJumps : Prop :=
  Sys2Proof.Claims.branchesAndJumps ∧ Sys2Proof.Claims.branchFaults

/-- R150, R153, R155, R166, R167, R495: the loop instructions enter a level; LEAVE and LEAVEQ begin its exit. The readings of logs 7 and 14 are the model's. -/
def Obligations.LoopsEnterAndLeave : Prop :=
  Sys2Proof.Claims.loopsEnter ∧ Sys2Proof.Claims.leaveExits

/-- R81, R82, R127 to R129: scalar arithmetic, compares and conversions of FP32 registers. -/
def Obligations.ScalarFloat : Prop :=
  Sys2Proof.Claims.scalarFloatArithmetic ∧ Sys2Proof.Claims.scalarFloatConversions

/-- R13, R62, R161, R226: what an instruction may name where it stands, and the registers that stay constant. -/
def Obligations.ContextChecksAndConstants : Prop :=
  Sys2Proof.Claims.contextChecks ∧ Sys2Proof.Claims.constantRegisters

/-- R36, R249, R266, R267, R307, R310, R318, R455: what a notice, CHST data and an ARRIVE do as they arrive. CHST data for a bank that is not held raises cause 12 at its producer, late (log 101), and an arrival at a sync word that cannot be read rolls the domain back (log 115): both are the model's choices. -/
def Obligations.NoticesAndArrivalsCount : Prop :=
  Sys2Proof.Claims.channelArrivals ∧ Sys2Proof.Claims.arrivalsCount

/-- R90, R273, R301 to R305: the operations on a cell, its definition and its read. The waits of logs 53 and 87 are the model's. -/
def Obligations.BankOperationsAndCellReads : Prop :=
  Sys2Proof.Claims.bankOperationsIssue ∧ Sys2Proof.Claims.cellReads

/-- R285 to R294: FLUSHAS, DRAIN, page service and migration. The readings of logs 5, 35, 52 and 53 are the model's. -/
def Obligations.FlushesAndPages : Prop :=
  Sys2Proof.Claims.flushAndDrain ∧ Sys2Proof.Claims.pagesServedAndMoved

/-- R396, R447 to R449, R458: the control berth's registers and their writes. The numbering of REGISTER_WRITE (log 70), that the events' writes of CBSTAT, PLSTAT and KVERR make no check of reserved fields (log 80), and the readings of logs 88 and 89 are the model's. -/
def Obligations.ControlPlane : Prop := Sys2Proof.Claims.controlPlane
end

