-- ==== Sys2Proof/Laws/Maps.lean ====
section
/-! SUPPORT. Laws of sparse maps: what a key reads after a change, and the canonical form. -/
namespace Sys2Proof.SMap

variable {α : Type}

theorem get_erase_self (d : α) (m : SMap α) (k : Nat) : get d (erase m k) k = d := by
  induction m with
  | nil => rfl
  | cons e t ih =>
    obtain ⟨k', v⟩ := e
    by_cases h : k' = k <;> simp [erase, get, h, ih]

theorem get_erase_of_ne (d : α) (m : SMap α) {k j : Nat} (h : j ≠ k) : get d (erase m k) j = get d m j := by
  induction m with
  | nil => rfl
  | cons e t ih =>
    obtain ⟨k', v⟩ := e
    by_cases hk : k' = k
    · subst hk; simp [erase, get, ih, Ne.symm h]
    · by_cases hj : k' = j
      · subst hj; simp [erase, get, hk]
      · simp [erase, get, hk, hj, ih]

theorem get_insert_self (d : α) (m : SMap α) (k : Nat) (v : α) (h : ∀ x, get x m k = x) : get d (insert m k v) k = v := by
  induction m with
  | nil => simp [insert, get]
  | cons e t ih =>
    obtain ⟨k', v'⟩ := e
    by_cases hk : k' = k
    · subst hk
      have h1 := h v'
      by_cases hlt : k' < k'
      · omega
      · simp only [insert, hlt, if_false, get, if_true]
        -- the key is listed although every default is answered: impossible with two values
        have h2 := h v
        simpa [get] using h2
    · by_cases hlt : k < k'
      · simp [insert, get, hlt]
      · simp only [insert, hlt, if_false, get, hk]
        exact ih (fun x => by simpa [get, hk] using h x)

theorem get_insert_of_ne (d : α) (m : SMap α) {k j : Nat} (v : α) (h : j ≠ k) : get d (insert m k v) j = get d m j := by
  induction m with
  | nil => simp [insert, get, Ne.symm h]
  | cons e t ih =>
    obtain ⟨k', v'⟩ := e
    by_cases hlt : k < k'
    · simp [insert, get, hlt, Ne.symm h]
    · by_cases hj : k' = j
      · subst hj; simp [insert, get, hlt]
      · simp [insert, get, hlt, hj, ih]

/-- A key that was put reads as the value put there. -/
@[simp] theorem get_put_self (d : α) (m : SMap α) (k : Nat) (v : α) : get d (put m k v) k = v :=
  get_insert_self d _ k v (fun x => get_erase_self x m k)

/-- Another key reads as before. -/
@[simp] theorem get_put_of_ne (d : α) (m : SMap α) {k j : Nat} (v : α) (h : j ≠ k) : get d (put m k v) j = get d m j := by
  rw [put, get_insert_of_ne d _ v h, get_erase_of_ne d m h]

theorem get_put (d : α) (m : SMap α) (k j : Nat) (v : α) : get d (put m k v) j = if j = k then v else get d m j := by
  by_cases h : j = k <;> simp [h]

/-- What a key reads after a key was set. -/
theorem get_set [DecidableEq α] (d : α) (m : SMap α) (k j : Nat) (v : α) :
    get d (set d m k v) j = if j = k then v else get d m j := by
  unfold set
  by_cases hv : v = d
  · by_cases h : j = k
    · subst h; simp [hv, get_erase_self]
    · simp [hv, h, get_erase_of_ne d m h]
  · rw [if_neg hv]; exact get_put d m k j v

/-! ### The canonical form -/

theorem wfFrom_mono [DecidableEq α] (d : α) (m : SMap α) {lo lo' : Nat} (h : lo' ≤ lo) (hm : wfFrom d lo m = true) :
    wfFrom d lo' m = true := by
  cases m with
  | nil => rfl
  | cons e t =>
    obtain ⟨k, v⟩ := e
    simp only [wfFrom, Bool.and_eq_true, decide_eq_true_eq] at hm ⊢
    exact ⟨⟨by omega, hm.1.2⟩, hm.2⟩

theorem wfFrom_erase [DecidableEq α] (d : α) (k : Nat) : ∀ (m : SMap α) (lo : Nat), wfFrom d lo m = true → wfFrom d lo (erase m k) = true
  | [], _, _ => rfl
  | (k', v) :: t, lo, h => by
    simp only [wfFrom, Bool.and_eq_true, decide_eq_true_eq] at h
    have ih := wfFrom_erase d k t (k' + 1) h.2
    by_cases hk : k' = k
    · simp only [erase, hk, if_true]; subst hk
      exact wfFrom_mono d _ (by omega) ih
    · simp only [erase, hk, if_false, wfFrom, Bool.and_eq_true, decide_eq_true_eq]
      exact ⟨h.1, ih⟩

theorem erase_absent (k : Nat) : ∀ (m : SMap α), ∀ v, (k, v) ∉ erase m k
  | [], _ => by simp [erase]
  | (k', v') :: t, v => by
    by_cases hk : k' = k
    · simpa [erase, hk] using erase_absent k t v
    · simp only [erase, hk, if_false, List.mem_cons, not_or]
      exact ⟨fun h => hk (by simpa using (congrArg Prod.fst h).symm), erase_absent k t v⟩

theorem wfFrom_insert [DecidableEq α] (d : α) (k : Nat) (v : α) (hv : v ≠ d) : ∀ (m : SMap α) (lo : Nat), lo ≤ k →
    (∀ x, (k, x) ∉ m) → wfFrom d lo m = true → wfFrom d lo (insert m k v) = true
  | [], lo, hlo, _, _ => by simp [insert, wfFrom, hlo, hv]
  | (k', v') :: t, lo, hlo, habs, h => by
    simp only [wfFrom, Bool.and_eq_true, decide_eq_true_eq] at h
    have hne : k ≠ k' := fun e => habs v' (by simp [e])
    by_cases hlt : k < k'
    · simp only [insert, hlt, if_true, wfFrom, Bool.and_eq_true, decide_eq_true_eq]
      exact ⟨⟨hlo, hv⟩, ⟨⟨by omega, h.1.2⟩, h.2⟩⟩
    · simp only [insert, hlt, if_false, wfFrom, Bool.and_eq_true, decide_eq_true_eq]
      exact ⟨h.1, wfFrom_insert d k v hv t (k' + 1) (by omega) (fun x hx => habs x (List.mem_cons_of_mem _ hx)) h.2⟩

/-- Setting a key keeps the canonical form. -/
theorem wf_set [DecidableEq α] (d : α) (m : SMap α) (k : Nat) (v : α) (h : wf d m = true) : wf d (set d m k v) = true := by
  unfold wf set at *
  by_cases hv : v = d
  · simpa [hv] using wfFrom_erase d k m 0 h
  · simpa [hv] using wfFrom_insert d k v hv _ 0 (Nat.zero_le _) (erase_absent k m) (wfFrom_erase d k m 0 h)

/-- Taking entries out keeps the canonical form. -/
theorem wfFrom_filter [DecidableEq α] (d : α) (p : Nat × α → Bool) : ∀ (m : SMap α) (lo : Nat), wfFrom d lo m = true →
    wfFrom d lo (m.filter p) = true
  | [], _, _ => rfl
  | (k, v) :: t, lo, h => by
    simp only [wfFrom, Bool.and_eq_true, decide_eq_true_eq] at h
    have ih := wfFrom_filter d p t (k + 1) h.2
    by_cases hp : p (k, v) = true
    · simp only [List.filter_cons_of_pos hp, wfFrom, Bool.and_eq_true, decide_eq_true_eq]
      exact ⟨h.1, ih⟩
    · rw [List.filter_cons_of_neg hp]
      exact wfFrom_mono d _ (by omega) ih

theorem wf_filter [DecidableEq α] (d : α) (p : Nat × α → Bool) (m : SMap α) (h : wf d m = true) : wf d (m.filter p) = true :=
  wfFrom_filter d p m 0 h

end Sys2Proof.SMap
end

