-- ==== Sys2Proof/Laws/State.lean ====
section
/-! SUPPORT. Laws of the state: one lemma for each field under each named update, and what a berth and a slip read after one. -/
namespace Sys2Proof.Machine
open Sys2Proof

/-! setBerth -/

@[simp] theorem State.setBerth_cur (s : State) (b : Nat) (x : Berth) : (s.setBerth b x).cur = s.cur := rfl
@[simp] theorem State.setBerth_agenda (s : State) (b : Nat) (x : Berth) : (s.setBerth b x).agenda = s.agenda := rfl
@[simp] theorem State.setBerth_tick (s : State) (b : Nat) (x : Berth) : (s.setBerth b x).tick = s.tick := rfl
@[simp] theorem State.setBerth_fresh (s : State) (b : Nat) (x : Berth) : (s.setBerth b x).fresh = s.fresh := rfl
@[simp] theorem State.setBerth_domain (s : State) (b : Nat) (x : Berth) : (s.setBerth b x).domain = s.domain := rfl
@[simp] theorem State.setBerth_cables (s : State) (b : Nat) (x : Berth) : (s.setBerth b x).cables = s.cables := rfl
@[simp] theorem State.setBerth_mem (s : State) (b : Nat) (x : Berth) : (s.setBerth b x).mem = s.mem := rfl
@[simp] theorem State.setBerth_poison (s : State) (b : Nat) (x : Berth) : (s.setBerth b x).poison = s.poison := rfl
@[simp] theorem State.setBerth_sleptBad (s : State) (b : Nat) (x : Berth) : (s.setBerth b x).sleptBad = s.sleptBad := rfl
@[simp] theorem State.setBerth_broken (s : State) (b : Nat) (x : Berth) : (s.setBerth b x).broken = s.broken := rfl
@[simp] theorem State.setBerth_syncs (s : State) (b : Nat) (x : Berth) : (s.setBerth b x).syncs = s.syncs := rfl
@[simp] theorem State.setBerth_grans (s : State) (b : Nat) (x : Berth) : (s.setBerth b x).grans = s.grans := rfl
@[simp] theorem State.setBerth_cells (s : State) (b : Nat) (x : Berth) : (s.setBerth b x).cells = s.cells := rfl
@[simp] theorem State.setBerth_net (s : State) (b : Nat) (x : Berth) : (s.setBerth b x).net = s.net := rfl
@[simp] theorem State.setBerth_heldArrivals (s : State) (b : Nat) (x : Berth) : (s.setBerth b x).heldArrivals = s.heldArrivals := rfl
@[simp] theorem State.setBerth_bankOps (s : State) (b : Nat) (x : Berth) : (s.setBerth b x).bankOps = s.bankOps := rfl
@[simp] theorem State.setBerth_copies (s : State) (b : Nat) (x : Berth) : (s.setBerth b x).copies = s.copies := rfl
@[simp] theorem State.setBerth_notices (s : State) (b : Nat) (x : Berth) : (s.setBerth b x).notices = s.notices := rfl
@[simp] theorem State.setBerth_cxl (s : State) (b : Nat) (x : Berth) : (s.setBerth b x).cxl = s.cxl := rfl
@[simp] theorem State.setBerth_doms (s : State) (b : Nat) (x : Berth) : (s.setBerth b x).doms = s.doms := rfl
@[simp] theorem State.setBerth_stops (s : State) (b : Nat) (x : Berth) : (s.setBerth b x).stops = s.stops := rfl
@[simp] theorem State.setBerth_rollbacks (s : State) (b : Nat) (x : Berth) : (s.setBerth b x).rollbacks = s.rollbacks := rfl
@[simp] theorem State.setBerth_takeovers (s : State) (b : Nat) (x : Berth) : (s.setBerth b x).takeovers = s.takeovers := rfl
@[simp] theorem State.setBerth_pkgs (s : State) (b : Nat) (x : Berth) : (s.setBerth b x).pkgs = s.pkgs := rfl
@[simp] theorem State.setBerth_arbiters (s : State) (b : Nat) (x : Berth) : (s.setBerth b x).arbiters = s.arbiters := rfl
@[simp] theorem State.setBerth_tlb2 (s : State) (b : Nat) (x : Berth) : (s.setBerth b x).tlb2 = s.tlb2 := rfl
@[simp] theorem State.setBerth_scaleId (s : State) (b : Nat) (x : Berth) : (s.setBerth b x).scaleId = s.scaleId := rfl
@[simp] theorem State.setBerth_wire (s : State) (b : Nat) (x : Berth) : (s.setBerth b x).wire = s.wire := rfl
@[simp] theorem State.setBerth_kv (s : State) (b : Nat) (x : Berth) : (s.setBerth b x).kv = s.kv := rfl
@[simp] theorem State.setBerth_kvCmds (s : State) (b : Nat) (x : Berth) : (s.setBerth b x).kvCmds = s.kvCmds := rfl
@[simp] theorem State.setBerth_kvRefused (s : State) (b : Nat) (x : Berth) : (s.setBerth b x).kvRefused = s.kvRefused := rfl
@[simp] theorem State.setBerth_triples (s : State) (b : Nat) (x : Berth) : (s.setBerth b x).triples = s.triples := rfl
@[simp] theorem State.setBerth_marks (s : State) (b : Nat) (x : Berth) : (s.setBerth b x).marks = s.marks := rfl

/-! modBerth -/

@[simp] theorem State.modBerth_cur (s : State) (b : Nat) (f : Berth → Berth) : (s.modBerth b f).cur = s.cur := rfl
@[simp] theorem State.modBerth_agenda (s : State) (b : Nat) (f : Berth → Berth) : (s.modBerth b f).agenda = s.agenda := rfl
@[simp] theorem State.modBerth_tick (s : State) (b : Nat) (f : Berth → Berth) : (s.modBerth b f).tick = s.tick := rfl
@[simp] theorem State.modBerth_fresh (s : State) (b : Nat) (f : Berth → Berth) : (s.modBerth b f).fresh = s.fresh := rfl
@[simp] theorem State.modBerth_domain (s : State) (b : Nat) (f : Berth → Berth) : (s.modBerth b f).domain = s.domain := rfl
@[simp] theorem State.modBerth_cables (s : State) (b : Nat) (f : Berth → Berth) : (s.modBerth b f).cables = s.cables := rfl
@[simp] theorem State.modBerth_mem (s : State) (b : Nat) (f : Berth → Berth) : (s.modBerth b f).mem = s.mem := rfl
@[simp] theorem State.modBerth_poison (s : State) (b : Nat) (f : Berth → Berth) : (s.modBerth b f).poison = s.poison := rfl
@[simp] theorem State.modBerth_sleptBad (s : State) (b : Nat) (f : Berth → Berth) : (s.modBerth b f).sleptBad = s.sleptBad := rfl
@[simp] theorem State.modBerth_broken (s : State) (b : Nat) (f : Berth → Berth) : (s.modBerth b f).broken = s.broken := rfl
@[simp] theorem State.modBerth_syncs (s : State) (b : Nat) (f : Berth → Berth) : (s.modBerth b f).syncs = s.syncs := rfl
@[simp] theorem State.modBerth_grans (s : State) (b : Nat) (f : Berth → Berth) : (s.modBerth b f).grans = s.grans := rfl
@[simp] theorem State.modBerth_cells (s : State) (b : Nat) (f : Berth → Berth) : (s.modBerth b f).cells = s.cells := rfl
@[simp] theorem State.modBerth_net (s : State) (b : Nat) (f : Berth → Berth) : (s.modBerth b f).net = s.net := rfl
@[simp] theorem State.modBerth_heldArrivals (s : State) (b : Nat) (f : Berth → Berth) : (s.modBerth b f).heldArrivals = s.heldArrivals := rfl
@[simp] theorem State.modBerth_bankOps (s : State) (b : Nat) (f : Berth → Berth) : (s.modBerth b f).bankOps = s.bankOps := rfl
@[simp] theorem State.modBerth_copies (s : State) (b : Nat) (f : Berth → Berth) : (s.modBerth b f).copies = s.copies := rfl
@[simp] theorem State.modBerth_notices (s : State) (b : Nat) (f : Berth → Berth) : (s.modBerth b f).notices = s.notices := rfl
@[simp] theorem State.modBerth_cxl (s : State) (b : Nat) (f : Berth → Berth) : (s.modBerth b f).cxl = s.cxl := rfl
@[simp] theorem State.modBerth_doms (s : State) (b : Nat) (f : Berth → Berth) : (s.modBerth b f).doms = s.doms := rfl
@[simp] theorem State.modBerth_stops (s : State) (b : Nat) (f : Berth → Berth) : (s.modBerth b f).stops = s.stops := rfl
@[simp] theorem State.modBerth_rollbacks (s : State) (b : Nat) (f : Berth → Berth) : (s.modBerth b f).rollbacks = s.rollbacks := rfl
@[simp] theorem State.modBerth_takeovers (s : State) (b : Nat) (f : Berth → Berth) : (s.modBerth b f).takeovers = s.takeovers := rfl
@[simp] theorem State.modBerth_pkgs (s : State) (b : Nat) (f : Berth → Berth) : (s.modBerth b f).pkgs = s.pkgs := rfl
@[simp] theorem State.modBerth_arbiters (s : State) (b : Nat) (f : Berth → Berth) : (s.modBerth b f).arbiters = s.arbiters := rfl
@[simp] theorem State.modBerth_tlb2 (s : State) (b : Nat) (f : Berth → Berth) : (s.modBerth b f).tlb2 = s.tlb2 := rfl
@[simp] theorem State.modBerth_scaleId (s : State) (b : Nat) (f : Berth → Berth) : (s.modBerth b f).scaleId = s.scaleId := rfl
@[simp] theorem State.modBerth_wire (s : State) (b : Nat) (f : Berth → Berth) : (s.modBerth b f).wire = s.wire := rfl
@[simp] theorem State.modBerth_kv (s : State) (b : Nat) (f : Berth → Berth) : (s.modBerth b f).kv = s.kv := rfl
@[simp] theorem State.modBerth_kvCmds (s : State) (b : Nat) (f : Berth → Berth) : (s.modBerth b f).kvCmds = s.kvCmds := rfl
@[simp] theorem State.modBerth_kvRefused (s : State) (b : Nat) (f : Berth → Berth) : (s.modBerth b f).kvRefused = s.kvRefused := rfl
@[simp] theorem State.modBerth_triples (s : State) (b : Nat) (f : Berth → Berth) : (s.modBerth b f).triples = s.triples := rfl
@[simp] theorem State.modBerth_marks (s : State) (b : Nat) (f : Berth → Berth) : (s.modBerth b f).marks = s.marks := rfl

/-! setSlip -/

@[simp] theorem State.setSlip_cur (s : State) (b i : Nat) (p : Slip) : (s.setSlip b i p).cur = s.cur := rfl
@[simp] theorem State.setSlip_agenda (s : State) (b i : Nat) (p : Slip) : (s.setSlip b i p).agenda = s.agenda := rfl
@[simp] theorem State.setSlip_tick (s : State) (b i : Nat) (p : Slip) : (s.setSlip b i p).tick = s.tick := rfl
@[simp] theorem State.setSlip_fresh (s : State) (b i : Nat) (p : Slip) : (s.setSlip b i p).fresh = s.fresh := rfl
@[simp] theorem State.setSlip_domain (s : State) (b i : Nat) (p : Slip) : (s.setSlip b i p).domain = s.domain := rfl
@[simp] theorem State.setSlip_cables (s : State) (b i : Nat) (p : Slip) : (s.setSlip b i p).cables = s.cables := rfl
@[simp] theorem State.setSlip_mem (s : State) (b i : Nat) (p : Slip) : (s.setSlip b i p).mem = s.mem := rfl
@[simp] theorem State.setSlip_poison (s : State) (b i : Nat) (p : Slip) : (s.setSlip b i p).poison = s.poison := rfl
@[simp] theorem State.setSlip_sleptBad (s : State) (b i : Nat) (p : Slip) : (s.setSlip b i p).sleptBad = s.sleptBad := rfl
@[simp] theorem State.setSlip_broken (s : State) (b i : Nat) (p : Slip) : (s.setSlip b i p).broken = s.broken := rfl
@[simp] theorem State.setSlip_syncs (s : State) (b i : Nat) (p : Slip) : (s.setSlip b i p).syncs = s.syncs := rfl
@[simp] theorem State.setSlip_grans (s : State) (b i : Nat) (p : Slip) : (s.setSlip b i p).grans = s.grans := rfl
@[simp] theorem State.setSlip_cells (s : State) (b i : Nat) (p : Slip) : (s.setSlip b i p).cells = s.cells := rfl
@[simp] theorem State.setSlip_net (s : State) (b i : Nat) (p : Slip) : (s.setSlip b i p).net = s.net := rfl
@[simp] theorem State.setSlip_heldArrivals (s : State) (b i : Nat) (p : Slip) : (s.setSlip b i p).heldArrivals = s.heldArrivals := rfl
@[simp] theorem State.setSlip_bankOps (s : State) (b i : Nat) (p : Slip) : (s.setSlip b i p).bankOps = s.bankOps := rfl
@[simp] theorem State.setSlip_copies (s : State) (b i : Nat) (p : Slip) : (s.setSlip b i p).copies = s.copies := rfl
@[simp] theorem State.setSlip_notices (s : State) (b i : Nat) (p : Slip) : (s.setSlip b i p).notices = s.notices := rfl
@[simp] theorem State.setSlip_cxl (s : State) (b i : Nat) (p : Slip) : (s.setSlip b i p).cxl = s.cxl := rfl
@[simp] theorem State.setSlip_doms (s : State) (b i : Nat) (p : Slip) : (s.setSlip b i p).doms = s.doms := rfl
@[simp] theorem State.setSlip_stops (s : State) (b i : Nat) (p : Slip) : (s.setSlip b i p).stops = s.stops := rfl
@[simp] theorem State.setSlip_rollbacks (s : State) (b i : Nat) (p : Slip) : (s.setSlip b i p).rollbacks = s.rollbacks := rfl
@[simp] theorem State.setSlip_takeovers (s : State) (b i : Nat) (p : Slip) : (s.setSlip b i p).takeovers = s.takeovers := rfl
@[simp] theorem State.setSlip_pkgs (s : State) (b i : Nat) (p : Slip) : (s.setSlip b i p).pkgs = s.pkgs := rfl
@[simp] theorem State.setSlip_arbiters (s : State) (b i : Nat) (p : Slip) : (s.setSlip b i p).arbiters = s.arbiters := rfl
@[simp] theorem State.setSlip_tlb2 (s : State) (b i : Nat) (p : Slip) : (s.setSlip b i p).tlb2 = s.tlb2 := rfl
@[simp] theorem State.setSlip_scaleId (s : State) (b i : Nat) (p : Slip) : (s.setSlip b i p).scaleId = s.scaleId := rfl
@[simp] theorem State.setSlip_wire (s : State) (b i : Nat) (p : Slip) : (s.setSlip b i p).wire = s.wire := rfl
@[simp] theorem State.setSlip_kv (s : State) (b i : Nat) (p : Slip) : (s.setSlip b i p).kv = s.kv := rfl
@[simp] theorem State.setSlip_kvCmds (s : State) (b i : Nat) (p : Slip) : (s.setSlip b i p).kvCmds = s.kvCmds := rfl
@[simp] theorem State.setSlip_kvRefused (s : State) (b i : Nat) (p : Slip) : (s.setSlip b i p).kvRefused = s.kvRefused := rfl
@[simp] theorem State.setSlip_triples (s : State) (b i : Nat) (p : Slip) : (s.setSlip b i p).triples = s.triples := rfl
@[simp] theorem State.setSlip_marks (s : State) (b i : Nat) (p : Slip) : (s.setSlip b i p).marks = s.marks := rfl

/-! modSlip -/

@[simp] theorem State.modSlip_cur (s : State) (b i : Nat) (f : Slip → Slip) : (s.modSlip b i f).cur = s.cur := rfl
@[simp] theorem State.modSlip_agenda (s : State) (b i : Nat) (f : Slip → Slip) : (s.modSlip b i f).agenda = s.agenda := rfl
@[simp] theorem State.modSlip_tick (s : State) (b i : Nat) (f : Slip → Slip) : (s.modSlip b i f).tick = s.tick := rfl
@[simp] theorem State.modSlip_fresh (s : State) (b i : Nat) (f : Slip → Slip) : (s.modSlip b i f).fresh = s.fresh := rfl
@[simp] theorem State.modSlip_domain (s : State) (b i : Nat) (f : Slip → Slip) : (s.modSlip b i f).domain = s.domain := rfl
@[simp] theorem State.modSlip_cables (s : State) (b i : Nat) (f : Slip → Slip) : (s.modSlip b i f).cables = s.cables := rfl
@[simp] theorem State.modSlip_mem (s : State) (b i : Nat) (f : Slip → Slip) : (s.modSlip b i f).mem = s.mem := rfl
@[simp] theorem State.modSlip_poison (s : State) (b i : Nat) (f : Slip → Slip) : (s.modSlip b i f).poison = s.poison := rfl
@[simp] theorem State.modSlip_sleptBad (s : State) (b i : Nat) (f : Slip → Slip) : (s.modSlip b i f).sleptBad = s.sleptBad := rfl
@[simp] theorem State.modSlip_broken (s : State) (b i : Nat) (f : Slip → Slip) : (s.modSlip b i f).broken = s.broken := rfl
@[simp] theorem State.modSlip_syncs (s : State) (b i : Nat) (f : Slip → Slip) : (s.modSlip b i f).syncs = s.syncs := rfl
@[simp] theorem State.modSlip_grans (s : State) (b i : Nat) (f : Slip → Slip) : (s.modSlip b i f).grans = s.grans := rfl
@[simp] theorem State.modSlip_cells (s : State) (b i : Nat) (f : Slip → Slip) : (s.modSlip b i f).cells = s.cells := rfl
@[simp] theorem State.modSlip_net (s : State) (b i : Nat) (f : Slip → Slip) : (s.modSlip b i f).net = s.net := rfl
@[simp] theorem State.modSlip_heldArrivals (s : State) (b i : Nat) (f : Slip → Slip) : (s.modSlip b i f).heldArrivals = s.heldArrivals := rfl
@[simp] theorem State.modSlip_bankOps (s : State) (b i : Nat) (f : Slip → Slip) : (s.modSlip b i f).bankOps = s.bankOps := rfl
@[simp] theorem State.modSlip_copies (s : State) (b i : Nat) (f : Slip → Slip) : (s.modSlip b i f).copies = s.copies := rfl
@[simp] theorem State.modSlip_notices (s : State) (b i : Nat) (f : Slip → Slip) : (s.modSlip b i f).notices = s.notices := rfl
@[simp] theorem State.modSlip_cxl (s : State) (b i : Nat) (f : Slip → Slip) : (s.modSlip b i f).cxl = s.cxl := rfl
@[simp] theorem State.modSlip_doms (s : State) (b i : Nat) (f : Slip → Slip) : (s.modSlip b i f).doms = s.doms := rfl
@[simp] theorem State.modSlip_stops (s : State) (b i : Nat) (f : Slip → Slip) : (s.modSlip b i f).stops = s.stops := rfl
@[simp] theorem State.modSlip_rollbacks (s : State) (b i : Nat) (f : Slip → Slip) : (s.modSlip b i f).rollbacks = s.rollbacks := rfl
@[simp] theorem State.modSlip_takeovers (s : State) (b i : Nat) (f : Slip → Slip) : (s.modSlip b i f).takeovers = s.takeovers := rfl
@[simp] theorem State.modSlip_pkgs (s : State) (b i : Nat) (f : Slip → Slip) : (s.modSlip b i f).pkgs = s.pkgs := rfl
@[simp] theorem State.modSlip_arbiters (s : State) (b i : Nat) (f : Slip → Slip) : (s.modSlip b i f).arbiters = s.arbiters := rfl
@[simp] theorem State.modSlip_tlb2 (s : State) (b i : Nat) (f : Slip → Slip) : (s.modSlip b i f).tlb2 = s.tlb2 := rfl
@[simp] theorem State.modSlip_scaleId (s : State) (b i : Nat) (f : Slip → Slip) : (s.modSlip b i f).scaleId = s.scaleId := rfl
@[simp] theorem State.modSlip_wire (s : State) (b i : Nat) (f : Slip → Slip) : (s.modSlip b i f).wire = s.wire := rfl
@[simp] theorem State.modSlip_kv (s : State) (b i : Nat) (f : Slip → Slip) : (s.modSlip b i f).kv = s.kv := rfl
@[simp] theorem State.modSlip_kvCmds (s : State) (b i : Nat) (f : Slip → Slip) : (s.modSlip b i f).kvCmds = s.kvCmds := rfl
@[simp] theorem State.modSlip_kvRefused (s : State) (b i : Nat) (f : Slip → Slip) : (s.modSlip b i f).kvRefused = s.kvRefused := rfl
@[simp] theorem State.modSlip_triples (s : State) (b i : Nat) (f : Slip → Slip) : (s.modSlip b i f).triples = s.triples := rfl
@[simp] theorem State.modSlip_marks (s : State) (b i : Nat) (f : Slip → Slip) : (s.modSlip b i f).marks = s.marks := rfl

/-! modHandler -/

@[simp] theorem State.modHandler_cur (s : State) (b : Nat) (f : Handler → Handler) : (s.modHandler b f).cur = s.cur := rfl
@[simp] theorem State.modHandler_agenda (s : State) (b : Nat) (f : Handler → Handler) : (s.modHandler b f).agenda = s.agenda := rfl
@[simp] theorem State.modHandler_tick (s : State) (b : Nat) (f : Handler → Handler) : (s.modHandler b f).tick = s.tick := rfl
@[simp] theorem State.modHandler_fresh (s : State) (b : Nat) (f : Handler → Handler) : (s.modHandler b f).fresh = s.fresh := rfl
@[simp] theorem State.modHandler_domain (s : State) (b : Nat) (f : Handler → Handler) : (s.modHandler b f).domain = s.domain := rfl
@[simp] theorem State.modHandler_cables (s : State) (b : Nat) (f : Handler → Handler) : (s.modHandler b f).cables = s.cables := rfl
@[simp] theorem State.modHandler_mem (s : State) (b : Nat) (f : Handler → Handler) : (s.modHandler b f).mem = s.mem := rfl
@[simp] theorem State.modHandler_poison (s : State) (b : Nat) (f : Handler → Handler) : (s.modHandler b f).poison = s.poison := rfl
@[simp] theorem State.modHandler_sleptBad (s : State) (b : Nat) (f : Handler → Handler) : (s.modHandler b f).sleptBad = s.sleptBad := rfl
@[simp] theorem State.modHandler_broken (s : State) (b : Nat) (f : Handler → Handler) : (s.modHandler b f).broken = s.broken := rfl
@[simp] theorem State.modHandler_syncs (s : State) (b : Nat) (f : Handler → Handler) : (s.modHandler b f).syncs = s.syncs := rfl
@[simp] theorem State.modHandler_grans (s : State) (b : Nat) (f : Handler → Handler) : (s.modHandler b f).grans = s.grans := rfl
@[simp] theorem State.modHandler_cells (s : State) (b : Nat) (f : Handler → Handler) : (s.modHandler b f).cells = s.cells := rfl
@[simp] theorem State.modHandler_net (s : State) (b : Nat) (f : Handler → Handler) : (s.modHandler b f).net = s.net := rfl
@[simp] theorem State.modHandler_heldArrivals (s : State) (b : Nat) (f : Handler → Handler) : (s.modHandler b f).heldArrivals = s.heldArrivals := rfl
@[simp] theorem State.modHandler_bankOps (s : State) (b : Nat) (f : Handler → Handler) : (s.modHandler b f).bankOps = s.bankOps := rfl
@[simp] theorem State.modHandler_copies (s : State) (b : Nat) (f : Handler → Handler) : (s.modHandler b f).copies = s.copies := rfl
@[simp] theorem State.modHandler_notices (s : State) (b : Nat) (f : Handler → Handler) : (s.modHandler b f).notices = s.notices := rfl
@[simp] theorem State.modHandler_cxl (s : State) (b : Nat) (f : Handler → Handler) : (s.modHandler b f).cxl = s.cxl := rfl
@[simp] theorem State.modHandler_doms (s : State) (b : Nat) (f : Handler → Handler) : (s.modHandler b f).doms = s.doms := rfl
@[simp] theorem State.modHandler_stops (s : State) (b : Nat) (f : Handler → Handler) : (s.modHandler b f).stops = s.stops := rfl
@[simp] theorem State.modHandler_rollbacks (s : State) (b : Nat) (f : Handler → Handler) : (s.modHandler b f).rollbacks = s.rollbacks := rfl
@[simp] theorem State.modHandler_takeovers (s : State) (b : Nat) (f : Handler → Handler) : (s.modHandler b f).takeovers = s.takeovers := rfl
@[simp] theorem State.modHandler_pkgs (s : State) (b : Nat) (f : Handler → Handler) : (s.modHandler b f).pkgs = s.pkgs := rfl
@[simp] theorem State.modHandler_arbiters (s : State) (b : Nat) (f : Handler → Handler) : (s.modHandler b f).arbiters = s.arbiters := rfl
@[simp] theorem State.modHandler_tlb2 (s : State) (b : Nat) (f : Handler → Handler) : (s.modHandler b f).tlb2 = s.tlb2 := rfl
@[simp] theorem State.modHandler_scaleId (s : State) (b : Nat) (f : Handler → Handler) : (s.modHandler b f).scaleId = s.scaleId := rfl
@[simp] theorem State.modHandler_wire (s : State) (b : Nat) (f : Handler → Handler) : (s.modHandler b f).wire = s.wire := rfl
@[simp] theorem State.modHandler_kv (s : State) (b : Nat) (f : Handler → Handler) : (s.modHandler b f).kv = s.kv := rfl
@[simp] theorem State.modHandler_kvCmds (s : State) (b : Nat) (f : Handler → Handler) : (s.modHandler b f).kvCmds = s.kvCmds := rfl
@[simp] theorem State.modHandler_kvRefused (s : State) (b : Nat) (f : Handler → Handler) : (s.modHandler b f).kvRefused = s.kvRefused := rfl
@[simp] theorem State.modHandler_triples (s : State) (b : Nat) (f : Handler → Handler) : (s.modHandler b f).triples = s.triples := rfl
@[simp] theorem State.modHandler_marks (s : State) (b : Nat) (f : Handler → Handler) : (s.modHandler b f).marks = s.marks := rfl

/-! setPkg -/

@[simp] theorem State.setPkg_cur (s : State) (k : Nat) (x : Pkg) : (s.setPkg k x).cur = s.cur := rfl
@[simp] theorem State.setPkg_agenda (s : State) (k : Nat) (x : Pkg) : (s.setPkg k x).agenda = s.agenda := rfl
@[simp] theorem State.setPkg_tick (s : State) (k : Nat) (x : Pkg) : (s.setPkg k x).tick = s.tick := rfl
@[simp] theorem State.setPkg_fresh (s : State) (k : Nat) (x : Pkg) : (s.setPkg k x).fresh = s.fresh := rfl
@[simp] theorem State.setPkg_domain (s : State) (k : Nat) (x : Pkg) : (s.setPkg k x).domain = s.domain := rfl
@[simp] theorem State.setPkg_cables (s : State) (k : Nat) (x : Pkg) : (s.setPkg k x).cables = s.cables := rfl
@[simp] theorem State.setPkg_mem (s : State) (k : Nat) (x : Pkg) : (s.setPkg k x).mem = s.mem := rfl
@[simp] theorem State.setPkg_poison (s : State) (k : Nat) (x : Pkg) : (s.setPkg k x).poison = s.poison := rfl
@[simp] theorem State.setPkg_sleptBad (s : State) (k : Nat) (x : Pkg) : (s.setPkg k x).sleptBad = s.sleptBad := rfl
@[simp] theorem State.setPkg_broken (s : State) (k : Nat) (x : Pkg) : (s.setPkg k x).broken = s.broken := rfl
@[simp] theorem State.setPkg_berths (s : State) (k : Nat) (x : Pkg) : (s.setPkg k x).berths = s.berths := rfl
@[simp] theorem State.setPkg_syncs (s : State) (k : Nat) (x : Pkg) : (s.setPkg k x).syncs = s.syncs := rfl
@[simp] theorem State.setPkg_grans (s : State) (k : Nat) (x : Pkg) : (s.setPkg k x).grans = s.grans := rfl
@[simp] theorem State.setPkg_cells (s : State) (k : Nat) (x : Pkg) : (s.setPkg k x).cells = s.cells := rfl
@[simp] theorem State.setPkg_net (s : State) (k : Nat) (x : Pkg) : (s.setPkg k x).net = s.net := rfl
@[simp] theorem State.setPkg_heldArrivals (s : State) (k : Nat) (x : Pkg) : (s.setPkg k x).heldArrivals = s.heldArrivals := rfl
@[simp] theorem State.setPkg_bankOps (s : State) (k : Nat) (x : Pkg) : (s.setPkg k x).bankOps = s.bankOps := rfl
@[simp] theorem State.setPkg_copies (s : State) (k : Nat) (x : Pkg) : (s.setPkg k x).copies = s.copies := rfl
@[simp] theorem State.setPkg_notices (s : State) (k : Nat) (x : Pkg) : (s.setPkg k x).notices = s.notices := rfl
@[simp] theorem State.setPkg_cxl (s : State) (k : Nat) (x : Pkg) : (s.setPkg k x).cxl = s.cxl := rfl
@[simp] theorem State.setPkg_doms (s : State) (k : Nat) (x : Pkg) : (s.setPkg k x).doms = s.doms := rfl
@[simp] theorem State.setPkg_stops (s : State) (k : Nat) (x : Pkg) : (s.setPkg k x).stops = s.stops := rfl
@[simp] theorem State.setPkg_rollbacks (s : State) (k : Nat) (x : Pkg) : (s.setPkg k x).rollbacks = s.rollbacks := rfl
@[simp] theorem State.setPkg_takeovers (s : State) (k : Nat) (x : Pkg) : (s.setPkg k x).takeovers = s.takeovers := rfl
@[simp] theorem State.setPkg_arbiters (s : State) (k : Nat) (x : Pkg) : (s.setPkg k x).arbiters = s.arbiters := rfl
@[simp] theorem State.setPkg_tlb2 (s : State) (k : Nat) (x : Pkg) : (s.setPkg k x).tlb2 = s.tlb2 := rfl
@[simp] theorem State.setPkg_scaleId (s : State) (k : Nat) (x : Pkg) : (s.setPkg k x).scaleId = s.scaleId := rfl
@[simp] theorem State.setPkg_wire (s : State) (k : Nat) (x : Pkg) : (s.setPkg k x).wire = s.wire := rfl
@[simp] theorem State.setPkg_kv (s : State) (k : Nat) (x : Pkg) : (s.setPkg k x).kv = s.kv := rfl
@[simp] theorem State.setPkg_kvCmds (s : State) (k : Nat) (x : Pkg) : (s.setPkg k x).kvCmds = s.kvCmds := rfl
@[simp] theorem State.setPkg_kvRefused (s : State) (k : Nat) (x : Pkg) : (s.setPkg k x).kvRefused = s.kvRefused := rfl
@[simp] theorem State.setPkg_triples (s : State) (k : Nat) (x : Pkg) : (s.setPkg k x).triples = s.triples := rfl
@[simp] theorem State.setPkg_marks (s : State) (k : Nat) (x : Pkg) : (s.setPkg k x).marks = s.marks := rfl

/-! modPkg -/

@[simp] theorem State.modPkg_cur (s : State) (k : Nat) (f : Pkg → Pkg) : (s.modPkg k f).cur = s.cur := rfl
@[simp] theorem State.modPkg_agenda (s : State) (k : Nat) (f : Pkg → Pkg) : (s.modPkg k f).agenda = s.agenda := rfl
@[simp] theorem State.modPkg_tick (s : State) (k : Nat) (f : Pkg → Pkg) : (s.modPkg k f).tick = s.tick := rfl
@[simp] theorem State.modPkg_fresh (s : State) (k : Nat) (f : Pkg → Pkg) : (s.modPkg k f).fresh = s.fresh := rfl
@[simp] theorem State.modPkg_domain (s : State) (k : Nat) (f : Pkg → Pkg) : (s.modPkg k f).domain = s.domain := rfl
@[simp] theorem State.modPkg_cables (s : State) (k : Nat) (f : Pkg → Pkg) : (s.modPkg k f).cables = s.cables := rfl
@[simp] theorem State.modPkg_mem (s : State) (k : Nat) (f : Pkg → Pkg) : (s.modPkg k f).mem = s.mem := rfl
@[simp] theorem State.modPkg_poison (s : State) (k : Nat) (f : Pkg → Pkg) : (s.modPkg k f).poison = s.poison := rfl
@[simp] theorem State.modPkg_sleptBad (s : State) (k : Nat) (f : Pkg → Pkg) : (s.modPkg k f).sleptBad = s.sleptBad := rfl
@[simp] theorem State.modPkg_broken (s : State) (k : Nat) (f : Pkg → Pkg) : (s.modPkg k f).broken = s.broken := rfl
@[simp] theorem State.modPkg_berths (s : State) (k : Nat) (f : Pkg → Pkg) : (s.modPkg k f).berths = s.berths := rfl
@[simp] theorem State.modPkg_syncs (s : State) (k : Nat) (f : Pkg → Pkg) : (s.modPkg k f).syncs = s.syncs := rfl
@[simp] theorem State.modPkg_grans (s : State) (k : Nat) (f : Pkg → Pkg) : (s.modPkg k f).grans = s.grans := rfl
@[simp] theorem State.modPkg_cells (s : State) (k : Nat) (f : Pkg → Pkg) : (s.modPkg k f).cells = s.cells := rfl
@[simp] theorem State.modPkg_net (s : State) (k : Nat) (f : Pkg → Pkg) : (s.modPkg k f).net = s.net := rfl
@[simp] theorem State.modPkg_heldArrivals (s : State) (k : Nat) (f : Pkg → Pkg) : (s.modPkg k f).heldArrivals = s.heldArrivals := rfl
@[simp] theorem State.modPkg_bankOps (s : State) (k : Nat) (f : Pkg → Pkg) : (s.modPkg k f).bankOps = s.bankOps := rfl
@[simp] theorem State.modPkg_copies (s : State) (k : Nat) (f : Pkg → Pkg) : (s.modPkg k f).copies = s.copies := rfl
@[simp] theorem State.modPkg_notices (s : State) (k : Nat) (f : Pkg → Pkg) : (s.modPkg k f).notices = s.notices := rfl
@[simp] theorem State.modPkg_cxl (s : State) (k : Nat) (f : Pkg → Pkg) : (s.modPkg k f).cxl = s.cxl := rfl
@[simp] theorem State.modPkg_doms (s : State) (k : Nat) (f : Pkg → Pkg) : (s.modPkg k f).doms = s.doms := rfl
@[simp] theorem State.modPkg_stops (s : State) (k : Nat) (f : Pkg → Pkg) : (s.modPkg k f).stops = s.stops := rfl
@[simp] theorem State.modPkg_rollbacks (s : State) (k : Nat) (f : Pkg → Pkg) : (s.modPkg k f).rollbacks = s.rollbacks := rfl
@[simp] theorem State.modPkg_takeovers (s : State) (k : Nat) (f : Pkg → Pkg) : (s.modPkg k f).takeovers = s.takeovers := rfl
@[simp] theorem State.modPkg_arbiters (s : State) (k : Nat) (f : Pkg → Pkg) : (s.modPkg k f).arbiters = s.arbiters := rfl
@[simp] theorem State.modPkg_tlb2 (s : State) (k : Nat) (f : Pkg → Pkg) : (s.modPkg k f).tlb2 = s.tlb2 := rfl
@[simp] theorem State.modPkg_scaleId (s : State) (k : Nat) (f : Pkg → Pkg) : (s.modPkg k f).scaleId = s.scaleId := rfl
@[simp] theorem State.modPkg_wire (s : State) (k : Nat) (f : Pkg → Pkg) : (s.modPkg k f).wire = s.wire := rfl
@[simp] theorem State.modPkg_kv (s : State) (k : Nat) (f : Pkg → Pkg) : (s.modPkg k f).kv = s.kv := rfl
@[simp] theorem State.modPkg_kvCmds (s : State) (k : Nat) (f : Pkg → Pkg) : (s.modPkg k f).kvCmds = s.kvCmds := rfl
@[simp] theorem State.modPkg_kvRefused (s : State) (k : Nat) (f : Pkg → Pkg) : (s.modPkg k f).kvRefused = s.kvRefused := rfl
@[simp] theorem State.modPkg_triples (s : State) (k : Nat) (f : Pkg → Pkg) : (s.modPkg k f).triples = s.triples := rfl
@[simp] theorem State.modPkg_marks (s : State) (k : Nat) (f : Pkg → Pkg) : (s.modPkg k f).marks = s.marks := rfl

/-! poke -/

@[simp] theorem State.poke_cur (s : State) (k : Nat) (bs : List Byte) : (s.poke k bs).cur = s.cur := rfl
@[simp] theorem State.poke_agenda (s : State) (k : Nat) (bs : List Byte) : (s.poke k bs).agenda = s.agenda := rfl
@[simp] theorem State.poke_tick (s : State) (k : Nat) (bs : List Byte) : (s.poke k bs).tick = s.tick := rfl
@[simp] theorem State.poke_fresh (s : State) (k : Nat) (bs : List Byte) : (s.poke k bs).fresh = s.fresh := rfl
@[simp] theorem State.poke_domain (s : State) (k : Nat) (bs : List Byte) : (s.poke k bs).domain = s.domain := rfl
@[simp] theorem State.poke_cables (s : State) (k : Nat) (bs : List Byte) : (s.poke k bs).cables = s.cables := rfl
@[simp] theorem State.poke_poison (s : State) (k : Nat) (bs : List Byte) : (s.poke k bs).poison = s.poison := rfl
@[simp] theorem State.poke_sleptBad (s : State) (k : Nat) (bs : List Byte) : (s.poke k bs).sleptBad = s.sleptBad := rfl
@[simp] theorem State.poke_broken (s : State) (k : Nat) (bs : List Byte) : (s.poke k bs).broken = s.broken := rfl
@[simp] theorem State.poke_berths (s : State) (k : Nat) (bs : List Byte) : (s.poke k bs).berths = s.berths := rfl
@[simp] theorem State.poke_syncs (s : State) (k : Nat) (bs : List Byte) : (s.poke k bs).syncs = s.syncs := rfl
@[simp] theorem State.poke_grans (s : State) (k : Nat) (bs : List Byte) : (s.poke k bs).grans = s.grans := rfl
@[simp] theorem State.poke_cells (s : State) (k : Nat) (bs : List Byte) : (s.poke k bs).cells = s.cells := rfl
@[simp] theorem State.poke_net (s : State) (k : Nat) (bs : List Byte) : (s.poke k bs).net = s.net := rfl
@[simp] theorem State.poke_heldArrivals (s : State) (k : Nat) (bs : List Byte) : (s.poke k bs).heldArrivals = s.heldArrivals := rfl
@[simp] theorem State.poke_bankOps (s : State) (k : Nat) (bs : List Byte) : (s.poke k bs).bankOps = s.bankOps := rfl
@[simp] theorem State.poke_copies (s : State) (k : Nat) (bs : List Byte) : (s.poke k bs).copies = s.copies := rfl
@[simp] theorem State.poke_notices (s : State) (k : Nat) (bs : List Byte) : (s.poke k bs).notices = s.notices := rfl
@[simp] theorem State.poke_cxl (s : State) (k : Nat) (bs : List Byte) : (s.poke k bs).cxl = s.cxl := rfl
@[simp] theorem State.poke_doms (s : State) (k : Nat) (bs : List Byte) : (s.poke k bs).doms = s.doms := rfl
@[simp] theorem State.poke_stops (s : State) (k : Nat) (bs : List Byte) : (s.poke k bs).stops = s.stops := rfl
@[simp] theorem State.poke_rollbacks (s : State) (k : Nat) (bs : List Byte) : (s.poke k bs).rollbacks = s.rollbacks := rfl
@[simp] theorem State.poke_takeovers (s : State) (k : Nat) (bs : List Byte) : (s.poke k bs).takeovers = s.takeovers := rfl
@[simp] theorem State.poke_pkgs (s : State) (k : Nat) (bs : List Byte) : (s.poke k bs).pkgs = s.pkgs := rfl
@[simp] theorem State.poke_arbiters (s : State) (k : Nat) (bs : List Byte) : (s.poke k bs).arbiters = s.arbiters := rfl
@[simp] theorem State.poke_tlb2 (s : State) (k : Nat) (bs : List Byte) : (s.poke k bs).tlb2 = s.tlb2 := rfl
@[simp] theorem State.poke_scaleId (s : State) (k : Nat) (bs : List Byte) : (s.poke k bs).scaleId = s.scaleId := rfl
@[simp] theorem State.poke_wire (s : State) (k : Nat) (bs : List Byte) : (s.poke k bs).wire = s.wire := rfl
@[simp] theorem State.poke_kv (s : State) (k : Nat) (bs : List Byte) : (s.poke k bs).kv = s.kv := rfl
@[simp] theorem State.poke_kvCmds (s : State) (k : Nat) (bs : List Byte) : (s.poke k bs).kvCmds = s.kvCmds := rfl
@[simp] theorem State.poke_kvRefused (s : State) (k : Nat) (bs : List Byte) : (s.poke k bs).kvRefused = s.kvRefused := rfl
@[simp] theorem State.poke_triples (s : State) (k : Nat) (bs : List Byte) : (s.poke k bs).triples = s.triples := rfl
@[simp] theorem State.poke_marks (s : State) (k : Nat) (bs : List Byte) : (s.poke k bs).marks = s.marks := rfl

/-! zero -/

@[simp] theorem State.zero_cur (s : State) (k n : Nat) : (s.zero k n).cur = s.cur := rfl
@[simp] theorem State.zero_agenda (s : State) (k n : Nat) : (s.zero k n).agenda = s.agenda := rfl
@[simp] theorem State.zero_tick (s : State) (k n : Nat) : (s.zero k n).tick = s.tick := rfl
@[simp] theorem State.zero_fresh (s : State) (k n : Nat) : (s.zero k n).fresh = s.fresh := rfl
@[simp] theorem State.zero_domain (s : State) (k n : Nat) : (s.zero k n).domain = s.domain := rfl
@[simp] theorem State.zero_cables (s : State) (k n : Nat) : (s.zero k n).cables = s.cables := rfl
@[simp] theorem State.zero_poison (s : State) (k n : Nat) : (s.zero k n).poison = s.poison := rfl
@[simp] theorem State.zero_sleptBad (s : State) (k n : Nat) : (s.zero k n).sleptBad = s.sleptBad := rfl
@[simp] theorem State.zero_broken (s : State) (k n : Nat) : (s.zero k n).broken = s.broken := rfl
@[simp] theorem State.zero_berths (s : State) (k n : Nat) : (s.zero k n).berths = s.berths := rfl
@[simp] theorem State.zero_syncs (s : State) (k n : Nat) : (s.zero k n).syncs = s.syncs := rfl
@[simp] theorem State.zero_grans (s : State) (k n : Nat) : (s.zero k n).grans = s.grans := rfl
@[simp] theorem State.zero_cells (s : State) (k n : Nat) : (s.zero k n).cells = s.cells := rfl
@[simp] theorem State.zero_net (s : State) (k n : Nat) : (s.zero k n).net = s.net := rfl
@[simp] theorem State.zero_heldArrivals (s : State) (k n : Nat) : (s.zero k n).heldArrivals = s.heldArrivals := rfl
@[simp] theorem State.zero_bankOps (s : State) (k n : Nat) : (s.zero k n).bankOps = s.bankOps := rfl
@[simp] theorem State.zero_copies (s : State) (k n : Nat) : (s.zero k n).copies = s.copies := rfl
@[simp] theorem State.zero_notices (s : State) (k n : Nat) : (s.zero k n).notices = s.notices := rfl
@[simp] theorem State.zero_cxl (s : State) (k n : Nat) : (s.zero k n).cxl = s.cxl := rfl
@[simp] theorem State.zero_doms (s : State) (k n : Nat) : (s.zero k n).doms = s.doms := rfl
@[simp] theorem State.zero_stops (s : State) (k n : Nat) : (s.zero k n).stops = s.stops := rfl
@[simp] theorem State.zero_rollbacks (s : State) (k n : Nat) : (s.zero k n).rollbacks = s.rollbacks := rfl
@[simp] theorem State.zero_takeovers (s : State) (k n : Nat) : (s.zero k n).takeovers = s.takeovers := rfl
@[simp] theorem State.zero_pkgs (s : State) (k n : Nat) : (s.zero k n).pkgs = s.pkgs := rfl
@[simp] theorem State.zero_arbiters (s : State) (k n : Nat) : (s.zero k n).arbiters = s.arbiters := rfl
@[simp] theorem State.zero_tlb2 (s : State) (k n : Nat) : (s.zero k n).tlb2 = s.tlb2 := rfl
@[simp] theorem State.zero_scaleId (s : State) (k n : Nat) : (s.zero k n).scaleId = s.scaleId := rfl
@[simp] theorem State.zero_wire (s : State) (k n : Nat) : (s.zero k n).wire = s.wire := rfl
@[simp] theorem State.zero_kv (s : State) (k n : Nat) : (s.zero k n).kv = s.kv := rfl
@[simp] theorem State.zero_kvCmds (s : State) (k n : Nat) : (s.zero k n).kvCmds = s.kvCmds := rfl
@[simp] theorem State.zero_kvRefused (s : State) (k n : Nat) : (s.zero k n).kvRefused = s.kvRefused := rfl
@[simp] theorem State.zero_triples (s : State) (k n : Nat) : (s.zero k n).triples = s.triples := rfl
@[simp] theorem State.zero_marks (s : State) (k n : Nat) : (s.zero k n).marks = s.marks := rfl

/-! setSync -/

@[simp] theorem State.setSync_cur (s : State) (k : Nat) (x : SyncWord) : (s.setSync k x).cur = s.cur := rfl
@[simp] theorem State.setSync_agenda (s : State) (k : Nat) (x : SyncWord) : (s.setSync k x).agenda = s.agenda := rfl
@[simp] theorem State.setSync_tick (s : State) (k : Nat) (x : SyncWord) : (s.setSync k x).tick = s.tick := rfl
@[simp] theorem State.setSync_fresh (s : State) (k : Nat) (x : SyncWord) : (s.setSync k x).fresh = s.fresh := rfl
@[simp] theorem State.setSync_domain (s : State) (k : Nat) (x : SyncWord) : (s.setSync k x).domain = s.domain := rfl
@[simp] theorem State.setSync_cables (s : State) (k : Nat) (x : SyncWord) : (s.setSync k x).cables = s.cables := rfl
@[simp] theorem State.setSync_mem (s : State) (k : Nat) (x : SyncWord) : (s.setSync k x).mem = s.mem := rfl
@[simp] theorem State.setSync_poison (s : State) (k : Nat) (x : SyncWord) : (s.setSync k x).poison = s.poison := rfl
@[simp] theorem State.setSync_sleptBad (s : State) (k : Nat) (x : SyncWord) : (s.setSync k x).sleptBad = s.sleptBad := rfl
@[simp] theorem State.setSync_broken (s : State) (k : Nat) (x : SyncWord) : (s.setSync k x).broken = s.broken := rfl
@[simp] theorem State.setSync_berths (s : State) (k : Nat) (x : SyncWord) : (s.setSync k x).berths = s.berths := rfl
@[simp] theorem State.setSync_grans (s : State) (k : Nat) (x : SyncWord) : (s.setSync k x).grans = s.grans := rfl
@[simp] theorem State.setSync_cells (s : State) (k : Nat) (x : SyncWord) : (s.setSync k x).cells = s.cells := rfl
@[simp] theorem State.setSync_net (s : State) (k : Nat) (x : SyncWord) : (s.setSync k x).net = s.net := rfl
@[simp] theorem State.setSync_heldArrivals (s : State) (k : Nat) (x : SyncWord) : (s.setSync k x).heldArrivals = s.heldArrivals := rfl
@[simp] theorem State.setSync_bankOps (s : State) (k : Nat) (x : SyncWord) : (s.setSync k x).bankOps = s.bankOps := rfl
@[simp] theorem State.setSync_copies (s : State) (k : Nat) (x : SyncWord) : (s.setSync k x).copies = s.copies := rfl
@[simp] theorem State.setSync_notices (s : State) (k : Nat) (x : SyncWord) : (s.setSync k x).notices = s.notices := rfl
@[simp] theorem State.setSync_cxl (s : State) (k : Nat) (x : SyncWord) : (s.setSync k x).cxl = s.cxl := rfl
@[simp] theorem State.setSync_doms (s : State) (k : Nat) (x : SyncWord) : (s.setSync k x).doms = s.doms := rfl
@[simp] theorem State.setSync_stops (s : State) (k : Nat) (x : SyncWord) : (s.setSync k x).stops = s.stops := rfl
@[simp] theorem State.setSync_rollbacks (s : State) (k : Nat) (x : SyncWord) : (s.setSync k x).rollbacks = s.rollbacks := rfl
@[simp] theorem State.setSync_takeovers (s : State) (k : Nat) (x : SyncWord) : (s.setSync k x).takeovers = s.takeovers := rfl
@[simp] theorem State.setSync_pkgs (s : State) (k : Nat) (x : SyncWord) : (s.setSync k x).pkgs = s.pkgs := rfl
@[simp] theorem State.setSync_arbiters (s : State) (k : Nat) (x : SyncWord) : (s.setSync k x).arbiters = s.arbiters := rfl
@[simp] theorem State.setSync_tlb2 (s : State) (k : Nat) (x : SyncWord) : (s.setSync k x).tlb2 = s.tlb2 := rfl
@[simp] theorem State.setSync_scaleId (s : State) (k : Nat) (x : SyncWord) : (s.setSync k x).scaleId = s.scaleId := rfl
@[simp] theorem State.setSync_wire (s : State) (k : Nat) (x : SyncWord) : (s.setSync k x).wire = s.wire := rfl
@[simp] theorem State.setSync_kv (s : State) (k : Nat) (x : SyncWord) : (s.setSync k x).kv = s.kv := rfl
@[simp] theorem State.setSync_kvCmds (s : State) (k : Nat) (x : SyncWord) : (s.setSync k x).kvCmds = s.kvCmds := rfl
@[simp] theorem State.setSync_kvRefused (s : State) (k : Nat) (x : SyncWord) : (s.setSync k x).kvRefused = s.kvRefused := rfl
@[simp] theorem State.setSync_triples (s : State) (k : Nat) (x : SyncWord) : (s.setSync k x).triples = s.triples := rfl
@[simp] theorem State.setSync_marks (s : State) (k : Nat) (x : SyncWord) : (s.setSync k x).marks = s.marks := rfl

/-! setGran -/

@[simp] theorem State.setGran_cur (s : State) (k : Nat) (x : Gran) : (s.setGran k x).cur = s.cur := rfl
@[simp] theorem State.setGran_agenda (s : State) (k : Nat) (x : Gran) : (s.setGran k x).agenda = s.agenda := rfl
@[simp] theorem State.setGran_tick (s : State) (k : Nat) (x : Gran) : (s.setGran k x).tick = s.tick := rfl
@[simp] theorem State.setGran_fresh (s : State) (k : Nat) (x : Gran) : (s.setGran k x).fresh = s.fresh := rfl
@[simp] theorem State.setGran_domain (s : State) (k : Nat) (x : Gran) : (s.setGran k x).domain = s.domain := rfl
@[simp] theorem State.setGran_cables (s : State) (k : Nat) (x : Gran) : (s.setGran k x).cables = s.cables := rfl
@[simp] theorem State.setGran_mem (s : State) (k : Nat) (x : Gran) : (s.setGran k x).mem = s.mem := rfl
@[simp] theorem State.setGran_poison (s : State) (k : Nat) (x : Gran) : (s.setGran k x).poison = s.poison := rfl
@[simp] theorem State.setGran_sleptBad (s : State) (k : Nat) (x : Gran) : (s.setGran k x).sleptBad = s.sleptBad := rfl
@[simp] theorem State.setGran_broken (s : State) (k : Nat) (x : Gran) : (s.setGran k x).broken = s.broken := rfl
@[simp] theorem State.setGran_berths (s : State) (k : Nat) (x : Gran) : (s.setGran k x).berths = s.berths := rfl
@[simp] theorem State.setGran_syncs (s : State) (k : Nat) (x : Gran) : (s.setGran k x).syncs = s.syncs := rfl
@[simp] theorem State.setGran_cells (s : State) (k : Nat) (x : Gran) : (s.setGran k x).cells = s.cells := rfl
@[simp] theorem State.setGran_net (s : State) (k : Nat) (x : Gran) : (s.setGran k x).net = s.net := rfl
@[simp] theorem State.setGran_heldArrivals (s : State) (k : Nat) (x : Gran) : (s.setGran k x).heldArrivals = s.heldArrivals := rfl
@[simp] theorem State.setGran_bankOps (s : State) (k : Nat) (x : Gran) : (s.setGran k x).bankOps = s.bankOps := rfl
@[simp] theorem State.setGran_copies (s : State) (k : Nat) (x : Gran) : (s.setGran k x).copies = s.copies := rfl
@[simp] theorem State.setGran_notices (s : State) (k : Nat) (x : Gran) : (s.setGran k x).notices = s.notices := rfl
@[simp] theorem State.setGran_cxl (s : State) (k : Nat) (x : Gran) : (s.setGran k x).cxl = s.cxl := rfl
@[simp] theorem State.setGran_doms (s : State) (k : Nat) (x : Gran) : (s.setGran k x).doms = s.doms := rfl
@[simp] theorem State.setGran_stops (s : State) (k : Nat) (x : Gran) : (s.setGran k x).stops = s.stops := rfl
@[simp] theorem State.setGran_rollbacks (s : State) (k : Nat) (x : Gran) : (s.setGran k x).rollbacks = s.rollbacks := rfl
@[simp] theorem State.setGran_takeovers (s : State) (k : Nat) (x : Gran) : (s.setGran k x).takeovers = s.takeovers := rfl
@[simp] theorem State.setGran_pkgs (s : State) (k : Nat) (x : Gran) : (s.setGran k x).pkgs = s.pkgs := rfl
@[simp] theorem State.setGran_arbiters (s : State) (k : Nat) (x : Gran) : (s.setGran k x).arbiters = s.arbiters := rfl
@[simp] theorem State.setGran_tlb2 (s : State) (k : Nat) (x : Gran) : (s.setGran k x).tlb2 = s.tlb2 := rfl
@[simp] theorem State.setGran_scaleId (s : State) (k : Nat) (x : Gran) : (s.setGran k x).scaleId = s.scaleId := rfl
@[simp] theorem State.setGran_wire (s : State) (k : Nat) (x : Gran) : (s.setGran k x).wire = s.wire := rfl
@[simp] theorem State.setGran_kv (s : State) (k : Nat) (x : Gran) : (s.setGran k x).kv = s.kv := rfl
@[simp] theorem State.setGran_kvCmds (s : State) (k : Nat) (x : Gran) : (s.setGran k x).kvCmds = s.kvCmds := rfl
@[simp] theorem State.setGran_kvRefused (s : State) (k : Nat) (x : Gran) : (s.setGran k x).kvRefused = s.kvRefused := rfl
@[simp] theorem State.setGran_triples (s : State) (k : Nat) (x : Gran) : (s.setGran k x).triples = s.triples := rfl
@[simp] theorem State.setGran_marks (s : State) (k : Nat) (x : Gran) : (s.setGran k x).marks = s.marks := rfl

/-! freshened -/

@[simp] theorem State.freshened_cur (s : State) : s.freshened.cur = s.cur := rfl
@[simp] theorem State.freshened_agenda (s : State) : s.freshened.agenda = s.agenda := rfl
@[simp] theorem State.freshened_tick (s : State) : s.freshened.tick = s.tick := rfl
@[simp] theorem State.freshened_domain (s : State) : s.freshened.domain = s.domain := rfl
@[simp] theorem State.freshened_cables (s : State) : s.freshened.cables = s.cables := rfl
@[simp] theorem State.freshened_mem (s : State) : s.freshened.mem = s.mem := rfl
@[simp] theorem State.freshened_poison (s : State) : s.freshened.poison = s.poison := rfl
@[simp] theorem State.freshened_sleptBad (s : State) : s.freshened.sleptBad = s.sleptBad := rfl
@[simp] theorem State.freshened_broken (s : State) : s.freshened.broken = s.broken := rfl
@[simp] theorem State.freshened_berths (s : State) : s.freshened.berths = s.berths := rfl
@[simp] theorem State.freshened_syncs (s : State) : s.freshened.syncs = s.syncs := rfl
@[simp] theorem State.freshened_grans (s : State) : s.freshened.grans = s.grans := rfl
@[simp] theorem State.freshened_cells (s : State) : s.freshened.cells = s.cells := rfl
@[simp] theorem State.freshened_net (s : State) : s.freshened.net = s.net := rfl
@[simp] theorem State.freshened_heldArrivals (s : State) : s.freshened.heldArrivals = s.heldArrivals := rfl
@[simp] theorem State.freshened_bankOps (s : State) : s.freshened.bankOps = s.bankOps := rfl
@[simp] theorem State.freshened_copies (s : State) : s.freshened.copies = s.copies := rfl
@[simp] theorem State.freshened_notices (s : State) : s.freshened.notices = s.notices := rfl
@[simp] theorem State.freshened_cxl (s : State) : s.freshened.cxl = s.cxl := rfl
@[simp] theorem State.freshened_doms (s : State) : s.freshened.doms = s.doms := rfl
@[simp] theorem State.freshened_stops (s : State) : s.freshened.stops = s.stops := rfl
@[simp] theorem State.freshened_rollbacks (s : State) : s.freshened.rollbacks = s.rollbacks := rfl
@[simp] theorem State.freshened_takeovers (s : State) : s.freshened.takeovers = s.takeovers := rfl
@[simp] theorem State.freshened_pkgs (s : State) : s.freshened.pkgs = s.pkgs := rfl
@[simp] theorem State.freshened_arbiters (s : State) : s.freshened.arbiters = s.arbiters := rfl
@[simp] theorem State.freshened_tlb2 (s : State) : s.freshened.tlb2 = s.tlb2 := rfl
@[simp] theorem State.freshened_scaleId (s : State) : s.freshened.scaleId = s.scaleId := rfl
@[simp] theorem State.freshened_wire (s : State) : s.freshened.wire = s.wire := rfl
@[simp] theorem State.freshened_kv (s : State) : s.freshened.kv = s.kv := rfl
@[simp] theorem State.freshened_kvCmds (s : State) : s.freshened.kvCmds = s.kvCmds := rfl
@[simp] theorem State.freshened_kvRefused (s : State) : s.freshened.kvRefused = s.kvRefused := rfl
@[simp] theorem State.freshened_triples (s : State) : s.freshened.triples = s.triples := rfl
@[simp] theorem State.freshened_marks (s : State) : s.freshened.marks = s.marks := rfl

@[simp] theorem State.poke_mem (s : State) (k : Nat) (bs : List Byte) : (s.poke k bs).mem = Memory.writeBytes s.mem k bs := rfl
@[simp] theorem State.setSync_syncs (s : State) (k : Nat) (x : SyncWord) : (s.setSync k x).syncs = SMap.put s.syncs k x := rfl
@[simp] theorem State.setBerth_berths (s : State) (b : Nat) (x : Berth) : (s.setBerth b x).berths = SMap.put s.berths b x := rfl
@[simp] theorem State.setPkg_pkgs (s : State) (k : Nat) (x : Pkg) : (s.setPkg k x).pkgs = SMap.put s.pkgs k x := rfl
@[simp] theorem State.freshened_fresh (s : State) : s.freshened.fresh = s.fresh + 1 := rfl

/-! What a berth reads after an update -/

@[simp] theorem State.berth_setBerth_self (s : State) (b : Nat) (x : Berth) : (s.setBerth b x).berth b = x := by
  simp [State.berth, State.setBerth]

@[simp] theorem State.berth_setBerth_of_ne (s : State) {b j : Nat} (x : Berth) (h : j ≠ b) : (s.setBerth b x).berth j = s.berth j := by
  simp [State.berth, State.setBerth, h]

@[simp] theorem State.berth_modBerth_self (s : State) (b : Nat) (f : Berth → Berth) : (s.modBerth b f).berth b = f (s.berth b) := by
  simp [State.modBerth]

@[simp] theorem State.berth_modBerth_of_ne (s : State) {b j : Nat} (f : Berth → Berth) (h : j ≠ b) :
    (s.modBerth b f).berth j = s.berth j := by simp [State.modBerth, h]

@[simp] theorem State.berth_setSlip_self (s : State) (b i : Nat) (p : Slip) : (s.setSlip b i p).berth b = (s.berth b).setSlip i p := by
  simp [State.setSlip]

@[simp] theorem State.berth_setSlip_of_ne (s : State) {b j : Nat} (i : Nat) (p : Slip) (h : j ≠ b) :
    (s.setSlip b i p).berth j = s.berth j := by simp [State.setSlip, h]

@[simp] theorem State.berth_modSlip_self (s : State) (b i : Nat) (f : Slip → Slip) :
    (s.modSlip b i f).berth b = (s.berth b).setSlip i (f (s.slip b i)) := by simp [State.modSlip]

@[simp] theorem State.berth_modSlip_of_ne (s : State) {b j : Nat} (i : Nat) (f : Slip → Slip) (h : j ≠ b) :
    (s.modSlip b i f).berth j = s.berth j := by simp [State.modSlip, h]

@[simp] theorem State.berth_modHandler_self (s : State) (b : Nat) (f : Handler → Handler) :
    (s.modHandler b f).berth b = { s.berth b with handler := (s.berth b).handler.map f } := by simp [State.modHandler]

@[simp] theorem State.berth_modHandler_of_ne (s : State) {b j : Nat} (f : Handler → Handler) (h : j ≠ b) :
    (s.modHandler b f).berth j = s.berth j := by simp [State.modHandler, h]

/-! What a slip reads after its berth changed -/

@[simp] theorem Berth.slip_setSlip_self (x : Berth) (i : Nat) (p : Slip) : (x.setSlip i p).slip i = p := by
  rcases i with _ | _ | _ | i <;> rfl

theorem Berth.slip_setSlip_of_other (x : Berth) {i j : Nat} (p : Slip) (h : Min.min j 3 ≠ Min.min i 3) :
    (x.setSlip i p).slip j = x.slip j := by
  rcases i with _ | _ | _ | i <;> rcases j with _ | _ | _ | j <;> first | rfl | exact absurd rfl h | (exfalso; omega)

@[simp] theorem Berth.handler_setSlip (x : Berth) (i : Nat) (p : Slip) : (x.setSlip i p).handler = x.handler := by
  rcases i with _ | _ | _ | i <;> rfl

@[simp] theorem Berth.evcHi_setSlip (x : Berth) (i : Nat) (p : Slip) : (x.setSlip i p).evcHi = x.evcHi := by
  rcases i with _ | _ | _ | i <;> rfl

@[simp] theorem Berth.setSlip_setSlip (x : Berth) (i : Nat) (p q : Slip) : (x.setSlip i p).setSlip i q = x.setSlip i q := by
  rcases i with _ | _ | _ | i <;> rfl

@[simp] theorem State.slip_setSlip_self (s : State) (b i : Nat) (p : Slip) : (s.setSlip b i p).slip b i = p := by
  simp [State.slip]

@[simp] theorem State.slip_modSlip_self (s : State) (b i : Nat) (f : Slip → Slip) : (s.modSlip b i f).slip b i = f (s.slip b i) := by
  simp [State.slip, State.modSlip]

theorem State.slip_modSlip_of_other (s : State) (b : Nat) {i j : Nat} (f : Slip → Slip) (h : Min.min j 3 ≠ Min.min i 3) :
    (s.modSlip b i f).slip b j = s.slip b j := by
  simp [State.slip, Berth.slip_setSlip_of_other _ _ h]

/-! Packages -/

@[simp] theorem State.pkg_setPkg_self (s : State) (k : Nat) (x : Pkg) : (s.setPkg k x).pkg k = x := by
  simp [State.pkg, State.setPkg]

@[simp] theorem State.pkg_setPkg_of_ne (s : State) {k j : Nat} (x : Pkg) (h : j ≠ k) : (s.setPkg k x).pkg j = s.pkg j := by
  simp [State.pkg, State.setPkg, h]

@[simp] theorem State.pkg_modPkg_self (s : State) (k : Nat) (f : Pkg → Pkg) : (s.modPkg k f).pkg k = f (s.pkg k) := by
  simp [State.modPkg]

end Sys2Proof.Machine
end

