-- ==== Sys2Proof/Laws/Registers.lean ====
section
/-! SUPPORT. Laws of registers: a write is read back, what a new version holds, and that the queue and the loops keep every
register's value at distance 0 (R19, R20, R158, R160). -/
namespace Sys2Proof.Machine
open Sys2Proof

theorem Slip.curOf_lt (p : Slip) (k : RSet) (r : Nat) : p.curOf k r < 8 := Nat.mod_lt _ (by decide)

/-- A read at distance 0 names the current version (R19). -/
@[simp] theorem Slip.version_zero (p : Slip) (k : RSet) (r : Nat) : p.version k r 0 = p.curOf k r := by
  have := p.curOf_lt k r
  unfold Slip.version
  simp only
  split
  · rfl
  · omega

/-! ### A write is read back -/

theorem Slip.getG_setG (p : Slip) (d r : Nat) (v : Word) :
    (p.setG d v).getG r 0 = if r = d then (if d = 0 then 0 else v) else p.getG r 0 := by
  have hc := p.curOf_lt .g r
  have hd := p.curOf_lt .g d
  by_cases hd0 : d = 0
  · subst hd0; by_cases hr : r = 0 <;> simp [Slip.setG, Slip.getG, hr]
  · have hcur : ∀ j, (p.setG d v).curOf .g j = p.curOf .g j := by intro j; simp [Slip.setG, hd0, Slip.curOf]
    by_cases hr : r = d
    · subst hr; simp [Slip.getG, hd0, hcur]; simp [Slip.setG, hd0]
    · by_cases hr0 : r = 0
      · subst hr0; simp [Slip.getG, hr]
      · simp only [Slip.getG, hr0, hr, if_false, Slip.version_zero, hcur]
        simp only [Slip.setG, hd0, if_false]
        exact SMap.get_put_of_ne _ _ _ (by omega)

theorem Slip.getF_setF (p : Slip) (d r : Nat) (v : W32) :
    (p.setF d v).getF r 0 = if r = d then v else p.getF r 0 := by
  have hc := p.curOf_lt .f r
  have hd := p.curOf_lt .f d
  have hcur : ∀ j, (p.setF d v).curOf .f j = p.curOf .f j := by intro j; simp [Slip.setF, Slip.curOf]
  have hv : (p.setF d v).f = SMap.put p.f (8 * d + p.curOf .f d) v := rfl
  simp only [Slip.getF, Slip.version_zero, hcur, hv, SMap.get_put]
  by_cases hr : r = d
  · subst hr; simp
  · rw [if_neg (by omega), if_neg hr]

theorem Slip.getW_setW (p : Slip) (d r : Nat) (v : Wide) :
    (p.setW d v).getW r 0 = if r = d then v else p.getW r 0 := by
  have hc := p.curOf_lt .w r
  have hd := p.curOf_lt .w d
  have hcur : ∀ j, (p.setW d v).curOf .w j = p.curOf .w j := by intro j; simp [Slip.setW, Slip.curOf]
  have hv : (p.setW d v).w = SMap.put p.w (8 * d + p.curOf .w d) v := rfl
  simp only [Slip.getW, Slip.version_zero, hcur, hv, SMap.get_put]
  by_cases hr : r = d
  · subst hr; simp
  · rw [if_neg (by omega), if_neg hr]

theorem Slip.getQ_setQ (p : Slip) (d r : Nat) (v : Bool) :
    (p.setQ d v).getQ r 0 = if r = d then (if d = 0 then true else v) else p.getQ r 0 := by
  have hc := p.curOf_lt .q r
  have hd := p.curOf_lt .q d
  by_cases hd0 : d = 0
  · subst hd0; by_cases hr : r = 0 <;> simp [Slip.setQ, Slip.getQ, hr]
  · have hcur : ∀ j, (p.setQ d v).curOf .q j = p.curOf .q j := by intro j; simp [Slip.setQ, hd0, Slip.curOf]
    by_cases hr : r = d
    · subst hr; simp [Slip.getQ, hd0, hcur]; simp [Slip.setQ, hd0]
    · by_cases hr0 : r = 0
      · subst hr0; simp [Slip.getQ, hr]
      · simp only [Slip.getQ, hr0, hr, if_false, Slip.version_zero, hcur]
        simp only [Slip.setQ, hd0, if_false]
        exact SMap.get_put_of_ne _ _ _ (by omega)

theorem Slip.getM_setM (p : Slip) (d r : Nat) (v : Word) :
    (p.setM d v).getM r 0 = if r = d then (if d = 0 then BitVec.allOnes 64 else v) else p.getM r 0 := by
  have hc := p.curOf_lt .m r
  have hd := p.curOf_lt .m d
  by_cases hd0 : d = 0
  · subst hd0; by_cases hr : r = 0 <;> simp [Slip.setM, Slip.getM, hr]
  · have hcur : ∀ j, (p.setM d v).curOf .m j = p.curOf .m j := by intro j; simp [Slip.setM, hd0, Slip.curOf]
    by_cases hr : r = d
    · subst hr; simp [Slip.getM, hd0, hcur]; simp [Slip.setM, hd0]
    · by_cases hr0 : r = 0
      · subst hr0; simp [Slip.getM, hr]
      · simp only [Slip.getM, hr0, hr, if_false, Slip.version_zero, hcur]
        simp only [Slip.setM, hd0, if_false]
        exact SMap.get_put_of_ne _ _ _ (by omega)

/-! ### What the queue and the loops keep -/

/-- Two slips with the same registers at distance 0, and the same in everything but queue, loops and instruction count. -/
structure Slip.Same (p t : Slip) : Prop where
  rest : t.rest = p.rest
  evc : t.evc = p.evc
  g : ∀ r, r < 32 → t.getG r 0 = p.getG r 0
  f : ∀ r, r < 32 → t.getF r 0 = p.getF r 0
  w : ∀ r, r < 32 → t.getW r 0 = p.getW r 0
  q : ∀ r, r < 8 → t.getQ r 0 = p.getQ r 0
  m : ∀ r, r < 8 → t.getM r 0 = p.getM r 0

theorem Slip.Same.refl (p : Slip) : p.Same p := ⟨rfl, rfl, fun _ _ => rfl, fun _ _ => rfl, fun _ _ => rfl, fun _ _ => rfl, fun _ _ => rfl⟩

theorem Slip.Same.trans {p t u : Slip} (h : p.Same t) (k : t.Same u) : p.Same u :=
  ⟨k.rest.trans h.rest, k.evc.trans h.evc, fun r hr => (k.g r hr).trans (h.g r hr), fun r hr => (k.f r hr).trans (h.f r hr),
   fun r hr => (k.w r hr).trans (h.w r hr), fun r hr => (k.q r hr).trans (h.q r hr), fun r hr => (k.m r hr).trans (h.m r hr)⟩

/-- A change of the queue, the loops, the instruction in progress or the instruction count alone. -/
theorem Slip.Same.of_loops {p : Slip} (live : Queue) (levels : List Level) (after : List AfterWin) (last lexit : Nat) (n : Word) (g : Bool) :
    p.Same { p with live := live, levels := levels, after := after, lastDmax := last, lexit := lexit, instret := n, begun := g } :=
  ⟨rfl, rfl, fun r _ => by simp [Slip.getG, Slip.curOf], fun r _ => by simp [Slip.getF, Slip.curOf],
   fun r _ => by simp [Slip.getW, Slip.curOf], fun r _ => by simp [Slip.getQ, Slip.curOf], fun r _ => by simp [Slip.getM, Slip.curOf]⟩

/-- The current version of a register after it moved to its next version. -/
theorem Slip.curOf_nextVersion (p : Slip) (k j : RSet) {r n : Nat} (hr : r < 32) (hn : n < 32) :
    (p.nextVersion k r).curOf j n = if j = k ∧ n = r then (p.curOf k r + 1) % 8 else p.curOf j n := by
  have hcur : (p.nextVersion k r).cur = SMap.put p.cur (k.num * 32 + r) ((p.curOf k r + 1) % 8) := by
    cases k <;> rfl
  unfold Slip.curOf at *
  rw [hcur, SMap.get_put]
  by_cases h : j = k ∧ n = r
  · obtain ⟨rfl, rfl⟩ := h; simp
  · have hne : j.num * 32 + n ≠ k.num * 32 + r := by
      intro e; apply h
      cases j <;> cases k <;> simp only [RSet.num] at e <;> first | exact ⟨rfl, by omega⟩ | (exfalso; omega)
    rw [if_neg h, if_neg hne]

/-- A new version starts as a copy of the one before (R160). -/
theorem Slip.same_nextVersion (p : Slip) (k : RSet) (r : Nat) (hr : r < 32) : p.Same (p.nextVersion k r) := by
  have hc := p.curOf_lt k r
  have hk : ∀ j n, n < 32 → (p.nextVersion k r).curOf j n = if j = k ∧ n = r then (p.curOf k r + 1) % 8 else p.curOf j n :=
    fun j n hn => p.curOf_nextVersion k j hr hn
  refine ⟨by cases k <;> rfl, by cases k <;> rfl, fun n hn => ?_, fun n hn => ?_, fun n hn => ?_, fun n hn => ?_, fun n hn => ?_⟩
  · have hm := p.curOf_lt .g n
    simp only [Slip.getG, Slip.version_zero, hk .g n hn]
    cases k <;> simp [Slip.nextVersion, Slip.copyVersion, Slip.setCur, SMap.get_put]
    by_cases h : n = r
    · subst h; simp
    · have hne : 8 * n + p.curOf .g n ≠ 8 * r + (p.curOf .g r + 1) % 8 := by omega
      simp [h, hne]
  · have hm := p.curOf_lt .f n
    simp only [Slip.getF, Slip.version_zero, hk .f n hn]
    cases k <;> simp [Slip.nextVersion, Slip.copyVersion, Slip.setCur, SMap.get_put]
    by_cases h : n = r
    · subst h; simp
    · simp [h]; intro e; omega
  · have hm := p.curOf_lt .w n
    simp only [Slip.getW, Slip.version_zero, hk .w n hn]
    cases k <;> simp [Slip.nextVersion, Slip.copyVersion, Slip.setCur, SMap.get_put]
    by_cases h : n = r
    · subst h; simp
    · simp [h]; intro e; omega
  · have hm := p.curOf_lt .q n
    simp only [Slip.getQ, Slip.version_zero, hk .q n (by omega)]
    cases k <;> simp [Slip.nextVersion, Slip.copyVersion, Slip.setCur, SMap.get_put]
    by_cases h : n = r
    · subst h; simp
    · have hne : 8 * n + p.curOf .q n ≠ 8 * r + (p.curOf .q r + 1) % 8 := by omega
      simp [h, hne]
  · have hm := p.curOf_lt .m n
    simp only [Slip.getM, Slip.version_zero, hk .m n (by omega)]
    cases k <;> simp [Slip.nextVersion, Slip.copyVersion, Slip.setCur, SMap.get_put]
    by_cases h : n = r
    · subst h; simp
    · have hne : 8 * n + p.curOf .m n ≠ 8 * r + (p.curOf .m r + 1) % 8 := by omega
      simp [h, hne]

theorem Masks.keys_lt (k : Masks) : ∀ x ∈ k.keys, x.2 < 32 := by
  intro x hx
  simp only [Masks.keys, upTo, List.mem_append, List.mem_map, List.mem_filter, List.mem_range] at hx
  rcases hx with (((⟨a, h, rfl⟩ | ⟨a, h, rfl⟩) | ⟨a, h, rfl⟩) | ⟨a, h, rfl⟩) | ⟨a, h, rfl⟩ <;> simp <;> omega

theorem Slip.same_nextVersions (p : Slip) (k : Masks) : p.Same (p.nextVersions k) := by
  unfold Slip.nextVersions
  have hk := k.keys_lt
  generalize k.keys = l at hk
  induction l generalizing p with
  | nil => exact .refl p
  | cons x xs ih =>
    exact (p.same_nextVersion x.1 x.2 (hk x (by simp))).trans (ih _ (fun y hy => hk y (by simp [hy])))

theorem Slip.same_nextIteration (p : Slip) : p.Same p.nextIteration := by
  unfold Slip.nextIteration
  split
  · exact (p.same_nextVersions _).trans (.of_loops _ _ _ _ _ _ _)
  · exact .refl p

theorem Slip.same_endLevel (p : Slip) (n : Nat) (left : Bool) : p.Same (p.endLevel n left) := by
  unfold Slip.endLevel
  split
  · exact .of_loops _ _ _ _ _ _ _
  · exact .refl p

theorem Slip.same_resolve (p : Slip) (len : Word → Option Nat) : p.Same (p.resolve len) := .of_loops _ _ _ _ _ _ _

theorem Slip.same_refill (len : Word → Option Nat) : ∀ (n : Nat) (p : Slip) (a : Word), p.Same (Slip.refill len n p a)
  | 0, p, _ => .of_loops _ _ _ _ _ _ _
  | n + 1, p, a => by
    unfold Slip.refill
    simp only
    split
    · exact p.same_nextIteration.trans (Slip.same_refill len n _ _)
    · split
      · exact (p.same_endLevel _ _).trans (Slip.same_refill len n _ _)
      · exact .refl p
    · exact .refl p
    · exact .of_loops _ _ _ _ _ _ _

theorem Slip.same_arrive (p : Slip) (len : Word → Option Nat) : p.Same (p.arrive len) := by
  unfold Slip.arrive
  simp only
  split
  · exact Slip.Same.trans (t := { p with live := _ }) (.of_loops _ _ _ _ _ _ _) (Slip.same_nextIteration _)
  · exact Slip.Same.trans (t := { p with live := _ }) (.of_loops _ _ _ _ _ _ _) ((Slip.same_endLevel _ _ _).trans (Slip.same_refill len _ _ _))
  · exact Slip.Same.trans (t := { p with live := _ }) (.of_loops _ _ _ _ _ _ _) ((Slip.same_endLevel _ _ _).trans (Slip.same_refill len _ _ _))
  · exact .of_loops _ _ _ _ _ _ _

/-- A step of the queue keeps every register's value at distance 0, and all but the queue and the loops. -/
theorem Slip.same_advance (p : Slip) (len : Word → Option Nat) (br : Option Branch) : p.Same (p.advance len br) := by
  unfold Slip.advance
  simp only
  split
  · exact (p.same_resolve len).trans (Slip.Same.trans (t := { p.resolve len with live := _ }) (.of_loops _ _ _ _ _ _ _) (Slip.same_arrive _ _))
  · exact (p.same_resolve len).trans (Slip.Same.trans (t := { p.resolve len with live := _ }) (.of_loops _ _ _ _ _ _ _) (Slip.same_arrive _ _))

end Sys2Proof.Machine
end

