-- ==== Sys2Proof/Laws/Instr.lean ====
section
/-! SUPPORT. Laws of the shared shape of an instruction: when it runs, what its writes and the queue's step change, what they keep. -/
namespace Sys2Proof.Machine
open Sys2Proof

/-- An instruction that runs is its own meaning. -/
theorem instr_runs {s : State} {c : Ctx} {md : Mode} {uses : List Use} (h : Runs s c md uses) (word : Nat)
    (body : Ctx → State → Res) : instr word md uses body s = finish c (body c s) := by
  simp [instr, h.1, h.2 word]

@[simp] theorem finish_ok (c : Ctx) (s : State) : finish c (.ok s) = .next (s.advance c none true) := rfl
@[simp] theorem finish_branch (c : Ctx) (s : State) (br : Branch) : finish c (.branch s br) = .next (s.advance c (some br) true) := rfl
@[simp] theorem finish_stay (c : Ctx) (s : State) : finish c (.stay s) = .next (s.began c) := rfl
@[simp] theorem finish_trap (c : Ctx) (s : State) (n : Nat) (tv : Word) : finish c (.trap s n tv) = .next (s.raise c n tv false) := rfl
@[simp] theorem finish_after (c : Ctx) (s : State) (n : Nat) (tv : Word) :
    finish c (.after s n tv) = .next ((s.advance c none true).raise c n tv false) := rfl

/-- Whoever executes does so on the current berth; a handler is the berth's own. -/
theorem ctx_spec {s : State} {c : Ctx} (h : s.ctx = some c) :
    c.b = s.cur ∧ (∀ x, (s.berth c.b).handler = some x → c.hnd = true ∧ c.i = x.slip) ∧
    ((s.berth c.b).handler = none → c.hnd = false) := by
  unfold State.ctx at h
  simp only at h
  split at h
  · rename_i x hx
    cases h
    exact ⟨rfl, fun y hy => by rw [hx] at hy; cases hy; exact ⟨rfl, rfl⟩, fun hn => by rw [hx] at hn; cases hn⟩
  · rename_i hx
    simp only [Option.map_eq_some_iff] at h
    obtain ⟨i, -, rfl⟩ := h
    exact ⟨rfl, fun (y : Handler) hy => (by rw [hx] at hy; cases hy), fun _ => rfl⟩

theorem ctx_handler {s : State} {c : Ctx} (h : s.ctx = some c) (hh : c.hnd = true) : (s.berth c.b).handler.isSome = true := by
  cases hx : (s.berth c.b).handler with
  | none => rw [(ctx_spec h).2.2 hx] at hh; cases hh
  | some _ => rfl

/-- In a handler no register outside its bank is named (R226). -/
theorem Runs.inBank {s : State} {c : Ctx} {md : Mode} {uses : List Use} (h : Runs s c md uses) (hh : c.hnd = true) :
    uses.any Use.outsideBank = false := by
  have h0 := h.2 0
  simp only [State.contextFault, hh, if_true] at h0
  cases hb : uses.any Use.outsideBank with
  | false => rfl
  | true => simp [hb] at h0

/-! ### Reads after writes -/

theorem State.readG_writeG {s : State} {c : Ctx} (h : s.ctx = some c) (d r : Nat) (v : Word) :
    (s.writeG c d v).readG c r 0 = if r = d then (if d = 0 then 0 else v) else s.readG c r 0 := by
  cases hh : c.hnd with
  | false => simp [State.readG, State.writeG, hh, Slip.getG_setG]
  | true =>
    have hs := ctx_handler h hh
    obtain ⟨x, hx⟩ := Option.isSome_iff_exists.mp hs
    simp only [State.readG, State.writeG, hh, if_true, State.berth_modHandler_self, hx, Option.map_some]
    by_cases hd : d = 0
    · subst hd; by_cases hr : r = 0 <;> simp [hr]
    · by_cases hr : r = d
      · subst hr; simp [hd]
      · simp [hd, hr]

theorem State.readW_writeW {s : State} {c : Ctx} (h : s.ctx = some c) (d r : Nat) (v : Wide) :
    (s.writeW c d v).readW c r 0 = if r = d then v else s.readW c r 0 := by
  cases hh : c.hnd with
  | false => simp [State.readW, State.writeW, hh, Slip.getW_setW]
  | true =>
    have hs := ctx_handler h hh
    obtain ⟨x, hx⟩ := Option.isSome_iff_exists.mp hs
    simp only [State.readW, State.writeW, hh, if_true, State.berth_modHandler_self, hx, Option.map_some, SMap.get_put]

theorem State.readF_writeF (s : State) (c : Ctx) (d r : Nat) (v : W32) :
    (s.writeF c d v).readF c r 0 = if r = d then v else s.readF c r 0 := by
  simp [State.readF, State.writeF, Slip.getF_setF]

theorem State.readQ_writeQ (s : State) {c : Ctx} (hh : c.hnd = false) (d r : Nat) (v : Bool) :
    (s.writeQ c d v).readQ c r 0 = if r = d then (if d = 0 then true else v) else s.readQ c r 0 := by
  simp [State.readQ, State.writeQ, hh, Slip.getQ_setQ]

theorem State.readM_writeM (s : State) {c : Ctx} (hh : c.hnd = false) (d r : Nat) (v : Word) :
    (s.writeM c d v).readM c r 0 = if r = d then (if d = 0 then BitVec.allOnes 64 else v) else s.readM c r 0 := by
  simp [State.readM, State.writeM, hh, Slip.getM_setM]

/-! ### What is kept -/

theorem addEvc_zero (p : Slip) (k : Nat) : p.addEvc k 0 = p := rfl

theorem Slip.count_none (p : Slip) : p.count {} = p := by
  unfold Slip.count; split <;> rfl

theorem Slip.addEvc_evc (p : Slip) (k n : Nat) :
    (p.addEvc k n).evc = if n = 0 then p.evc else SMap.put p.evc k (min evcMax (SMap.get 0 p.evc k + n)) := by
  unfold Slip.addEvc; split <;> rfl

/-- The counters after events depend on the counters before and on INTRAP (R93). -/
theorem Slip.count_evc_congr {p t : Slip} (h : p.intrap = t.intrap) (k : p.evc = t.evc) (ev : Ev) : (p.count ev).evc = (t.count ev).evc := by
  unfold Slip.count
  rw [h]
  split
  · exact k
  · simp only [Slip.addEvc_evc, k]

theorem KeptAll.refl (s : State) (c : Ctx) : KeptAll s s c [] {} :=
  { berths := fun _ _ => rfl, unit := rfl, slips := fun _ _ => rfl, slip := rfl, events := by rw [Slip.count_none]
    g := fun _ _ _ => rfl, f := fun _ _ _ => rfl, w := fun _ _ _ => rfl, q := fun _ _ _ => rfl, m := fun _ _ _ => rfl
    ownSlip := fun _ => rfl, tagged := fun _ => rfl, handler := fun _ => rfl, rest := rfl, timing := rfl }

/-- A change of one slip that keeps all but named registers. -/
theorem KeptAll.of_slip {s : State} {c : Ctx} (hh : c.hnd = false) (ex : List (RSet × Nat)) (ev : Ev) (p : Slip)
    (rest : p.rest = (s.slip c.b c.i).rest) (evc : p.evc = ((s.slip c.b c.i).count ev).evc)
    (g : ∀ r, r < 32 → (RSet.g, r) ∉ ex → p.getG r 0 = (s.slip c.b c.i).getG r 0)
    (f : ∀ r, r < 32 → (RSet.f, r) ∉ ex → p.getF r 0 = (s.slip c.b c.i).getF r 0)
    (w : ∀ r, r < 32 → (RSet.w, r) ∉ ex → p.getW r 0 = (s.slip c.b c.i).getW r 0)
    (q : ∀ r, r < 8 → (RSet.q, r) ∉ ex → p.getQ r 0 = (s.slip c.b c.i).getQ r 0)
    (m : ∀ r, r < 8 → (RSet.m, r) ∉ ex → p.getM r 0 = (s.slip c.b c.i).getM r 0) :
    KeptAll s (s.setSlip c.b c.i p) c ex ev :=
  { berths := fun b hb => by simp [hb]
    unit := by
      simp only [State.berth_setSlip_self]; rcases hi : c.i with _ | _ | _ | i <;> rfl
    slips := fun j hj => by simp [State.slip, Berth.slip_setSlip_of_other _ _ hj]
    slip := by simpa using rest
    events := by simpa using evc
    g := fun r hr hx => by simpa [State.readG, hh] using g r hr hx
    f := fun r hr hx => by simpa [State.readF] using f r hr hx
    w := fun r hr hx => by simpa [State.readW, hh] using w r hr hx
    q := fun r hr hx => by simpa [State.readQ, hh] using q r hr hx
    m := fun r hr hx => by simpa [State.readM, hh] using m r hr hx
    ownSlip := fun h => by rw [hh] at h; cases h
    tagged := fun h => by rw [hh] at h; cases h
    handler := fun _ => by simp
    rest := rfl
    timing := by simp }

/-- A change of the handler's bank that keeps all but named registers. -/
theorem KeptAll.of_handler {s : State} {c : Ctx} (hh : c.hnd = true) (ex : List (RSet × Nat)) (f : Handler → Handler)
    (tag : ∀ h, (f h).slip = h.slip ∧ (f h).source = h.source)
    (g : ∀ h r, r < 32 → (RSet.g, r) ∉ ex → SMap.get 0 (f h).g r = SMap.get 0 h.g r ∨ r = 0)
    (w : ∀ h r, r < 32 → (RSet.w, r) ∉ ex → SMap.get 0 (f h).w r = SMap.get 0 h.w r) :
    KeptAll s (s.modHandler c.b f) c ex {} :=
  { berths := fun b hb => by simp [hb]
    unit := by simp [Berth.rest]
    slips := fun j _ => by rcases j with _ | _ | _ | j <;> simp [State.slip, Berth.slip]
    slip := by rcases hi : c.i with _ | _ | _ | i <;> simp [State.slip, Berth.slip]
    events := by rw [Slip.count_none]; rcases hi : c.i with _ | _ | _ | i <;> simp [State.slip, Berth.slip]
    g := fun r hr hx => by
      cases hb : (s.berth c.b).handler with
      | none => simp [State.readG, hh, hb]
      | some h =>
        rcases g h r hr hx with e | e
        · simp only [State.readG, hh, if_true, State.berth_modHandler_self, hb, Option.map_some, e]
        · simp [State.readG, hh, hb, e]
    f := fun r _ _ => by
      have : (s.modHandler c.b f).slip c.b c.i = s.slip c.b c.i := by
        rcases hi : c.i with _ | _ | _ | i <;> simp [State.slip, Berth.slip]
      simp [State.readF, this]
    w := fun r hr hx => by
      cases hb : (s.berth c.b).handler with
      | none => simp [State.readW, hh, hb]
      | some h => simp only [State.readW, hh, if_true, State.berth_modHandler_self, hb, Option.map_some, w h r hr hx]
    q := fun _ _ _ => by simp [State.readQ, hh]
    m := fun _ _ _ => by simp [State.readM, hh]
    ownSlip := fun _ => by rcases hi : c.i with _ | _ | _ | i <;> simp [State.slip, Berth.slip]
    tagged := fun _ => by cases hb : (s.berth c.b).handler <;> simp [hb, tag]
    handler := fun h => by rw [hh] at h; cases h
    rest := rfl
    timing := by simp }

/-- Two changes in a row, the first without events. -/
theorem KeptAll.trans {s t u : State} {c : Ctx} {ex ex' : List (RSet × Nat)} {ev : Ev} (h : KeptAll s t c ex {}) (k : KeptAll t u c ex' ev) :
    KeptAll s u c (ex ++ ex') ev :=
  { berths := fun b hb => (k.berths b hb).trans (h.berths b hb)
    unit := k.unit.trans h.unit
    slips := fun j hj => (k.slips j hj).trans (h.slips j hj)
    slip := k.slip.trans h.slip
    events := by
      have e := h.events
      rw [Slip.count_none] at e
      have hp : (t.slip c.b c.i).rest.intrap = (s.slip c.b c.i).rest.intrap := congrArg Slip.intrap h.slip
      exact k.events.trans (Slip.count_evc_congr (p := t.slip c.b c.i) (t := s.slip c.b c.i) hp e ev)
    g := fun r hr hx => (k.g r hr (fun m => hx (by simp [m]))).trans (h.g r hr (fun m => hx (by simp [m])))
    f := fun r hr hx => (k.f r hr (fun m => hx (by simp [m]))).trans (h.f r hr (fun m => hx (by simp [m])))
    w := fun r hr hx => (k.w r hr (fun m => hx (by simp [m]))).trans (h.w r hr (fun m => hx (by simp [m])))
    q := fun r hr hx => (k.q r hr (fun m => hx (by simp [m]))).trans (h.q r hr (fun m => hx (by simp [m])))
    m := fun r hr hx => (k.m r hr (fun m => hx (by simp [m]))).trans (h.m r hr (fun m => hx (by simp [m])))
    ownSlip := fun hh => (k.ownSlip hh).trans (h.ownSlip hh)
    tagged := fun hh => (k.tagged hh).trans (h.tagged hh)
    handler := fun hh => (k.handler hh).trans (h.handler hh)
    rest := k.rest.trans h.rest
    timing := k.timing.trans h.timing }

/-! ### The named changes -/

theorem getF_of (p : Slip) (x : SMap Word) (r d : Nat) : Slip.getF { p with g := x } r d = p.getF r d := rfl

theorem keptAll_writeG {s : State} {c : Ctx} (d : Nat) (v : Word) : KeptAll s (s.writeG c d v) c [(.g, d)] {} := by
  cases hh : c.hnd with
  | true =>
    simp only [State.writeG, hh, if_true]
    refine .of_handler hh _ _ (fun h => ?_) (fun h r _ hx => ?_) (fun h r _ _ => ?_)
    · split <;> exact ⟨rfl, rfl⟩
    · have hne : r ≠ d := fun e => hx (by simp [e])
      split
      · exact .inl rfl
      · exact .inl (SMap.get_put_of_ne _ _ _ hne)
    · split <;> rfl
  | false =>
    simp only [State.writeG, hh, State.modSlip]
    refine .of_slip hh _ _ _ ?_ ?_ (fun r _ hx => ?_) (fun r _ _ => ?_) (fun r _ _ => ?_) (fun r _ _ => ?_) (fun r _ _ => ?_)
    · unfold Slip.setG; split <;> rfl
    · rw [Slip.count_none]; unfold Slip.setG; split <;> rfl
    · have hne : r ≠ d := fun e => hx (by simp [e])
      rw [Slip.getG_setG, if_neg hne]
    all_goals (unfold Slip.setG; split <;> rfl)

theorem keptAll_writeW {s : State} {c : Ctx} (d : Nat) (v : Wide) : KeptAll s (s.writeW c d v) c [(.w, d)] {} := by
  cases hh : c.hnd with
  | true =>
    simp only [State.writeW, hh, if_true]
    refine .of_handler hh _ _ (fun h => ⟨rfl, rfl⟩) (fun h r _ hx => .inl rfl) (fun h r _ hx => ?_)
    have hne : r ≠ d := fun e => hx (by simp [e])
    exact SMap.get_put_of_ne _ _ _ hne
  | false =>
    simp only [State.writeW, hh, State.modSlip]
    refine .of_slip hh _ _ _ rfl (by rw [Slip.count_none]; rfl) (fun r _ _ => rfl) (fun r _ _ => rfl) (fun r _ hx => ?_)
      (fun r _ _ => rfl) (fun r _ _ => rfl)
    have hne : r ≠ d := fun e => hx (by simp [e])
    rw [Slip.getW_setW, if_neg hne]

theorem keptAll_writeF {s : State} {c : Ctx} (hh : c.hnd = false) (d : Nat) (v : W32) : KeptAll s (s.writeF c d v) c [(.f, d)] {} := by
  refine .of_slip hh _ _ _ rfl (by rw [Slip.count_none]; rfl) (fun r _ _ => rfl) (fun r _ hx => ?_) (fun r _ _ => rfl)
    (fun r _ _ => rfl) (fun r _ _ => rfl)
  have hne : r ≠ d := fun e => hx (by simp [e])
  rw [Slip.getF_setF, if_neg hne]

theorem keptAll_writeQ {s : State} {c : Ctx} (d : Nat) (v : Bool) : KeptAll s (s.writeQ c d v) c [(.q, d)] {} := by
  cases hh : c.hnd with
  | true =>
    simp only [State.writeQ, hh, if_true]
    have h := KeptAll.refl s c
    exact { h with
      g := fun r hr _ => h.g r hr (by simp), f := fun r hr _ => h.f r hr (by simp), w := fun r hr _ => h.w r hr (by simp)
      q := fun r hr _ => h.q r hr (by simp), m := fun r hr _ => h.m r hr (by simp) }
  | false =>
    simp only [State.writeQ, hh, State.modSlip]
    refine .of_slip hh _ _ _ ?_ ?_ (fun r _ _ => ?_) (fun r _ _ => ?_) (fun r _ _ => ?_) (fun r _ hx => ?_) (fun r _ _ => ?_)
    · unfold Slip.setQ; split <;> rfl
    · rw [Slip.count_none]; unfold Slip.setQ; split <;> rfl
    · unfold Slip.setQ; split <;> rfl
    · unfold Slip.setQ; split <;> rfl
    · unfold Slip.setQ; split <;> rfl
    · have hne : r ≠ d := fun e => hx (by simp [e])
      rw [Slip.getQ_setQ, if_neg hne]
    · unfold Slip.setQ; split <;> rfl

theorem keptAll_writeM {s : State} {c : Ctx} (d : Nat) (v : Word) : KeptAll s (s.writeM c d v) c [(.m, d)] {} := by
  cases hh : c.hnd with
  | true =>
    simp only [State.writeM, hh, if_true]
    have h := KeptAll.refl s c
    exact { h with
      g := fun r hr _ => h.g r hr (by simp), f := fun r hr _ => h.f r hr (by simp), w := fun r hr _ => h.w r hr (by simp)
      q := fun r hr _ => h.q r hr (by simp), m := fun r hr _ => h.m r hr (by simp) }
  | false =>
    simp only [State.writeM, hh, State.modSlip]
    refine .of_slip hh _ _ _ ?_ ?_ (fun r _ _ => ?_) (fun r _ _ => ?_) (fun r _ _ => ?_) (fun r _ _ => ?_) (fun r _ hx => ?_)
    · unfold Slip.setM; split <;> rfl
    · rw [Slip.count_none]; unfold Slip.setM; split <;> rfl
    · unfold Slip.setM; split <;> rfl
    · unfold Slip.setM; split <;> rfl
    · unfold Slip.setM; split <;> rfl
    · unfold Slip.setM; split <;> rfl
    · have hne : r ≠ d := fun e => hx (by simp [e])
      rw [Slip.getM_setM, if_neg hne]

/-! ### Events, and the queue's step -/

theorem Slip.count_eq (p : Slip) (ev : Ev) : p.count ev = { p with evc := (p.count ev).evc } := by
  unfold Slip.count
  split
  · rfl
  · unfold Slip.addEvc
    repeat' split
    all_goals rfl

theorem keptAll_count (s : State) (c : Ctx) (ev : Ev) : KeptAll s (s.count c ev) c [] ev := by
  by_cases hz : ev = Ev.zero
  · subst hz; simp only [State.count, if_true]; exact KeptAll.refl s c
  · simp only [State.count, hz, if_false]
    have he := (s.slip c.b c.i).count_eq ev
    exact
      { berths := fun b hb => by simp [hb]
        unit := by simp only [State.berth_modSlip_self]; rcases c.i with _ | _ | _ | i <;> rfl
        slips := fun j hj => by simp [State.slip, Berth.slip_setSlip_of_other _ _ hj]
        slip := by simp only [State.slip_modSlip_self]; rw [he]; rfl
        events := by simp
        g := fun r _ _ => by
          cases hh : c.hnd with
          | true => simp [State.readG, hh]
          | false => simp only [State.readG, hh, State.slip_modSlip_self]; rw [he]; rfl
        f := fun r _ _ => by simp only [State.readF, State.slip_modSlip_self]; rw [he]; rfl
        w := fun r _ _ => by
          cases hh : c.hnd with
          | true => simp [State.readW, hh]
          | false => simp only [State.readW, hh, State.slip_modSlip_self]; rw [he]; rfl
        q := fun r _ _ => by
          cases hh : c.hnd with
          | true => simp [State.readQ, hh]
          | false => simp only [State.readQ, hh, State.slip_modSlip_self]; rw [he]; rfl
        m := fun r _ _ => by
          cases hh : c.hnd with
          | true => simp [State.readM, hh]
          | false => simp only [State.readM, hh, State.slip_modSlip_self]; rw [he]; rfl
        ownSlip := fun _ => by simp only [State.slip_modSlip_self]; rw [he]; rfl
        tagged := fun _ => by simp
        handler := fun _ => by simp
        rest := rfl
        timing := by simp }

/-- A slip after the queue's step, with its instruction count. -/
theorem Slip.same_advanced (p : Slip) (len : Word → Option Nat) (br : Option Branch) (n : Word) :
    p.Same { p.advance len br with instret := n, begun := false } :=
  (p.same_advance len br).trans
    ⟨rfl, rfl, fun _ _ => rfl, fun _ _ => rfl, fun _ _ => rfl, fun _ _ => rfl, fun _ _ => rfl⟩

/-- The queue's step keeps every register's value at distance 0 and everything else but queue, loops and instruction count. -/
theorem keptAll_advance (s : State) (c : Ctx) (br : Option Branch) (x : Bool) : KeptAll s (s.advance c br x) c [] {} := by
  cases hh : c.hnd with
  | true =>
    simp only [State.advance, hh, if_true]
    exact .of_handler hh _ _ (fun h => ⟨rfl, rfl⟩) (fun h r _ _ => .inl rfl) (fun h r _ _ => rfl)
  | false =>
    simp only [State.advance, hh, State.modSlip]
    have h := (s.slip c.b c.i).same_advanced (s.lenAt c) br
      (if x then ((s.slip c.b c.i).advance (s.lenAt c) br).instret + 1 else ((s.slip c.b c.i).advance (s.lenAt c) br).instret)
    exact .of_slip hh _ _ _ h.rest (by rw [Slip.count_none]; exact h.evc) (fun r hr _ => h.g r hr) (fun r hr _ => h.f r hr)
      (fun r hr _ => h.w r hr) (fun r hr _ => h.q r hr) (fun r hr _ => h.m r hr)

/-- Two changes in a row, the second without events. -/
theorem KeptAll.trans_none {s t u : State} {c : Ctx} {ex ex' : List (RSet × Nat)} {ev : Ev} (h : KeptAll s t c ex ev)
    (k : KeptAll t u c ex' {}) : KeptAll s u c (ex ++ ex') ev :=
  { berths := fun b hb => (k.berths b hb).trans (h.berths b hb)
    unit := k.unit.trans h.unit
    slips := fun j hj => (k.slips j hj).trans (h.slips j hj)
    slip := k.slip.trans h.slip
    events := by have e := k.events; rw [Slip.count_none] at e; exact e.trans h.events
    g := fun r hr hx => (k.g r hr (fun m => hx (by simp [m]))).trans (h.g r hr (fun m => hx (by simp [m])))
    f := fun r hr hx => (k.f r hr (fun m => hx (by simp [m]))).trans (h.f r hr (fun m => hx (by simp [m])))
    w := fun r hr hx => (k.w r hr (fun m => hx (by simp [m]))).trans (h.w r hr (fun m => hx (by simp [m])))
    q := fun r hr hx => (k.q r hr (fun m => hx (by simp [m]))).trans (h.q r hr (fun m => hx (by simp [m])))
    m := fun r hr hx => (k.m r hr (fun m => hx (by simp [m]))).trans (h.m r hr (fun m => hx (by simp [m])))
    ownSlip := fun hh => (k.ownSlip hh).trans (h.ownSlip hh)
    tagged := fun hh => (k.tagged hh).trans (h.tagged hh)
    handler := fun hh => (k.handler hh).trans (h.handler hh)
    rest := k.rest.trans h.rest
    timing := k.timing.trans h.timing }

/-! ### A register instruction: its write, its events, the queue's step -/

/-- Whoever executes still does after a change that keeps all but registers. -/
theorem KeptAll.count_advance {s t : State} {c : Ctx} {ex : List (RSet × Nat)} (h : KeptAll s t c ex {}) (ev : Ev) (br : Option Branch) (x : Bool) :
    KeptAll s ((t.count c ev).advance c br x) c ex ev := by
  have k := (h.trans (keptAll_count t c ev)).trans_none (keptAll_advance (t.count c ev) c br x)
  simpa using k

theorem KeptAll.advance {s t : State} {c : Ctx} {ex : List (RSet × Nat)} {ev : Ev} (h : KeptAll s t c ex ev) (br : Option Branch) (x : Bool) :
    KeptAll s (t.advance c br x) c ex ev := by
  have k := h.trans_none (keptAll_advance t c br x)
  simpa using k

end Sys2Proof.Machine
end

