-- ==== Sys2Proof/Laws/Gives.lean ====
section
/-! SUPPORT. Laws of completion: an instruction of the shared shape whose body writes one register, with its events, completes with
that register's value and keeps everything else. -/
namespace Sys2Proof.Claims
open Sys2Proof Sys2Proof.Machine

@[simp] theorem count_none (s : State) (c : Ctx) : s.count c {} = s := rfl

theorem givesG {i : Instr} {s : State} {c : Ctx} {md : Mode} {uses : List Use} {word d : Nat} {v : Word} {ev : Ev}
    {body : Ctx → State → Res} (hd : d < 32) (h : Runs s c md uses) (he : exec i s = instr word md uses body s)
    (hb : body c s = .ok ((s.writeG c d v).count c ev)) : GivesG i s c d v ev := by
  refine ⟨_, (he.trans (instr_runs h _ _)).trans (by rw [hb]; rfl), ?_, (keptAll_writeG d v).count_advance ev none true⟩
  rw [(keptAll_advance ((s.writeG c d v).count c ev) c none true).g d hd (by simp),
    (keptAll_count (s.writeG c d v) c ev).g d hd (by simp), State.readG_writeG h.1]
  simp

theorem givesF {i : Instr} {s : State} {c : Ctx} {md : Mode} {uses : List Use} {word d : Nat} {v : W32} {ev : Ev}
    {body : Ctx → State → Res} (hd : d < 32) (h : Runs s c md uses) (hh : c.hnd = false) (he : exec i s = instr word md uses body s)
    (hb : body c s = .ok ((s.writeF c d v).count c ev)) : GivesF i s c d v ev := by
  refine ⟨_, (he.trans (instr_runs h _ _)).trans (by rw [hb]; rfl), ?_, (keptAll_writeF hh d v).count_advance ev none true⟩
  rw [(keptAll_advance ((s.writeF c d v).count c ev) c none true).f d hd (by simp),
    (keptAll_count (s.writeF c d v) c ev).f d hd (by simp), State.readF_writeF]
  simp

theorem givesQ {i : Instr} {s : State} {c : Ctx} {md : Mode} {uses : List Use} {word d : Nat} {v : Bool}
    {body : Ctx → State → Res} (hd : d < 8) (h : Runs s c md uses) (hq : c.hnd = true → d = 0) (he : exec i s = instr word md uses body s)
    (hb : body c s = .ok (s.writeQ c d v)) : GivesQ i s c d v := by
  refine ⟨_, (he.trans (instr_runs h _ _)).trans (by rw [hb]; rfl), ?_, by simpa using (keptAll_writeQ d v).advance none true⟩
  rw [(keptAll_advance (s.writeQ c d v) c none true).q d hd (by simp)]
  cases hh : c.hnd with
  | true => rw [hq hh]; simp [State.readQ, hh]
  | false => rw [State.readQ_writeQ s hh]; simp

theorem givesM {i : Instr} {s : State} {c : Ctx} {md : Mode} {uses : List Use} {word d : Nat} {v : Word}
    {body : Ctx → State → Res} (hd : d < 8) (h : Runs s c md uses) (hq : c.hnd = true → d = 0) (he : exec i s = instr word md uses body s)
    (hb : body c s = .ok (s.writeM c d v)) : GivesM i s c d v := by
  refine ⟨_, (he.trans (instr_runs h _ _)).trans (by rw [hb]; rfl), ?_, by simpa using (keptAll_writeM d v).advance none true⟩
  rw [(keptAll_advance (s.writeM c d v) c none true).m d hd (by simp)]
  cases hh : c.hnd with
  | true => rw [hq hh]; simp [State.readM, hh]
  | false => rw [State.readM_writeM s hh]; simp

/-- The w register that an instruction writes reads as written. -/
theorem givesW_value {i : Instr} {s : State} {c : Ctx} {md : Mode} {uses : List Use} {word d : Nat} {v : Wide} {ev : Ev}
    {body : Ctx → State → Res} (hd : d < 32) (h : Runs s c md uses) (he : exec i s = instr word md uses body s)
    (hb : body c s = .ok ((s.writeW c d v).count c ev)) :
    ∃ t, exec i s = .next t ∧ t.readW c d 0 = v ∧ KeptAll s t c [(.w, d)] ev := by
  refine ⟨_, (he.trans (instr_runs h _ _)).trans (by rw [hb]; rfl), ?_, (keptAll_writeW d v).count_advance ev none true⟩
  rw [(keptAll_advance ((s.writeW c d v).count c ev) c none true).w d hd (by simp),
    (keptAll_count (s.writeW c d v) c ev).w d hd (by simp), State.readW_writeW h.1]
  simp

/-! ### Elements of a wide value -/

theorem packElems_elem (e : Nat) : ∀ (xs : List Nat) (j : Nat), (packElems e xs >>> (e * j)) % (1 <<< e) = xs.getD j 0 % (1 <<< e)
  | [], j => by simp [packElems]
  | x :: xs, 0 => by
    simp only [packElems, Nat.mul_zero, Nat.shiftRight_zero, List.getD_cons_zero, Nat.shiftLeft_eq, Nat.one_mul]
    rw [Nat.add_mul_mod_self_right, Nat.mod_mod]
  | x :: xs, j + 1 => by
    have ih := packElems_elem e xs j
    simp only [packElems, List.getD_cons_succ, Nat.shiftLeft_eq, Nat.one_mul, Nat.shiftRight_eq_div_pow] at ih ⊢
    rw [← ih, Nat.mul_succ, Nat.add_comm (e * j) e, Nat.pow_add, ← Nat.div_div_eq_div_mul]
    have hx : x % 2 ^ e / 2 ^ e = 0 := Nat.div_eq_of_lt (Nat.mod_lt _ (Nat.two_pow_pos e))
    rw [Nat.add_mul_div_right _ _ (Nat.two_pow_pos e), hx, Nat.zero_add]

/-- Element j of a value packed from a list is the list's j-th entry, zero past its end. -/
theorem elemOf_wideOf (k : Nat) (xs : List Nat) (j : Nat) (h : k * j + k ≤ 512) : elemOf (wideOf k xs) k j = xs.getD j 0 % (1 <<< k) := by
  unfold elemOf wideOf
  rw [BitVec.toNat_ofNat, ← packElems_elem k xs j]
  simp only [Nat.shiftLeft_eq, Nat.one_mul, Nat.shiftRight_eq_div_pow]
  apply Nat.eq_of_testBit_eq
  intro i
  simp only [Nat.testBit_mod_two_pow, Nat.testBit_div_two_pow]
  by_cases hi : i < k
  · have : i + k * j < 512 := by omega
    simp [hi, this]
  · simp [hi]

end Sys2Proof.Claims
end

