-- ==== Sys2Proof/Laws/Memory.lean ====
section
/-! SUPPORT. Laws of memory: what a byte reads after a store or a clearing, what a number reads after it was stored, and that every
memory operation keeps the canonical form. -/
namespace Sys2Proof.Machine
open Sys2Proof

/-! ### The canonical form -/

theorem Memory.wf_write {m : List Host.Cell} (h : Memory.wf m) (k : Nat) (v : Byte) : Memory.wf (Memory.write m k v) :=
  SMap.wf_set _ m k v h

theorem Memory.wf_writeBytes : ∀ (bs : List Byte) {m : List Host.Cell} (_ : Memory.wf m) (k : Nat), Memory.wf (Memory.writeBytes m k bs)
  | [], _, h, _ => h
  | b :: bs, _, h, k => Memory.wf_writeBytes bs (Memory.wf_write h k b) (k + 1)

theorem Memory.wf_filter {m : List Host.Cell} (h : Memory.wf m) (p : Host.Cell → Bool) : Memory.wf (m.filter p) :=
  SMap.wf_filter _ p m h

/-- Writing back a list of cells, each at a key computed from its own. -/
theorem Memory.wf_restore (f : Nat → Nat) : ∀ (l : List Host.Cell) {m : List Host.Cell}, Memory.wf m →
    Memory.wf (l.foldl (fun m c => Memory.write m (f c.1) c.2) m)
  | [], _, h => h
  | c :: l, _, h => Memory.wf_restore f l (Memory.wf_write h (f c.1) c.2)

theorem State.wf_poke {s : State} (h : Memory.wf s.mem) (k : Nat) (bs : List Byte) : Memory.wf (s.poke k bs).mem := Memory.wf_writeBytes bs h k
theorem State.wf_pokeNat {s : State} (h : Memory.wf s.mem) (k n v : Nat) : Memory.wf (s.pokeNat k n v).mem := State.wf_poke h k _
theorem State.wf_zero {s : State} (h : Memory.wf s.mem) (k n : Nat) : Memory.wf (s.zero k n).mem := Memory.wf_filter h _

/-! ### What a byte reads -/

theorem Memory.read_write (m : List Host.Cell) (k j : Nat) (v : Byte) : Memory.read (Memory.write m k v) j = if j = k then v else Memory.read m j :=
  SMap.get_set _ m k j v

theorem Memory.read_writeBytes : ∀ (bs : List Byte) (m : List Host.Cell) (k a : Nat),
    Memory.read (Memory.writeBytes m k bs) a = if k ≤ a ∧ a < k + bs.length then bs.getD (a - k) 0 else Memory.read m a
  | [], m, k, a => by
    rw [if_neg (by simp)]; rfl
  | b :: bs, m, k, a => by
    rw [Memory.writeBytes, Memory.read_writeBytes bs, Memory.read_write]
    by_cases hk : a = k
    · subst hk; simp [show ¬ a + 1 ≤ a by omega]
    · by_cases h : k ≤ a ∧ a < k + (bs.length + 1)
      · have e : a - k = (a - (k + 1)) + 1 := by omega
        simp [h, e, show k + 1 ≤ a by omega, show a < k + 1 + bs.length by omega]
      · rw [List.length_cons, if_neg (show ¬ (k + 1 ≤ a ∧ a < k + 1 + bs.length) by omega), if_neg hk, if_neg h]

/-- A byte after a store. -/
theorem State.byteAt_poke (s : State) (k a : Nat) (bs : List Byte) :
    (s.poke k bs).byteAt a = if k ≤ a ∧ a < k + bs.length then bs.getD (a - k) 0 else s.byteAt a :=
  Memory.read_writeBytes bs s.mem k a

theorem State.byteAt_poke_out {s : State} {k a : Nat} {bs : List Byte} (h : a < k ∨ k + bs.length ≤ a) : (s.poke k bs).byteAt a = s.byteAt a := by
  rw [State.byteAt_poke, if_neg (by omega)]

theorem Memory.read_filter (p : Nat → Bool) : ∀ (m : List Host.Cell) (a : Nat),
    Memory.read (m.filter (fun c => p c.1)) a = if p a = true then Memory.read m a else 0
  | [], a => by simp [Memory.read, SMap.get, Memory.blank]
  | (k, v) :: m, a => by
    have ih := Memory.read_filter p m a
    simp only [Memory.read] at ih ⊢
    by_cases hk : k = a
    · subst hk
      by_cases hp : p k = true
      · simp [hp, SMap.get]
      · simp [hp, ih]
    · by_cases hp : p k = true
      · simp [hp, SMap.get, hk, ih]
      · simp [hp, SMap.get, hk, ih]

/-- A byte after n bytes were made zero. -/
theorem State.byteAt_zero (s : State) (k n a : Nat) : (s.zero k n).byteAt a = if k ≤ a ∧ a < k + n then 0 else s.byteAt a := by
  have h := Memory.read_filter (fun c => !(decide (k ≤ c) && decide (c < k + n))) s.mem a
  simp only [State.byteAt, State.zero]
  rw [h]
  by_cases hp : k ≤ a ∧ a < k + n <;> simp [hp]

/-! ### Ranges of bytes and numbers -/

@[simp] theorem Memory.length_readBytes : ∀ (m : List Host.Cell) (k n : Nat), (Memory.readBytes m k n).length = n
  | _, _, 0 => rfl
  | m, k, n + 1 => by simp [Memory.readBytes, Memory.length_readBytes m (k + 1) n]

@[simp] theorem State.length_bytesAt (s : State) (k n : Nat) : (s.bytesAt k n).length = n := Memory.length_readBytes _ _ _

theorem Memory.readBytes_congr : ∀ {m m' : List Host.Cell} {k n : Nat}, (∀ a, k ≤ a → a < k + n → Memory.read m a = Memory.read m' a) →
    Memory.readBytes m k n = Memory.readBytes m' k n
  | _, _, _, 0, _ => rfl
  | m, m', k, n + 1, h => by
    rw [Memory.readBytes, Memory.readBytes, h k (by omega) (by omega),
      Memory.readBytes_congr (k := k + 1) (n := n) (fun a h1 h2 => h a (by omega) (by omega))]

/-- A range reads alike in two states whose bytes there are alike. -/
theorem State.bytesAt_congr {s t : State} {k n : Nat} (h : ∀ a, k ≤ a → a < k + n → s.byteAt a = t.byteAt a) : s.bytesAt k n = t.bytesAt k n :=
  Memory.readBytes_congr h

theorem State.natAt_congr {s t : State} {k n : Nat} (h : ∀ a, k ≤ a → a < k + n → s.byteAt a = t.byteAt a) : s.natAt k n = t.natAt k n := by
  rw [State.natAt, State.natAt, State.bytesAt_congr h]

@[simp] theorem length_leBytes : ∀ n v, (leBytes n v).length = n
  | 0, _ => rfl
  | n + 1, v => by simp [leBytes, length_leBytes n]

theorem Memory.readBytes_writeBytes : ∀ (bs : List Byte) (m : List Host.Cell) (k : Nat), Memory.readBytes (Memory.writeBytes m k bs) k bs.length = bs
  | [], _, _ => rfl
  | b :: bs, m, k => by
    rw [List.length_cons, Memory.readBytes, Memory.writeBytes, Memory.readBytes_writeBytes bs, Memory.read_writeBytes,
      if_neg (by omega), Memory.read_write, if_pos rfl]

/-- What was stored reads back. -/
theorem State.bytesAt_poke (s : State) (k : Nat) (bs : List Byte) : (s.poke k bs).bytesAt k bs.length = bs := Memory.readBytes_writeBytes bs s.mem k

theorem leNat_leBytes : ∀ n v, leNat (leBytes n v) = v % 256 ^ n
  | 0, v => by simp [leBytes, leNat, Nat.mod_one]
  | n + 1, v => by
    rw [leBytes, leNat, leNat_leBytes n, Nat.pow_succ', Nat.mod_mul]
    simp

/-- A number that was stored reads back. -/
theorem State.natAt_pokeNat (s : State) (k n v : Nat) : (s.pokeNat k n v).natAt k n = v % 256 ^ n := by
  have h := State.bytesAt_poke s k (leBytes n v)
  rw [length_leBytes] at h
  rw [State.natAt, State.pokeNat, h, leNat_leBytes]

end Sys2Proof.Machine
end

