-- ==== Sys2Proof/Laws/PerInstr.lean ====
section
/-! SUPPORT. For each instruction: its word decodes to it (log: the family Encoding). -/
namespace Sys2Proof.Laws
open Sys2Proof

/-- The family: a well-formed instruction that has a word is what its word decodes to. -/
def Encoding.Statement (i : Instr) : Prop := i.wellFormed = true → i.len ≠ 0 → decodeWord i.len (encode i) = .ok i

/-- Fields beside one another, the lowest first: each its width and its value. -/
def pack : List (Nat × Nat) → Nat
  | [] => 0
  | e :: t => e.2 + 2 ^ e.1 * pack t

theorem pack_shift (w v : Nat) (t : List (Nat × Nat)) (lo : Nat) (hv : v < 2 ^ w) (hl : w ≤ lo) :
    pack ((w, v) :: t) >>> lo = pack t >>> (lo - w) := by
  obtain ⟨k, rfl⟩ := Nat.exists_eq_add_of_le hl
  rw [Nat.add_sub_cancel_left, Nat.shiftRight_add]
  congr 1
  rw [pack, Nat.shiftRight_eq_div_pow, Nat.add_mul_div_left _ _ (Nat.two_pow_pos w), Nat.div_eq_of_lt hv, Nat.zero_add]

@[simp] theorem fld_skip {w v : Nat} {t : List (Nat × Nat)} {lo n : Nat} (hv : v < 2 ^ w) (hl : w ≤ lo) :
    fld (pack ((w, v) :: t)) lo n = fld (pack t) (lo - w) n := by
  rw [fld, pack_shift w v t lo hv hl, fld]

@[simp] theorem fld_here {n : Nat} (v : BitVec n) (t : List (Nat × Nat)) : fld (pack ((n, v.toNat) :: t)) 0 n = v := by
  apply BitVec.eq_of_toNat_eq
  simp [fld, pack, Nat.add_mul_mod_self_left, Nat.mod_eq_of_lt v.isLt]

@[simp] theorem bits_skip {w v : Nat} {t : List (Nat × Nat)} {hi lo : Nat} (hv : v < 2 ^ w) (hl : w ≤ lo) :
    bitsOf (pack ((w, v) :: t)) hi lo = bitsOf (pack t) (hi - w) (lo - w) := by
  rw [bitsOf, pack_shift w v t lo hv hl, bitsOf, Nat.sub_sub_sub_cancel_right hl]

@[simp] theorem bits_here {w v : Nat} {t : List (Nat × Nat)} {hi lo : Nat} (hh : hi < w) (hl : lo ≤ hi) :
    bitsOf (pack ((w, v) :: t)) hi lo = v / 2 ^ lo % 2 ^ (hi - lo + 1) := by
  obtain ⟨k, rfl⟩ : ∃ k, w = lo + (hi - lo + 1) + k := ⟨w - (lo + (hi - lo + 1)), by omega⟩
  rw [bitsOf, pack, Nat.shiftRight_eq_div_pow, Nat.one_shiftLeft, Nat.pow_add, Nat.pow_add, Nat.mul_assoc, Nat.mul_assoc,
    Nat.add_mul_div_left _ _ (Nat.two_pow_pos lo), Nat.add_mul_mod_self_left]

@[simp] theorem bits_across {w v : Nat} {t : List (Nat × Nat)} {hi lo : Nat} (hv : v < 2 ^ w) (hl : lo < w) (hh : w ≤ hi) :
    bitsOf (pack ((w, v) :: t)) hi lo = v / 2 ^ lo + 2 ^ (w - lo) * bitsOf (pack t) (hi - w) 0 := by
  obtain ⟨k, rfl⟩ : ∃ k, w = lo + k := ⟨w - lo, by omega⟩
  obtain ⟨j, rfl⟩ : ∃ j, hi = lo + k + j := ⟨hi - (lo + k), by omega⟩
  rw [bitsOf, bitsOf, pack, Nat.shiftRight_eq_div_pow, Nat.one_shiftLeft, Nat.one_shiftLeft, Nat.shiftRight_zero, Nat.pow_add,
    Nat.mul_assoc, Nat.add_mul_div_left _ _ (Nat.two_pow_pos lo)]
  have e1 : lo + k + j - lo + 1 = k + (j + 1) := by omega
  have e2 : lo + k - lo = k := by omega
  have e3 : lo + k + j - (lo + k) - 0 + 1 = j + 1 := by omega
  have hd : v / 2 ^ lo < 2 ^ k := by
    apply Nat.div_lt_of_lt_mul
    rwa [← Nat.pow_add]
  rw [e1, e2, e3, Nat.pow_add, Nat.mod_mul]
  simp only [Nat.add_mul_mod_self_left, Nat.mod_eq_of_lt hd, Nat.add_mul_div_left _ _ (Nat.two_pow_pos k), Nat.div_eq_of_lt hd, Nat.zero_add]

theorem compact (w : Nat) : decodeWord 2 w = decode16 w := rfl
theorem ok_false (i : Instr) : ok false i = .ok i := rfl
theorem bitOf_bits (v i : Nat) : bitOf v i = (bitsOf v i i == 1) := by simp [bitOf, bitsOf]

theorem major_00 {w : Nat} (h : bitsOf w 6 1 = 0) : decodeWord 4 w = dec00 w := by rw [decodeWord, if_pos rfl, decode32, h]; rfl
theorem major_01 {w : Nat} (h : bitsOf w 6 1 = 1) : decodeWord 4 w = dec01 w := by rw [decodeWord, if_pos rfl, decode32, h]; rfl
theorem major_02 {w : Nat} (h : bitsOf w 6 1 = 2) : decodeWord 4 w = dec02 w := by rw [decodeWord, if_pos rfl, decode32, h]; rfl
theorem major_03 {w : Nat} (h : bitsOf w 6 1 = 3) : decodeWord 4 w = dec03 w := by rw [decodeWord, if_pos rfl, decode32, h]; rfl
theorem major_04 {w : Nat} (h : bitsOf w 6 1 = 4) : decodeWord 4 w = dec04 w := by rw [decodeWord, if_pos rfl, decode32, h]; rfl
theorem major_05 {w : Nat} (h : bitsOf w 6 1 = 5) : decodeWord 4 w = dec05 w := by rw [decodeWord, if_pos rfl, decode32, h]; rfl
theorem major_06 {w : Nat} (h : bitsOf w 6 1 = 6) : decodeWord 4 w = dec06 w := by rw [decodeWord, if_pos rfl, decode32, h]; rfl
theorem major_07 {w : Nat} (h : bitsOf w 6 1 = 7) : decodeWord 4 w = dec07 w := by rw [decodeWord, if_pos rfl, decode32, h]; rfl
theorem major_08 {w : Nat} (h : bitsOf w 6 1 = 8) : decodeWord 4 w = dec08 w := by rw [decodeWord, if_pos rfl, decode32, h]; rfl
theorem major_09 {w : Nat} (h : bitsOf w 6 1 = 9) : decodeWord 4 w = dec09 w := by rw [decodeWord, if_pos rfl, decode32, h]; rfl
theorem major_0A {w : Nat} (h : bitsOf w 6 1 = 10) : decodeWord 4 w = dec0A w := by rw [decodeWord, if_pos rfl, decode32, h]; rfl
theorem major_0B {w : Nat} (h : bitsOf w 6 1 = 11) : decodeWord 4 w = dec0B w := by rw [decodeWord, if_pos rfl, decode32, h]; rfl
theorem major_0C {w : Nat} (h : bitsOf w 6 1 = 12) : decodeWord 4 w = dec0C w := by rw [decodeWord, if_pos rfl, decode32, h]; rfl
theorem major_0D {w : Nat} (h : bitsOf w 6 1 = 13) : decodeWord 4 w = dec0D w := by rw [decodeWord, if_pos rfl, decode32, h]; rfl
theorem major_0E {w : Nat} (h : bitsOf w 6 1 = 14) : decodeWord 4 w = dec0E w := by rw [decodeWord, if_pos rfl, decode32, h]; rfl
theorem major_0F {w : Nat} (h : bitsOf w 6 1 = 15) : decodeWord 4 w = dec0F w := by rw [decodeWord, if_pos rfl, decode32, h]; rfl
theorem major_10 {w : Nat} (h : bitsOf w 6 1 = 16) : decodeWord 4 w = dec10 w := by rw [decodeWord, if_pos rfl, decode32, h]; rfl
theorem major_11 {w : Nat} (h : bitsOf w 6 1 = 17) : decodeWord 4 w = dec11 w := by rw [decodeWord, if_pos rfl, decode32, h]; rfl
theorem major_12 {w : Nat} (h : bitsOf w 6 1 = 18) : decodeWord 4 w = dec12 w := by rw [decodeWord, if_pos rfl, decode32, h]; rfl
theorem major_13 {w : Nat} (h : bitsOf w 6 1 = 19) : decodeWord 4 w = dec13 w := by rw [decodeWord, if_pos rfl, decode32, h]; rfl
theorem major_14 {w : Nat} (h : bitsOf w 6 1 = 20) : decodeWord 4 w = dec14 w := by rw [decodeWord, if_pos rfl, decode32, h]; rfl
theorem major_15 {w : Nat} (h : bitsOf w 6 1 = 21) : decodeWord 4 w = dec15 w := by rw [decodeWord, if_pos rfl, decode32, h]; rfl
theorem major_16 {w : Nat} (h : bitsOf w 6 1 = 22) : decodeWord 4 w = dec16 w := by rw [decodeWord, if_pos rfl, decode32, h]; rfl
theorem major_17 {w : Nat} (h : bitsOf w 6 1 = 23) : decodeWord 4 w = dec17 w := by rw [decodeWord, if_pos rfl, decode32, h]; rfl
theorem major_18 {w : Nat} (h : bitsOf w 6 1 = 24) : decodeWord 4 w = dec18 w := by rw [decodeWord, if_pos rfl, decode32, h]; rfl
theorem major_19 {w : Nat} (h : bitsOf w 6 1 = 25) : decodeWord 4 w = dec19 w := by rw [decodeWord, if_pos rfl, decode32, h]; rfl
theorem major_1A {w : Nat} (h : bitsOf w 6 1 = 26) : decodeWord 4 w = dec1A w := by rw [decodeWord, if_pos rfl, decode32, h]; rfl
theorem major_1B {w : Nat} (h : bitsOf w 6 1 = 27) : decodeWord 4 w = dec1B w := by rw [decodeWord, if_pos rfl, decode32, h]; rfl
theorem major_1C {w : Nat} (h : bitsOf w 6 1 = 28) : decodeWord 4 w = dec1C w := by rw [decodeWord, if_pos rfl, decode32, h]; rfl
theorem major_1D {w : Nat} (h : bitsOf w 6 1 = 29) : decodeWord 4 w = dec1D w := by rw [decodeWord, if_pos rfl, decode32, h]; rfl
theorem major_1E {w : Nat} (h : bitsOf w 6 1 = 30) : decodeWord 4 w = dec1E w := by rw [decodeWord, if_pos rfl, decode32, h]; rfl
theorem major_1F {w : Nat} (h : bitsOf w 6 1 = 31) : decodeWord 4 w = dec1F w := by rw [decodeWord, if_pos rfl, decode32, h]; rfl
theorem major_20 {w : Nat} (h : bitsOf w 6 1 = 32) : decodeWord 4 w = dec20 w := by rw [decodeWord, if_pos rfl, decode32, h]; rfl
theorem major_21 {w : Nat} (h : bitsOf w 6 1 = 33) : decodeWord 4 w = dec21 w := by rw [decodeWord, if_pos rfl, decode32, h]; rfl
theorem major_22 {w : Nat} (h : bitsOf w 6 1 = 34) : decodeWord 4 w = dec22 w := by rw [decodeWord, if_pos rfl, decode32, h]; rfl
theorem major_23 {w : Nat} (h : bitsOf w 6 1 = 35) : decodeWord 4 w = dec23 w := by rw [decodeWord, if_pos rfl, decode32, h]; rfl
theorem major_24 {w : Nat} (h : bitsOf w 6 1 = 36) : decodeWord 4 w = dec24 w := by rw [decodeWord, if_pos rfl, decode32, h]; rfl
theorem major_25 {w : Nat} (h : bitsOf w 6 1 = 37) : decodeWord 4 w = dec25 w := by rw [decodeWord, if_pos rfl, decode32, h]; rfl
theorem major_26 {w : Nat} (h : bitsOf w 6 1 = 38) : decodeWord 4 w = dec26 w := by rw [decodeWord, if_pos rfl, decode32, h]; rfl
theorem major_27 {w : Nat} (h : bitsOf w 6 1 = 39) : decodeWord 4 w = dec27 w := by rw [decodeWord, if_pos rfl, decode32, h]; rfl
theorem major_28 {w : Nat} (h : bitsOf w 6 1 = 40) : decodeWord 4 w = dec28 w := by rw [decodeWord, if_pos rfl, decode32, h]; rfl
theorem major_29 {w : Nat} (h : bitsOf w 6 1 = 41) : decodeWord 4 w = dec29 w := by rw [decodeWord, if_pos rfl, decode32, h]; rfl
theorem major_2A {w : Nat} (h : bitsOf w 6 1 = 42) : decodeWord 4 w = dec2A w := by rw [decodeWord, if_pos rfl, decode32, h]; rfl
theorem major_2B {w : Nat} (h : bitsOf w 6 1 = 43) : decodeWord 4 w = dec2B w := by rw [decodeWord, if_pos rfl, decode32, h]; rfl
theorem major_2C {w : Nat} (h : bitsOf w 6 1 = 44) : decodeWord 4 w = dec2C w := by rw [decodeWord, if_pos rfl, decode32, h]; rfl

end Sys2Proof.Laws

open Sys2Proof Sys2Proof.Laws

theorem Sys2Proof.Laws.Encoding.add (d : BitVec 5) (a : BitVec 5) (x : BitVec 3) (b : BitVec 5) (y : BitVec 3) : Encoding.Statement (.add d a x b y) := by
  intro _ _
  have hE : Enc.add d a x b y = pack [(7, 1), (5, d.toNat), (5, a.toNat), (3, x.toNat), (5, b.toNat), (3, y.toNat), (4, 0)] := by
    simp only [Enc.add, at', pack, Nat.shiftLeft_eq]; omega
  show decodeWord 4 (Enc.add d a x b y) = _
  rw [hE, major_00 (by simp)]
  simp (disch := first | exact BitVec.isLt _ | decide) only [dec00, fld_skip, fld_here, bits_skip, bits_here, Nat.reduceSub, Nat.reduceDiv, Nat.reducePow, Nat.reduceAdd, Nat.reduceMod]

theorem Sys2Proof.Laws.Encoding.sub (d : BitVec 5) (a : BitVec 5) (x : BitVec 3) (b : BitVec 5) (y : BitVec 3) : Encoding.Statement (.sub d a x b y) := by
  intro _ _
  have hE : Enc.sub d a x b y = pack [(7, 1), (5, d.toNat), (5, a.toNat), (3, x.toNat), (5, b.toNat), (3, y.toNat), (4, 1)] := by
    simp only [Enc.sub, at', pack, Nat.shiftLeft_eq]; omega
  show decodeWord 4 (Enc.sub d a x b y) = _
  rw [hE, major_00 (by simp)]
  simp (disch := first | exact BitVec.isLt _ | decide) only [dec00, fld_skip, fld_here, bits_skip, bits_here, Nat.reduceSub, Nat.reduceDiv, Nat.reducePow, Nat.reduceAdd, Nat.reduceMod]

theorem Sys2Proof.Laws.Encoding.and (d : BitVec 5) (a : BitVec 5) (x : BitVec 3) (b : BitVec 5) (y : BitVec 3) : Encoding.Statement (.and d a x b y) := by
  intro _ _
  have hE : Enc.and d a x b y = pack [(7, 1), (5, d.toNat), (5, a.toNat), (3, x.toNat), (5, b.toNat), (3, y.toNat), (4, 2)] := by
    simp only [Enc.and, at', pack, Nat.shiftLeft_eq]; omega
  show decodeWord 4 (Enc.and d a x b y) = _
  rw [hE, major_00 (by simp)]
  simp (disch := first | exact BitVec.isLt _ | decide) only [dec00, fld_skip, fld_here, bits_skip, bits_here, Nat.reduceSub, Nat.reduceDiv, Nat.reducePow, Nat.reduceAdd, Nat.reduceMod]

theorem Sys2Proof.Laws.Encoding.or (d : BitVec 5) (a : BitVec 5) (x : BitVec 3) (b : BitVec 5) (y : BitVec 3) : Encoding.Statement (.or d a x b y) := by
  intro _ _
  have hE : Enc.or d a x b y = pack [(7, 1), (5, d.toNat), (5, a.toNat), (3, x.toNat), (5, b.toNat), (3, y.toNat), (4, 3)] := by
    simp only [Enc.or, at', pack, Nat.shiftLeft_eq]; omega
  show decodeWord 4 (Enc.or d a x b y) = _
  rw [hE, major_00 (by simp)]
  simp (disch := first | exact BitVec.isLt _ | decide) only [dec00, fld_skip, fld_here, bits_skip, bits_here, Nat.reduceSub, Nat.reduceDiv, Nat.reducePow, Nat.reduceAdd, Nat.reduceMod]

theorem Sys2Proof.Laws.Encoding.xor (d : BitVec 5) (a : BitVec 5) (x : BitVec 3) (b : BitVec 5) (y : BitVec 3) : Encoding.Statement (.xor d a x b y) := by
  intro _ _
  have hE : Enc.xor d a x b y = pack [(7, 1), (5, d.toNat), (5, a.toNat), (3, x.toNat), (5, b.toNat), (3, y.toNat), (4, 4)] := by
    simp only [Enc.xor, at', pack, Nat.shiftLeft_eq]; omega
  show decodeWord 4 (Enc.xor d a x b y) = _
  rw [hE, major_00 (by simp)]
  simp (disch := first | exact BitVec.isLt _ | decide) only [dec00, fld_skip, fld_here, bits_skip, bits_here, Nat.reduceSub, Nat.reduceDiv, Nat.reducePow, Nat.reduceAdd, Nat.reduceMod]

theorem Sys2Proof.Laws.Encoding.andn (d : BitVec 5) (a : BitVec 5) (x : BitVec 3) (b : BitVec 5) (y : BitVec 3) : Encoding.Statement (.andn d a x b y) := by
  intro _ _
  have hE : Enc.andn d a x b y = pack [(7, 1), (5, d.toNat), (5, a.toNat), (3, x.toNat), (5, b.toNat), (3, y.toNat), (4, 5)] := by
    simp only [Enc.andn, at', pack, Nat.shiftLeft_eq]; omega
  show decodeWord 4 (Enc.andn d a x b y) = _
  rw [hE, major_00 (by simp)]
  simp (disch := first | exact BitVec.isLt _ | decide) only [dec00, fld_skip, fld_here, bits_skip, bits_here, Nat.reduceSub, Nat.reduceDiv, Nat.reducePow, Nat.reduceAdd, Nat.reduceMod]

theorem Sys2Proof.Laws.Encoding.orn (d : BitVec 5) (a : BitVec 5) (x : BitVec 3) (b : BitVec 5) (y : BitVec 3) : Encoding.Statement (.orn d a x b y) := by
  intro _ _
  have hE : Enc.orn d a x b y = pack [(7, 1), (5, d.toNat), (5, a.toNat), (3, x.toNat), (5, b.toNat), (3, y.toNat), (4, 6)] := by
    simp only [Enc.orn, at', pack, Nat.shiftLeft_eq]; omega
  show decodeWord 4 (Enc.orn d a x b y) = _
  rw [hE, major_00 (by simp)]
  simp (disch := first | exact BitVec.isLt _ | decide) only [dec00, fld_skip, fld_here, bits_skip, bits_here, Nat.reduceSub, Nat.reduceDiv, Nat.reducePow, Nat.reduceAdd, Nat.reduceMod]

theorem Sys2Proof.Laws.Encoding.xnor (d : BitVec 5) (a : BitVec 5) (x : BitVec 3) (b : BitVec 5) (y : BitVec 3) : Encoding.Statement (.xnor d a x b y) := by
  intro _ _
  have hE : Enc.xnor d a x b y = pack [(7, 1), (5, d.toNat), (5, a.toNat), (3, x.toNat), (5, b.toNat), (3, y.toNat), (4, 7)] := by
    simp only [Enc.xnor, at', pack, Nat.shiftLeft_eq]; omega
  show decodeWord 4 (Enc.xnor d a x b y) = _
  rw [hE, major_00 (by simp)]
  simp (disch := first | exact BitVec.isLt _ | decide) only [dec00, fld_skip, fld_here, bits_skip, bits_here, Nat.reduceSub, Nat.reduceDiv, Nat.reducePow, Nat.reduceAdd, Nat.reduceMod]

theorem Sys2Proof.Laws.Encoding.sll (d : BitVec 5) (a : BitVec 5) (x : BitVec 3) (b : BitVec 5) (y : BitVec 3) : Encoding.Statement (.sll d a x b y) := by
  intro _ _
  have hE : Enc.sll d a x b y = pack [(7, 1), (5, d.toNat), (5, a.toNat), (3, x.toNat), (5, b.toNat), (3, y.toNat), (4, 8)] := by
    simp only [Enc.sll, at', pack, Nat.shiftLeft_eq]; omega
  show decodeWord 4 (Enc.sll d a x b y) = _
  rw [hE, major_00 (by simp)]
  simp (disch := first | exact BitVec.isLt _ | decide) only [dec00, fld_skip, fld_here, bits_skip, bits_here, Nat.reduceSub, Nat.reduceDiv, Nat.reducePow, Nat.reduceAdd, Nat.reduceMod]

theorem Sys2Proof.Laws.Encoding.srl (d : BitVec 5) (a : BitVec 5) (x : BitVec 3) (b : BitVec 5) (y : BitVec 3) : Encoding.Statement (.srl d a x b y) := by
  intro _ _
  have hE : Enc.srl d a x b y = pack [(7, 1), (5, d.toNat), (5, a.toNat), (3, x.toNat), (5, b.toNat), (3, y.toNat), (4, 9)] := by
    simp only [Enc.srl, at', pack, Nat.shiftLeft_eq]; omega
  show decodeWord 4 (Enc.srl d a x b y) = _
  rw [hE, major_00 (by simp)]
  simp (disch := first | exact BitVec.isLt _ | decide) only [dec00, fld_skip, fld_here, bits_skip, bits_here, Nat.reduceSub, Nat.reduceDiv, Nat.reducePow, Nat.reduceAdd, Nat.reduceMod]

theorem Sys2Proof.Laws.Encoding.sra (d : BitVec 5) (a : BitVec 5) (x : BitVec 3) (b : BitVec 5) (y : BitVec 3) : Encoding.Statement (.sra d a x b y) := by
  intro _ _
  have hE : Enc.sra d a x b y = pack [(7, 1), (5, d.toNat), (5, a.toNat), (3, x.toNat), (5, b.toNat), (3, y.toNat), (4, 10)] := by
    simp only [Enc.sra, at', pack, Nat.shiftLeft_eq]; omega
  show decodeWord 4 (Enc.sra d a x b y) = _
  rw [hE, major_00 (by simp)]
  simp (disch := first | exact BitVec.isLt _ | decide) only [dec00, fld_skip, fld_here, bits_skip, bits_here, Nat.reduceSub, Nat.reduceDiv, Nat.reducePow, Nat.reduceAdd, Nat.reduceMod]

theorem Sys2Proof.Laws.Encoding.rol (d : BitVec 5) (a : BitVec 5) (x : BitVec 3) (b : BitVec 5) (y : BitVec 3) : Encoding.Statement (.rol d a x b y) := by
  intro _ _
  have hE : Enc.rol d a x b y = pack [(7, 1), (5, d.toNat), (5, a.toNat), (3, x.toNat), (5, b.toNat), (3, y.toNat), (4, 11)] := by
    simp only [Enc.rol, at', pack, Nat.shiftLeft_eq]; omega
  show decodeWord 4 (Enc.rol d a x b y) = _
  rw [hE, major_00 (by simp)]
  simp (disch := first | exact BitVec.isLt _ | decide) only [dec00, fld_skip, fld_here, bits_skip, bits_here, Nat.reduceSub, Nat.reduceDiv, Nat.reducePow, Nat.reduceAdd, Nat.reduceMod]

theorem Sys2Proof.Laws.Encoding.ror (d : BitVec 5) (a : BitVec 5) (x : BitVec 3) (b : BitVec 5) (y : BitVec 3) : Encoding.Statement (.ror d a x b y) := by
  intro _ _
  have hE : Enc.ror d a x b y = pack [(7, 1), (5, d.toNat), (5, a.toNat), (3, x.toNat), (5, b.toNat), (3, y.toNat), (4, 12)] := by
    simp only [Enc.ror, at', pack, Nat.shiftLeft_eq]; omega
  show decodeWord 4 (Enc.ror d a x b y) = _
  rw [hE, major_00 (by simp)]
  simp (disch := first | exact BitVec.isLt _ | decide) only [dec00, fld_skip, fld_here, bits_skip, bits_here, Nat.reduceSub, Nat.reduceDiv, Nat.reducePow, Nat.reduceAdd, Nat.reduceMod]

theorem Sys2Proof.Laws.Encoding.min (d : BitVec 5) (a : BitVec 5) (x : BitVec 3) (b : BitVec 5) (y : BitVec 3) : Encoding.Statement (.min d a x b y) := by
  intro _ _
  have hE : Enc.min d a x b y = pack [(7, 1), (5, d.toNat), (5, a.toNat), (3, x.toNat), (5, b.toNat), (3, y.toNat), (4, 13)] := by
    simp only [Enc.min, at', pack, Nat.shiftLeft_eq]; omega
  show decodeWord 4 (Enc.min d a x b y) = _
  rw [hE, major_00 (by simp)]
  simp (disch := first | exact BitVec.isLt _ | decide) only [dec00, fld_skip, fld_here, bits_skip, bits_here, Nat.reduceSub, Nat.reduceDiv, Nat.reducePow, Nat.reduceAdd, Nat.reduceMod]

theorem Sys2Proof.Laws.Encoding.max (d : BitVec 5) (a : BitVec 5) (x : BitVec 3) (b : BitVec 5) (y : BitVec 3) : Encoding.Statement (.max d a x b y) := by
  intro _ _
  have hE : Enc.max d a x b y = pack [(7, 1), (5, d.toNat), (5, a.toNat), (3, x.toNat), (5, b.toNat), (3, y.toNat), (4, 14)] := by
    simp only [Enc.max, at', pack, Nat.shiftLeft_eq]; omega
  show decodeWord 4 (Enc.max d a x b y) = _
  rw [hE, major_00 (by simp)]
  simp (disch := first | exact BitVec.isLt _ | decide) only [dec00, fld_skip, fld_here, bits_skip, bits_here, Nat.reduceSub, Nat.reduceDiv, Nat.reducePow, Nat.reduceAdd, Nat.reduceMod]

theorem Sys2Proof.Laws.Encoding.minu (d : BitVec 5) (a : BitVec 5) (x : BitVec 3) (b : BitVec 5) (y : BitVec 3) : Encoding.Statement (.minu d a x b y) := by
  intro _ _
  have hE : Enc.minu d a x b y = pack [(7, 1), (5, d.toNat), (5, a.toNat), (3, x.toNat), (5, b.toNat), (3, y.toNat), (4, 15)] := by
    simp only [Enc.minu, at', pack, Nat.shiftLeft_eq]; omega
  show decodeWord 4 (Enc.minu d a x b y) = _
  rw [hE, major_00 (by simp)]
  simp (disch := first | exact BitVec.isLt _ | decide) only [dec00, fld_skip, fld_here, bits_skip, bits_here, Nat.reduceSub, Nat.reduceDiv, Nat.reducePow, Nat.reduceAdd, Nat.reduceMod]

theorem Sys2Proof.Laws.Encoding.maxu (d : BitVec 5) (a : BitVec 5) (x : BitVec 3) (b : BitVec 5) (y : BitVec 3) : Encoding.Statement (.maxu d a x b y) := by
  intro _ _
  have hE : Enc.maxu d a x b y = pack [(7, 3), (5, d.toNat), (5, a.toNat), (3, x.toNat), (5, b.toNat), (3, y.toNat), (4, 0)] := by
    simp only [Enc.maxu, at', pack, Nat.shiftLeft_eq]; omega
  show decodeWord 4 (Enc.maxu d a x b y) = _
  rw [hE, major_01 (by simp)]
  simp (disch := first | exact BitVec.isLt _ | decide) only [dec01, fld_skip, fld_here, bits_skip, bits_here, Nat.reduceSub, Nat.reduceDiv, Nat.reducePow, Nat.reduceAdd, Nat.reduceMod]

theorem Sys2Proof.Laws.Encoding.adds (d : BitVec 5) (a : BitVec 5) (x : BitVec 3) (b : BitVec 5) (y : BitVec 3) : Encoding.Statement (.adds d a x b y) := by
  intro _ _
  have hE : Enc.adds d a x b y = pack [(7, 3), (5, d.toNat), (5, a.toNat), (3, x.toNat), (5, b.toNat), (3, y.toNat), (4, 1)] := by
    simp only [Enc.adds, at', pack, Nat.shiftLeft_eq]; omega
  show decodeWord 4 (Enc.adds d a x b y) = _
  rw [hE, major_01 (by simp)]
  simp (disch := first | exact BitVec.isLt _ | decide) only [dec01, fld_skip, fld_here, bits_skip, bits_here, Nat.reduceSub, Nat.reduceDiv, Nat.reducePow, Nat.reduceAdd, Nat.reduceMod]

theorem Sys2Proof.Laws.Encoding.subs (d : BitVec 5) (a : BitVec 5) (x : BitVec 3) (b : BitVec 5) (y : BitVec 3) : Encoding.Statement (.subs d a x b y) := by
  intro _ _
  have hE : Enc.subs d a x b y = pack [(7, 3), (5, d.toNat), (5, a.toNat), (3, x.toNat), (5, b.toNat), (3, y.toNat), (4, 2)] := by
    simp only [Enc.subs, at', pack, Nat.shiftLeft_eq]; omega
  show decodeWord 4 (Enc.subs d a x b y) = _
  rw [hE, major_01 (by simp)]
  simp (disch := first | exact BitVec.isLt _ | decide) only [dec01, fld_skip, fld_here, bits_skip, bits_here, Nat.reduceSub, Nat.reduceDiv, Nat.reducePow, Nat.reduceAdd, Nat.reduceMod]

theorem Sys2Proof.Laws.Encoding.clz (d : BitVec 5) (a : BitVec 5) (x : BitVec 3) : Encoding.Statement (.clz d a x) := by
  intro _ _
  have hE : Enc.clz d a x = pack [(7, 3), (5, d.toNat), (5, a.toNat), (3, x.toNat), (12, 768)] := by
    simp only [Enc.clz, at', pack, Nat.shiftLeft_eq]; omega
  show decodeWord 4 (Enc.clz d a x) = _
  rw [hE, major_01 (by simp)]
  simp (disch := first | exact BitVec.isLt _ | decide) only [dec01, fld_skip, fld_here, bits_skip, bits_here, Nat.reduceSub, Nat.reduceDiv, Nat.reducePow, Nat.reduceAdd, Nat.reduceMod, bne_self_eq_false, ok_false]

theorem Sys2Proof.Laws.Encoding.ctz (d : BitVec 5) (a : BitVec 5) (x : BitVec 3) : Encoding.Statement (.ctz d a x) := by
  intro _ _
  have hE : Enc.ctz d a x = pack [(7, 3), (5, d.toNat), (5, a.toNat), (3, x.toNat), (12, 1024)] := by
    simp only [Enc.ctz, at', pack, Nat.shiftLeft_eq]; omega
  show decodeWord 4 (Enc.ctz d a x) = _
  rw [hE, major_01 (by simp)]
  simp (disch := first | exact BitVec.isLt _ | decide) only [dec01, fld_skip, fld_here, bits_skip, bits_here, Nat.reduceSub, Nat.reduceDiv, Nat.reducePow, Nat.reduceAdd, Nat.reduceMod, bne_self_eq_false, ok_false]

theorem Sys2Proof.Laws.Encoding.popc (d : BitVec 5) (a : BitVec 5) (x : BitVec 3) : Encoding.Statement (.popc d a x) := by
  intro _ _
  have hE : Enc.popc d a x = pack [(7, 3), (5, d.toNat), (5, a.toNat), (3, x.toNat), (12, 1280)] := by
    simp only [Enc.popc, at', pack, Nat.shiftLeft_eq]; omega
  show decodeWord 4 (Enc.popc d a x) = _
  rw [hE, major_01 (by simp)]
  simp (disch := first | exact BitVec.isLt _ | decide) only [dec01, fld_skip, fld_here, bits_skip, bits_here, Nat.reduceSub, Nat.reduceDiv, Nat.reducePow, Nat.reduceAdd, Nat.reduceMod, bne_self_eq_false, ok_false]

theorem Sys2Proof.Laws.Encoding.brev (d : BitVec 5) (a : BitVec 5) (x : BitVec 3) : Encoding.Statement (.brev d a x) := by
  intro _ _
  have hE : Enc.brev d a x = pack [(7, 3), (5, d.toNat), (5, a.toNat), (3, x.toNat), (12, 1536)] := by
    simp only [Enc.brev, at', pack, Nat.shiftLeft_eq]; omega
  show decodeWord 4 (Enc.brev d a x) = _
  rw [hE, major_01 (by simp)]
  simp (disch := first | exact BitVec.isLt _ | decide) only [dec01, fld_skip, fld_here, bits_skip, bits_here, Nat.reduceSub, Nat.reduceDiv, Nat.reducePow, Nat.reduceAdd, Nat.reduceMod, bne_self_eq_false, ok_false]

theorem Sys2Proof.Laws.Encoding.sxb (d : BitVec 5) (a : BitVec 5) (x : BitVec 3) : Encoding.Statement (.sxb d a x) := by
  intro _ _
  have hE : Enc.sxb d a x = pack [(7, 3), (5, d.toNat), (5, a.toNat), (3, x.toNat), (12, 1792)] := by
    simp only [Enc.sxb, at', pack, Nat.shiftLeft_eq]; omega
  show decodeWord 4 (Enc.sxb d a x) = _
  rw [hE, major_01 (by simp)]
  simp (disch := first | exact BitVec.isLt _ | decide) only [dec01, fld_skip, fld_here, bits_skip, bits_here, Nat.reduceSub, Nat.reduceDiv, Nat.reducePow, Nat.reduceAdd, Nat.reduceMod, bne_self_eq_false, ok_false]

theorem Sys2Proof.Laws.Encoding.sxh (d : BitVec 5) (a : BitVec 5) (x : BitVec 3) : Encoding.Statement (.sxh d a x) := by
  intro _ _
  have hE : Enc.sxh d a x = pack [(7, 3), (5, d.toNat), (5, a.toNat), (3, x.toNat), (12, 2048)] := by
    simp only [Enc.sxh, at', pack, Nat.shiftLeft_eq]; omega
  show decodeWord 4 (Enc.sxh d a x) = _
  rw [hE, major_01 (by simp)]
  simp (disch := first | exact BitVec.isLt _ | decide) only [dec01, fld_skip, fld_here, bits_skip, bits_here, Nat.reduceSub, Nat.reduceDiv, Nat.reducePow, Nat.reduceAdd, Nat.reduceMod, bne_self_eq_false, ok_false]

theorem Sys2Proof.Laws.Encoding.sxw (d : BitVec 5) (a : BitVec 5) (x : BitVec 3) : Encoding.Statement (.sxw d a x) := by
  intro _ _
  have hE : Enc.sxw d a x = pack [(7, 3), (5, d.toNat), (5, a.toNat), (3, x.toNat), (12, 2304)] := by
    simp only [Enc.sxw, at', pack, Nat.shiftLeft_eq]; omega
  show decodeWord 4 (Enc.sxw d a x) = _
  rw [hE, major_01 (by simp)]
  simp (disch := first | exact BitVec.isLt _ | decide) only [dec01, fld_skip, fld_here, bits_skip, bits_here, Nat.reduceSub, Nat.reduceDiv, Nat.reducePow, Nat.reduceAdd, Nat.reduceMod, bne_self_eq_false, ok_false]

theorem Sys2Proof.Laws.Encoding.zxb (d : BitVec 5) (a : BitVec 5) (x : BitVec 3) : Encoding.Statement (.zxb d a x) := by
  intro _ _
  have hE : Enc.zxb d a x = pack [(7, 3), (5, d.toNat), (5, a.toNat), (3, x.toNat), (12, 2560)] := by
    simp only [Enc.zxb, at', pack, Nat.shiftLeft_eq]; omega
  show decodeWord 4 (Enc.zxb d a x) = _
  rw [hE, major_01 (by simp)]
  simp (disch := first | exact BitVec.isLt _ | decide) only [dec01, fld_skip, fld_here, bits_skip, bits_here, Nat.reduceSub, Nat.reduceDiv, Nat.reducePow, Nat.reduceAdd, Nat.reduceMod, bne_self_eq_false, ok_false]

theorem Sys2Proof.Laws.Encoding.zxh (d : BitVec 5) (a : BitVec 5) (x : BitVec 3) : Encoding.Statement (.zxh d a x) := by
  intro _ _
  have hE : Enc.zxh d a x = pack [(7, 3), (5, d.toNat), (5, a.toNat), (3, x.toNat), (12, 2816)] := by
    simp only [Enc.zxh, at', pack, Nat.shiftLeft_eq]; omega
  show decodeWord 4 (Enc.zxh d a x) = _
  rw [hE, major_01 (by simp)]
  simp (disch := first | exact BitVec.isLt _ | decide) only [dec01, fld_skip, fld_here, bits_skip, bits_here, Nat.reduceSub, Nat.reduceDiv, Nat.reducePow, Nat.reduceAdd, Nat.reduceMod, bne_self_eq_false, ok_false]

theorem Sys2Proof.Laws.Encoding.zxw (d : BitVec 5) (a : BitVec 5) (x : BitVec 3) : Encoding.Statement (.zxw d a x) := by
  intro _ _
  have hE : Enc.zxw d a x = pack [(7, 3), (5, d.toNat), (5, a.toNat), (3, x.toNat), (12, 3072)] := by
    simp only [Enc.zxw, at', pack, Nat.shiftLeft_eq]; omega
  show decodeWord 4 (Enc.zxw d a x) = _
  rw [hE, major_01 (by simp)]
  simp (disch := first | exact BitVec.isLt _ | decide) only [dec01, fld_skip, fld_here, bits_skip, bits_here, Nat.reduceSub, Nat.reduceDiv, Nat.reducePow, Nat.reduceAdd, Nat.reduceMod, bne_self_eq_false, ok_false]

theorem Sys2Proof.Laws.Encoding.mul (d : BitVec 5) (a : BitVec 5) (x : BitVec 3) (b : BitVec 5) (y : BitVec 3) : Encoding.Statement (.mul d a x b y) := by
  intro _ _
  have hE : Enc.mul d a x b y = pack [(7, 5), (5, d.toNat), (5, a.toNat), (3, x.toNat), (5, b.toNat), (3, y.toNat), (4, 0)] := by
    simp only [Enc.mul, at', pack, Nat.shiftLeft_eq]; omega
  show decodeWord 4 (Enc.mul d a x b y) = _
  rw [hE, major_02 (by simp)]
  simp (disch := first | exact BitVec.isLt _ | decide) only [dec02, fld_skip, fld_here, bits_skip, bits_here, Nat.reduceSub, Nat.reduceDiv, Nat.reducePow, Nat.reduceAdd, Nat.reduceMod]

theorem Sys2Proof.Laws.Encoding.mulh (d : BitVec 5) (a : BitVec 5) (x : BitVec 3) (b : BitVec 5) (y : BitVec 3) : Encoding.Statement (.mulh d a x b y) := by
  intro _ _
  have hE : Enc.mulh d a x b y = pack [(7, 5), (5, d.toNat), (5, a.toNat), (3, x.toNat), (5, b.toNat), (3, y.toNat), (4, 1)] := by
    simp only [Enc.mulh, at', pack, Nat.shiftLeft_eq]; omega
  show decodeWord 4 (Enc.mulh d a x b y) = _
  rw [hE, major_02 (by simp)]
  simp (disch := first | exact BitVec.isLt _ | decide) only [dec02, fld_skip, fld_here, bits_skip, bits_here, Nat.reduceSub, Nat.reduceDiv, Nat.reducePow, Nat.reduceAdd, Nat.reduceMod]

theorem Sys2Proof.Laws.Encoding.mulhu (d : BitVec 5) (a : BitVec 5) (x : BitVec 3) (b : BitVec 5) (y : BitVec 3) : Encoding.Statement (.mulhu d a x b y) := by
  intro _ _
  have hE : Enc.mulhu d a x b y = pack [(7, 5), (5, d.toNat), (5, a.toNat), (3, x.toNat), (5, b.toNat), (3, y.toNat), (4, 2)] := by
    simp only [Enc.mulhu, at', pack, Nat.shiftLeft_eq]; omega
  show decodeWord 4 (Enc.mulhu d a x b y) = _
  rw [hE, major_02 (by simp)]
  simp (disch := first | exact BitVec.isLt _ | decide) only [dec02, fld_skip, fld_here, bits_skip, bits_here, Nat.reduceSub, Nat.reduceDiv, Nat.reducePow, Nat.reduceAdd, Nat.reduceMod]

theorem Sys2Proof.Laws.Encoding.div (d : BitVec 5) (a : BitVec 5) (x : BitVec 3) (b : BitVec 5) (y : BitVec 3) : Encoding.Statement (.div d a x b y) := by
  intro _ _
  have hE : Enc.div d a x b y = pack [(7, 5), (5, d.toNat), (5, a.toNat), (3, x.toNat), (5, b.toNat), (3, y.toNat), (4, 3)] := by
    simp only [Enc.div, at', pack, Nat.shiftLeft_eq]; omega
  show decodeWord 4 (Enc.div d a x b y) = _
  rw [hE, major_02 (by simp)]
  simp (disch := first | exact BitVec.isLt _ | decide) only [dec02, fld_skip, fld_here, bits_skip, bits_here, Nat.reduceSub, Nat.reduceDiv, Nat.reducePow, Nat.reduceAdd, Nat.reduceMod]

theorem Sys2Proof.Laws.Encoding.divu (d : BitVec 5) (a : BitVec 5) (x : BitVec 3) (b : BitVec 5) (y : BitVec 3) : Encoding.Statement (.divu d a x b y) := by
  intro _ _
  have hE : Enc.divu d a x b y = pack [(7, 5), (5, d.toNat), (5, a.toNat), (3, x.toNat), (5, b.toNat), (3, y.toNat), (4, 4)] := by
    simp only [Enc.divu, at', pack, Nat.shiftLeft_eq]; omega
  show decodeWord 4 (Enc.divu d a x b y) = _
  rw [hE, major_02 (by simp)]
  simp (disch := first | exact BitVec.isLt _ | decide) only [dec02, fld_skip, fld_here, bits_skip, bits_here, Nat.reduceSub, Nat.reduceDiv, Nat.reducePow, Nat.reduceAdd, Nat.reduceMod]

theorem Sys2Proof.Laws.Encoding.rem (d : BitVec 5) (a : BitVec 5) (x : BitVec 3) (b : BitVec 5) (y : BitVec 3) : Encoding.Statement (.rem d a x b y) := by
  intro _ _
  have hE : Enc.rem d a x b y = pack [(7, 5), (5, d.toNat), (5, a.toNat), (3, x.toNat), (5, b.toNat), (3, y.toNat), (4, 5)] := by
    simp only [Enc.rem, at', pack, Nat.shiftLeft_eq]; omega
  show decodeWord 4 (Enc.rem d a x b y) = _
  rw [hE, major_02 (by simp)]
  simp (disch := first | exact BitVec.isLt _ | decide) only [dec02, fld_skip, fld_here, bits_skip, bits_here, Nat.reduceSub, Nat.reduceDiv, Nat.reducePow, Nat.reduceAdd, Nat.reduceMod]

theorem Sys2Proof.Laws.Encoding.remu (d : BitVec 5) (a : BitVec 5) (x : BitVec 3) (b : BitVec 5) (y : BitVec 3) : Encoding.Statement (.remu d a x b y) := by
  intro _ _
  have hE : Enc.remu d a x b y = pack [(7, 5), (5, d.toNat), (5, a.toNat), (3, x.toNat), (5, b.toNat), (3, y.toNat), (4, 6)] := by
    simp only [Enc.remu, at', pack, Nat.shiftLeft_eq]; omega
  show decodeWord 4 (Enc.remu d a x b y) = _
  rw [hE, major_02 (by simp)]
  simp (disch := first | exact BitVec.isLt _ | decide) only [dec02, fld_skip, fld_here, bits_skip, bits_here, Nat.reduceSub, Nat.reduceDiv, Nat.reducePow, Nat.reduceAdd, Nat.reduceMod]

theorem Sys2Proof.Laws.Encoding.addi (d : BitVec 5) (a : BitVec 5) (x : BitVec 3) (i : BitVec 12) : Encoding.Statement (.addi d a x i) := by
  intro _ _
  have hE : Enc.addi d a x i = pack [(7, 7), (5, d.toNat), (5, a.toNat), (3, x.toNat), (12, i.toNat)] := by
    simp only [Enc.addi, at', pack, Nat.shiftLeft_eq]; omega
  show decodeWord 4 (Enc.addi d a x i) = _
  rw [hE, major_03 (by simp)]
  simp (disch := first | exact BitVec.isLt _ | decide) only [dec03, fld_skip, fld_here, Nat.reduceSub]

theorem Sys2Proof.Laws.Encoding.andi (d : BitVec 5) (a : BitVec 5) (x : BitVec 3) (i : BitVec 12) : Encoding.Statement (.andi d a x i) := by
  intro _ _
  have hE : Enc.andi d a x i = pack [(7, 9), (5, d.toNat), (5, a.toNat), (3, x.toNat), (12, i.toNat)] := by
    simp only [Enc.andi, at', pack, Nat.shiftLeft_eq]; omega
  show decodeWord 4 (Enc.andi d a x i) = _
  rw [hE, major_04 (by simp)]
  simp (disch := first | exact BitVec.isLt _ | decide) only [dec04, fld_skip, fld_here, Nat.reduceSub]

theorem Sys2Proof.Laws.Encoding.ori (d : BitVec 5) (a : BitVec 5) (x : BitVec 3) (i : BitVec 12) : Encoding.Statement (.ori d a x i) := by
  intro _ _
  have hE : Enc.ori d a x i = pack [(7, 11), (5, d.toNat), (5, a.toNat), (3, x.toNat), (12, i.toNat)] := by
    simp only [Enc.ori, at', pack, Nat.shiftLeft_eq]; omega
  show decodeWord 4 (Enc.ori d a x i) = _
  rw [hE, major_05 (by simp)]
  simp (disch := first | exact BitVec.isLt _ | decide) only [dec05, fld_skip, fld_here, Nat.reduceSub]

theorem Sys2Proof.Laws.Encoding.xori (d : BitVec 5) (a : BitVec 5) (x : BitVec 3) (i : BitVec 12) : Encoding.Statement (.xori d a x i) := by
  intro _ _
  have hE : Enc.xori d a x i = pack [(7, 13), (5, d.toNat), (5, a.toNat), (3, x.toNat), (12, i.toNat)] := by
    simp only [Enc.xori, at', pack, Nat.shiftLeft_eq]; omega
  show decodeWord 4 (Enc.xori d a x i) = _
  rw [hE, major_06 (by simp)]
  simp (disch := first | exact BitVec.isLt _ | decide) only [dec06, fld_skip, fld_here, Nat.reduceSub]

theorem Sys2Proof.Laws.Encoding.slli (d : BitVec 5) (a : BitVec 5) (x : BitVec 3) (s : BitVec 6) : Encoding.Statement (.slli d a x s) := by
  intro _ _
  have hE : Enc.slli d a x s = pack [(7, 15), (5, d.toNat), (5, a.toNat), (3, x.toNat), (6, s.toNat), (6, 0)] := by
    simp only [Enc.slli, at', pack, Nat.shiftLeft_eq]; omega
  show decodeWord 4 (Enc.slli d a x s) = _
  rw [hE, major_07 (by simp)]
  simp (disch := first | exact BitVec.isLt _ | decide) only [dec07, fld_skip, fld_here, bits_skip, bits_here, Nat.reduceSub, Nat.reduceDiv, Nat.reducePow, Nat.reduceAdd, Nat.reduceMod]

theorem Sys2Proof.Laws.Encoding.srli (d : BitVec 5) (a : BitVec 5) (x : BitVec 3) (s : BitVec 6) : Encoding.Statement (.srli d a x s) := by
  intro _ _
  have hE : Enc.srli d a x s = pack [(7, 15), (5, d.toNat), (5, a.toNat), (3, x.toNat), (6, s.toNat), (6, 1)] := by
    simp only [Enc.srli, at', pack, Nat.shiftLeft_eq]; omega
  show decodeWord 4 (Enc.srli d a x s) = _
  rw [hE, major_07 (by simp)]
  simp (disch := first | exact BitVec.isLt _ | decide) only [dec07, fld_skip, fld_here, bits_skip, bits_here, Nat.reduceSub, Nat.reduceDiv, Nat.reducePow, Nat.reduceAdd, Nat.reduceMod]

theorem Sys2Proof.Laws.Encoding.srai (d : BitVec 5) (a : BitVec 5) (x : BitVec 3) (s : BitVec 6) : Encoding.Statement (.srai d a x s) := by
  intro _ _
  have hE : Enc.srai d a x s = pack [(7, 15), (5, d.toNat), (5, a.toNat), (3, x.toNat), (6, s.toNat), (6, 2)] := by
    simp only [Enc.srai, at', pack, Nat.shiftLeft_eq]; omega
  show decodeWord 4 (Enc.srai d a x s) = _
  rw [hE, major_07 (by simp)]
  simp (disch := first | exact BitVec.isLt _ | decide) only [dec07, fld_skip, fld_here, bits_skip, bits_here, Nat.reduceSub, Nat.reduceDiv, Nat.reducePow, Nat.reduceAdd, Nat.reduceMod]

theorem Sys2Proof.Laws.Encoding.rori (d : BitVec 5) (a : BitVec 5) (x : BitVec 3) (s : BitVec 6) : Encoding.Statement (.rori d a x s) := by
  intro _ _
  have hE : Enc.rori d a x s = pack [(7, 15), (5, d.toNat), (5, a.toNat), (3, x.toNat), (6, s.toNat), (6, 3)] := by
    simp only [Enc.rori, at', pack, Nat.shiftLeft_eq]; omega
  show decodeWord 4 (Enc.rori d a x s) = _
  rw [hE, major_07 (by simp)]
  simp (disch := first | exact BitVec.isLt _ | decide) only [dec07, fld_skip, fld_here, bits_skip, bits_here, Nat.reduceSub, Nat.reduceDiv, Nat.reducePow, Nat.reduceAdd, Nat.reduceMod]

theorem Sys2Proof.Laws.Encoding.upim (d : BitVec 5) (i : BitVec 20) : Encoding.Statement (.upim d i) := by
  intro _ _
  have hE : Enc.upim d i = pack [(7, 17), (5, d.toNat), (20, i.toNat)] := by
    simp only [Enc.upim, at', pack, Nat.shiftLeft_eq]; omega
  show decodeWord 4 (Enc.upim d i) = _
  rw [hE, major_08 (by simp)]
  simp (disch := first | exact BitVec.isLt _ | decide) only [dec08, fld_skip, fld_here, Nat.reduceSub]

theorem Sys2Proof.Laws.Encoding.pcadd (d : BitVec 5) (i : BitVec 20) : Encoding.Statement (.pcadd d i) := by
  intro _ _
  have hE : Enc.pcadd d i = pack [(7, 19), (5, d.toNat), (20, i.toNat)] := by
    simp only [Enc.pcadd, at', pack, Nat.shiftLeft_eq]; omega
  show decodeWord 4 (Enc.pcadd d i) = _
  rw [hE, major_09 (by simp)]
  simp (disch := first | exact BitVec.isLt _ | decide) only [dec09, fld_skip, fld_here, Nat.reduceSub]

theorem Sys2Proof.Laws.Encoding.ceq (q : BitVec 3) (a : BitVec 5) (x : BitVec 3) (b : BitVec 5) (y : BitVec 3) : Encoding.Statement (.ceq q a x b y) := by
  intro _ _
  have hE : Enc.ceq q a x b y = pack [(7, 21), (3, q.toNat), (2, 0), (5, a.toNat), (3, x.toNat), (5, b.toNat), (3, y.toNat), (4, 0)] := by
    simp only [Enc.ceq, at', pack, Nat.shiftLeft_eq]; omega
  show decodeWord 4 (Enc.ceq q a x b y) = _
  rw [hE, major_0A (by simp)]
  simp (disch := first | exact BitVec.isLt _ | decide) only [dec0A, fld_skip, fld_here, bits_skip, bits_here, Nat.reduceSub, Nat.reduceDiv, Nat.reducePow, Nat.reduceAdd, Nat.reduceMod, bne_self_eq_false, ok_false]

theorem Sys2Proof.Laws.Encoding.cne (q : BitVec 3) (a : BitVec 5) (x : BitVec 3) (b : BitVec 5) (y : BitVec 3) : Encoding.Statement (.cne q a x b y) := by
  intro _ _
  have hE : Enc.cne q a x b y = pack [(7, 21), (3, q.toNat), (2, 0), (5, a.toNat), (3, x.toNat), (5, b.toNat), (3, y.toNat), (4, 1)] := by
    simp only [Enc.cne, at', pack, Nat.shiftLeft_eq]; omega
  show decodeWord 4 (Enc.cne q a x b y) = _
  rw [hE, major_0A (by simp)]
  simp (disch := first | exact BitVec.isLt _ | decide) only [dec0A, fld_skip, fld_here, bits_skip, bits_here, Nat.reduceSub, Nat.reduceDiv, Nat.reducePow, Nat.reduceAdd, Nat.reduceMod, bne_self_eq_false, ok_false]

theorem Sys2Proof.Laws.Encoding.clt (q : BitVec 3) (a : BitVec 5) (x : BitVec 3) (b : BitVec 5) (y : BitVec 3) : Encoding.Statement (.clt q a x b y) := by
  intro _ _
  have hE : Enc.clt q a x b y = pack [(7, 21), (3, q.toNat), (2, 0), (5, a.toNat), (3, x.toNat), (5, b.toNat), (3, y.toNat), (4, 2)] := by
    simp only [Enc.clt, at', pack, Nat.shiftLeft_eq]; omega
  show decodeWord 4 (Enc.clt q a x b y) = _
  rw [hE, major_0A (by simp)]
  simp (disch := first | exact BitVec.isLt _ | decide) only [dec0A, fld_skip, fld_here, bits_skip, bits_here, Nat.reduceSub, Nat.reduceDiv, Nat.reducePow, Nat.reduceAdd, Nat.reduceMod, bne_self_eq_false, ok_false]

theorem Sys2Proof.Laws.Encoding.cltu (q : BitVec 3) (a : BitVec 5) (x : BitVec 3) (b : BitVec 5) (y : BitVec 3) : Encoding.Statement (.cltu q a x b y) := by
  intro _ _
  have hE : Enc.cltu q a x b y = pack [(7, 21), (3, q.toNat), (2, 0), (5, a.toNat), (3, x.toNat), (5, b.toNat), (3, y.toNat), (4, 3)] := by
    simp only [Enc.cltu, at', pack, Nat.shiftLeft_eq]; omega
  show decodeWord 4 (Enc.cltu q a x b y) = _
  rw [hE, major_0A (by simp)]
  simp (disch := first | exact BitVec.isLt _ | decide) only [dec0A, fld_skip, fld_here, bits_skip, bits_here, Nat.reduceSub, Nat.reduceDiv, Nat.reducePow, Nat.reduceAdd, Nat.reduceMod, bne_self_eq_false, ok_false]

theorem Sys2Proof.Laws.Encoding.cge (q : BitVec 3) (a : BitVec 5) (x : BitVec 3) (b : BitVec 5) (y : BitVec 3) : Encoding.Statement (.cge q a x b y) := by
  intro _ _
  have hE : Enc.cge q a x b y = pack [(7, 21), (3, q.toNat), (2, 0), (5, a.toNat), (3, x.toNat), (5, b.toNat), (3, y.toNat), (4, 4)] := by
    simp only [Enc.cge, at', pack, Nat.shiftLeft_eq]; omega
  show decodeWord 4 (Enc.cge q a x b y) = _
  rw [hE, major_0A (by simp)]
  simp (disch := first | exact BitVec.isLt _ | decide) only [dec0A, fld_skip, fld_here, bits_skip, bits_here, Nat.reduceSub, Nat.reduceDiv, Nat.reducePow, Nat.reduceAdd, Nat.reduceMod, bne_self_eq_false, ok_false]

theorem Sys2Proof.Laws.Encoding.cgeu (q : BitVec 3) (a : BitVec 5) (x : BitVec 3) (b : BitVec 5) (y : BitVec 3) : Encoding.Statement (.cgeu q a x b y) := by
  intro _ _
  have hE : Enc.cgeu q a x b y = pack [(7, 21), (3, q.toNat), (2, 0), (5, a.toNat), (3, x.toNat), (5, b.toNat), (3, y.toNat), (4, 5)] := by
    simp only [Enc.cgeu, at', pack, Nat.shiftLeft_eq]; omega
  show decodeWord 4 (Enc.cgeu q a x b y) = _
  rw [hE, major_0A (by simp)]
  simp (disch := first | exact BitVec.isLt _ | decide) only [dec0A, fld_skip, fld_here, bits_skip, bits_here, Nat.reduceSub, Nat.reduceDiv, Nat.reducePow, Nat.reduceAdd, Nat.reduceMod, bne_self_eq_false, ok_false]

theorem Sys2Proof.Laws.Encoding.qand (q : BitVec 3) (a : BitVec 3) (x : BitVec 3) (b : BitVec 3) (y : BitVec 3) : Encoding.Statement (.qand q a x b y) := by
  intro _ _
  have hE : Enc.qand q a x b y = pack [(7, 21), (3, q.toNat), (2, 0), (3, a.toNat), (2, 0), (3, x.toNat), (3, b.toNat), (2, 0), (3, y.toNat), (4, 8)] := by
    simp only [Enc.qand, at', pack, Nat.shiftLeft_eq]; omega
  show decodeWord 4 (Enc.qand q a x b y) = _
  rw [hE, major_0A (by simp)]
  simp (disch := first | exact BitVec.isLt _ | decide) only [dec0A, fld_skip, fld_here, bits_skip, bits_here, Nat.reduceSub, Nat.reduceDiv, Nat.reducePow, Nat.reduceAdd, Nat.reduceMod, bne_self_eq_false, ok_false, Bool.or_self]

theorem Sys2Proof.Laws.Encoding.qor (q : BitVec 3) (a : BitVec 3) (x : BitVec 3) (b : BitVec 3) (y : BitVec 3) : Encoding.Statement (.qor q a x b y) := by
  intro _ _
  have hE : Enc.qor q a x b y = pack [(7, 21), (3, q.toNat), (2, 0), (3, a.toNat), (2, 0), (3, x.toNat), (3, b.toNat), (2, 0), (3, y.toNat), (4, 9)] := by
    simp only [Enc.qor, at', pack, Nat.shiftLeft_eq]; omega
  show decodeWord 4 (Enc.qor q a x b y) = _
  rw [hE, major_0A (by simp)]
  simp (disch := first | exact BitVec.isLt _ | decide) only [dec0A, fld_skip, fld_here, bits_skip, bits_here, Nat.reduceSub, Nat.reduceDiv, Nat.reducePow, Nat.reduceAdd, Nat.reduceMod, bne_self_eq_false, ok_false, Bool.or_self]

theorem Sys2Proof.Laws.Encoding.qxor (q : BitVec 3) (a : BitVec 3) (x : BitVec 3) (b : BitVec 3) (y : BitVec 3) : Encoding.Statement (.qxor q a x b y) := by
  intro _ _
  have hE : Enc.qxor q a x b y = pack [(7, 21), (3, q.toNat), (2, 0), (3, a.toNat), (2, 0), (3, x.toNat), (3, b.toNat), (2, 0), (3, y.toNat), (4, 10)] := by
    simp only [Enc.qxor, at', pack, Nat.shiftLeft_eq]; omega
  show decodeWord 4 (Enc.qxor q a x b y) = _
  rw [hE, major_0A (by simp)]
  simp (disch := first | exact BitVec.isLt _ | decide) only [dec0A, fld_skip, fld_here, bits_skip, bits_here, Nat.reduceSub, Nat.reduceDiv, Nat.reducePow, Nat.reduceAdd, Nat.reduceMod, bne_self_eq_false, ok_false, Bool.or_self]

theorem Sys2Proof.Laws.Encoding.qnot (q : BitVec 3) (a : BitVec 3) (x : BitVec 3) : Encoding.Statement (.qnot q a x) := by
  intro _ _
  have hE : Enc.qnot q a x = pack [(7, 21), (3, q.toNat), (2, 0), (3, a.toNat), (2, 0), (3, x.toNat), (12, 2816)] := by
    simp only [Enc.qnot, at', pack, Nat.shiftLeft_eq]; omega
  show decodeWord 4 (Enc.qnot q a x) = _
  rw [hE, major_0A (by simp)]
  simp (disch := first | exact BitVec.isLt _ | decide) only [dec0A, fld_skip, fld_here, bits_skip, bits_here, Nat.reduceSub, Nat.reduceDiv, Nat.reducePow, Nat.reduceAdd, Nat.reduceMod, bne_self_eq_false, ok_false, Bool.or_self]

theorem Sys2Proof.Laws.Encoding.ceqi (q : BitVec 3) (a : BitVec 5) (x : BitVec 3) (i : BitVec 9) : Encoding.Statement (.ceqi q a x i) := by
  intro _ _
  have hE : Enc.ceqi q a x i = pack [(7, 23), (3, q.toNat), (2, 0), (5, a.toNat), (3, x.toNat), (9, i.toNat), (3, 0)] := by
    simp only [Enc.ceqi, at', pack, Nat.shiftLeft_eq]; omega
  show decodeWord 4 (Enc.ceqi q a x i) = _
  rw [hE, major_0B (by simp)]
  simp (disch := first | exact BitVec.isLt _ | decide) only [dec0B, fld_skip, fld_here, bits_skip, bits_here, Nat.reduceSub, Nat.reduceDiv, Nat.reducePow, Nat.reduceAdd, Nat.reduceMod, bne_self_eq_false, ok_false]

theorem Sys2Proof.Laws.Encoding.cnei (q : BitVec 3) (a : BitVec 5) (x : BitVec 3) (i : BitVec 9) : Encoding.Statement (.cnei q a x i) := by
  intro _ _
  have hE : Enc.cnei q a x i = pack [(7, 23), (3, q.toNat), (2, 0), (5, a.toNat), (3, x.toNat), (9, i.toNat), (3, 1)] := by
    simp only [Enc.cnei, at', pack, Nat.shiftLeft_eq]; omega
  show decodeWord 4 (Enc.cnei q a x i) = _
  rw [hE, major_0B (by simp)]
  simp (disch := first | exact BitVec.isLt _ | decide) only [dec0B, fld_skip, fld_here, bits_skip, bits_here, Nat.reduceSub, Nat.reduceDiv, Nat.reducePow, Nat.reduceAdd, Nat.reduceMod, bne_self_eq_false, ok_false]

theorem Sys2Proof.Laws.Encoding.clti (q : BitVec 3) (a : BitVec 5) (x : BitVec 3) (i : BitVec 9) : Encoding.Statement (.clti q a x i) := by
  intro _ _
  have hE : Enc.clti q a x i = pack [(7, 23), (3, q.toNat), (2, 0), (5, a.toNat), (3, x.toNat), (9, i.toNat), (3, 2)] := by
    simp only [Enc.clti, at', pack, Nat.shiftLeft_eq]; omega
  show decodeWord 4 (Enc.clti q a x i) = _
  rw [hE, major_0B (by simp)]
  simp (disch := first | exact BitVec.isLt _ | decide) only [dec0B, fld_skip, fld_here, bits_skip, bits_here, Nat.reduceSub, Nat.reduceDiv, Nat.reducePow, Nat.reduceAdd, Nat.reduceMod, bne_self_eq_false, ok_false]

theorem Sys2Proof.Laws.Encoding.cltui (q : BitVec 3) (a : BitVec 5) (x : BitVec 3) (i : BitVec 9) : Encoding.Statement (.cltui q a x i) := by
  intro _ _
  have hE : Enc.cltui q a x i = pack [(7, 23), (3, q.toNat), (2, 0), (5, a.toNat), (3, x.toNat), (9, i.toNat), (3, 3)] := by
    simp only [Enc.cltui, at', pack, Nat.shiftLeft_eq]; omega
  show decodeWord 4 (Enc.cltui q a x i) = _
  rw [hE, major_0B (by simp)]
  simp (disch := first | exact BitVec.isLt _ | decide) only [dec0B, fld_skip, fld_here, bits_skip, bits_here, Nat.reduceSub, Nat.reduceDiv, Nat.reducePow, Nat.reduceAdd, Nat.reduceMod, bne_self_eq_false, ok_false]

theorem Sys2Proof.Laws.Encoding.cgei (q : BitVec 3) (a : BitVec 5) (x : BitVec 3) (i : BitVec 9) : Encoding.Statement (.cgei q a x i) := by
  intro _ _
  have hE : Enc.cgei q a x i = pack [(7, 23), (3, q.toNat), (2, 0), (5, a.toNat), (3, x.toNat), (9, i.toNat), (3, 4)] := by
    simp only [Enc.cgei, at', pack, Nat.shiftLeft_eq]; omega
  show decodeWord 4 (Enc.cgei q a x i) = _
  rw [hE, major_0B (by simp)]
  simp (disch := first | exact BitVec.isLt _ | decide) only [dec0B, fld_skip, fld_here, bits_skip, bits_here, Nat.reduceSub, Nat.reduceDiv, Nat.reducePow, Nat.reduceAdd, Nat.reduceMod, bne_self_eq_false, ok_false]

theorem Sys2Proof.Laws.Encoding.cgeui (q : BitVec 3) (a : BitVec 5) (x : BitVec 3) (i : BitVec 9) : Encoding.Statement (.cgeui q a x i) := by
  intro _ _
  have hE : Enc.cgeui q a x i = pack [(7, 23), (3, q.toNat), (2, 0), (5, a.toNat), (3, x.toNat), (9, i.toNat), (3, 5)] := by
    simp only [Enc.cgeui, at', pack, Nat.shiftLeft_eq]; omega
  show decodeWord 4 (Enc.cgeui q a x i) = _
  rw [hE, major_0B (by simp)]
  simp (disch := first | exact BitVec.isLt _ | decide) only [dec0B, fld_skip, fld_here, bits_skip, bits_here, Nat.reduceSub, Nat.reduceDiv, Nat.reducePow, Nat.reduceAdd, Nat.reduceMod, bne_self_eq_false, ok_false]

theorem Sys2Proof.Laws.Encoding.br (q : BitVec 3) (s : BitVec 1) (n : BitVec 2) (o : BitVec 19) : Encoding.Statement (.br q s n o) := by
  intro hw _
  have hE : Enc.br q s n o = pack [(7, 25), (3, q.toNat), (1, s.toNat), (2, n.toNat), (19, o.toNat)] := by
    simp only [Enc.br, at', pack, Nat.shiftLeft_eq]; omega
  show decodeWord 4 (Enc.br q s n o) = _
  rw [hE, major_0C (by simp)]
  replace hw : (n != 3) = true := hw
  simp [← BitVec.toNat_inj] at hw
  have := n.isLt
  simp (disch := first | exact BitVec.isLt _ | decide) [dec0C, ok]
  omega

theorem Sys2Proof.Laws.Encoding.j (o : BitVec 25) : Encoding.Statement (.j o) := by
  intro _ _
  have hE : Enc.j o = pack [(7, 27), (25, o.toNat)] := by
    simp only [Enc.j, at', pack, Nat.shiftLeft_eq]; omega
  show decodeWord 4 (Enc.j o) = _
  rw [hE, major_0D (by simp)]
  simp (disch := first | exact BitVec.isLt _ | decide) only [dec0D, fld_skip, fld_here, Nat.reduceSub]

theorem Sys2Proof.Laws.Encoding.jl (o : BitVec 25) : Encoding.Statement (.jl o) := by
  intro _ _
  have hE : Enc.jl o = pack [(7, 29), (25, o.toNat)] := by
    simp only [Enc.jl, at', pack, Nat.shiftLeft_eq]; omega
  show decodeWord 4 (Enc.jl o) = _
  rw [hE, major_0E (by simp)]
  simp (disch := first | exact BitVec.isLt _ | decide) only [dec0E, fld_skip, fld_here, Nat.reduceSub]

theorem Sys2Proof.Laws.Encoding.jr (a : BitVec 5) (x : BitVec 3) (i : BitVec 12) : Encoding.Statement (.jr a x i) := by
  intro _ _
  have hE : Enc.jr a x i = pack [(12, 31), (5, a.toNat), (3, x.toNat), (12, i.toNat)] := by
    simp only [Enc.jr, at', pack, Nat.shiftLeft_eq]; omega
  show decodeWord 4 (Enc.jr a x i) = _
  rw [hE, major_0F (by simp)]
  simp (disch := first | exact BitVec.isLt _ | decide) only [dec0F, fld_skip, fld_here, bits_here, Nat.reduceSub, Nat.reduceDiv, Nat.reducePow, Nat.reduceAdd, Nat.reduceMod]

theorem Sys2Proof.Laws.Encoding.jlr (a : BitVec 5) (x : BitVec 3) (i : BitVec 12) : Encoding.Statement (.jlr a x i) := by
  intro _ _
  have hE : Enc.jlr a x i = pack [(12, 159), (5, a.toNat), (3, x.toNat), (12, i.toNat)] := by
    simp only [Enc.jlr, at', pack, Nat.shiftLeft_eq]; omega
  show decodeWord 4 (Enc.jlr a x i) = _
  rw [hE, major_0F (by simp)]
  simp (disch := first | exact BitVec.isLt _ | decide) only [dec0F, fld_skip, fld_here, bits_here, Nat.reduceSub, Nat.reduceDiv, Nat.reducePow, Nat.reduceAdd, Nat.reduceMod]

theorem Sys2Proof.Laws.Encoding.lset (w : BitVec 3) (m : BitVec 3) (a : BitVec 5) (b : BitVec 5) : Encoding.Statement (.lset w m a b) := by
  intro hw _
  have hE : Enc.lset w m a b = pack [(7, 33), (3, w.toNat), (3, m.toNat), (5, a.toNat), (5, b.toNat), (9, 0)] := by
    simp only [Enc.lset, at', pack, Nat.shiftLeft_eq]; omega
  show decodeWord 4 (Enc.lset w m a b) = _
  rw [hE, major_10 (by simp)]
  replace hw : (decide (w.toNat + 1 + m.toNat ≤ 8)) = true := hw
  simp at hw
  have := w.isLt
  have := m.isLt
  simp (disch := first | exact BitVec.isLt _ | decide) [dec10, ok]
  omega

theorem Sys2Proof.Laws.Encoding.loop (c : BitVec 5) (o : BitVec 16) : Encoding.Statement (.loop c o) := by
  intro _ _
  have hE : Enc.loop c o = pack [(7, 33), (5, c.toNat), (16, o.toNat), (4, 1)] := by
    simp only [Enc.loop, at', pack, Nat.shiftLeft_eq]; omega
  show decodeWord 4 (Enc.loop c o) = _
  rw [hE, major_10 (by simp)]
  simp (disch := first | exact BitVec.isLt _ | decide) only [dec10, fld_skip, fld_here, bits_skip, bits_here, Nat.reduceSub, Nat.reduceDiv, Nat.reducePow, Nat.reduceAdd, Nat.reduceMod]

theorem Sys2Proof.Laws.Encoding.loops (s : BitVec 5) (o : BitVec 16) : Encoding.Statement (.loops s o) := by
  intro _ _
  have hE : Enc.loops s o = pack [(7, 33), (5, s.toNat), (16, o.toNat), (4, 2)] := by
    simp only [Enc.loops, at', pack, Nat.shiftLeft_eq]; omega
  show decodeWord 4 (Enc.loops s o) = _
  rw [hE, major_10 (by simp)]
  simp (disch := first | exact BitVec.isLt _ | decide) only [dec10, fld_skip, fld_here, bits_skip, bits_here, Nat.reduceSub, Nat.reduceDiv, Nat.reducePow, Nat.reduceAdd, Nat.reduceMod]

theorem Sys2Proof.Laws.Encoding.leave (n : BitVec 2) : Encoding.Statement (.leave n) := by
  intro hw _
  have hE : Enc.leave n = pack [(11, 33), (2, n.toNat), (19, 98304)] := by
    simp only [Enc.leave, at', pack, Nat.shiftLeft_eq]; omega
  show decodeWord 4 (Enc.leave n) = _
  rw [hE, major_10 (by simp)]
  replace hw : (n != 3) = true := hw
  simp [← BitVec.toNat_inj] at hw
  have := n.isLt
  simp (disch := first | exact BitVec.isLt _ | decide) [dec10, ok]
  omega

theorem Sys2Proof.Laws.Encoding.leaveq (q : BitVec 3) (s : BitVec 1) (n : BitVec 2) : Encoding.Statement (.leaveq q s n) := by
  intro hw _
  have hE : Enc.leaveq q s n = pack [(7, 33), (3, q.toNat), (1, s.toNat), (2, n.toNat), (19, 131072)] := by
    simp only [Enc.leaveq, at', pack, Nat.shiftLeft_eq]; omega
  show decodeWord 4 (Enc.leaveq q s n) = _
  rw [hE, major_10 (by simp)]
  replace hw : (n != 3) = true := hw
  simp [← BitVec.toNat_inj] at hw
  have := n.isLt
  simp (disch := first | exact BitVec.isLt _ | decide) [dec10, ok]
  omega

theorem Sys2Proof.Laws.Encoding.lb (d : BitVec 5) (a : BitVec 5) (x : BitVec 3) (i : BitVec 9) : Encoding.Statement (.lb d a x i) := by
  intro _ _
  have hE : Enc.lb d a x i = pack [(7, 35), (5, d.toNat), (5, a.toNat), (3, x.toNat), (3, 0), (9, i.toNat)] := by
    simp only [Enc.lb, at', pack, Nat.shiftLeft_eq]; omega
  show decodeWord 4 (Enc.lb d a x i) = _
  rw [hE, major_11 (by simp)]
  simp (disch := first | exact BitVec.isLt _ | decide) only [dec11, fld_skip, fld_here, bits_skip, bits_here, Nat.reduceSub, Nat.reduceDiv, Nat.reducePow, Nat.reduceAdd, Nat.reduceMod]

theorem Sys2Proof.Laws.Encoding.lbu (d : BitVec 5) (a : BitVec 5) (x : BitVec 3) (i : BitVec 9) : Encoding.Statement (.lbu d a x i) := by
  intro _ _
  have hE : Enc.lbu d a x i = pack [(7, 35), (5, d.toNat), (5, a.toNat), (3, x.toNat), (3, 1), (9, i.toNat)] := by
    simp only [Enc.lbu, at', pack, Nat.shiftLeft_eq]; omega
  show decodeWord 4 (Enc.lbu d a x i) = _
  rw [hE, major_11 (by simp)]
  simp (disch := first | exact BitVec.isLt _ | decide) only [dec11, fld_skip, fld_here, bits_skip, bits_here, Nat.reduceSub, Nat.reduceDiv, Nat.reducePow, Nat.reduceAdd, Nat.reduceMod]

theorem Sys2Proof.Laws.Encoding.lh (d : BitVec 5) (a : BitVec 5) (x : BitVec 3) (i : BitVec 9) : Encoding.Statement (.lh d a x i) := by
  intro _ _
  have hE : Enc.lh d a x i = pack [(7, 35), (5, d.toNat), (5, a.toNat), (3, x.toNat), (3, 2), (9, i.toNat)] := by
    simp only [Enc.lh, at', pack, Nat.shiftLeft_eq]; omega
  show decodeWord 4 (Enc.lh d a x i) = _
  rw [hE, major_11 (by simp)]
  simp (disch := first | exact BitVec.isLt _ | decide) only [dec11, fld_skip, fld_here, bits_skip, bits_here, Nat.reduceSub, Nat.reduceDiv, Nat.reducePow, Nat.reduceAdd, Nat.reduceMod]

theorem Sys2Proof.Laws.Encoding.lhu (d : BitVec 5) (a : BitVec 5) (x : BitVec 3) (i : BitVec 9) : Encoding.Statement (.lhu d a x i) := by
  intro _ _
  have hE : Enc.lhu d a x i = pack [(7, 35), (5, d.toNat), (5, a.toNat), (3, x.toNat), (3, 3), (9, i.toNat)] := by
    simp only [Enc.lhu, at', pack, Nat.shiftLeft_eq]; omega
  show decodeWord 4 (Enc.lhu d a x i) = _
  rw [hE, major_11 (by simp)]
  simp (disch := first | exact BitVec.isLt _ | decide) only [dec11, fld_skip, fld_here, bits_skip, bits_here, Nat.reduceSub, Nat.reduceDiv, Nat.reducePow, Nat.reduceAdd, Nat.reduceMod]

theorem Sys2Proof.Laws.Encoding.lw (d : BitVec 5) (a : BitVec 5) (x : BitVec 3) (i : BitVec 9) : Encoding.Statement (.lw d a x i) := by
  intro _ _
  have hE : Enc.lw d a x i = pack [(7, 35), (5, d.toNat), (5, a.toNat), (3, x.toNat), (3, 4), (9, i.toNat)] := by
    simp only [Enc.lw, at', pack, Nat.shiftLeft_eq]; omega
  show decodeWord 4 (Enc.lw d a x i) = _
  rw [hE, major_11 (by simp)]
  simp (disch := first | exact BitVec.isLt _ | decide) only [dec11, fld_skip, fld_here, bits_skip, bits_here, Nat.reduceSub, Nat.reduceDiv, Nat.reducePow, Nat.reduceAdd, Nat.reduceMod]

theorem Sys2Proof.Laws.Encoding.lwu (d : BitVec 5) (a : BitVec 5) (x : BitVec 3) (i : BitVec 9) : Encoding.Statement (.lwu d a x i) := by
  intro _ _
  have hE : Enc.lwu d a x i = pack [(7, 35), (5, d.toNat), (5, a.toNat), (3, x.toNat), (3, 5), (9, i.toNat)] := by
    simp only [Enc.lwu, at', pack, Nat.shiftLeft_eq]; omega
  show decodeWord 4 (Enc.lwu d a x i) = _
  rw [hE, major_11 (by simp)]
  simp (disch := first | exact BitVec.isLt _ | decide) only [dec11, fld_skip, fld_here, bits_skip, bits_here, Nat.reduceSub, Nat.reduceDiv, Nat.reducePow, Nat.reduceAdd, Nat.reduceMod]

theorem Sys2Proof.Laws.Encoding.ld (d : BitVec 5) (a : BitVec 5) (x : BitVec 3) (i : BitVec 9) : Encoding.Statement (.ld d a x i) := by
  intro _ _
  have hE : Enc.ld d a x i = pack [(7, 35), (5, d.toNat), (5, a.toNat), (3, x.toNat), (3, 6), (9, i.toNat)] := by
    simp only [Enc.ld, at', pack, Nat.shiftLeft_eq]; omega
  show decodeWord 4 (Enc.ld d a x i) = _
  rw [hE, major_11 (by simp)]
  simp (disch := first | exact BitVec.isLt _ | decide) only [dec11, fld_skip, fld_here, bits_skip, bits_here, Nat.reduceSub, Nat.reduceDiv, Nat.reducePow, Nat.reduceAdd, Nat.reduceMod]

theorem Sys2Proof.Laws.Encoding.sb (s : BitVec 5) (a : BitVec 5) (x : BitVec 3) (i : BitVec 9) : Encoding.Statement (.sb s a x i) := by
  intro _ _
  have hE : Enc.sb s a x i = pack [(7, 37), (5, s.toNat), (5, a.toNat), (3, x.toNat), (3, 0), (9, i.toNat)] := by
    simp only [Enc.sb, at', pack, Nat.shiftLeft_eq]; omega
  show decodeWord 4 (Enc.sb s a x i) = _
  rw [hE, major_12 (by simp)]
  simp (disch := first | exact BitVec.isLt _ | decide) only [dec12, fld_skip, fld_here, bits_skip, bits_here, Nat.reduceSub, Nat.reduceDiv, Nat.reducePow, Nat.reduceAdd, Nat.reduceMod]

theorem Sys2Proof.Laws.Encoding.sh (s : BitVec 5) (a : BitVec 5) (x : BitVec 3) (i : BitVec 9) : Encoding.Statement (.sh s a x i) := by
  intro _ _
  have hE : Enc.sh s a x i = pack [(7, 37), (5, s.toNat), (5, a.toNat), (3, x.toNat), (3, 2), (9, i.toNat)] := by
    simp only [Enc.sh, at', pack, Nat.shiftLeft_eq]; omega
  show decodeWord 4 (Enc.sh s a x i) = _
  rw [hE, major_12 (by simp)]
  simp (disch := first | exact BitVec.isLt _ | decide) only [dec12, fld_skip, fld_here, bits_skip, bits_here, Nat.reduceSub, Nat.reduceDiv, Nat.reducePow, Nat.reduceAdd, Nat.reduceMod]

theorem Sys2Proof.Laws.Encoding.sw (s : BitVec 5) (a : BitVec 5) (x : BitVec 3) (i : BitVec 9) : Encoding.Statement (.sw s a x i) := by
  intro _ _
  have hE : Enc.sw s a x i = pack [(7, 37), (5, s.toNat), (5, a.toNat), (3, x.toNat), (3, 4), (9, i.toNat)] := by
    simp only [Enc.sw, at', pack, Nat.shiftLeft_eq]; omega
  show decodeWord 4 (Enc.sw s a x i) = _
  rw [hE, major_12 (by simp)]
  simp (disch := first | exact BitVec.isLt _ | decide) only [dec12, fld_skip, fld_here, bits_skip, bits_here, Nat.reduceSub, Nat.reduceDiv, Nat.reducePow, Nat.reduceAdd, Nat.reduceMod]

theorem Sys2Proof.Laws.Encoding.sd (s : BitVec 5) (a : BitVec 5) (x : BitVec 3) (i : BitVec 9) : Encoding.Statement (.sd s a x i) := by
  intro _ _
  have hE : Enc.sd s a x i = pack [(7, 37), (5, s.toNat), (5, a.toNat), (3, x.toNat), (3, 6), (9, i.toNat)] := by
    simp only [Enc.sd, at', pack, Nat.shiftLeft_eq]; omega
  show decodeWord 4 (Enc.sd s a x i) = _
  rw [hE, major_12 (by simp)]
  simp (disch := first | exact BitVec.isLt _ | decide) only [dec12, fld_skip, fld_here, bits_skip, bits_here, Nat.reduceSub, Nat.reduceDiv, Nat.reducePow, Nat.reduceAdd, Nat.reduceMod]

theorem Sys2Proof.Laws.Encoding.lxB (d : BitVec 5) (a : BitVec 5) (x : BitVec 3) (b : BitVec 5) (y : BitVec 3) : Encoding.Statement (.lxB d a x b y) := by
  intro _ _
  have hE : Enc.lxB d a x b y = pack [(7, 39), (5, d.toNat), (5, a.toNat), (3, x.toNat), (5, b.toNat), (3, y.toNat), (4, 0)] := by
    simp only [Enc.lxB, at', pack, Nat.shiftLeft_eq]; omega
  show decodeWord 4 (Enc.lxB d a x b y) = _
  rw [hE, major_13 (by simp)]
  simp (disch := first | exact BitVec.isLt _ | decide) only [dec13, fld_skip, fld_here, bits_skip, bits_here, Nat.reduceSub, Nat.reduceDiv, Nat.reducePow, Nat.reduceAdd, Nat.reduceMod]

theorem Sys2Proof.Laws.Encoding.lxBu (d : BitVec 5) (a : BitVec 5) (x : BitVec 3) (b : BitVec 5) (y : BitVec 3) : Encoding.Statement (.lxBu d a x b y) := by
  intro _ _
  have hE : Enc.lxBu d a x b y = pack [(7, 39), (5, d.toNat), (5, a.toNat), (3, x.toNat), (5, b.toNat), (3, y.toNat), (4, 1)] := by
    simp only [Enc.lxBu, at', pack, Nat.shiftLeft_eq]; omega
  show decodeWord 4 (Enc.lxBu d a x b y) = _
  rw [hE, major_13 (by simp)]
  simp (disch := first | exact BitVec.isLt _ | decide) only [dec13, fld_skip, fld_here, bits_skip, bits_here, Nat.reduceSub, Nat.reduceDiv, Nat.reducePow, Nat.reduceAdd, Nat.reduceMod]

theorem Sys2Proof.Laws.Encoding.lxH (d : BitVec 5) (a : BitVec 5) (x : BitVec 3) (b : BitVec 5) (y : BitVec 3) : Encoding.Statement (.lxH d a x b y) := by
  intro _ _
  have hE : Enc.lxH d a x b y = pack [(7, 39), (5, d.toNat), (5, a.toNat), (3, x.toNat), (5, b.toNat), (3, y.toNat), (4, 2)] := by
    simp only [Enc.lxH, at', pack, Nat.shiftLeft_eq]; omega
  show decodeWord 4 (Enc.lxH d a x b y) = _
  rw [hE, major_13 (by simp)]
  simp (disch := first | exact BitVec.isLt _ | decide) only [dec13, fld_skip, fld_here, bits_skip, bits_here, Nat.reduceSub, Nat.reduceDiv, Nat.reducePow, Nat.reduceAdd, Nat.reduceMod]

theorem Sys2Proof.Laws.Encoding.lxHu (d : BitVec 5) (a : BitVec 5) (x : BitVec 3) (b : BitVec 5) (y : BitVec 3) : Encoding.Statement (.lxHu d a x b y) := by
  intro _ _
  have hE : Enc.lxHu d a x b y = pack [(7, 39), (5, d.toNat), (5, a.toNat), (3, x.toNat), (5, b.toNat), (3, y.toNat), (4, 3)] := by
    simp only [Enc.lxHu, at', pack, Nat.shiftLeft_eq]; omega
  show decodeWord 4 (Enc.lxHu d a x b y) = _
  rw [hE, major_13 (by simp)]
  simp (disch := first | exact BitVec.isLt _ | decide) only [dec13, fld_skip, fld_here, bits_skip, bits_here, Nat.reduceSub, Nat.reduceDiv, Nat.reducePow, Nat.reduceAdd, Nat.reduceMod]

theorem Sys2Proof.Laws.Encoding.lxW (d : BitVec 5) (a : BitVec 5) (x : BitVec 3) (b : BitVec 5) (y : BitVec 3) : Encoding.Statement (.lxW d a x b y) := by
  intro _ _
  have hE : Enc.lxW d a x b y = pack [(7, 39), (5, d.toNat), (5, a.toNat), (3, x.toNat), (5, b.toNat), (3, y.toNat), (4, 4)] := by
    simp only [Enc.lxW, at', pack, Nat.shiftLeft_eq]; omega
  show decodeWord 4 (Enc.lxW d a x b y) = _
  rw [hE, major_13 (by simp)]
  simp (disch := first | exact BitVec.isLt _ | decide) only [dec13, fld_skip, fld_here, bits_skip, bits_here, Nat.reduceSub, Nat.reduceDiv, Nat.reducePow, Nat.reduceAdd, Nat.reduceMod]

theorem Sys2Proof.Laws.Encoding.lxWu (d : BitVec 5) (a : BitVec 5) (x : BitVec 3) (b : BitVec 5) (y : BitVec 3) : Encoding.Statement (.lxWu d a x b y) := by
  intro _ _
  have hE : Enc.lxWu d a x b y = pack [(7, 39), (5, d.toNat), (5, a.toNat), (3, x.toNat), (5, b.toNat), (3, y.toNat), (4, 5)] := by
    simp only [Enc.lxWu, at', pack, Nat.shiftLeft_eq]; omega
  show decodeWord 4 (Enc.lxWu d a x b y) = _
  rw [hE, major_13 (by simp)]
  simp (disch := first | exact BitVec.isLt _ | decide) only [dec13, fld_skip, fld_here, bits_skip, bits_here, Nat.reduceSub, Nat.reduceDiv, Nat.reducePow, Nat.reduceAdd, Nat.reduceMod]

theorem Sys2Proof.Laws.Encoding.lxD (d : BitVec 5) (a : BitVec 5) (x : BitVec 3) (b : BitVec 5) (y : BitVec 3) : Encoding.Statement (.lxD d a x b y) := by
  intro _ _
  have hE : Enc.lxD d a x b y = pack [(7, 39), (5, d.toNat), (5, a.toNat), (3, x.toNat), (5, b.toNat), (3, y.toNat), (4, 6)] := by
    simp only [Enc.lxD, at', pack, Nat.shiftLeft_eq]; omega
  show decodeWord 4 (Enc.lxD d a x b y) = _
  rw [hE, major_13 (by simp)]
  simp (disch := first | exact BitVec.isLt _ | decide) only [dec13, fld_skip, fld_here, bits_skip, bits_here, Nat.reduceSub, Nat.reduceDiv, Nat.reducePow, Nat.reduceAdd, Nat.reduceMod]

theorem Sys2Proof.Laws.Encoding.sxB (s : BitVec 5) (a : BitVec 5) (x : BitVec 3) (b : BitVec 5) (y : BitVec 3) : Encoding.Statement (.sxB s a x b y) := by
  intro _ _
  have hE : Enc.sxB s a x b y = pack [(7, 39), (5, s.toNat), (5, a.toNat), (3, x.toNat), (5, b.toNat), (3, y.toNat), (4, 8)] := by
    simp only [Enc.sxB, at', pack, Nat.shiftLeft_eq]; omega
  show decodeWord 4 (Enc.sxB s a x b y) = _
  rw [hE, major_13 (by simp)]
  simp (disch := first | exact BitVec.isLt _ | decide) only [dec13, fld_skip, fld_here, bits_skip, bits_here, Nat.reduceSub, Nat.reduceDiv, Nat.reducePow, Nat.reduceAdd, Nat.reduceMod]

theorem Sys2Proof.Laws.Encoding.sxH (s : BitVec 5) (a : BitVec 5) (x : BitVec 3) (b : BitVec 5) (y : BitVec 3) : Encoding.Statement (.sxH s a x b y) := by
  intro _ _
  have hE : Enc.sxH s a x b y = pack [(7, 39), (5, s.toNat), (5, a.toNat), (3, x.toNat), (5, b.toNat), (3, y.toNat), (4, 10)] := by
    simp only [Enc.sxH, at', pack, Nat.shiftLeft_eq]; omega
  show decodeWord 4 (Enc.sxH s a x b y) = _
  rw [hE, major_13 (by simp)]
  simp (disch := first | exact BitVec.isLt _ | decide) only [dec13, fld_skip, fld_here, bits_skip, bits_here, Nat.reduceSub, Nat.reduceDiv, Nat.reducePow, Nat.reduceAdd, Nat.reduceMod]

theorem Sys2Proof.Laws.Encoding.sxW (s : BitVec 5) (a : BitVec 5) (x : BitVec 3) (b : BitVec 5) (y : BitVec 3) : Encoding.Statement (.sxW s a x b y) := by
  intro _ _
  have hE : Enc.sxW s a x b y = pack [(7, 39), (5, s.toNat), (5, a.toNat), (3, x.toNat), (5, b.toNat), (3, y.toNat), (4, 12)] := by
    simp only [Enc.sxW, at', pack, Nat.shiftLeft_eq]; omega
  show decodeWord 4 (Enc.sxW s a x b y) = _
  rw [hE, major_13 (by simp)]
  simp (disch := first | exact BitVec.isLt _ | decide) only [dec13, fld_skip, fld_here, bits_skip, bits_here, Nat.reduceSub, Nat.reduceDiv, Nat.reducePow, Nat.reduceAdd, Nat.reduceMod]

theorem Sys2Proof.Laws.Encoding.sxD (s : BitVec 5) (a : BitVec 5) (x : BitVec 3) (b : BitVec 5) (y : BitVec 3) : Encoding.Statement (.sxD s a x b y) := by
  intro _ _
  have hE : Enc.sxD s a x b y = pack [(7, 39), (5, s.toNat), (5, a.toNat), (3, x.toNat), (5, b.toNat), (3, y.toNat), (4, 14)] := by
    simp only [Enc.sxD, at', pack, Nat.shiftLeft_eq]; omega
  show decodeWord 4 (Enc.sxD s a x b y) = _
  rw [hE, major_13 (by simp)]
  simp (disch := first | exact BitVec.isLt _ | decide) only [dec13, fld_skip, fld_here, bits_skip, bits_here, Nat.reduceSub, Nat.reduceDiv, Nat.reducePow, Nat.reduceAdd, Nat.reduceMod]

theorem Sys2Proof.Laws.Encoding.flw (d : BitVec 5) (a : BitVec 5) (x : BitVec 3) (i : BitVec 11) : Encoding.Statement (.flw d a x i) := by
  intro _ _
  have hE : Enc.flw d a x i = pack [(7, 41), (5, d.toNat), (5, a.toNat), (3, x.toNat), (11, i.toNat), (1, 0)] := by
    simp only [Enc.flw, at', pack, Nat.shiftLeft_eq]; omega
  show decodeWord 4 (Enc.flw d a x i) = _
  rw [hE, major_14 (by simp)]
  simp (disch := first | exact BitVec.isLt _ | decide) only [dec14, fld_skip, fld_here, bits_skip, bits_here, Nat.reduceSub, Nat.reduceDiv, Nat.reducePow, Nat.reduceAdd, Nat.reduceMod]

theorem Sys2Proof.Laws.Encoding.fsw (s : BitVec 5) (a : BitVec 5) (x : BitVec 3) (i : BitVec 11) : Encoding.Statement (.fsw s a x i) := by
  intro _ _
  have hE : Enc.fsw s a x i = pack [(7, 41), (5, s.toNat), (5, a.toNat), (3, x.toNat), (11, i.toNat), (1, 1)] := by
    simp only [Enc.fsw, at', pack, Nat.shiftLeft_eq]; omega
  show decodeWord 4 (Enc.fsw s a x i) = _
  rw [hE, major_14 (by simp)]
  simp (disch := first | exact BitVec.isLt _ | decide) only [dec14, fld_skip, fld_here, bits_skip, bits_here, Nat.reduceSub, Nat.reduceDiv, Nat.reducePow, Nat.reduceAdd, Nat.reduceMod]

theorem Sys2Proof.Laws.Encoding.vl (d : BitVec 5) (a : BitVec 5) (x : BitVec 3) (i : BitVec 10) : Encoding.Statement (.vl d a x i) := by
  intro _ _
  have hE : Enc.vl d a x i = pack [(7, 43), (5, d.toNat), (5, a.toNat), (3, x.toNat), (10, i.toNat), (2, 0)] := by
    simp only [Enc.vl, at', pack, Nat.shiftLeft_eq]; omega
  show decodeWord 4 (Enc.vl d a x i) = _
  rw [hE, major_15 (by simp)]
  simp (disch := first | exact BitVec.isLt _ | decide) only [dec15, fld_skip, fld_here, bits_skip, bits_here, Nat.reduceSub, Nat.reduceDiv, Nat.reducePow, Nat.reduceAdd, Nat.reduceMod]

theorem Sys2Proof.Laws.Encoding.vs (s : BitVec 5) (a : BitVec 5) (x : BitVec 3) (i : BitVec 10) : Encoding.Statement (.vs s a x i) := by
  intro _ _
  have hE : Enc.vs s a x i = pack [(7, 43), (5, s.toNat), (5, a.toNat), (3, x.toNat), (10, i.toNat), (2, 1)] := by
    simp only [Enc.vs, at', pack, Nat.shiftLeft_eq]; omega
  show decodeWord 4 (Enc.vs s a x i) = _
  rw [hE, major_15 (by simp)]
  simp (disch := first | exact BitVec.isLt _ | decide) only [dec15, fld_skip, fld_here, bits_skip, bits_here, Nat.reduceSub, Nat.reduceDiv, Nat.reducePow, Nat.reduceAdd, Nat.reduceMod]

theorem Sys2Proof.Laws.Encoding.vls (d : BitVec 5) (a : BitVec 5) (x : BitVec 3) (b : BitVec 5) (m : BitVec 3) (e : BitVec 2) : Encoding.Statement (.vls d a x b m e) := by
  intro _ _
  have hE : Enc.vls d a x b m e = pack [(7, 45), (5, d.toNat), (5, a.toNat), (3, x.toNat), (5, b.toNat), (3, m.toNat), (2, 0), (2, e.toNat)] := by
    simp only [Enc.vls, at', pack, Nat.shiftLeft_eq]; omega
  show decodeWord 4 (Enc.vls d a x b m e) = _
  rw [hE, major_16 (by simp)]
  simp (disch := first | exact BitVec.isLt _ | decide) only [dec16, fld_skip, fld_here, bits_skip, bits_here, Nat.reduceSub, Nat.reduceDiv, Nat.reducePow, Nat.reduceAdd, Nat.reduceMod]

theorem Sys2Proof.Laws.Encoding.vss (s : BitVec 5) (a : BitVec 5) (x : BitVec 3) (b : BitVec 5) (m : BitVec 3) (e : BitVec 2) : Encoding.Statement (.vss s a x b m e) := by
  intro _ _
  have hE : Enc.vss s a x b m e = pack [(7, 45), (5, s.toNat), (5, a.toNat), (3, x.toNat), (5, b.toNat), (3, m.toNat), (2, 1), (2, e.toNat)] := by
    simp only [Enc.vss, at', pack, Nat.shiftLeft_eq]; omega
  show decodeWord 4 (Enc.vss s a x b m e) = _
  rw [hE, major_16 (by simp)]
  simp (disch := first | exact BitVec.isLt _ | decide) only [dec16, fld_skip, fld_here, bits_skip, bits_here, Nat.reduceSub, Nat.reduceDiv, Nat.reducePow, Nat.reduceAdd, Nat.reduceMod]

theorem Sys2Proof.Laws.Encoding.vlg (d : BitVec 5) (a : BitVec 5) (x : BitVec 3) (b : BitVec 5) (m : BitVec 3) (e : BitVec 2) : Encoding.Statement (.vlg d a x b m e) := by
  intro _ _
  have hE : Enc.vlg d a x b m e = pack [(7, 45), (5, d.toNat), (5, a.toNat), (3, x.toNat), (5, b.toNat), (3, m.toNat), (2, 2), (2, e.toNat)] := by
    simp only [Enc.vlg, at', pack, Nat.shiftLeft_eq]; omega
  show decodeWord 4 (Enc.vlg d a x b m e) = _
  rw [hE, major_16 (by simp)]
  simp (disch := first | exact BitVec.isLt _ | decide) only [dec16, fld_skip, fld_here, bits_skip, bits_here, Nat.reduceSub, Nat.reduceDiv, Nat.reducePow, Nat.reduceAdd, Nat.reduceMod]

theorem Sys2Proof.Laws.Encoding.vsg (s : BitVec 5) (a : BitVec 5) (x : BitVec 3) (b : BitVec 5) (m : BitVec 3) (e : BitVec 2) : Encoding.Statement (.vsg s a x b m e) := by
  intro _ _
  have hE : Enc.vsg s a x b m e = pack [(7, 45), (5, s.toNat), (5, a.toNat), (3, x.toNat), (5, b.toNat), (3, m.toNat), (2, 3), (2, e.toNat)] := by
    simp only [Enc.vsg, at', pack, Nat.shiftLeft_eq]; omega
  show decodeWord 4 (Enc.vsg s a x b m e) = _
  rw [hE, major_16 (by simp)]
  simp (disch := first | exact BitVec.isLt _ | decide) only [dec16, fld_skip, fld_here, bits_skip, bits_here, Nat.reduceSub, Nat.reduceDiv, Nat.reducePow, Nat.reduceAdd, Nat.reduceMod]

theorem Sys2Proof.Laws.Encoding.fadd (d : BitVec 5) (a : BitVec 5) (x : BitVec 3) (b : BitVec 5) (y : BitVec 3) : Encoding.Statement (.fadd d a x b y) := by
  intro _ _
  have hE : Enc.fadd d a x b y = pack [(7, 47), (5, d.toNat), (5, a.toNat), (3, x.toNat), (5, b.toNat), (3, y.toNat), (4, 0)] := by
    simp only [Enc.fadd, at', pack, Nat.shiftLeft_eq]; omega
  show decodeWord 4 (Enc.fadd d a x b y) = _
  rw [hE, major_17 (by simp)]
  simp (disch := first | exact BitVec.isLt _ | decide) only [dec17, fld_skip, fld_here, bits_skip, bits_here, Nat.reduceSub, Nat.reduceDiv, Nat.reducePow, Nat.reduceAdd, Nat.reduceMod]

theorem Sys2Proof.Laws.Encoding.fsub (d : BitVec 5) (a : BitVec 5) (x : BitVec 3) (b : BitVec 5) (y : BitVec 3) : Encoding.Statement (.fsub d a x b y) := by
  intro _ _
  have hE : Enc.fsub d a x b y = pack [(7, 47), (5, d.toNat), (5, a.toNat), (3, x.toNat), (5, b.toNat), (3, y.toNat), (4, 1)] := by
    simp only [Enc.fsub, at', pack, Nat.shiftLeft_eq]; omega
  show decodeWord 4 (Enc.fsub d a x b y) = _
  rw [hE, major_17 (by simp)]
  simp (disch := first | exact BitVec.isLt _ | decide) only [dec17, fld_skip, fld_here, bits_skip, bits_here, Nat.reduceSub, Nat.reduceDiv, Nat.reducePow, Nat.reduceAdd, Nat.reduceMod]

theorem Sys2Proof.Laws.Encoding.fmul (d : BitVec 5) (a : BitVec 5) (x : BitVec 3) (b : BitVec 5) (y : BitVec 3) : Encoding.Statement (.fmul d a x b y) := by
  intro _ _
  have hE : Enc.fmul d a x b y = pack [(7, 47), (5, d.toNat), (5, a.toNat), (3, x.toNat), (5, b.toNat), (3, y.toNat), (4, 2)] := by
    simp only [Enc.fmul, at', pack, Nat.shiftLeft_eq]; omega
  show decodeWord 4 (Enc.fmul d a x b y) = _
  rw [hE, major_17 (by simp)]
  simp (disch := first | exact BitVec.isLt _ | decide) only [dec17, fld_skip, fld_here, bits_skip, bits_here, Nat.reduceSub, Nat.reduceDiv, Nat.reducePow, Nat.reduceAdd, Nat.reduceMod]

theorem Sys2Proof.Laws.Encoding.fdiv (d : BitVec 5) (a : BitVec 5) (x : BitVec 3) (b : BitVec 5) (y : BitVec 3) : Encoding.Statement (.fdiv d a x b y) := by
  intro _ _
  have hE : Enc.fdiv d a x b y = pack [(7, 47), (5, d.toNat), (5, a.toNat), (3, x.toNat), (5, b.toNat), (3, y.toNat), (4, 3)] := by
    simp only [Enc.fdiv, at', pack, Nat.shiftLeft_eq]; omega
  show decodeWord 4 (Enc.fdiv d a x b y) = _
  rw [hE, major_17 (by simp)]
  simp (disch := first | exact BitVec.isLt _ | decide) only [dec17, fld_skip, fld_here, bits_skip, bits_here, Nat.reduceSub, Nat.reduceDiv, Nat.reducePow, Nat.reduceAdd, Nat.reduceMod]

theorem Sys2Proof.Laws.Encoding.fsqrt (d : BitVec 5) (a : BitVec 5) (x : BitVec 3) : Encoding.Statement (.fsqrt d a x) := by
  intro _ _
  have hE : Enc.fsqrt d a x = pack [(7, 47), (5, d.toNat), (5, a.toNat), (3, x.toNat), (12, 1024)] := by
    simp only [Enc.fsqrt, at', pack, Nat.shiftLeft_eq]; omega
  show decodeWord 4 (Enc.fsqrt d a x) = _
  rw [hE, major_17 (by simp)]
  simp (disch := first | exact BitVec.isLt _ | decide) only [dec17, fld_skip, fld_here, bits_skip, bits_here, Nat.reduceSub, Nat.reduceDiv, Nat.reducePow, Nat.reduceAdd, Nat.reduceMod, bne_self_eq_false, ok_false]

theorem Sys2Proof.Laws.Encoding.fmin (d : BitVec 5) (a : BitVec 5) (x : BitVec 3) (b : BitVec 5) (y : BitVec 3) : Encoding.Statement (.fmin d a x b y) := by
  intro _ _
  have hE : Enc.fmin d a x b y = pack [(7, 47), (5, d.toNat), (5, a.toNat), (3, x.toNat), (5, b.toNat), (3, y.toNat), (4, 5)] := by
    simp only [Enc.fmin, at', pack, Nat.shiftLeft_eq]; omega
  show decodeWord 4 (Enc.fmin d a x b y) = _
  rw [hE, major_17 (by simp)]
  simp (disch := first | exact BitVec.isLt _ | decide) only [dec17, fld_skip, fld_here, bits_skip, bits_here, Nat.reduceSub, Nat.reduceDiv, Nat.reducePow, Nat.reduceAdd, Nat.reduceMod]

theorem Sys2Proof.Laws.Encoding.fmax (d : BitVec 5) (a : BitVec 5) (x : BitVec 3) (b : BitVec 5) (y : BitVec 3) : Encoding.Statement (.fmax d a x b y) := by
  intro _ _
  have hE : Enc.fmax d a x b y = pack [(7, 47), (5, d.toNat), (5, a.toNat), (3, x.toNat), (5, b.toNat), (3, y.toNat), (4, 6)] := by
    simp only [Enc.fmax, at', pack, Nat.shiftLeft_eq]; omega
  show decodeWord 4 (Enc.fmax d a x b y) = _
  rw [hE, major_17 (by simp)]
  simp (disch := first | exact BitVec.isLt _ | decide) only [dec17, fld_skip, fld_here, bits_skip, bits_here, Nat.reduceSub, Nat.reduceDiv, Nat.reducePow, Nat.reduceAdd, Nat.reduceMod]

theorem Sys2Proof.Laws.Encoding.fabs (d : BitVec 5) (a : BitVec 5) (x : BitVec 3) : Encoding.Statement (.fabs d a x) := by
  intro _ _
  have hE : Enc.fabs d a x = pack [(7, 47), (5, d.toNat), (5, a.toNat), (3, x.toNat), (12, 1792)] := by
    simp only [Enc.fabs, at', pack, Nat.shiftLeft_eq]; omega
  show decodeWord 4 (Enc.fabs d a x) = _
  rw [hE, major_17 (by simp)]
  simp (disch := first | exact BitVec.isLt _ | decide) only [dec17, fld_skip, fld_here, bits_skip, bits_here, Nat.reduceSub, Nat.reduceDiv, Nat.reducePow, Nat.reduceAdd, Nat.reduceMod, bne_self_eq_false, ok_false]

theorem Sys2Proof.Laws.Encoding.fneg (d : BitVec 5) (a : BitVec 5) (x : BitVec 3) : Encoding.Statement (.fneg d a x) := by
  intro _ _
  have hE : Enc.fneg d a x = pack [(7, 47), (5, d.toNat), (5, a.toNat), (3, x.toNat), (12, 2048)] := by
    simp only [Enc.fneg, at', pack, Nat.shiftLeft_eq]; omega
  show decodeWord 4 (Enc.fneg d a x) = _
  rw [hE, major_17 (by simp)]
  simp (disch := first | exact BitVec.isLt _ | decide) only [dec17, fld_skip, fld_here, bits_skip, bits_here, Nat.reduceSub, Nat.reduceDiv, Nat.reducePow, Nat.reduceAdd, Nat.reduceMod, bne_self_eq_false, ok_false]

theorem Sys2Proof.Laws.Encoding.fma (d : BitVec 5) (a : BitVec 5) (b : BitVec 5) (c : BitVec 5) : Encoding.Statement (.fma d a b c) := by
  intro _ _
  have hE : Enc.fma d a b c = pack [(7, 49), (5, d.toNat), (5, a.toNat), (5, b.toNat), (5, c.toNat), (5, 0)] := by
    simp only [Enc.fma, at', pack, Nat.shiftLeft_eq]; omega
  show decodeWord 4 (Enc.fma d a b c) = _
  rw [hE, major_18 (by simp)]
  simp (disch := first | exact BitVec.isLt _ | decide) only [dec18, fld_skip, fld_here, bits_skip, bits_here, Nat.reduceSub, Nat.reduceDiv, Nat.reducePow, Nat.reduceAdd, Nat.reduceMod]

theorem Sys2Proof.Laws.Encoding.fms (d : BitVec 5) (a : BitVec 5) (b : BitVec 5) (c : BitVec 5) : Encoding.Statement (.fms d a b c) := by
  intro _ _
  have hE : Enc.fms d a b c = pack [(7, 49), (5, d.toNat), (5, a.toNat), (5, b.toNat), (5, c.toNat), (5, 1)] := by
    simp only [Enc.fms, at', pack, Nat.shiftLeft_eq]; omega
  show decodeWord 4 (Enc.fms d a b c) = _
  rw [hE, major_18 (by simp)]
  simp (disch := first | exact BitVec.isLt _ | decide) only [dec18, fld_skip, fld_here, bits_skip, bits_here, Nat.reduceSub, Nat.reduceDiv, Nat.reducePow, Nat.reduceAdd, Nat.reduceMod]

theorem Sys2Proof.Laws.Encoding.fnma (d : BitVec 5) (a : BitVec 5) (b : BitVec 5) (c : BitVec 5) : Encoding.Statement (.fnma d a b c) := by
  intro _ _
  have hE : Enc.fnma d a b c = pack [(7, 49), (5, d.toNat), (5, a.toNat), (5, b.toNat), (5, c.toNat), (5, 2)] := by
    simp only [Enc.fnma, at', pack, Nat.shiftLeft_eq]; omega
  show decodeWord 4 (Enc.fnma d a b c) = _
  rw [hE, major_18 (by simp)]
  simp (disch := first | exact BitVec.isLt _ | decide) only [dec18, fld_skip, fld_here, bits_skip, bits_here, Nat.reduceSub, Nat.reduceDiv, Nat.reducePow, Nat.reduceAdd, Nat.reduceMod]

theorem Sys2Proof.Laws.Encoding.fnms (d : BitVec 5) (a : BitVec 5) (b : BitVec 5) (c : BitVec 5) : Encoding.Statement (.fnms d a b c) := by
  intro _ _
  have hE : Enc.fnms d a b c = pack [(7, 49), (5, d.toNat), (5, a.toNat), (5, b.toNat), (5, c.toNat), (5, 3)] := by
    simp only [Enc.fnms, at', pack, Nat.shiftLeft_eq]; omega
  show decodeWord 4 (Enc.fnms d a b c) = _
  rw [hE, major_18 (by simp)]
  simp (disch := first | exact BitVec.isLt _ | decide) only [dec18, fld_skip, fld_here, bits_skip, bits_here, Nat.reduceSub, Nat.reduceDiv, Nat.reducePow, Nat.reduceAdd, Nat.reduceMod]

theorem Sys2Proof.Laws.Encoding.fcvti (d : BitVec 5) (a : BitVec 5) (x : BitVec 3) (r : BitVec 2) (s : BitVec 1) : Encoding.Statement (.fcvti d a x r s) := by
  intro _ _
  have hE : Enc.fcvti d a x r s = pack [(7, 51), (5, d.toNat), (5, a.toNat), (3, x.toNat), (2, r.toNat), (1, s.toNat), (9, 0)] := by
    simp only [Enc.fcvti, at', pack, Nat.shiftLeft_eq]; omega
  show decodeWord 4 (Enc.fcvti d a x r s) = _
  rw [hE, major_19 (by simp)]
  simp (disch := first | exact BitVec.isLt _ | decide) only [dec19, fld_skip, fld_here, bits_skip, bits_here, Nat.reduceSub, Nat.reduceDiv, Nat.reducePow, Nat.reduceAdd, Nat.reduceMod, bne_self_eq_false, ok_false]

theorem Sys2Proof.Laws.Encoding.fcvtf (d : BitVec 5) (a : BitVec 5) (x : BitVec 3) (r : BitVec 2) (s : BitVec 1) : Encoding.Statement (.fcvtf d a x r s) := by
  intro _ _
  have hE : Enc.fcvtf d a x r s = pack [(7, 51), (5, d.toNat), (5, a.toNat), (3, x.toNat), (2, r.toNat), (1, s.toNat), (9, 32)] := by
    simp only [Enc.fcvtf, at', pack, Nat.shiftLeft_eq]; omega
  show decodeWord 4 (Enc.fcvtf d a x r s) = _
  rw [hE, major_19 (by simp)]
  simp (disch := first | exact BitVec.isLt _ | decide) only [dec19, fld_skip, fld_here, bits_skip, bits_here, Nat.reduceSub, Nat.reduceDiv, Nat.reducePow, Nat.reduceAdd, Nat.reduceMod, bne_self_eq_false, ok_false]

theorem Sys2Proof.Laws.Encoding.fcvtb (d : BitVec 5) (a : BitVec 5) (x : BitVec 3) (r : BitVec 2) (s : BitVec 1) : Encoding.Statement (.fcvtb d a x r s) := by
  intro _ _
  have hE : Enc.fcvtb d a x r s = pack [(7, 51), (5, d.toNat), (5, a.toNat), (3, x.toNat), (2, r.toNat), (1, s.toNat), (9, 64)] := by
    simp only [Enc.fcvtb, at', pack, Nat.shiftLeft_eq]; omega
  show decodeWord 4 (Enc.fcvtb d a x r s) = _
  rw [hE, major_19 (by simp)]
  simp (disch := first | exact BitVec.isLt _ | decide) only [dec19, fld_skip, fld_here, bits_skip, bits_here, Nat.reduceSub, Nat.reduceDiv, Nat.reducePow, Nat.reduceAdd, Nat.reduceMod, bne_self_eq_false, ok_false]

theorem Sys2Proof.Laws.Encoding.fmvgf (d : BitVec 5) (a : BitVec 5) (x : BitVec 3) : Encoding.Statement (.fmvgf d a x) := by
  intro _ _
  have hE : Enc.fmvgf d a x = pack [(7, 51), (5, d.toNat), (5, a.toNat), (3, x.toNat), (12, 768)] := by
    simp only [Enc.fmvgf, at', pack, Nat.shiftLeft_eq]; omega
  show decodeWord 4 (Enc.fmvgf d a x) = _
  rw [hE, major_19 (by simp)]
  simp (disch := first | exact BitVec.isLt _ | decide) only [dec19, fld_skip, fld_here, bits_skip, bits_here, Nat.reduceSub, Nat.reduceDiv, Nat.reducePow, Nat.reduceAdd, Nat.reduceMod, bne_self_eq_false, ok_false]

theorem Sys2Proof.Laws.Encoding.fmvfg (d : BitVec 5) (a : BitVec 5) (x : BitVec 3) : Encoding.Statement (.fmvfg d a x) := by
  intro _ _
  have hE : Enc.fmvfg d a x = pack [(7, 51), (5, d.toNat), (5, a.toNat), (3, x.toNat), (12, 1024)] := by
    simp only [Enc.fmvfg, at', pack, Nat.shiftLeft_eq]; omega
  show decodeWord 4 (Enc.fmvfg d a x) = _
  rw [hE, major_19 (by simp)]
  simp (disch := first | exact BitVec.isLt _ | decide) only [dec19, fld_skip, fld_here, bits_skip, bits_here, Nat.reduceSub, Nat.reduceDiv, Nat.reducePow, Nat.reduceAdd, Nat.reduceMod, bne_self_eq_false, ok_false]

theorem Sys2Proof.Laws.Encoding.fceq (q : BitVec 3) (a : BitVec 5) (x : BitVec 3) (b : BitVec 5) (y : BitVec 3) : Encoding.Statement (.fceq q a x b y) := by
  intro _ _
  have hE : Enc.fceq q a x b y = pack [(7, 51), (3, q.toNat), (2, 0), (5, a.toNat), (3, x.toNat), (5, b.toNat), (3, y.toNat), (4, 5)] := by
    simp only [Enc.fceq, at', pack, Nat.shiftLeft_eq]; omega
  show decodeWord 4 (Enc.fceq q a x b y) = _
  rw [hE, major_19 (by simp)]
  simp (disch := first | exact BitVec.isLt _ | decide) only [dec19, fld_skip, fld_here, bits_skip, bits_here, Nat.reduceSub, Nat.reduceDiv, Nat.reducePow, Nat.reduceAdd, Nat.reduceMod, bne_self_eq_false, ok_false]

theorem Sys2Proof.Laws.Encoding.fclt (q : BitVec 3) (a : BitVec 5) (x : BitVec 3) (b : BitVec 5) (y : BitVec 3) : Encoding.Statement (.fclt q a x b y) := by
  intro _ _
  have hE : Enc.fclt q a x b y = pack [(7, 51), (3, q.toNat), (2, 0), (5, a.toNat), (3, x.toNat), (5, b.toNat), (3, y.toNat), (4, 6)] := by
    simp only [Enc.fclt, at', pack, Nat.shiftLeft_eq]; omega
  show decodeWord 4 (Enc.fclt q a x b y) = _
  rw [hE, major_19 (by simp)]
  simp (disch := first | exact BitVec.isLt _ | decide) only [dec19, fld_skip, fld_here, bits_skip, bits_here, Nat.reduceSub, Nat.reduceDiv, Nat.reducePow, Nat.reduceAdd, Nat.reduceMod, bne_self_eq_false, ok_false]

theorem Sys2Proof.Laws.Encoding.fcle (q : BitVec 3) (a : BitVec 5) (x : BitVec 3) (b : BitVec 5) (y : BitVec 3) : Encoding.Statement (.fcle q a x b y) := by
  intro _ _
  have hE : Enc.fcle q a x b y = pack [(7, 51), (3, q.toNat), (2, 0), (5, a.toNat), (3, x.toNat), (5, b.toNat), (3, y.toNat), (4, 7)] := by
    simp only [Enc.fcle, at', pack, Nat.shiftLeft_eq]; omega
  show decodeWord 4 (Enc.fcle q a x b y) = _
  rw [hE, major_19 (by simp)]
  simp (disch := first | exact BitVec.isLt _ | decide) only [dec19, fld_skip, fld_here, bits_skip, bits_here, Nat.reduceSub, Nat.reduceDiv, Nat.reducePow, Nat.reduceAdd, Nat.reduceMod, bne_self_eq_false, ok_false]

theorem Sys2Proof.Laws.Encoding.fclass (d : BitVec 5) (a : BitVec 5) (x : BitVec 3) : Encoding.Statement (.fclass d a x) := by
  intro _ _
  have hE : Enc.fclass d a x = pack [(7, 51), (5, d.toNat), (5, a.toNat), (3, x.toNat), (12, 2048)] := by
    simp only [Enc.fclass, at', pack, Nat.shiftLeft_eq]; omega
  show decodeWord 4 (Enc.fclass d a x) = _
  rw [hE, major_19 (by simp)]
  simp (disch := first | exact BitVec.isLt _ | decide) only [dec19, fld_skip, fld_here, bits_skip, bits_here, Nat.reduceSub, Nat.reduceDiv, Nat.reducePow, Nat.reduceAdd, Nat.reduceMod, bne_self_eq_false, ok_false]

theorem Sys2Proof.Laws.Encoding.vadd (d : BitVec 5) (a : BitVec 5) (x : BitVec 3) (b : BitVec 5) (e : BitVec 3) : Encoding.Statement (.vadd d a x b e) := by
  intro hw _
  have hE : Enc.vadd d a x b e = pack [(7, 53), (5, d.toNat), (5, a.toNat), (3, x.toNat), (5, b.toNat), (3, e.toNat), (4, 0)] := by
    simp only [Enc.vadd, at', pack, Nat.shiftLeft_eq]; omega
  show decodeWord 4 (Enc.vadd d a x b e) = _
  rw [hE, major_1A (by simp)]
  replace hw : (decide (e.toNat ≤ 3)) = true := hw
  simp at hw
  have := e.isLt
  simp (disch := first | exact BitVec.isLt _ | decide) [dec1A, ok]
  omega

theorem Sys2Proof.Laws.Encoding.vsub (d : BitVec 5) (a : BitVec 5) (x : BitVec 3) (b : BitVec 5) (e : BitVec 3) : Encoding.Statement (.vsub d a x b e) := by
  intro hw _
  have hE : Enc.vsub d a x b e = pack [(7, 53), (5, d.toNat), (5, a.toNat), (3, x.toNat), (5, b.toNat), (3, e.toNat), (4, 1)] := by
    simp only [Enc.vsub, at', pack, Nat.shiftLeft_eq]; omega
  show decodeWord 4 (Enc.vsub d a x b e) = _
  rw [hE, major_1A (by simp)]
  replace hw : (decide (e.toNat ≤ 3)) = true := hw
  simp at hw
  have := e.isLt
  simp (disch := first | exact BitVec.isLt _ | decide) [dec1A, ok]
  omega

theorem Sys2Proof.Laws.Encoding.vmul (d : BitVec 5) (a : BitVec 5) (x : BitVec 3) (b : BitVec 5) (e : BitVec 3) : Encoding.Statement (.vmul d a x b e) := by
  intro hw _
  have hE : Enc.vmul d a x b e = pack [(7, 53), (5, d.toNat), (5, a.toNat), (3, x.toNat), (5, b.toNat), (3, e.toNat), (4, 2)] := by
    simp only [Enc.vmul, at', pack, Nat.shiftLeft_eq]; omega
  show decodeWord 4 (Enc.vmul d a x b e) = _
  rw [hE, major_1A (by simp)]
  replace hw : (decide (e.toNat ≤ 3)) = true := hw
  simp at hw
  have := e.isLt
  simp (disch := first | exact BitVec.isLt _ | decide) [dec1A, ok]
  omega

theorem Sys2Proof.Laws.Encoding.vmulh (d : BitVec 5) (a : BitVec 5) (x : BitVec 3) (b : BitVec 5) (e : BitVec 3) : Encoding.Statement (.vmulh d a x b e) := by
  intro hw _
  have hE : Enc.vmulh d a x b e = pack [(7, 53), (5, d.toNat), (5, a.toNat), (3, x.toNat), (5, b.toNat), (3, e.toNat), (4, 3)] := by
    simp only [Enc.vmulh, at', pack, Nat.shiftLeft_eq]; omega
  show decodeWord 4 (Enc.vmulh d a x b e) = _
  rw [hE, major_1A (by simp)]
  replace hw : (decide (e.toNat ≤ 3)) = true := hw
  simp at hw
  have := e.isLt
  simp (disch := first | exact BitVec.isLt _ | decide) [dec1A, ok]
  omega

theorem Sys2Proof.Laws.Encoding.vmin (d : BitVec 5) (a : BitVec 5) (x : BitVec 3) (b : BitVec 5) (e : BitVec 3) : Encoding.Statement (.vmin d a x b e) := by
  intro hw _
  have hE : Enc.vmin d a x b e = pack [(7, 53), (5, d.toNat), (5, a.toNat), (3, x.toNat), (5, b.toNat), (3, e.toNat), (4, 4)] := by
    simp only [Enc.vmin, at', pack, Nat.shiftLeft_eq]; omega
  show decodeWord 4 (Enc.vmin d a x b e) = _
  rw [hE, major_1A (by simp)]
  replace hw : (decide (e.toNat ≤ 3)) = true := hw
  simp at hw
  have := e.isLt
  simp (disch := first | exact BitVec.isLt _ | decide) [dec1A, ok]
  omega

theorem Sys2Proof.Laws.Encoding.vmax (d : BitVec 5) (a : BitVec 5) (x : BitVec 3) (b : BitVec 5) (e : BitVec 3) : Encoding.Statement (.vmax d a x b e) := by
  intro hw _
  have hE : Enc.vmax d a x b e = pack [(7, 53), (5, d.toNat), (5, a.toNat), (3, x.toNat), (5, b.toNat), (3, e.toNat), (4, 5)] := by
    simp only [Enc.vmax, at', pack, Nat.shiftLeft_eq]; omega
  show decodeWord 4 (Enc.vmax d a x b e) = _
  rw [hE, major_1A (by simp)]
  replace hw : (decide (e.toNat ≤ 3)) = true := hw
  simp at hw
  have := e.isLt
  simp (disch := first | exact BitVec.isLt _ | decide) [dec1A, ok]
  omega

theorem Sys2Proof.Laws.Encoding.vminu (d : BitVec 5) (a : BitVec 5) (x : BitVec 3) (b : BitVec 5) (e : BitVec 3) : Encoding.Statement (.vminu d a x b e) := by
  intro hw _
  have hE : Enc.vminu d a x b e = pack [(7, 53), (5, d.toNat), (5, a.toNat), (3, x.toNat), (5, b.toNat), (3, e.toNat), (4, 6)] := by
    simp only [Enc.vminu, at', pack, Nat.shiftLeft_eq]; omega
  show decodeWord 4 (Enc.vminu d a x b e) = _
  rw [hE, major_1A (by simp)]
  replace hw : (decide (e.toNat ≤ 3)) = true := hw
  simp at hw
  have := e.isLt
  simp (disch := first | exact BitVec.isLt _ | decide) [dec1A, ok]
  omega

theorem Sys2Proof.Laws.Encoding.vmaxu (d : BitVec 5) (a : BitVec 5) (x : BitVec 3) (b : BitVec 5) (e : BitVec 3) : Encoding.Statement (.vmaxu d a x b e) := by
  intro hw _
  have hE : Enc.vmaxu d a x b e = pack [(7, 53), (5, d.toNat), (5, a.toNat), (3, x.toNat), (5, b.toNat), (3, e.toNat), (4, 7)] := by
    simp only [Enc.vmaxu, at', pack, Nat.shiftLeft_eq]; omega
  show decodeWord 4 (Enc.vmaxu d a x b e) = _
  rw [hE, major_1A (by simp)]
  replace hw : (decide (e.toNat ≤ 3)) = true := hw
  simp at hw
  have := e.isLt
  simp (disch := first | exact BitVec.isLt _ | decide) [dec1A, ok]
  omega

theorem Sys2Proof.Laws.Encoding.vand (d : BitVec 5) (a : BitVec 5) (x : BitVec 3) (b : BitVec 5) (e : BitVec 3) : Encoding.Statement (.vand d a x b e) := by
  intro hw _
  have hE : Enc.vand d a x b e = pack [(7, 53), (5, d.toNat), (5, a.toNat), (3, x.toNat), (5, b.toNat), (3, e.toNat), (4, 8)] := by
    simp only [Enc.vand, at', pack, Nat.shiftLeft_eq]; omega
  show decodeWord 4 (Enc.vand d a x b e) = _
  rw [hE, major_1A (by simp)]
  replace hw : (decide (e.toNat ≤ 3)) = true := hw
  simp at hw
  have := e.isLt
  simp (disch := first | exact BitVec.isLt _ | decide) [dec1A, ok]
  omega

theorem Sys2Proof.Laws.Encoding.vor (d : BitVec 5) (a : BitVec 5) (x : BitVec 3) (b : BitVec 5) (e : BitVec 3) : Encoding.Statement (.vor d a x b e) := by
  intro hw _
  have hE : Enc.vor d a x b e = pack [(7, 53), (5, d.toNat), (5, a.toNat), (3, x.toNat), (5, b.toNat), (3, e.toNat), (4, 9)] := by
    simp only [Enc.vor, at', pack, Nat.shiftLeft_eq]; omega
  show decodeWord 4 (Enc.vor d a x b e) = _
  rw [hE, major_1A (by simp)]
  replace hw : (decide (e.toNat ≤ 3)) = true := hw
  simp at hw
  have := e.isLt
  simp (disch := first | exact BitVec.isLt _ | decide) [dec1A, ok]
  omega

theorem Sys2Proof.Laws.Encoding.vxor (d : BitVec 5) (a : BitVec 5) (x : BitVec 3) (b : BitVec 5) (e : BitVec 3) : Encoding.Statement (.vxor d a x b e) := by
  intro hw _
  have hE : Enc.vxor d a x b e = pack [(7, 53), (5, d.toNat), (5, a.toNat), (3, x.toNat), (5, b.toNat), (3, e.toNat), (4, 10)] := by
    simp only [Enc.vxor, at', pack, Nat.shiftLeft_eq]; omega
  show decodeWord 4 (Enc.vxor d a x b e) = _
  rw [hE, major_1A (by simp)]
  replace hw : (decide (e.toNat ≤ 3)) = true := hw
  simp at hw
  have := e.isLt
  simp (disch := first | exact BitVec.isLt _ | decide) [dec1A, ok]
  omega

theorem Sys2Proof.Laws.Encoding.vsll (d : BitVec 5) (a : BitVec 5) (x : BitVec 3) (b : BitVec 5) (e : BitVec 3) : Encoding.Statement (.vsll d a x b e) := by
  intro hw _
  have hE : Enc.vsll d a x b e = pack [(7, 53), (5, d.toNat), (5, a.toNat), (3, x.toNat), (5, b.toNat), (3, e.toNat), (4, 11)] := by
    simp only [Enc.vsll, at', pack, Nat.shiftLeft_eq]; omega
  show decodeWord 4 (Enc.vsll d a x b e) = _
  rw [hE, major_1A (by simp)]
  replace hw : (decide (e.toNat ≤ 3)) = true := hw
  simp at hw
  have := e.isLt
  simp (disch := first | exact BitVec.isLt _ | decide) [dec1A, ok]
  omega

theorem Sys2Proof.Laws.Encoding.vsrl (d : BitVec 5) (a : BitVec 5) (x : BitVec 3) (b : BitVec 5) (e : BitVec 3) : Encoding.Statement (.vsrl d a x b e) := by
  intro hw _
  have hE : Enc.vsrl d a x b e = pack [(7, 53), (5, d.toNat), (5, a.toNat), (3, x.toNat), (5, b.toNat), (3, e.toNat), (4, 12)] := by
    simp only [Enc.vsrl, at', pack, Nat.shiftLeft_eq]; omega
  show decodeWord 4 (Enc.vsrl d a x b e) = _
  rw [hE, major_1A (by simp)]
  replace hw : (decide (e.toNat ≤ 3)) = true := hw
  simp at hw
  have := e.isLt
  simp (disch := first | exact BitVec.isLt _ | decide) [dec1A, ok]
  omega

theorem Sys2Proof.Laws.Encoding.vsra (d : BitVec 5) (a : BitVec 5) (x : BitVec 3) (b : BitVec 5) (e : BitVec 3) : Encoding.Statement (.vsra d a x b e) := by
  intro hw _
  have hE : Enc.vsra d a x b e = pack [(7, 53), (5, d.toNat), (5, a.toNat), (3, x.toNat), (5, b.toNat), (3, e.toNat), (4, 13)] := by
    simp only [Enc.vsra, at', pack, Nat.shiftLeft_eq]; omega
  show decodeWord 4 (Enc.vsra d a x b e) = _
  rw [hE, major_1A (by simp)]
  replace hw : (decide (e.toNat ≤ 3)) = true := hw
  simp at hw
  have := e.isLt
  simp (disch := first | exact BitVec.isLt _ | decide) [dec1A, ok]
  omega

theorem Sys2Proof.Laws.Encoding.vadds (d : BitVec 5) (a : BitVec 5) (x : BitVec 3) (b : BitVec 5) (e : BitVec 3) : Encoding.Statement (.vadds d a x b e) := by
  intro hw _
  have hE : Enc.vadds d a x b e = pack [(7, 53), (5, d.toNat), (5, a.toNat), (3, x.toNat), (5, b.toNat), (3, e.toNat), (4, 14)] := by
    simp only [Enc.vadds, at', pack, Nat.shiftLeft_eq]; omega
  show decodeWord 4 (Enc.vadds d a x b e) = _
  rw [hE, major_1A (by simp)]
  replace hw : (decide (e.toNat ≤ 3)) = true := hw
  simp at hw
  have := e.isLt
  simp (disch := first | exact BitVec.isLt _ | decide) [dec1A, ok]
  omega

theorem Sys2Proof.Laws.Encoding.vsubs (d : BitVec 5) (a : BitVec 5) (x : BitVec 3) (b : BitVec 5) (e : BitVec 3) : Encoding.Statement (.vsubs d a x b e) := by
  intro hw _
  have hE : Enc.vsubs d a x b e = pack [(7, 53), (5, d.toNat), (5, a.toNat), (3, x.toNat), (5, b.toNat), (3, e.toNat), (4, 15)] := by
    simp only [Enc.vsubs, at', pack, Nat.shiftLeft_eq]; omega
  show decodeWord 4 (Enc.vsubs d a x b e) = _
  rw [hE, major_1A (by simp)]
  replace hw : (decide (e.toNat ≤ 3)) = true := hw
  simp at hw
  have := e.isLt
  simp (disch := first | exact BitVec.isLt _ | decide) [dec1A, ok]
  omega

theorem Sys2Proof.Laws.Encoding.vfadd (d : BitVec 5) (a : BitVec 5) (x : BitVec 3) (b : BitVec 5) (e : BitVec 3) : Encoding.Statement (.vfadd d a x b e) := by
  intro hw _
  have hE : Enc.vfadd d a x b e = pack [(7, 55), (5, d.toNat), (5, a.toNat), (3, x.toNat), (5, b.toNat), (3, e.toNat), (4, 0)] := by
    simp only [Enc.vfadd, at', pack, Nat.shiftLeft_eq]; omega
  show decodeWord 4 (Enc.vfadd d a x b e) = _
  rw [hE, major_1B (by simp)]
  replace hw : (decide (e.toNat ≤ 1)) = true := hw
  simp at hw
  have := e.isLt
  simp (disch := first | exact BitVec.isLt _ | decide) [dec1B, ok]
  omega

theorem Sys2Proof.Laws.Encoding.vfsub (d : BitVec 5) (a : BitVec 5) (x : BitVec 3) (b : BitVec 5) (e : BitVec 3) : Encoding.Statement (.vfsub d a x b e) := by
  intro hw _
  have hE : Enc.vfsub d a x b e = pack [(7, 55), (5, d.toNat), (5, a.toNat), (3, x.toNat), (5, b.toNat), (3, e.toNat), (4, 1)] := by
    simp only [Enc.vfsub, at', pack, Nat.shiftLeft_eq]; omega
  show decodeWord 4 (Enc.vfsub d a x b e) = _
  rw [hE, major_1B (by simp)]
  replace hw : (decide (e.toNat ≤ 1)) = true := hw
  simp at hw
  have := e.isLt
  simp (disch := first | exact BitVec.isLt _ | decide) [dec1B, ok]
  omega

theorem Sys2Proof.Laws.Encoding.vfmul (d : BitVec 5) (a : BitVec 5) (x : BitVec 3) (b : BitVec 5) (e : BitVec 3) : Encoding.Statement (.vfmul d a x b e) := by
  intro hw _
  have hE : Enc.vfmul d a x b e = pack [(7, 55), (5, d.toNat), (5, a.toNat), (3, x.toNat), (5, b.toNat), (3, e.toNat), (4, 2)] := by
    simp only [Enc.vfmul, at', pack, Nat.shiftLeft_eq]; omega
  show decodeWord 4 (Enc.vfmul d a x b e) = _
  rw [hE, major_1B (by simp)]
  replace hw : (decide (e.toNat ≤ 1)) = true := hw
  simp at hw
  have := e.isLt
  simp (disch := first | exact BitVec.isLt _ | decide) [dec1B, ok]
  omega

theorem Sys2Proof.Laws.Encoding.vfdiv (d : BitVec 5) (a : BitVec 5) (x : BitVec 3) (b : BitVec 5) (e : BitVec 3) : Encoding.Statement (.vfdiv d a x b e) := by
  intro hw _
  have hE : Enc.vfdiv d a x b e = pack [(7, 55), (5, d.toNat), (5, a.toNat), (3, x.toNat), (5, b.toNat), (3, e.toNat), (4, 3)] := by
    simp only [Enc.vfdiv, at', pack, Nat.shiftLeft_eq]; omega
  show decodeWord 4 (Enc.vfdiv d a x b e) = _
  rw [hE, major_1B (by simp)]
  replace hw : (decide (e.toNat ≤ 1)) = true := hw
  simp at hw
  have := e.isLt
  simp (disch := first | exact BitVec.isLt _ | decide) [dec1B, ok]
  omega

theorem Sys2Proof.Laws.Encoding.vfmin (d : BitVec 5) (a : BitVec 5) (x : BitVec 3) (b : BitVec 5) (e : BitVec 3) : Encoding.Statement (.vfmin d a x b e) := by
  intro hw _
  have hE : Enc.vfmin d a x b e = pack [(7, 55), (5, d.toNat), (5, a.toNat), (3, x.toNat), (5, b.toNat), (3, e.toNat), (4, 4)] := by
    simp only [Enc.vfmin, at', pack, Nat.shiftLeft_eq]; omega
  show decodeWord 4 (Enc.vfmin d a x b e) = _
  rw [hE, major_1B (by simp)]
  replace hw : (decide (e.toNat ≤ 1)) = true := hw
  simp at hw
  have := e.isLt
  simp (disch := first | exact BitVec.isLt _ | decide) [dec1B, ok]
  omega

theorem Sys2Proof.Laws.Encoding.vfmax (d : BitVec 5) (a : BitVec 5) (x : BitVec 3) (b : BitVec 5) (e : BitVec 3) : Encoding.Statement (.vfmax d a x b e) := by
  intro hw _
  have hE : Enc.vfmax d a x b e = pack [(7, 55), (5, d.toNat), (5, a.toNat), (3, x.toNat), (5, b.toNat), (3, e.toNat), (4, 5)] := by
    simp only [Enc.vfmax, at', pack, Nat.shiftLeft_eq]; omega
  show decodeWord 4 (Enc.vfmax d a x b e) = _
  rw [hE, major_1B (by simp)]
  replace hw : (decide (e.toNat ≤ 1)) = true := hw
  simp at hw
  have := e.isLt
  simp (disch := first | exact BitVec.isLt _ | decide) [dec1B, ok]
  omega

theorem Sys2Proof.Laws.Encoding.vfexp2 (d : BitVec 5) (a : BitVec 5) (x : BitVec 3) (e : BitVec 3) : Encoding.Statement (.vfexp2 d a x e) := by
  intro hw _
  have hE : Enc.vfexp2 d a x e = pack [(7, 55), (5, d.toNat), (5, a.toNat), (3, x.toNat), (5, 0), (3, e.toNat), (4, 6)] := by
    simp only [Enc.vfexp2, at', pack, Nat.shiftLeft_eq]; omega
  show decodeWord 4 (Enc.vfexp2 d a x e) = _
  rw [hE, major_1B (by simp)]
  replace hw : (decide (e.toNat ≤ 1)) = true := hw
  simp at hw
  have := e.isLt
  simp (disch := first | exact BitVec.isLt _ | decide) [dec1B, ok]
  omega

theorem Sys2Proof.Laws.Encoding.vfrcp (d : BitVec 5) (a : BitVec 5) (x : BitVec 3) (e : BitVec 3) : Encoding.Statement (.vfrcp d a x e) := by
  intro hw _
  have hE : Enc.vfrcp d a x e = pack [(7, 55), (5, d.toNat), (5, a.toNat), (3, x.toNat), (5, 0), (3, e.toNat), (4, 7)] := by
    simp only [Enc.vfrcp, at', pack, Nat.shiftLeft_eq]; omega
  show decodeWord 4 (Enc.vfrcp d a x e) = _
  rw [hE, major_1B (by simp)]
  replace hw : (decide (e.toNat ≤ 1)) = true := hw
  simp at hw
  have := e.isLt
  simp (disch := first | exact BitVec.isLt _ | decide) [dec1B, ok]
  omega

theorem Sys2Proof.Laws.Encoding.vfrsq (d : BitVec 5) (a : BitVec 5) (x : BitVec 3) (e : BitVec 3) : Encoding.Statement (.vfrsq d a x e) := by
  intro hw _
  have hE : Enc.vfrsq d a x e = pack [(7, 55), (5, d.toNat), (5, a.toNat), (3, x.toNat), (5, 0), (3, e.toNat), (4, 8)] := by
    simp only [Enc.vfrsq, at', pack, Nat.shiftLeft_eq]; omega
  show decodeWord 4 (Enc.vfrsq d a x e) = _
  rw [hE, major_1B (by simp)]
  replace hw : (decide (e.toNat ≤ 1)) = true := hw
  simp at hw
  have := e.isLt
  simp (disch := first | exact BitVec.isLt _ | decide) [dec1B, ok]
  omega

theorem Sys2Proof.Laws.Encoding.vfabs (d : BitVec 5) (a : BitVec 5) (x : BitVec 3) (e : BitVec 3) : Encoding.Statement (.vfabs d a x e) := by
  intro hw _
  have hE : Enc.vfabs d a x e = pack [(7, 55), (5, d.toNat), (5, a.toNat), (3, x.toNat), (5, 0), (3, e.toNat), (4, 9)] := by
    simp only [Enc.vfabs, at', pack, Nat.shiftLeft_eq]; omega
  show decodeWord 4 (Enc.vfabs d a x e) = _
  rw [hE, major_1B (by simp)]
  replace hw : (decide (e.toNat ≤ 1)) = true := hw
  simp at hw
  have := e.isLt
  simp (disch := first | exact BitVec.isLt _ | decide) [dec1B, ok]
  omega

theorem Sys2Proof.Laws.Encoding.vfneg (d : BitVec 5) (a : BitVec 5) (x : BitVec 3) (e : BitVec 3) : Encoding.Statement (.vfneg d a x e) := by
  intro hw _
  have hE : Enc.vfneg d a x e = pack [(7, 55), (5, d.toNat), (5, a.toNat), (3, x.toNat), (5, 0), (3, e.toNat), (4, 10)] := by
    simp only [Enc.vfneg, at', pack, Nat.shiftLeft_eq]; omega
  show decodeWord 4 (Enc.vfneg d a x e) = _
  rw [hE, major_1B (by simp)]
  replace hw : (decide (e.toNat ≤ 1)) = true := hw
  simp at hw
  have := e.isLt
  simp (disch := first | exact BitVec.isLt _ | decide) [dec1B, ok]
  omega

theorem Sys2Proof.Laws.Encoding.vfmaS (d : BitVec 5) (a : BitVec 5) (b : BitVec 5) (c : BitVec 5) : Encoding.Statement (.vfmaS d a b c) := by
  intro _ _
  have hE : Enc.vfmaS d a b c = pack [(7, 57), (5, d.toNat), (5, a.toNat), (5, b.toNat), (5, c.toNat), (5, 0)] := by
    simp only [Enc.vfmaS, at', pack, Nat.shiftLeft_eq]; omega
  show decodeWord 4 (Enc.vfmaS d a b c) = _
  rw [hE, major_1C (by simp)]
  simp (disch := first | exact BitVec.isLt _ | decide) only [dec1C, fld_skip, fld_here, bits_skip, bits_here, Nat.reduceSub, Nat.reduceDiv, Nat.reducePow, Nat.reduceAdd, Nat.reduceMod]

theorem Sys2Proof.Laws.Encoding.vfmaBf (d : BitVec 5) (a : BitVec 5) (b : BitVec 5) (c : BitVec 5) : Encoding.Statement (.vfmaBf d a b c) := by
  intro _ _
  have hE : Enc.vfmaBf d a b c = pack [(7, 57), (5, d.toNat), (5, a.toNat), (5, b.toNat), (5, c.toNat), (5, 1)] := by
    simp only [Enc.vfmaBf, at', pack, Nat.shiftLeft_eq]; omega
  show decodeWord 4 (Enc.vfmaBf d a b c) = _
  rw [hE, major_1C (by simp)]
  simp (disch := first | exact BitVec.isLt _ | decide) only [dec1C, fld_skip, fld_here, bits_skip, bits_here, Nat.reduceSub, Nat.reduceDiv, Nat.reducePow, Nat.reduceAdd, Nat.reduceMod]

theorem Sys2Proof.Laws.Encoding.vfmsS (d : BitVec 5) (a : BitVec 5) (b : BitVec 5) (c : BitVec 5) : Encoding.Statement (.vfmsS d a b c) := by
  intro _ _
  have hE : Enc.vfmsS d a b c = pack [(7, 57), (5, d.toNat), (5, a.toNat), (5, b.toNat), (5, c.toNat), (5, 2)] := by
    simp only [Enc.vfmsS, at', pack, Nat.shiftLeft_eq]; omega
  show decodeWord 4 (Enc.vfmsS d a b c) = _
  rw [hE, major_1C (by simp)]
  simp (disch := first | exact BitVec.isLt _ | decide) only [dec1C, fld_skip, fld_here, bits_skip, bits_here, Nat.reduceSub, Nat.reduceDiv, Nat.reducePow, Nat.reduceAdd, Nat.reduceMod]

theorem Sys2Proof.Laws.Encoding.vfmsBf (d : BitVec 5) (a : BitVec 5) (b : BitVec 5) (c : BitVec 5) : Encoding.Statement (.vfmsBf d a b c) := by
  intro _ _
  have hE : Enc.vfmsBf d a b c = pack [(7, 57), (5, d.toNat), (5, a.toNat), (5, b.toNat), (5, c.toNat), (5, 3)] := by
    simp only [Enc.vfmsBf, at', pack, Nat.shiftLeft_eq]; omega
  show decodeWord 4 (Enc.vfmsBf d a b c) = _
  rw [hE, major_1C (by simp)]
  simp (disch := first | exact BitVec.isLt _ | decide) only [dec1C, fld_skip, fld_here, bits_skip, bits_here, Nat.reduceSub, Nat.reduceDiv, Nat.reducePow, Nat.reduceAdd, Nat.reduceMod]

theorem Sys2Proof.Laws.Encoding.vselB (d : BitVec 5) (a : BitVec 5) (b : BitVec 5) (c : BitVec 3) : Encoding.Statement (.vselB d a b c) := by
  intro _ _
  have hE : Enc.vselB d a b c = pack [(7, 57), (5, d.toNat), (5, a.toNat), (5, b.toNat), (3, c.toNat), (7, 16)] := by
    simp only [Enc.vselB, at', pack, Nat.shiftLeft_eq]; omega
  show decodeWord 4 (Enc.vselB d a b c) = _
  rw [hE, major_1C (by simp)]
  simp (disch := first | exact BitVec.isLt _ | decide) only [dec1C, fld_skip, fld_here, bits_skip, bits_here, Nat.reduceSub, Nat.reduceDiv, Nat.reducePow, Nat.reduceAdd, Nat.reduceMod, bne_self_eq_false, ok_false]

theorem Sys2Proof.Laws.Encoding.vselH (d : BitVec 5) (a : BitVec 5) (b : BitVec 5) (c : BitVec 3) : Encoding.Statement (.vselH d a b c) := by
  intro _ _
  have hE : Enc.vselH d a b c = pack [(7, 57), (5, d.toNat), (5, a.toNat), (5, b.toNat), (3, c.toNat), (7, 20)] := by
    simp only [Enc.vselH, at', pack, Nat.shiftLeft_eq]; omega
  show decodeWord 4 (Enc.vselH d a b c) = _
  rw [hE, major_1C (by simp)]
  simp (disch := first | exact BitVec.isLt _ | decide) only [dec1C, fld_skip, fld_here, bits_skip, bits_here, Nat.reduceSub, Nat.reduceDiv, Nat.reducePow, Nat.reduceAdd, Nat.reduceMod, bne_self_eq_false, ok_false]

theorem Sys2Proof.Laws.Encoding.vselW (d : BitVec 5) (a : BitVec 5) (b : BitVec 5) (c : BitVec 3) : Encoding.Statement (.vselW d a b c) := by
  intro _ _
  have hE : Enc.vselW d a b c = pack [(7, 57), (5, d.toNat), (5, a.toNat), (5, b.toNat), (3, c.toNat), (7, 24)] := by
    simp only [Enc.vselW, at', pack, Nat.shiftLeft_eq]; omega
  show decodeWord 4 (Enc.vselW d a b c) = _
  rw [hE, major_1C (by simp)]
  simp (disch := first | exact BitVec.isLt _ | decide) only [dec1C, fld_skip, fld_here, bits_skip, bits_here, Nat.reduceSub, Nat.reduceDiv, Nat.reducePow, Nat.reduceAdd, Nat.reduceMod, bne_self_eq_false, ok_false]

theorem Sys2Proof.Laws.Encoding.vselD (d : BitVec 5) (a : BitVec 5) (b : BitVec 5) (c : BitVec 3) : Encoding.Statement (.vselD d a b c) := by
  intro _ _
  have hE : Enc.vselD d a b c = pack [(7, 57), (5, d.toNat), (5, a.toNat), (5, b.toNat), (3, c.toNat), (7, 28)] := by
    simp only [Enc.vselD, at', pack, Nat.shiftLeft_eq]; omega
  show decodeWord 4 (Enc.vselD d a b c) = _
  rw [hE, major_1C (by simp)]
  simp (disch := first | exact BitVec.isLt _ | decide) only [dec1C, fld_skip, fld_here, bits_skip, bits_here, Nat.reduceSub, Nat.reduceDiv, Nat.reducePow, Nat.reduceAdd, Nat.reduceMod, bne_self_eq_false, ok_false]

theorem Sys2Proof.Laws.Encoding.vrsum (d : BitVec 5) (a : BitVec 5) (x : BitVec 3) (b : BitVec 3) (e : BitVec 3) : Encoding.Statement (.vrsum d a x b e) := by
  intro hw _
  have hE : Enc.vrsum d a x b e = pack [(7, 59), (5, d.toNat), (5, a.toNat), (3, x.toNat), (3, b.toNat), (2, 0), (3, e.toNat), (4, 0)] := by
    simp only [Enc.vrsum, at', pack, Nat.shiftLeft_eq]; omega
  show decodeWord 4 (Enc.vrsum d a x b e) = _
  rw [hE, major_1D (by simp)]
  replace hw : (decide (e.toNat ≤ 5)) = true := hw
  simp at hw
  have := e.isLt
  simp (disch := first | exact BitVec.isLt _ | decide) [dec1D, ok]
  omega

theorem Sys2Proof.Laws.Encoding.vrmax (d : BitVec 5) (a : BitVec 5) (x : BitVec 3) (b : BitVec 3) (e : BitVec 3) : Encoding.Statement (.vrmax d a x b e) := by
  intro hw _
  have hE : Enc.vrmax d a x b e = pack [(7, 59), (5, d.toNat), (5, a.toNat), (3, x.toNat), (3, b.toNat), (2, 0), (3, e.toNat), (4, 1)] := by
    simp only [Enc.vrmax, at', pack, Nat.shiftLeft_eq]; omega
  show decodeWord 4 (Enc.vrmax d a x b e) = _
  rw [hE, major_1D (by simp)]
  replace hw : (decide (e.toNat ≤ 5)) = true := hw
  simp at hw
  have := e.isLt
  simp (disch := first | exact BitVec.isLt _ | decide) [dec1D, ok]
  omega

theorem Sys2Proof.Laws.Encoding.vrmin (d : BitVec 5) (a : BitVec 5) (x : BitVec 3) (b : BitVec 3) (e : BitVec 3) : Encoding.Statement (.vrmin d a x b e) := by
  intro hw _
  have hE : Enc.vrmin d a x b e = pack [(7, 59), (5, d.toNat), (5, a.toNat), (3, x.toNat), (3, b.toNat), (2, 0), (3, e.toNat), (4, 2)] := by
    simp only [Enc.vrmin, at', pack, Nat.shiftLeft_eq]; omega
  show decodeWord 4 (Enc.vrmin d a x b e) = _
  rw [hE, major_1D (by simp)]
  replace hw : (decide (e.toNat ≤ 5)) = true := hw
  simp at hw
  have := e.isLt
  simp (disch := first | exact BitVec.isLt _ | decide) [dec1D, ok]
  omega

theorem Sys2Proof.Laws.Encoding.vperm (d : BitVec 5) (a : BitVec 5) (x : BitVec 3) (b : BitVec 5) (e : BitVec 3) : Encoding.Statement (.vperm d a x b e) := by
  intro hw _
  have hE : Enc.vperm d a x b e = pack [(7, 59), (5, d.toNat), (5, a.toNat), (3, x.toNat), (5, b.toNat), (3, e.toNat), (4, 3)] := by
    simp only [Enc.vperm, at', pack, Nat.shiftLeft_eq]; omega
  show decodeWord 4 (Enc.vperm d a x b e) = _
  rw [hE, major_1D (by simp)]
  replace hw : (decide (e.toNat ≤ 3)) = true := hw
  simp at hw
  have := e.isLt
  simp (disch := first | exact BitVec.isLt _ | decide) [dec1D, ok]
  rw [if_neg (by omega), if_neg (by omega)]

theorem Sys2Proof.Laws.Encoding.vbcast (d : BitVec 5) (a : BitVec 5) (x : BitVec 3) (b : BitVec 5) (e : BitVec 3) : Encoding.Statement (.vbcast d a x b e) := by
  intro hw _
  have hE : Enc.vbcast d a x b e = pack [(7, 59), (5, d.toNat), (5, a.toNat), (3, x.toNat), (5, b.toNat), (3, e.toNat), (4, 4)] := by
    simp only [Enc.vbcast, at', pack, Nat.shiftLeft_eq]; omega
  show decodeWord 4 (Enc.vbcast d a x b e) = _
  rw [hE, major_1D (by simp)]
  replace hw : (decide (e.toNat ≤ 3)) = true := hw
  simp at hw
  have := e.isLt
  simp (disch := first | exact BitVec.isLt _ | decide) [dec1D, ok]
  rw [if_neg (by omega), if_neg (by omega)]

theorem Sys2Proof.Laws.Encoding.vsplat (d : BitVec 5) (a : BitVec 5) (x : BitVec 3) (e : BitVec 3) : Encoding.Statement (.vsplat d a x e) := by
  intro hw _
  have hE : Enc.vsplat d a x e = pack [(7, 59), (5, d.toNat), (5, a.toNat), (3, x.toNat), (5, 0), (3, e.toNat), (4, 5)] := by
    simp only [Enc.vsplat, at', pack, Nat.shiftLeft_eq]; omega
  show decodeWord 4 (Enc.vsplat d a x e) = _
  rw [hE, major_1D (by simp)]
  replace hw : (decide (e.toNat ≤ 5)) = true := hw
  simp at hw
  have := e.isLt
  simp (disch := first | exact BitVec.isLt _ | decide) [dec1D, ok]
  omega

theorem Sys2Proof.Laws.Encoding.vcvtBfS (d : BitVec 5) (a : BitVec 5) (x : BitVec 3) (b : BitVec 5) (r : BitVec 3) : Encoding.Statement (.vcvtBfS d a x b r) := by
  intro hw _
  have hE : Enc.vcvtBfS d a x b r = pack [(7, 61), (5, d.toNat), (5, a.toNat), (3, x.toNat), (5, b.toNat), (3, r.toNat), (4, 0)] := by
    simp only [Enc.vcvtBfS, at', pack, Nat.shiftLeft_eq]; omega
  show decodeWord 4 (Enc.vcvtBfS d a x b r) = _
  rw [hE, major_1E (by simp)]
  replace hw : (decide (r.toNat ≤ 4) && (r == 4 || decide (b.toNat ≤ 1))) = true := hw
  simp [← BitVec.toNat_inj] at hw
  have := b.isLt
  have := r.isLt
  simp (disch := first | exact BitVec.isLt _ | decide) [dec1E, ok]
  omega

theorem Sys2Proof.Laws.Encoding.vcvtSBf (d : BitVec 5) (a : BitVec 5) (x : BitVec 3) : Encoding.Statement (.vcvtSBf d a x) := by
  intro _ _
  have hE : Enc.vcvtSBf d a x = pack [(7, 61), (5, d.toNat), (5, a.toNat), (3, x.toNat), (12, 256)] := by
    simp only [Enc.vcvtSBf, at', pack, Nat.shiftLeft_eq]; omega
  show decodeWord 4 (Enc.vcvtSBf d a x) = _
  rw [hE, major_1E (by simp)]
  simp (disch := first | exact BitVec.isLt _ | decide) only [dec1E, fld_skip, fld_here, bits_skip, bits_here, Nat.reduceSub, Nat.reduceDiv, Nat.reducePow, Nat.reduceAdd, Nat.reduceMod, bne_self_eq_false, ok_false]

theorem Sys2Proof.Laws.Encoding.vcvtHfS (d : BitVec 5) (a : BitVec 5) (x : BitVec 3) (b : BitVec 5) (r : BitVec 3) : Encoding.Statement (.vcvtHfS d a x b r) := by
  intro hw _
  have hE : Enc.vcvtHfS d a x b r = pack [(7, 61), (5, d.toNat), (5, a.toNat), (3, x.toNat), (5, b.toNat), (3, r.toNat), (4, 2)] := by
    simp only [Enc.vcvtHfS, at', pack, Nat.shiftLeft_eq]; omega
  show decodeWord 4 (Enc.vcvtHfS d a x b r) = _
  rw [hE, major_1E (by simp)]
  replace hw : (decide (r.toNat ≤ 4) && (r == 4 || decide (b.toNat ≤ 1))) = true := hw
  simp [← BitVec.toNat_inj] at hw
  have := b.isLt
  have := r.isLt
  simp (disch := first | exact BitVec.isLt _ | decide) [dec1E, ok]
  omega

theorem Sys2Proof.Laws.Encoding.vcvtSHf (d : BitVec 5) (a : BitVec 5) (x : BitVec 3) : Encoding.Statement (.vcvtSHf d a x) := by
  intro _ _
  have hE : Enc.vcvtSHf d a x = pack [(7, 61), (5, d.toNat), (5, a.toNat), (3, x.toNat), (12, 768)] := by
    simp only [Enc.vcvtSHf, at', pack, Nat.shiftLeft_eq]; omega
  show decodeWord 4 (Enc.vcvtSHf d a x) = _
  rw [hE, major_1E (by simp)]
  simp (disch := first | exact BitVec.isLt _ | decide) only [dec1E, fld_skip, fld_here, bits_skip, bits_here, Nat.reduceSub, Nat.reduceDiv, Nat.reducePow, Nat.reduceAdd, Nat.reduceMod, bne_self_eq_false, ok_false]

theorem Sys2Proof.Laws.Encoding.vcvtI32S (d : BitVec 5) (a : BitVec 5) (x : BitVec 3) (b : BitVec 5) (r : BitVec 3) : Encoding.Statement (.vcvtI32S d a x b r) := by
  intro hw _
  have hE : Enc.vcvtI32S d a x b r = pack [(7, 61), (5, d.toNat), (5, a.toNat), (3, x.toNat), (5, b.toNat), (3, r.toNat), (4, 4)] := by
    simp only [Enc.vcvtI32S, at', pack, Nat.shiftLeft_eq]; omega
  show decodeWord 4 (Enc.vcvtI32S d a x b r) = _
  rw [hE, major_1E (by simp)]
  replace hw : (decide (r.toNat ≤ 4) && (r == 4 || decide (b.toNat ≤ 1))) = true := hw
  simp [← BitVec.toNat_inj] at hw
  have := b.isLt
  have := r.isLt
  simp (disch := first | exact BitVec.isLt _ | decide) [dec1E, ok]
  omega

theorem Sys2Proof.Laws.Encoding.vcvtSI32 (d : BitVec 5) (a : BitVec 5) (x : BitVec 3) (b : BitVec 5) (r : BitVec 3) : Encoding.Statement (.vcvtSI32 d a x b r) := by
  intro hw _
  have hE : Enc.vcvtSI32 d a x b r = pack [(7, 61), (5, d.toNat), (5, a.toNat), (3, x.toNat), (5, b.toNat), (3, r.toNat), (4, 5)] := by
    simp only [Enc.vcvtSI32, at', pack, Nat.shiftLeft_eq]; omega
  show decodeWord 4 (Enc.vcvtSI32 d a x b r) = _
  rw [hE, major_1E (by simp)]
  replace hw : (decide (r.toNat ≤ 4) && (r == 4 || decide (b.toNat ≤ 1))) = true := hw
  simp [← BitVec.toNat_inj] at hw
  have := b.isLt
  have := r.isLt
  simp (disch := first | exact BitVec.isLt _ | decide) [dec1E, ok]
  omega

theorem Sys2Proof.Laws.Encoding.vcvtI8S (d : BitVec 5) (a : BitVec 5) (x : BitVec 3) (b : BitVec 5) (r : BitVec 3) : Encoding.Statement (.vcvtI8S d a x b r) := by
  intro hw _
  have hE : Enc.vcvtI8S d a x b r = pack [(7, 61), (5, d.toNat), (5, a.toNat), (3, x.toNat), (5, b.toNat), (3, r.toNat), (4, 6)] := by
    simp only [Enc.vcvtI8S, at', pack, Nat.shiftLeft_eq]; omega
  show decodeWord 4 (Enc.vcvtI8S d a x b r) = _
  rw [hE, major_1E (by simp)]
  replace hw : (decide (r.toNat ≤ 4) && (r == 4 || decide (b.toNat ≤ 1))) = true := hw
  simp [← BitVec.toNat_inj] at hw
  have := b.isLt
  have := r.isLt
  simp (disch := first | exact BitVec.isLt _ | decide) [dec1E, ok]
  omega

theorem Sys2Proof.Laws.Encoding.vcvtSI8 (d : BitVec 5) (a : BitVec 5) (x : BitVec 3) : Encoding.Statement (.vcvtSI8 d a x) := by
  intro _ _
  have hE : Enc.vcvtSI8 d a x = pack [(7, 61), (5, d.toNat), (5, a.toNat), (3, x.toNat), (12, 1792)] := by
    simp only [Enc.vcvtSI8, at', pack, Nat.shiftLeft_eq]; omega
  show decodeWord 4 (Enc.vcvtSI8 d a x) = _
  rw [hE, major_1E (by simp)]
  simp (disch := first | exact BitVec.isLt _ | decide) only [dec1E, fld_skip, fld_here, bits_skip, bits_here, Nat.reduceSub, Nat.reduceDiv, Nat.reducePow, Nat.reduceAdd, Nat.reduceMod, bne_self_eq_false, ok_false]

theorem Sys2Proof.Laws.Encoding.vcvtHfBf (d : BitVec 5) (a : BitVec 5) (x : BitVec 3) (b : BitVec 5) (r : BitVec 3) : Encoding.Statement (.vcvtHfBf d a x b r) := by
  intro hw _
  have hE : Enc.vcvtHfBf d a x b r = pack [(7, 61), (5, d.toNat), (5, a.toNat), (3, x.toNat), (5, b.toNat), (3, r.toNat), (4, 8)] := by
    simp only [Enc.vcvtHfBf, at', pack, Nat.shiftLeft_eq]; omega
  show decodeWord 4 (Enc.vcvtHfBf d a x b r) = _
  rw [hE, major_1E (by simp)]
  replace hw : (decide (r.toNat ≤ 4) && (r == 4 || decide (b.toNat ≤ 1))) = true := hw
  simp [← BitVec.toNat_inj] at hw
  have := b.isLt
  have := r.isLt
  simp (disch := first | exact BitVec.isLt _ | decide) [dec1E, ok]
  omega

theorem Sys2Proof.Laws.Encoding.vcvtBfHf (d : BitVec 5) (a : BitVec 5) (x : BitVec 3) (b : BitVec 5) (r : BitVec 3) : Encoding.Statement (.vcvtBfHf d a x b r) := by
  intro hw _
  have hE : Enc.vcvtBfHf d a x b r = pack [(7, 61), (5, d.toNat), (5, a.toNat), (3, x.toNat), (5, b.toNat), (3, r.toNat), (4, 9)] := by
    simp only [Enc.vcvtBfHf, at', pack, Nat.shiftLeft_eq]; omega
  show decodeWord 4 (Enc.vcvtBfHf d a x b r) = _
  rw [hE, major_1E (by simp)]
  replace hw : (decide (r.toNat ≤ 4) && (r == 4 || decide (b.toNat ≤ 1))) = true := hw
  simp [← BitVec.toNat_inj] at hw
  have := b.isLt
  have := r.isLt
  simp (disch := first | exact BitVec.isLt _ | decide) [dec1E, ok]
  omega

theorem Sys2Proof.Laws.Encoding.vpackmx (d : BitVec 5) (a : BitVec 5) (x : BitVec 3) (s : BitVec 1) (t : BitVec 3) : Encoding.Statement (.vpackmx d a x s t) := by
  intro hw _
  have hE : Enc.vpackmx d a x s t = pack [(7, 61), (5, d.toNat), (5, a.toNat), (3, x.toNat), (1, s.toNat), (4, 0), (3, t.toNat), (4, 12)] := by
    simp only [Enc.vpackmx, at', pack, Nat.shiftLeft_eq]; omega
  show decodeWord 4 (Enc.vpackmx d a x s t) = _
  rw [hE, major_1E (by simp)]
  replace hw : (t != 7) = true := hw
  simp [← BitVec.toNat_inj] at hw
  have := t.isLt
  simp (disch := first | exact BitVec.isLt _ | decide) [dec1E, ok]
  omega

theorem Sys2Proof.Laws.Encoding.vunpkmx (d : BitVec 5) (a : BitVec 5) (x : BitVec 3) (t : BitVec 3) : Encoding.Statement (.vunpkmx d a x t) := by
  intro hw _
  have hE : Enc.vunpkmx d a x t = pack [(7, 61), (5, d.toNat), (5, a.toNat), (3, x.toNat), (5, 0), (3, t.toNat), (4, 13)] := by
    simp only [Enc.vunpkmx, at', pack, Nat.shiftLeft_eq]; omega
  show decodeWord 4 (Enc.vunpkmx d a x t) = _
  rw [hE, major_1E (by simp)]
  replace hw : (t != 7) = true := hw
  simp [← BitVec.toNat_inj] at hw
  have := t.isLt
  simp (disch := first | exact BitVec.isLt _ | decide) [dec1E, ok]
  omega

theorem Sys2Proof.Laws.Encoding.mand (d : BitVec 3) (a : BitVec 3) (x : BitVec 3) (b : BitVec 3) (y : BitVec 3) : Encoding.Statement (.mand d a x b y) := by
  intro _ _
  have hE : Enc.mand d a x b y = pack [(7, 63), (3, d.toNat), (2, 0), (3, a.toNat), (2, 0), (3, x.toNat), (3, b.toNat), (2, 0), (3, y.toNat), (4, 0)] := by
    simp only [Enc.mand, at', pack, Nat.shiftLeft_eq]; omega
  show decodeWord 4 (Enc.mand d a x b y) = _
  rw [hE, major_1F (by simp)]
  simp (disch := first | exact BitVec.isLt _ | decide) only [dec1F, fld_skip, fld_here, bits_skip, bits_here, Nat.reduceSub, Nat.reduceDiv, Nat.reducePow, Nat.reduceAdd, Nat.reduceMod, bne_self_eq_false, ok_false, Bool.or_self]

theorem Sys2Proof.Laws.Encoding.mor (d : BitVec 3) (a : BitVec 3) (x : BitVec 3) (b : BitVec 3) (y : BitVec 3) : Encoding.Statement (.mor d a x b y) := by
  intro _ _
  have hE : Enc.mor d a x b y = pack [(7, 63), (3, d.toNat), (2, 0), (3, a.toNat), (2, 0), (3, x.toNat), (3, b.toNat), (2, 0), (3, y.toNat), (4, 1)] := by
    simp only [Enc.mor, at', pack, Nat.shiftLeft_eq]; omega
  show decodeWord 4 (Enc.mor d a x b y) = _
  rw [hE, major_1F (by simp)]
  simp (disch := first | exact BitVec.isLt _ | decide) only [dec1F, fld_skip, fld_here, bits_skip, bits_here, Nat.reduceSub, Nat.reduceDiv, Nat.reducePow, Nat.reduceAdd, Nat.reduceMod, bne_self_eq_false, ok_false, Bool.or_self]

theorem Sys2Proof.Laws.Encoding.mxor (d : BitVec 3) (a : BitVec 3) (x : BitVec 3) (b : BitVec 3) (y : BitVec 3) : Encoding.Statement (.mxor d a x b y) := by
  intro _ _
  have hE : Enc.mxor d a x b y = pack [(7, 63), (3, d.toNat), (2, 0), (3, a.toNat), (2, 0), (3, x.toNat), (3, b.toNat), (2, 0), (3, y.toNat), (4, 2)] := by
    simp only [Enc.mxor, at', pack, Nat.shiftLeft_eq]; omega
  show decodeWord 4 (Enc.mxor d a x b y) = _
  rw [hE, major_1F (by simp)]
  simp (disch := first | exact BitVec.isLt _ | decide) only [dec1F, fld_skip, fld_here, bits_skip, bits_here, Nat.reduceSub, Nat.reduceDiv, Nat.reducePow, Nat.reduceAdd, Nat.reduceMod, bne_self_eq_false, ok_false, Bool.or_self]

theorem Sys2Proof.Laws.Encoding.mnot (d : BitVec 3) (a : BitVec 3) (x : BitVec 3) : Encoding.Statement (.mnot d a x) := by
  intro _ _
  have hE : Enc.mnot d a x = pack [(7, 63), (3, d.toNat), (2, 0), (3, a.toNat), (2, 0), (3, x.toNat), (12, 768)] := by
    simp only [Enc.mnot, at', pack, Nat.shiftLeft_eq]; omega
  show decodeWord 4 (Enc.mnot d a x) = _
  rw [hE, major_1F (by simp)]
  simp (disch := first | exact BitVec.isLt _ | decide) only [dec1F, fld_skip, fld_here, bits_skip, bits_here, Nat.reduceSub, Nat.reduceDiv, Nat.reducePow, Nat.reduceAdd, Nat.reduceMod, bne_self_eq_false, ok_false, Bool.or_self]

theorem Sys2Proof.Laws.Encoding.mpop (d : BitVec 5) (a : BitVec 3) (x : BitVec 3) : Encoding.Statement (.mpop d a x) := by
  intro _ _
  have hE : Enc.mpop d a x = pack [(7, 63), (5, d.toNat), (3, a.toNat), (2, 0), (3, x.toNat), (12, 1024)] := by
    simp only [Enc.mpop, at', pack, Nat.shiftLeft_eq]; omega
  show decodeWord 4 (Enc.mpop d a x) = _
  rw [hE, major_1F (by simp)]
  simp (disch := first | exact BitVec.isLt _ | decide) only [dec1F, fld_skip, fld_here, bits_skip, bits_here, Nat.reduceSub, Nat.reduceDiv, Nat.reducePow, Nat.reduceAdd, Nat.reduceMod, bne_self_eq_false, ok_false, Bool.or_self]

theorem Sys2Proof.Laws.Encoding.mfirst (d : BitVec 5) (a : BitVec 3) (x : BitVec 3) : Encoding.Statement (.mfirst d a x) := by
  intro _ _
  have hE : Enc.mfirst d a x = pack [(7, 63), (5, d.toNat), (3, a.toNat), (2, 0), (3, x.toNat), (12, 1280)] := by
    simp only [Enc.mfirst, at', pack, Nat.shiftLeft_eq]; omega
  show decodeWord 4 (Enc.mfirst d a x) = _
  rw [hE, major_1F (by simp)]
  simp (disch := first | exact BitVec.isLt _ | decide) only [dec1F, fld_skip, fld_here, bits_skip, bits_here, Nat.reduceSub, Nat.reduceDiv, Nat.reducePow, Nat.reduceAdd, Nat.reduceMod, bne_self_eq_false, ok_false, Bool.or_self]

theorem Sys2Proof.Laws.Encoding.vfcmpEq (m : BitVec 3) (a : BitVec 5) (x : BitVec 3) (b : BitVec 5) (e : BitVec 3) : Encoding.Statement (.vfcmpEq m a x b e) := by
  intro hw _
  have hE : Enc.vfcmpEq m a x b e = pack [(7, 63), (3, m.toNat), (2, 0), (5, a.toNat), (3, x.toNat), (5, b.toNat), (3, e.toNat), (4, 6)] := by
    simp only [Enc.vfcmpEq, at', pack, Nat.shiftLeft_eq]; omega
  show decodeWord 4 (Enc.vfcmpEq m a x b e) = _
  rw [hE, major_1F (by simp)]
  replace hw : (decide (e.toNat ≤ 1)) = true := hw
  simp at hw
  have := e.isLt
  simp (disch := first | exact BitVec.isLt _ | decide) [dec1F, ok]
  omega

theorem Sys2Proof.Laws.Encoding.vfcmpLt (m : BitVec 3) (a : BitVec 5) (x : BitVec 3) (b : BitVec 5) (e : BitVec 3) : Encoding.Statement (.vfcmpLt m a x b e) := by
  intro hw _
  have hE : Enc.vfcmpLt m a x b e = pack [(7, 63), (3, m.toNat), (2, 0), (5, a.toNat), (3, x.toNat), (5, b.toNat), (3, e.toNat), (4, 7)] := by
    simp only [Enc.vfcmpLt, at', pack, Nat.shiftLeft_eq]; omega
  show decodeWord 4 (Enc.vfcmpLt m a x b e) = _
  rw [hE, major_1F (by simp)]
  replace hw : (decide (e.toNat ≤ 1)) = true := hw
  simp at hw
  have := e.isLt
  simp (disch := first | exact BitVec.isLt _ | decide) [dec1F, ok]
  omega

theorem Sys2Proof.Laws.Encoding.vcmpEq (m : BitVec 3) (a : BitVec 5) (x : BitVec 3) (b : BitVec 5) (e : BitVec 3) : Encoding.Statement (.vcmpEq m a x b e) := by
  intro hw _
  have hE : Enc.vcmpEq m a x b e = pack [(7, 63), (3, m.toNat), (2, 0), (5, a.toNat), (3, x.toNat), (5, b.toNat), (3, e.toNat), (4, 8)] := by
    simp only [Enc.vcmpEq, at', pack, Nat.shiftLeft_eq]; omega
  show decodeWord 4 (Enc.vcmpEq m a x b e) = _
  rw [hE, major_1F (by simp)]
  replace hw : (decide (e.toNat ≤ 3)) = true := hw
  simp at hw
  have := e.isLt
  simp (disch := first | exact BitVec.isLt _ | decide) [dec1F, ok]
  omega

theorem Sys2Proof.Laws.Encoding.vcmpNe (m : BitVec 3) (a : BitVec 5) (x : BitVec 3) (b : BitVec 5) (e : BitVec 3) : Encoding.Statement (.vcmpNe m a x b e) := by
  intro hw _
  have hE : Enc.vcmpNe m a x b e = pack [(7, 63), (3, m.toNat), (2, 0), (5, a.toNat), (3, x.toNat), (5, b.toNat), (3, e.toNat), (4, 9)] := by
    simp only [Enc.vcmpNe, at', pack, Nat.shiftLeft_eq]; omega
  show decodeWord 4 (Enc.vcmpNe m a x b e) = _
  rw [hE, major_1F (by simp)]
  replace hw : (decide (e.toNat ≤ 3)) = true := hw
  simp at hw
  have := e.isLt
  simp (disch := first | exact BitVec.isLt _ | decide) [dec1F, ok]
  omega

theorem Sys2Proof.Laws.Encoding.vcmpLt (m : BitVec 3) (a : BitVec 5) (x : BitVec 3) (b : BitVec 5) (e : BitVec 3) : Encoding.Statement (.vcmpLt m a x b e) := by
  intro hw _
  have hE : Enc.vcmpLt m a x b e = pack [(7, 63), (3, m.toNat), (2, 0), (5, a.toNat), (3, x.toNat), (5, b.toNat), (3, e.toNat), (4, 10)] := by
    simp only [Enc.vcmpLt, at', pack, Nat.shiftLeft_eq]; omega
  show decodeWord 4 (Enc.vcmpLt m a x b e) = _
  rw [hE, major_1F (by simp)]
  replace hw : (decide (e.toNat ≤ 3)) = true := hw
  simp at hw
  have := e.isLt
  simp (disch := first | exact BitVec.isLt _ | decide) [dec1F, ok]
  omega

theorem Sys2Proof.Laws.Encoding.vcmpLtu (m : BitVec 3) (a : BitVec 5) (x : BitVec 3) (b : BitVec 5) (e : BitVec 3) : Encoding.Statement (.vcmpLtu m a x b e) := by
  intro hw _
  have hE : Enc.vcmpLtu m a x b e = pack [(7, 63), (3, m.toNat), (2, 0), (5, a.toNat), (3, x.toNat), (5, b.toNat), (3, e.toNat), (4, 11)] := by
    simp only [Enc.vcmpLtu, at', pack, Nat.shiftLeft_eq]; omega
  show decodeWord 4 (Enc.vcmpLtu m a x b e) = _
  rw [hE, major_1F (by simp)]
  replace hw : (decide (e.toNat ≤ 3)) = true := hw
  simp at hw
  have := e.isLt
  simp (disch := first | exact BitVec.isLt _ | decide) [dec1F, ok]
  omega

theorem Sys2Proof.Laws.Encoding.vcmpGe (m : BitVec 3) (a : BitVec 5) (x : BitVec 3) (b : BitVec 5) (e : BitVec 3) : Encoding.Statement (.vcmpGe m a x b e) := by
  intro hw _
  have hE : Enc.vcmpGe m a x b e = pack [(7, 63), (3, m.toNat), (2, 0), (5, a.toNat), (3, x.toNat), (5, b.toNat), (3, e.toNat), (4, 12)] := by
    simp only [Enc.vcmpGe, at', pack, Nat.shiftLeft_eq]; omega
  show decodeWord 4 (Enc.vcmpGe m a x b e) = _
  rw [hE, major_1F (by simp)]
  replace hw : (decide (e.toNat ≤ 3)) = true := hw
  simp at hw
  have := e.isLt
  simp (disch := first | exact BitVec.isLt _ | decide) [dec1F, ok]
  omega

theorem Sys2Proof.Laws.Encoding.vcmpGeu (m : BitVec 3) (a : BitVec 5) (x : BitVec 3) (b : BitVec 5) (e : BitVec 3) : Encoding.Statement (.vcmpGeu m a x b e) := by
  intro hw _
  have hE : Enc.vcmpGeu m a x b e = pack [(7, 63), (3, m.toNat), (2, 0), (5, a.toNat), (3, x.toNat), (5, b.toNat), (3, e.toNat), (4, 13)] := by
    simp only [Enc.vcmpGeu, at', pack, Nat.shiftLeft_eq]; omega
  show decodeWord 4 (Enc.vcmpGeu m a x b e) = _
  rw [hE, major_1F (by simp)]
  replace hw : (decide (e.toNat ≤ 3)) = true := hw
  simp at hw
  have := e.isLt
  simp (disch := first | exact BitVec.isLt _ | decide) [dec1F, ok]
  omega

theorem Sys2Proof.Laws.Encoding.vfcmpLe (m : BitVec 3) (a : BitVec 5) (x : BitVec 3) (b : BitVec 5) (e : BitVec 3) : Encoding.Statement (.vfcmpLe m a x b e) := by
  intro hw _
  have hE : Enc.vfcmpLe m a x b e = pack [(7, 63), (3, m.toNat), (2, 0), (5, a.toNat), (3, x.toNat), (5, b.toNat), (3, e.toNat), (4, 14)] := by
    simp only [Enc.vfcmpLe, at', pack, Nat.shiftLeft_eq]; omega
  show decodeWord 4 (Enc.vfcmpLe m a x b e) = _
  rw [hE, major_1F (by simp)]
  replace hw : (decide (e.toNat ≤ 1)) = true := hw
  simp at hw
  have := e.isLt
  simp (disch := first | exact BitVec.isLt _ | decide) [dec1F, ok]
  omega

theorem Sys2Proof.Laws.Encoding.chwaitf (c : BitVec 4) (n : BitVec 12) : Encoding.Statement (.chwaitf c n) := by
  intro _ _
  have hE : Enc.chwaitf c n = pack [(12, 65), (4, c.toNat), (12, n.toNat), (4, 0)] := by
    simp only [Enc.chwaitf, at', pack, Nat.shiftLeft_eq]; omega
  show decodeWord 4 (Enc.chwaitf c n) = _
  rw [hE, major_20 (by simp)]
  simp (disch := first | exact BitVec.isLt _ | decide) only [dec20, fld_skip, fld_here, bits_skip, bits_here, Nat.reduceSub, Nat.reduceDiv, Nat.reducePow, Nat.reduceAdd, Nat.reduceMod, bne_self_eq_false, ok_false, Bool.or_self]

theorem Sys2Proof.Laws.Encoding.chwaite (c : BitVec 4) (n : BitVec 12) : Encoding.Statement (.chwaite c n) := by
  intro _ _
  have hE : Enc.chwaite c n = pack [(12, 65), (4, c.toNat), (12, n.toNat), (4, 1)] := by
    simp only [Enc.chwaite, at', pack, Nat.shiftLeft_eq]; omega
  show decodeWord 4 (Enc.chwaite c n) = _
  rw [hE, major_20 (by simp)]
  simp (disch := first | exact BitVec.isLt _ | decide) only [dec20, fld_skip, fld_here, bits_skip, bits_here, Nat.reduceSub, Nat.reduceDiv, Nat.reducePow, Nat.reduceAdd, Nat.reduceMod, bne_self_eq_false, ok_false, Bool.or_self]

theorem Sys2Proof.Laws.Encoding.chadvc (c : BitVec 4) (n : BitVec 12) : Encoding.Statement (.chadvc c n) := by
  intro _ _
  have hE : Enc.chadvc c n = pack [(12, 65), (4, c.toNat), (12, n.toNat), (4, 2)] := by
    simp only [Enc.chadvc, at', pack, Nat.shiftLeft_eq]; omega
  show decodeWord 4 (Enc.chadvc c n) = _
  rw [hE, major_20 (by simp)]
  simp (disch := first | exact BitVec.isLt _ | decide) only [dec20, fld_skip, fld_here, bits_skip, bits_here, Nat.reduceSub, Nat.reduceDiv, Nat.reducePow, Nat.reduceAdd, Nat.reduceMod, bne_self_eq_false, ok_false, Bool.or_self]

theorem Sys2Proof.Laws.Encoding.chadvp (c : BitVec 4) (n : BitVec 12) : Encoding.Statement (.chadvp c n) := by
  intro _ _
  have hE : Enc.chadvp c n = pack [(12, 65), (4, c.toNat), (12, n.toNat), (4, 3)] := by
    simp only [Enc.chadvp, at', pack, Nat.shiftLeft_eq]; omega
  show decodeWord 4 (Enc.chadvp c n) = _
  rw [hE, major_20 (by simp)]
  simp (disch := first | exact BitVec.isLt _ | decide) only [dec20, fld_skip, fld_here, bits_skip, bits_here, Nat.reduceSub, Nat.reduceDiv, Nat.reducePow, Nat.reduceAdd, Nat.reduceMod, bne_self_eq_false, ok_false, Bool.or_self]

theorem Sys2Proof.Laws.Encoding.chst (s : BitVec 5) (c : BitVec 4) (u : BitVec 12) : Encoding.Statement (.chst s c u) := by
  intro _ _
  have hE : Enc.chst s c u = pack [(7, 65), (5, s.toNat), (4, c.toNat), (12, u.toNat), (4, 4)] := by
    simp only [Enc.chst, at', pack, Nat.shiftLeft_eq]; omega
  show decodeWord 4 (Enc.chst s c u) = _
  rw [hE, major_20 (by simp)]
  simp (disch := first | exact BitVec.isLt _ | decide) only [dec20, fld_skip, fld_here, bits_skip, bits_here, Nat.reduceSub, Nat.reduceDiv, Nat.reducePow, Nat.reduceAdd, Nat.reduceMod, bne_self_eq_false, ok_false]

theorem Sys2Proof.Laws.Encoding.chaddr (d : BitVec 5) (c : BitVec 4) (u : BitVec 12) : Encoding.Statement (.chaddr d c u) := by
  intro _ _
  have hE : Enc.chaddr d c u = pack [(7, 65), (5, d.toNat), (4, c.toNat), (12, u.toNat), (4, 5)] := by
    simp only [Enc.chaddr, at', pack, Nat.shiftLeft_eq]; omega
  show decodeWord 4 (Enc.chaddr d c u) = _
  rw [hE, major_20 (by simp)]
  simp (disch := first | exact BitVec.isLt _ | decide) only [dec20, fld_skip, fld_here, bits_skip, bits_here, Nat.reduceSub, Nat.reduceDiv, Nat.reducePow, Nat.reduceAdd, Nat.reduceMod, bne_self_eq_false, ok_false]

theorem Sys2Proof.Laws.Encoding.send (n : BitVec 3) (a : BitVec 5) (c : BitVec 5) : Encoding.Statement (.send n a c) := by
  intro _ _
  have hE : Enc.send n a c = pack [(7, 67), (3, n.toNat), (2, 0), (5, a.toNat), (5, 0), (5, c.toNat), (5, 0)] := by
    simp only [Enc.send, at', pack, Nat.shiftLeft_eq]; omega
  show decodeWord 4 (Enc.send n a c) = _
  rw [hE, major_21 (by simp)]
  simp (disch := first | exact BitVec.isLt _ | decide) only [dec21, fld_skip, fld_here, bits_skip, bits_here, Nat.reduceSub, Nat.reduceDiv, Nat.reducePow, Nat.reduceAdd, Nat.reduceMod, bne_self_eq_false, ok_false, Bool.or_self]

theorem Sys2Proof.Laws.Encoding.put (s : BitVec 3) (a : BitVec 5) (c : BitVec 5) : Encoding.Statement (.put s a c) := by
  intro hw _
  have hE : Enc.put s a c = pack [(7, 67), (3, s.toNat), (2, 0), (5, a.toNat), (5, 0), (5, c.toNat), (5, 1)] := by
    simp only [Enc.put, at', pack, Nat.shiftLeft_eq]; omega
  show decodeWord 4 (Enc.put s a c) = _
  rw [hE, major_21 (by simp)]
  replace hw : (s != 7) = true := hw
  simp [← BitVec.toNat_inj] at hw
  have := s.isLt
  simp (disch := first | exact BitVec.isLt _ | decide) [dec21, ok]
  omega

theorem Sys2Proof.Laws.Encoding.get (s : BitVec 3) (a : BitVec 5) (b : BitVec 5) : Encoding.Statement (.get s a b) := by
  intro hw _
  have hE : Enc.get s a b = pack [(7, 67), (3, s.toNat), (2, 0), (5, a.toNat), (5, b.toNat), (10, 64)] := by
    simp only [Enc.get, at', pack, Nat.shiftLeft_eq]; omega
  show decodeWord 4 (Enc.get s a b) = _
  rw [hE, major_21 (by simp)]
  replace hw : (s != 7) = true := hw
  simp [← BitVec.toNat_inj] at hw
  have := s.isLt
  simp (disch := first | exact BitVec.isLt _ | decide) [dec21, ok]
  omega

theorem Sys2Proof.Laws.Encoding.window (k : BitVec 1) (g : BitVec 1) : Encoding.Statement (.window k g) := by
  intro _ _
  have hE : Enc.window k g = pack [(30, 402653251), (1, k.toNat), (1, g.toNat)] := by
    simp only [Enc.window, at', pack, Nat.shiftLeft_eq]; omega
  show decodeWord 4 (Enc.window k g) = _
  rw [hE, major_21 (by simp)]
  simp (disch := first | exact BitVec.isLt _ | decide) only [dec21, fld_skip, fld_here, bits_here, Nat.reduceSub, Nat.reduceDiv, Nat.reducePow, Nat.reduceAdd, Nat.reduceMod, bne_self_eq_false, ok_false]

theorem Sys2Proof.Laws.Encoding.bdef (i : BitVec 3) (k : BitVec 1) (a : BitVec 5) (x : BitVec 3) (b : BitVec 5) (y : BitVec 3) : Encoding.Statement (.bdef i k a x b y) := by
  intro hw _
  have hE : Enc.bdef i k a x b y = pack [(7, 69), (3, i.toNat), (1, k.toNat), (1, 0), (5, a.toNat), (3, x.toNat), (5, b.toNat), (3, y.toNat), (4, 0)] := by
    simp only [Enc.bdef, at', pack, Nat.shiftLeft_eq]; omega
  show decodeWord 4 (Enc.bdef i k a x b y) = _
  rw [hE, major_22 (by simp)]
  replace hw : (decide (i.toNat ≤ 5) && (k == 0 || i == 0)) = true := hw
  simp [← BitVec.toNat_inj] at hw
  have := i.isLt
  have := k.isLt
  simp (disch := first | exact BitVec.isLt _ | decide) [dec22, ok, bitOf_bits]
  omega

theorem Sys2Proof.Laws.Encoding.badd (a : BitVec 5) (x : BitVec 3) (b : BitVec 5) (y : BitVec 3) : Encoding.Statement (.badd a x b y) := by
  intro _ _
  have hE : Enc.badd a x b y = pack [(12, 69), (5, a.toNat), (3, x.toNat), (5, b.toNat), (3, y.toNat), (4, 1)] := by
    simp only [Enc.badd, at', pack, Nat.shiftLeft_eq]; omega
  show decodeWord 4 (Enc.badd a x b y) = _
  rw [hE, major_22 (by simp)]
  simp (disch := first | exact BitVec.isLt _ | decide) only [dec22, fld_skip, fld_here, bits_skip, bits_here, Nat.reduceSub, Nat.reduceDiv, Nat.reducePow, Nat.reduceAdd, Nat.reduceMod, bne_self_eq_false, ok_false]

theorem Sys2Proof.Laws.Encoding.band (a : BitVec 5) (x : BitVec 3) (b : BitVec 5) (y : BitVec 3) : Encoding.Statement (.band a x b y) := by
  intro _ _
  have hE : Enc.band a x b y = pack [(12, 69), (5, a.toNat), (3, x.toNat), (5, b.toNat), (3, y.toNat), (4, 2)] := by
    simp only [Enc.band, at', pack, Nat.shiftLeft_eq]; omega
  show decodeWord 4 (Enc.band a x b y) = _
  rw [hE, major_22 (by simp)]
  simp (disch := first | exact BitVec.isLt _ | decide) only [dec22, fld_skip, fld_here, bits_skip, bits_here, Nat.reduceSub, Nat.reduceDiv, Nat.reducePow, Nat.reduceAdd, Nat.reduceMod, bne_self_eq_false, ok_false]

theorem Sys2Proof.Laws.Encoding.bor (a : BitVec 5) (x : BitVec 3) (b : BitVec 5) (y : BitVec 3) : Encoding.Statement (.bor a x b y) := by
  intro _ _
  have hE : Enc.bor a x b y = pack [(12, 69), (5, a.toNat), (3, x.toNat), (5, b.toNat), (3, y.toNat), (4, 3)] := by
    simp only [Enc.bor, at', pack, Nat.shiftLeft_eq]; omega
  show decodeWord 4 (Enc.bor a x b y) = _
  rw [hE, major_22 (by simp)]
  simp (disch := first | exact BitVec.isLt _ | decide) only [dec22, fld_skip, fld_here, bits_skip, bits_here, Nat.reduceSub, Nat.reduceDiv, Nat.reducePow, Nat.reduceAdd, Nat.reduceMod, bne_self_eq_false, ok_false]

theorem Sys2Proof.Laws.Encoding.bxor (a : BitVec 5) (x : BitVec 3) (b : BitVec 5) (y : BitVec 3) : Encoding.Statement (.bxor a x b y) := by
  intro _ _
  have hE : Enc.bxor a x b y = pack [(12, 69), (5, a.toNat), (3, x.toNat), (5, b.toNat), (3, y.toNat), (4, 4)] := by
    simp only [Enc.bxor, at', pack, Nat.shiftLeft_eq]; omega
  show decodeWord 4 (Enc.bxor a x b y) = _
  rw [hE, major_22 (by simp)]
  simp (disch := first | exact BitVec.isLt _ | decide) only [dec22, fld_skip, fld_here, bits_skip, bits_here, Nat.reduceSub, Nat.reduceDiv, Nat.reducePow, Nat.reduceAdd, Nat.reduceMod, bne_self_eq_false, ok_false]

theorem Sys2Proof.Laws.Encoding.bmin (u : BitVec 1) (a : BitVec 5) (x : BitVec 3) (b : BitVec 5) (y : BitVec 3) : Encoding.Statement (.bmin u a x b y) := by
  intro _ _
  have hE : Enc.bmin u a x b y = pack [(7, 69), (1, u.toNat), (4, 0), (5, a.toNat), (3, x.toNat), (5, b.toNat), (3, y.toNat), (4, 5)] := by
    simp only [Enc.bmin, at', pack, Nat.shiftLeft_eq]; omega
  show decodeWord 4 (Enc.bmin u a x b y) = _
  rw [hE, major_22 (by simp)]
  simp (disch := first | exact BitVec.isLt _ | decide) only [dec22, fld_skip, fld_here, bits_skip, bits_here, Nat.reduceSub, Nat.reduceDiv, Nat.reducePow, Nat.reduceAdd, Nat.reduceMod, bne_self_eq_false, ok_false]

theorem Sys2Proof.Laws.Encoding.bmax (u : BitVec 1) (a : BitVec 5) (x : BitVec 3) (b : BitVec 5) (y : BitVec 3) : Encoding.Statement (.bmax u a x b y) := by
  intro _ _
  have hE : Enc.bmax u a x b y = pack [(7, 69), (1, u.toNat), (4, 0), (5, a.toNat), (3, x.toNat), (5, b.toNat), (3, y.toNat), (4, 6)] := by
    simp only [Enc.bmax, at', pack, Nat.shiftLeft_eq]; omega
  show decodeWord 4 (Enc.bmax u a x b y) = _
  rw [hE, major_22 (by simp)]
  simp (disch := first | exact BitVec.isLt _ | decide) only [dec22, fld_skip, fld_here, bits_skip, bits_here, Nat.reduceSub, Nat.reduceDiv, Nat.reducePow, Nat.reduceAdd, Nat.reduceMod, bne_self_eq_false, ok_false]

theorem Sys2Proof.Laws.Encoding.bfxa (f : BitVec 1) (a : BitVec 5) (x : BitVec 3) (b : BitVec 5) (y : BitVec 3) : Encoding.Statement (.bfxa f a x b y) := by
  intro _ _
  have hE : Enc.bfxa f a x b y = pack [(7, 69), (1, f.toNat), (4, 0), (5, a.toNat), (3, x.toNat), (5, b.toNat), (3, y.toNat), (4, 7)] := by
    simp only [Enc.bfxa, at', pack, Nat.shiftLeft_eq]; omega
  show decodeWord 4 (Enc.bfxa f a x b y) = _
  rw [hE, major_22 (by simp)]
  simp (disch := first | exact BitVec.isLt _ | decide) only [dec22, fld_skip, fld_here, bits_skip, bits_here, Nat.reduceSub, Nat.reduceDiv, Nat.reducePow, Nat.reduceAdd, Nat.reduceMod, bne_self_eq_false, ok_false]

theorem Sys2Proof.Laws.Encoding.bminf (a : BitVec 5) (x : BitVec 3) (b : BitVec 5) (y : BitVec 3) : Encoding.Statement (.bminf a x b y) := by
  intro _ _
  have hE : Enc.bminf a x b y = pack [(12, 69), (5, a.toNat), (3, x.toNat), (5, b.toNat), (3, y.toNat), (4, 8)] := by
    simp only [Enc.bminf, at', pack, Nat.shiftLeft_eq]; omega
  show decodeWord 4 (Enc.bminf a x b y) = _
  rw [hE, major_22 (by simp)]
  simp (disch := first | exact BitVec.isLt _ | decide) only [dec22, fld_skip, fld_here, bits_skip, bits_here, Nat.reduceSub, Nat.reduceDiv, Nat.reducePow, Nat.reduceAdd, Nat.reduceMod, bne_self_eq_false, ok_false]

theorem Sys2Proof.Laws.Encoding.bmaxf (a : BitVec 5) (x : BitVec 3) (b : BitVec 5) (y : BitVec 3) : Encoding.Statement (.bmaxf a x b y) := by
  intro _ _
  have hE : Enc.bmaxf a x b y = pack [(12, 69), (5, a.toNat), (3, x.toNat), (5, b.toNat), (3, y.toNat), (4, 9)] := by
    simp only [Enc.bmaxf, at', pack, Nat.shiftLeft_eq]; omega
  show decodeWord 4 (Enc.bmaxf a x b y) = _
  rw [hE, major_22 (by simp)]
  simp (disch := first | exact BitVec.isLt _ | decide) only [dec22, fld_skip, fld_here, bits_skip, bits_here, Nat.reduceSub, Nat.reduceDiv, Nat.reducePow, Nat.reduceAdd, Nat.reduceMod, bne_self_eq_false, ok_false]

theorem Sys2Proof.Laws.Encoding.bvsa (e : BitVec 4) (a : BitVec 5) (x : BitVec 3) (b : BitVec 5) (y : BitVec 3) : Encoding.Statement (.bvsa e a x b y) := by
  intro _ _
  have hE : Enc.bvsa e a x b y = pack [(7, 69), (4, e.toNat), (1, 0), (5, a.toNat), (3, x.toNat), (5, b.toNat), (3, y.toNat), (4, 10)] := by
    simp only [Enc.bvsa, at', pack, Nat.shiftLeft_eq]; omega
  show decodeWord 4 (Enc.bvsa e a x b y) = _
  rw [hE, major_22 (by simp)]
  simp (disch := first | exact BitVec.isLt _ | decide) only [dec22, fld_skip, fld_here, bits_skip, bits_here, Nat.reduceSub, Nat.reduceDiv, Nat.reducePow, Nat.reduceAdd, Nat.reduceMod, bne_self_eq_false, ok_false]

theorem Sys2Proof.Laws.Encoding.brd (d : BitVec 5) (a : BitVec 5) (x : BitVec 3) (o : BitVec 2) : Encoding.Statement (.brd d a x o) := by
  intro hw _
  have hE : Enc.brd d a x o = pack [(7, 69), (5, d.toNat), (5, a.toNat), (3, x.toNat), (2, o.toNat), (10, 704)] := by
    simp only [Enc.brd, at', pack, Nat.shiftLeft_eq]; omega
  show decodeWord 4 (Enc.brd d a x o) = _
  rw [hE, major_22 (by simp)]
  replace hw : (o != 3) = true := hw
  simp [← BitVec.toNat_inj] at hw
  have := o.isLt
  simp (disch := first | exact BitVec.isLt _ | decide) [dec22, ok]
  omega

theorem Sys2Proof.Laws.Encoding.swdef (a : BitVec 5) (x : BitVec 3) (b : BitVec 5) (y : BitVec 3) : Encoding.Statement (.swdef a x b y) := by
  intro _ _
  have hE : Enc.swdef a x b y = pack [(12, 71), (5, a.toNat), (3, x.toNat), (5, b.toNat), (3, y.toNat), (4, 0)] := by
    simp only [Enc.swdef, at', pack, Nat.shiftLeft_eq]; omega
  show decodeWord 4 (Enc.swdef a x b y) = _
  rw [hE, major_23 (by simp)]
  simp (disch := first | exact BitVec.isLt _ | decide) only [dec23, fld_skip, fld_here, bits_skip, bits_here, Nat.reduceSub, Nat.reduceDiv, Nat.reducePow, Nat.reduceAdd, Nat.reduceMod, bne_self_eq_false, ok_false]

theorem Sys2Proof.Laws.Encoding.arrive (s : BitVec 3) (a : BitVec 5) (x : BitVec 3) : Encoding.Statement (.arrive s a x) := by
  intro hw _
  have hE : Enc.arrive s a x = pack [(7, 71), (3, s.toNat), (2, 0), (5, a.toNat), (3, x.toNat), (12, 256)] := by
    simp only [Enc.arrive, at', pack, Nat.shiftLeft_eq]; omega
  show decodeWord 4 (Enc.arrive s a x) = _
  rw [hE, major_23 (by simp)]
  replace hw : (s != 7) = true := hw
  simp [← BitVec.toNat_inj] at hw
  have := s.isLt
  simp (disch := first | exact BitVec.isLt _ | decide) [dec23, ok]
  omega

theorem Sys2Proof.Laws.Encoding.swait (s : BitVec 3) (a : BitVec 5) (x : BitVec 3) (b : BitVec 5) (y : BitVec 3) : Encoding.Statement (.swait s a x b y) := by
  intro hw _
  have hE : Enc.swait s a x b y = pack [(7, 71), (3, s.toNat), (2, 0), (5, a.toNat), (3, x.toNat), (5, b.toNat), (3, y.toNat), (4, 2)] := by
    simp only [Enc.swait, at', pack, Nat.shiftLeft_eq]; omega
  show decodeWord 4 (Enc.swait s a x b y) = _
  rw [hE, major_23 (by simp)]
  replace hw : (s != 7) = true := hw
  simp [← BitVec.toNat_inj] at hw
  have := s.isLt
  simp (disch := first | exact BitVec.isLt _ | decide) [dec23, ok]
  omega

theorem Sys2Proof.Laws.Encoding.fence (s : BitVec 3) : Encoding.Statement (.fence s) := by
  intro hw _
  have hE : Enc.fence s = pack [(7, 71), (3, s.toNat), (22, 786432)] := by
    simp only [Enc.fence, at', pack, Nat.shiftLeft_eq]; omega
  show decodeWord 4 (Enc.fence s) = _
  rw [hE, major_23 (by simp)]
  replace hw : (s != 7) = true := hw
  simp [← BitVec.toNat_inj] at hw
  have := s.isLt
  simp (disch := first | exact BitVec.isLt _ | decide) [dec23, ok]
  omega

theorem Sys2Proof.Laws.Encoding.flushas (a : BitVec 5) (x : BitVec 3) : Encoding.Statement (.flushas a x) := by
  intro _ _
  have hE : Enc.flushas a x = pack [(12, 71), (5, a.toNat), (3, x.toNat), (12, 1024)] := by
    simp only [Enc.flushas, at', pack, Nat.shiftLeft_eq]; omega
  show decodeWord 4 (Enc.flushas a x) = _
  rw [hE, major_23 (by simp)]
  simp (disch := first | exact BitVec.isLt _ | decide) only [dec23, fld_skip, fld_here, bits_skip, bits_here, Nat.reduceSub, Nat.reduceDiv, Nat.reducePow, Nat.reduceAdd, Nat.reduceMod, bne_self_eq_false, ok_false, Bool.or_self]

theorem Sys2Proof.Laws.Encoding.drain : Encoding.Statement (.drain) := by
  intro _ _
  have hE : Enc.drain = pack [(32, 1342177351)] := by
    rfl
  show decodeWord 4 (Enc.drain) = _
  rw [hE, major_23 (by simp)]
  simp (disch := first | exact BitVec.isLt _ | decide) only [dec23, bits_here, Nat.reduceSub, Nat.reduceDiv, Nat.reducePow, Nat.reduceAdd, Nat.reduceMod, bne_self_eq_false, ok_false]

theorem Sys2Proof.Laws.Encoding.xfer (d : BitVec 5) (a : BitVec 5) : Encoding.Statement (.xfer d a) := by
  intro _ _
  have hE : Enc.xfer d a = pack [(7, 73), (5, d.toNat), (5, a.toNat), (15, 0)] := by
    simp only [Enc.xfer, at', pack, Nat.shiftLeft_eq]; omega
  show decodeWord 4 (Enc.xfer d a) = _
  rw [hE, major_24 (by simp)]
  simp (disch := first | exact BitVec.isLt _ | decide) only [dec24, fld_skip, fld_here, bits_skip, bits_here, Nat.reduceSub, Nat.reduceDiv, Nat.reducePow, Nat.reduceAdd, Nat.reduceMod, bne_self_eq_false, ok_false]

theorem Sys2Proof.Laws.Encoding.xferq (d : BitVec 5) (a : BitVec 5) : Encoding.Statement (.xferq d a) := by
  intro _ _
  have hE : Enc.xferq d a = pack [(7, 73), (5, d.toNat), (5, a.toNat), (15, 1024)] := by
    simp only [Enc.xferq, at', pack, Nat.shiftLeft_eq]; omega
  show decodeWord 4 (Enc.xferq d a) = _
  rw [hE, major_24 (by simp)]
  simp (disch := first | exact BitVec.isLt _ | decide) only [dec24, fld_skip, fld_here, bits_skip, bits_here, Nat.reduceSub, Nat.reduceDiv, Nat.reducePow, Nat.reduceAdd, Nat.reduceMod, bne_self_eq_false, ok_false]

theorem Sys2Proof.Laws.Encoding.xwait (a : BitVec 5) (k : BitVec 2) : Encoding.Statement (.xwait a k) := by
  intro _ _
  have hE : Enc.xwait a k = pack [(12, 73), (5, a.toNat), (2, k.toNat), (13, 512)] := by
    simp only [Enc.xwait, at', pack, Nat.shiftLeft_eq]; omega
  show decodeWord 4 (Enc.xwait a k) = _
  rw [hE, major_24 (by simp)]
  simp (disch := first | exact BitVec.isLt _ | decide) only [dec24, fld_skip, fld_here, bits_skip, bits_here, Nat.reduceSub, Nat.reduceDiv, Nat.reducePow, Nat.reduceAdd, Nat.reduceMod, bne_self_eq_false, ok_false, Bool.or_self]

theorem Sys2Proof.Laws.Encoding.xstat (d : BitVec 5) (k : BitVec 2) : Encoding.Statement (.xstat d k) := by
  intro _ _
  have hE : Enc.xstat d k = pack [(7, 73), (5, d.toNat), (5, 0), (2, k.toNat), (13, 768)] := by
    simp only [Enc.xstat, at', pack, Nat.shiftLeft_eq]; omega
  show decodeWord 4 (Enc.xstat d k) = _
  rw [hE, major_24 (by simp)]
  simp (disch := first | exact BitVec.isLt _ | decide) only [dec24, fld_skip, fld_here, bits_skip, bits_here, Nat.reduceSub, Nat.reduceDiv, Nat.reducePow, Nat.reduceAdd, Nat.reduceMod, bne_self_eq_false, ok_false, Bool.or_self]

theorem Sys2Proof.Laws.Encoding.cwld (a : BitVec 5) (v : BitVec 1) (b : BitVec 5) : Encoding.Statement (.cwld a v b) := by
  intro _ _
  have hE : Enc.cwld a v b = pack [(12, 75), (5, a.toNat), (1, v.toNat), (2, 0), (5, b.toNat), (7, 0)] := by
    simp only [Enc.cwld, at', pack, Nat.shiftLeft_eq]; omega
  show decodeWord 4 (Enc.cwld a v b) = _
  rw [hE, major_25 (by simp)]
  simp (disch := first | exact BitVec.isLt _ | decide) only [dec25, fld_skip, fld_here, bits_skip, bits_here, Nat.reduceSub, Nat.reduceDiv, Nat.reducePow, Nat.reduceAdd, Nat.reduceMod, bne_self_eq_false, ok_false, Bool.or_self]

theorem Sys2Proof.Laws.Encoding.cwlds (a : BitVec 5) (v : BitVec 1) (b : BitVec 5) : Encoding.Statement (.cwlds a v b) := by
  intro _ _
  have hE : Enc.cwlds a v b = pack [(12, 75), (5, a.toNat), (1, v.toNat), (2, 0), (5, b.toNat), (7, 8)] := by
    simp only [Enc.cwlds, at', pack, Nat.shiftLeft_eq]; omega
  show decodeWord 4 (Enc.cwlds a v b) = _
  rw [hE, major_25 (by simp)]
  simp (disch := first | exact BitVec.isLt _ | decide) only [dec25, fld_skip, fld_here, bits_skip, bits_here, Nat.reduceSub, Nat.reduceDiv, Nat.reducePow, Nat.reduceAdd, Nat.reduceMod, bne_self_eq_false, ok_false, Bool.or_self]

theorem Sys2Proof.Laws.Encoding.cwswap : Encoding.Statement (.cwswap) := by
  intro _ _
  have hE : Enc.cwswap = pack [(32, 536870987)] := by
    rfl
  show decodeWord 4 (Enc.cwswap) = _
  rw [hE, major_25 (by simp)]
  simp (disch := first | exact BitVec.isLt _ | decide) only [dec25, bits_here, Nat.reduceSub, Nat.reduceDiv, Nat.reducePow, Nat.reduceAdd, Nat.reduceMod, bne_self_eq_false, ok_false]

theorem Sys2Proof.Laws.Encoding.czclr (z : BitVec 3) : Encoding.Statement (.czclr z) := by
  intro _ _
  have hE : Enc.czclr z = pack [(25, 75), (3, z.toNat), (4, 3)] := by
    simp only [Enc.czclr, at', pack, Nat.shiftLeft_eq]; omega
  show decodeWord 4 (Enc.czclr z) = _
  rw [hE, major_25 (by simp)]
  simp (disch := first | exact BitVec.isLt _ | decide) only [dec25, fld_skip, fld_here, bits_skip, bits_here, Nat.reduceSub, Nat.reduceDiv, Nat.reducePow, Nat.reduceAdd, Nat.reduceMod, bne_self_eq_false, ok_false]

theorem Sys2Proof.Laws.Encoding.czwait (l : BitVec 1) (z : BitVec 3) : Encoding.Statement (.czwait l z) := by
  intro hw _
  have hE : Enc.czwait l z = pack [(17, 75), (1, l.toNat), (7, 0), (3, z.toNat), (4, 4)] := by
    simp only [Enc.czwait, at', pack, Nat.shiftLeft_eq]; omega
  show decodeWord 4 (Enc.czwait l z) = _
  rw [hE, major_25 (by simp)]
  replace hw : (l == 0 || z == 0) = true := hw
  simp [← BitVec.toNat_inj] at hw
  have := l.isLt
  simp (disch := first | exact BitVec.isLt _ | decide) [dec25, ok]
  omega

theorem Sys2Proof.Laws.Encoding.czout (a : BitVec 5) (b : BitVec 5) (z : BitVec 3) : Encoding.Statement (.czout a b z) := by
  intro _ _
  have hE : Enc.czout a b z = pack [(12, 75), (5, a.toNat), (3, 0), (5, b.toNat), (3, z.toNat), (4, 5)] := by
    simp only [Enc.czout, at', pack, Nat.shiftLeft_eq]; omega
  show decodeWord 4 (Enc.czout a b z) = _
  rw [hE, major_25 (by simp)]
  simp (disch := first | exact BitVec.isLt _ | decide) only [dec25, fld_skip, fld_here, bits_skip, bits_here, Nat.reduceSub, Nat.reduceDiv, Nat.reducePow, Nat.reduceAdd, Nat.reduceMod, bne_self_eq_false, ok_false, Bool.or_self]

theorem Sys2Proof.Laws.Encoding.czld (a : BitVec 5) (b : BitVec 5) (z : BitVec 3) : Encoding.Statement (.czld a b z) := by
  intro _ _
  have hE : Enc.czld a b z = pack [(12, 75), (5, a.toNat), (3, 0), (5, b.toNat), (3, z.toNat), (4, 6)] := by
    simp only [Enc.czld, at', pack, Nat.shiftLeft_eq]; omega
  show decodeWord 4 (Enc.czld a b z) = _
  rw [hE, major_25 (by simp)]
  simp (disch := first | exact BitVec.isLt _ | decide) only [dec25, fld_skip, fld_here, bits_skip, bits_here, Nat.reduceSub, Nat.reduceDiv, Nat.reducePow, Nat.reduceAdd, Nat.reduceMod, bne_self_eq_false, ok_false, Bool.or_self]

theorem Sys2Proof.Laws.Encoding.cmmaBf (a : BitVec 5) (f : BitVec 4) (s : BitVec 5) (z : BitVec 3) : Encoding.Statement (.cmmaBf a f s z) := by
  intro _ _
  have hE : Enc.cmmaBf a f s z = pack [(9, 77), (5, a.toNat), (4, f.toNat), (5, s.toNat), (3, z.toNat), (6, 0)] := by
    simp only [Enc.cmmaBf, at', pack, Nat.shiftLeft_eq]; omega
  show decodeWord 4 (Enc.cmmaBf a f s z) = _
  rw [hE, major_26 (by simp)]
  simp (disch := first | exact BitVec.isLt _ | decide) only [dec26, fld_skip, fld_here, bits_skip, bits_here, Nat.reduceSub, Nat.reduceDiv, Nat.reducePow, Nat.reduceAdd, Nat.reduceMod, bne_self_eq_false, ok_false]

theorem Sys2Proof.Laws.Encoding.cmmaHf (a : BitVec 5) (f : BitVec 4) (s : BitVec 5) (z : BitVec 3) : Encoding.Statement (.cmmaHf a f s z) := by
  intro _ _
  have hE : Enc.cmmaHf a f s z = pack [(9, 205), (5, a.toNat), (4, f.toNat), (5, s.toNat), (3, z.toNat), (6, 0)] := by
    simp only [Enc.cmmaHf, at', pack, Nat.shiftLeft_eq]; omega
  show decodeWord 4 (Enc.cmmaHf a f s z) = _
  rw [hE, major_26 (by simp)]
  simp (disch := first | exact BitVec.isLt _ | decide) only [dec26, fld_skip, fld_here, bits_skip, bits_here, Nat.reduceSub, Nat.reduceDiv, Nat.reducePow, Nat.reduceAdd, Nat.reduceMod, bne_self_eq_false, ok_false]

theorem Sys2Proof.Laws.Encoding.cmmaI8 (a : BitVec 5) (f : BitVec 4) (s : BitVec 5) (z : BitVec 3) : Encoding.Statement (.cmmaI8 a f s z) := by
  intro _ _
  have hE : Enc.cmmaI8 a f s z = pack [(9, 333), (5, a.toNat), (4, f.toNat), (5, s.toNat), (3, z.toNat), (6, 0)] := by
    simp only [Enc.cmmaI8, at', pack, Nat.shiftLeft_eq]; omega
  show decodeWord 4 (Enc.cmmaI8 a f s z) = _
  rw [hE, major_26 (by simp)]
  simp (disch := first | exact BitVec.isLt _ | decide) only [dec26, fld_skip, fld_here, bits_skip, bits_here, Nat.reduceSub, Nat.reduceDiv, Nat.reducePow, Nat.reduceAdd, Nat.reduceMod, bne_self_eq_false, ok_false]

theorem Sys2Proof.Laws.Encoding.cmmaE4e4 (a : BitVec 5) (f : BitVec 4) (s : BitVec 5) (z : BitVec 3) : Encoding.Statement (.cmmaE4e4 a f s z) := by
  intro _ _
  have hE : Enc.cmmaE4e4 a f s z = pack [(9, 461), (5, a.toNat), (4, f.toNat), (5, s.toNat), (3, z.toNat), (6, 0)] := by
    simp only [Enc.cmmaE4e4, at', pack, Nat.shiftLeft_eq]; omega
  show decodeWord 4 (Enc.cmmaE4e4 a f s z) = _
  rw [hE, major_26 (by simp)]
  simp (disch := first | exact BitVec.isLt _ | decide) only [dec26, fld_skip, fld_here, bits_skip, bits_here, Nat.reduceSub, Nat.reduceDiv, Nat.reducePow, Nat.reduceAdd, Nat.reduceMod, bne_self_eq_false, ok_false]

theorem Sys2Proof.Laws.Encoding.cmmaE4e5 (a : BitVec 5) (f : BitVec 4) (s : BitVec 5) (z : BitVec 3) : Encoding.Statement (.cmmaE4e5 a f s z) := by
  intro _ _
  have hE : Enc.cmmaE4e5 a f s z = pack [(9, 79), (5, a.toNat), (4, f.toNat), (5, s.toNat), (3, z.toNat), (6, 0)] := by
    simp only [Enc.cmmaE4e5, at', pack, Nat.shiftLeft_eq]; omega
  show decodeWord 4 (Enc.cmmaE4e5 a f s z) = _
  rw [hE, major_27 (by simp)]
  simp (disch := first | exact BitVec.isLt _ | decide) only [dec27, fld_skip, fld_here, bits_skip, bits_here, Nat.reduceSub, Nat.reduceDiv, Nat.reducePow, Nat.reduceAdd, Nat.reduceMod, bne_self_eq_false, ok_false]

theorem Sys2Proof.Laws.Encoding.cmmaE5e4 (a : BitVec 5) (f : BitVec 4) (s : BitVec 5) (z : BitVec 3) : Encoding.Statement (.cmmaE5e4 a f s z) := by
  intro _ _
  have hE : Enc.cmmaE5e4 a f s z = pack [(9, 207), (5, a.toNat), (4, f.toNat), (5, s.toNat), (3, z.toNat), (6, 0)] := by
    simp only [Enc.cmmaE5e4, at', pack, Nat.shiftLeft_eq]; omega
  show decodeWord 4 (Enc.cmmaE5e4 a f s z) = _
  rw [hE, major_27 (by simp)]
  simp (disch := first | exact BitVec.isLt _ | decide) only [dec27, fld_skip, fld_here, bits_skip, bits_here, Nat.reduceSub, Nat.reduceDiv, Nat.reducePow, Nat.reduceAdd, Nat.reduceMod, bne_self_eq_false, ok_false]

theorem Sys2Proof.Laws.Encoding.cmmaE5e5 (a : BitVec 5) (f : BitVec 4) (s : BitVec 5) (z : BitVec 3) : Encoding.Statement (.cmmaE5e5 a f s z) := by
  intro _ _
  have hE : Enc.cmmaE5e5 a f s z = pack [(9, 335), (5, a.toNat), (4, f.toNat), (5, s.toNat), (3, z.toNat), (6, 0)] := by
    simp only [Enc.cmmaE5e5, at', pack, Nat.shiftLeft_eq]; omega
  show decodeWord 4 (Enc.cmmaE5e5 a f s z) = _
  rw [hE, major_27 (by simp)]
  simp (disch := first | exact BitVec.isLt _ | decide) only [dec27, fld_skip, fld_here, bits_skip, bits_here, Nat.reduceSub, Nat.reduceDiv, Nat.reducePow, Nat.reduceAdd, Nat.reduceMod, bne_self_eq_false, ok_false]

theorem Sys2Proof.Laws.Encoding.cmmaF6a (a : BitVec 5) (f : BitVec 4) (s : BitVec 5) (z : BitVec 3) : Encoding.Statement (.cmmaF6a a f s z) := by
  intro _ _
  have hE : Enc.cmmaF6a a f s z = pack [(9, 463), (5, a.toNat), (4, f.toNat), (5, s.toNat), (3, z.toNat), (6, 0)] := by
    simp only [Enc.cmmaF6a, at', pack, Nat.shiftLeft_eq]; omega
  show decodeWord 4 (Enc.cmmaF6a a f s z) = _
  rw [hE, major_27 (by simp)]
  simp (disch := first | exact BitVec.isLt _ | decide) only [dec27, fld_skip, fld_here, bits_skip, bits_here, Nat.reduceSub, Nat.reduceDiv, Nat.reducePow, Nat.reduceAdd, Nat.reduceMod, bne_self_eq_false, ok_false]

theorem Sys2Proof.Laws.Encoding.cmmaF6b (a : BitVec 5) (f : BitVec 4) (s : BitVec 5) (z : BitVec 3) : Encoding.Statement (.cmmaF6b a f s z) := by
  intro _ _
  have hE : Enc.cmmaF6b a f s z = pack [(9, 81), (5, a.toNat), (4, f.toNat), (5, s.toNat), (3, z.toNat), (6, 0)] := by
    simp only [Enc.cmmaF6b, at', pack, Nat.shiftLeft_eq]; omega
  show decodeWord 4 (Enc.cmmaF6b a f s z) = _
  rw [hE, major_28 (by simp)]
  simp (disch := first | exact BitVec.isLt _ | decide) only [dec28, fld_skip, fld_here, bits_skip, bits_here, Nat.reduceSub, Nat.reduceDiv, Nat.reducePow, Nat.reduceAdd, Nat.reduceMod, bne_self_eq_false, ok_false]

theorem Sys2Proof.Laws.Encoding.cmmaF6ab (a : BitVec 5) (f : BitVec 4) (s : BitVec 5) (z : BitVec 3) : Encoding.Statement (.cmmaF6ab a f s z) := by
  intro _ _
  have hE : Enc.cmmaF6ab a f s z = pack [(9, 209), (5, a.toNat), (4, f.toNat), (5, s.toNat), (3, z.toNat), (6, 0)] := by
    simp only [Enc.cmmaF6ab, at', pack, Nat.shiftLeft_eq]; omega
  show decodeWord 4 (Enc.cmmaF6ab a f s z) = _
  rw [hE, major_28 (by simp)]
  simp (disch := first | exact BitVec.isLt _ | decide) only [dec28, fld_skip, fld_here, bits_skip, bits_here, Nat.reduceSub, Nat.reduceDiv, Nat.reducePow, Nat.reduceAdd, Nat.reduceMod, bne_self_eq_false, ok_false]

theorem Sys2Proof.Laws.Encoding.cmmaMxf4 (a : BitVec 5) (f : BitVec 4) (s : BitVec 5) (z : BitVec 3) : Encoding.Statement (.cmmaMxf4 a f s z) := by
  intro _ _
  have hE : Enc.cmmaMxf4 a f s z = pack [(9, 337), (5, a.toNat), (4, f.toNat), (5, s.toNat), (3, z.toNat), (6, 0)] := by
    simp only [Enc.cmmaMxf4, at', pack, Nat.shiftLeft_eq]; omega
  show decodeWord 4 (Enc.cmmaMxf4 a f s z) = _
  rw [hE, major_28 (by simp)]
  simp (disch := first | exact BitVec.isLt _ | decide) only [dec28, fld_skip, fld_here, bits_skip, bits_here, Nat.reduceSub, Nat.reduceDiv, Nat.reducePow, Nat.reduceAdd, Nat.reduceMod, bne_self_eq_false, ok_false]

theorem Sys2Proof.Laws.Encoding.cmmaKf4 (a : BitVec 5) (f : BitVec 4) (s : BitVec 5) (z : BitVec 3) : Encoding.Statement (.cmmaKf4 a f s z) := by
  intro _ _
  have hE : Enc.cmmaKf4 a f s z = pack [(9, 465), (5, a.toNat), (4, f.toNat), (5, s.toNat), (3, z.toNat), (6, 0)] := by
    simp only [Enc.cmmaKf4, at', pack, Nat.shiftLeft_eq]; omega
  show decodeWord 4 (Enc.cmmaKf4 a f s z) = _
  rw [hE, major_28 (by simp)]
  simp (disch := first | exact BitVec.isLt _ | decide) only [dec28, fld_skip, fld_here, bits_skip, bits_here, Nat.reduceSub, Nat.reduceDiv, Nat.reducePow, Nat.reduceAdd, Nat.reduceMod, bne_self_eq_false, ok_false]

theorem Sys2Proof.Laws.Encoding.cmmaE4kf4 (a : BitVec 5) (f : BitVec 4) (s : BitVec 5) (z : BitVec 3) : Encoding.Statement (.cmmaE4kf4 a f s z) := by
  intro _ _
  have hE : Enc.cmmaE4kf4 a f s z = pack [(9, 83), (5, a.toNat), (4, f.toNat), (5, s.toNat), (3, z.toNat), (6, 0)] := by
    simp only [Enc.cmmaE4kf4, at', pack, Nat.shiftLeft_eq]; omega
  show decodeWord 4 (Enc.cmmaE4kf4 a f s z) = _
  rw [hE, major_29 (by simp)]
  simp (disch := first | exact BitVec.isLt _ | decide) only [dec29, fld_skip, fld_here, bits_skip, bits_here, Nat.reduceSub, Nat.reduceDiv, Nat.reducePow, Nat.reduceAdd, Nat.reduceMod, bne_self_eq_false, ok_false]

theorem Sys2Proof.Laws.Encoding.cmmaMxi8 (a : BitVec 5) (f : BitVec 4) (s : BitVec 5) (z : BitVec 3) : Encoding.Statement (.cmmaMxi8 a f s z) := by
  intro _ _
  have hE : Enc.cmmaMxi8 a f s z = pack [(9, 211), (5, a.toNat), (4, f.toNat), (5, s.toNat), (3, z.toNat), (6, 0)] := by
    simp only [Enc.cmmaMxi8, at', pack, Nat.shiftLeft_eq]; omega
  show decodeWord 4 (Enc.cmmaMxi8 a f s z) = _
  rw [hE, major_29 (by simp)]
  simp (disch := first | exact BitVec.isLt _ | decide) only [dec29, fld_skip, fld_here, bits_skip, bits_here, Nat.reduceSub, Nat.reduceDiv, Nat.reducePow, Nat.reduceAdd, Nat.reduceMod, bne_self_eq_false, ok_false]

theorem Sys2Proof.Laws.Encoding.kvopen (a : BitVec 5) (b : BitVec 5) : Encoding.Statement (.kvopen a b) := by
  intro _ _
  have hE : Enc.kvopen a b = pack [(12, 85), (5, a.toNat), (5, b.toNat), (10, 0)] := by
    simp only [Enc.kvopen, at', pack, Nat.shiftLeft_eq]; omega
  show decodeWord 4 (Enc.kvopen a b) = _
  rw [hE, major_2A (by simp)]
  simp (disch := first | exact BitVec.isLt _ | decide) only [dec2A, fld_skip, fld_here, bits_skip, bits_here, Nat.reduceSub, Nat.reduceDiv, Nat.reducePow, Nat.reduceAdd, Nat.reduceMod, bne_self_eq_false, ok_false, Bool.or_self]

theorem Sys2Proof.Laws.Encoding.kvapp (h : BitVec 2) (a : BitVec 5) (b : BitVec 5) (c : BitVec 5) (p : BitVec 2) : Encoding.Statement (.kvapp h a b c p) := by
  intro hw _
  have hE : Enc.kvapp h a b c p = pack [(7, 85), (2, h.toNat), (3, 0), (5, a.toNat), (5, b.toNat), (5, c.toNat), (3, 1), (2, p.toNat)] := by
    simp only [Enc.kvapp, at', pack, Nat.shiftLeft_eq]; omega
  show decodeWord 4 (Enc.kvapp h a b c p) = _
  rw [hE, major_2A (by simp)]
  replace hw : (p != 3 && h != 3 && (p == 1 || c == 0)) = true := hw
  simp [← BitVec.toNat_inj] at hw
  have := h.isLt
  have := c.isLt
  have := p.isLt
  simp (disch := first | exact BitVec.isLt _ | decide) [dec2A, ok]
  omega

theorem Sys2Proof.Laws.Encoding.kvqry (a : BitVec 5) (b : BitVec 5) (c : BitVec 5) : Encoding.Statement (.kvqry a b c) := by
  intro _ _
  have hE : Enc.kvqry a b c = pack [(12, 85), (5, a.toNat), (5, b.toNat), (5, c.toNat), (5, 2)] := by
    simp only [Enc.kvqry, at', pack, Nat.shiftLeft_eq]; omega
  show decodeWord 4 (Enc.kvqry a b c) = _
  rw [hE, major_2A (by simp)]
  simp (disch := first | exact BitVec.isLt _ | decide) only [dec2A, fld_skip, fld_here, bits_skip, bits_here, Nat.reduceSub, Nat.reduceDiv, Nat.reducePow, Nat.reduceAdd, Nat.reduceMod, bne_self_eq_false, ok_false, Bool.or_self]

theorem Sys2Proof.Laws.Encoding.kvseal (a : BitVec 5) : Encoding.Statement (.kvseal a) := by
  intro _ _
  have hE : Enc.kvseal a = pack [(12, 85), (5, a.toNat), (15, 3072)] := by
    simp only [Enc.kvseal, at', pack, Nat.shiftLeft_eq]; omega
  show decodeWord 4 (Enc.kvseal a) = _
  rw [hE, major_2A (by simp)]
  simp (disch := first | exact BitVec.isLt _ | decide) only [dec2A, fld_skip, fld_here, bits_skip, bits_here, Nat.reduceSub, Nat.reduceDiv, Nat.reducePow, Nat.reduceAdd, Nat.reduceMod, bne_self_eq_false, ok_false, Bool.or_self]

theorem Sys2Proof.Laws.Encoding.kvstat (d : BitVec 5) (a : BitVec 5) : Encoding.Statement (.kvstat d a) := by
  intro _ _
  have hE : Enc.kvstat d a = pack [(7, 85), (5, d.toNat), (5, a.toNat), (15, 4096)] := by
    simp only [Enc.kvstat, at', pack, Nat.shiftLeft_eq]; omega
  show decodeWord 4 (Enc.kvstat d a) = _
  rw [hE, major_2A (by simp)]
  simp (disch := first | exact BitVec.isLt _ | decide) only [dec2A, fld_skip, fld_here, bits_skip, bits_here, Nat.reduceSub, Nat.reduceDiv, Nat.reducePow, Nat.reduceAdd, Nat.reduceMod, bne_self_eq_false, ok_false, Bool.or_self]

theorem Sys2Proof.Laws.Encoding.kvdrop (a : BitVec 5) : Encoding.Statement (.kvdrop a) := by
  intro _ _
  have hE : Enc.kvdrop a = pack [(12, 85), (5, a.toNat), (15, 5120)] := by
    simp only [Enc.kvdrop, at', pack, Nat.shiftLeft_eq]; omega
  show decodeWord 4 (Enc.kvdrop a) = _
  rw [hE, major_2A (by simp)]
  simp (disch := first | exact BitVec.isLt _ | decide) only [dec2A, fld_skip, fld_here, bits_skip, bits_here, Nat.reduceSub, Nat.reduceDiv, Nat.reducePow, Nat.reduceAdd, Nat.reduceMod, bne_self_eq_false, ok_false, Bool.or_self]

theorem Sys2Proof.Laws.Encoding.kvdropGrant (a : BitVec 5) (b : BitVec 5) : Encoding.Statement (.kvdropGrant a b) := by
  intro _ _
  have hE : Enc.kvdropGrant a b = pack [(12, 213), (5, a.toNat), (5, b.toNat), (10, 160)] := by
    simp only [Enc.kvdropGrant, at', pack, Nat.shiftLeft_eq]; omega
  show decodeWord 4 (Enc.kvdropGrant a b) = _
  rw [hE, major_2A (by simp)]
  simp (disch := first | exact BitVec.isLt _ | decide) only [dec2A, fld_skip, fld_here, bits_skip, bits_here, Nat.reduceSub, Nat.reduceDiv, Nat.reducePow, Nat.reduceAdd, Nat.reduceMod, bne_self_eq_false, ok_false, Bool.or_self]

theorem Sys2Proof.Laws.Encoding.kvdropRevoke (a : BitVec 5) : Encoding.Statement (.kvdropRevoke a) := by
  intro _ _
  have hE : Enc.kvdropRevoke a = pack [(12, 341), (5, a.toNat), (15, 5120)] := by
    simp only [Enc.kvdropRevoke, at', pack, Nat.shiftLeft_eq]; omega
  show decodeWord 4 (Enc.kvdropRevoke a) = _
  rw [hE, major_2A (by simp)]
  simp (disch := first | exact BitVec.isLt _ | decide) only [dec2A, fld_skip, fld_here, bits_skip, bits_here, Nat.reduceSub, Nat.reduceDiv, Nat.reducePow, Nat.reduceAdd, Nat.reduceMod, bne_self_eq_false, ok_false, Bool.or_self]

theorem Sys2Proof.Laws.Encoding.qrld (a : BitVec 5) (x : BitVec 3) (b : BitVec 5) (y : BitVec 3) : Encoding.Statement (.qrld a x b y) := by
  intro _ _
  have hE : Enc.qrld a x b y = pack [(12, 87), (5, a.toNat), (3, x.toNat), (5, b.toNat), (3, y.toNat), (4, 0)] := by
    simp only [Enc.qrld, at', pack, Nat.shiftLeft_eq]; omega
  show decodeWord 4 (Enc.qrld a x b y) = _
  rw [hE, major_2B (by simp)]
  simp (disch := first | exact BitVec.isLt _ | decide) only [dec2B, fld_skip, fld_here, bits_skip, bits_here, Nat.reduceSub, Nat.reduceDiv, Nat.reducePow, Nat.reduceAdd, Nat.reduceMod, bne_self_eq_false, ok_false, Bool.or_self]

theorem Sys2Proof.Laws.Encoding.qrseed (a : BitVec 5) (x : BitVec 3) (b : BitVec 5) (y : BitVec 3) : Encoding.Statement (.qrseed a x b y) := by
  intro _ _
  have hE : Enc.qrseed a x b y = pack [(12, 87), (5, a.toNat), (3, x.toNat), (5, b.toNat), (3, y.toNat), (4, 1)] := by
    simp only [Enc.qrseed, at', pack, Nat.shiftLeft_eq]; omega
  show decodeWord 4 (Enc.qrseed a x b y) = _
  rw [hE, major_2B (by simp)]
  simp (disch := first | exact BitVec.isLt _ | decide) only [dec2B, fld_skip, fld_here, bits_skip, bits_here, Nat.reduceSub, Nat.reduceDiv, Nat.reducePow, Nat.reduceAdd, Nat.reduceMod, bne_self_eq_false, ok_false, Bool.or_self]

theorem Sys2Proof.Laws.Encoding.qri (d : BitVec 5) (a : BitVec 5) (x : BitVec 3) (b : BitVec 5) (y : BitVec 3) : Encoding.Statement (.qri d a x b y) := by
  intro _ _
  have hE : Enc.qri d a x b y = pack [(7, 87), (5, d.toNat), (5, a.toNat), (3, x.toNat), (5, b.toNat), (3, y.toNat), (4, 2)] := by
    simp only [Enc.qri, at', pack, Nat.shiftLeft_eq]; omega
  show decodeWord 4 (Enc.qri d a x b y) = _
  rw [hE, major_2B (by simp)]
  simp (disch := first | exact BitVec.isLt _ | decide) only [dec2B, fld_skip, fld_here, bits_skip, bits_here, Nat.reduceSub, Nat.reduceDiv, Nat.reducePow, Nat.reduceAdd, Nat.reduceMod, bne_self_eq_false, ok_false]

theorem Sys2Proof.Laws.Encoding.qrf (d : BitVec 5) (a : BitVec 5) (x : BitVec 3) (b : BitVec 5) (y : BitVec 3) : Encoding.Statement (.qrf d a x b y) := by
  intro _ _
  have hE : Enc.qrf d a x b y = pack [(7, 87), (5, d.toNat), (5, a.toNat), (3, x.toNat), (5, b.toNat), (3, y.toNat), (4, 3)] := by
    simp only [Enc.qrf, at', pack, Nat.shiftLeft_eq]; omega
  show decodeWord 4 (Enc.qrf d a x b y) = _
  rw [hE, major_2B (by simp)]
  simp (disch := first | exact BitVec.isLt _ | decide) only [dec2B, fld_skip, fld_here, bits_skip, bits_here, Nat.reduceSub, Nat.reduceDiv, Nat.reducePow, Nat.reduceAdd, Nat.reduceMod, bne_self_eq_false, ok_false]

theorem Sys2Proof.Laws.Encoding.qrvI (d : BitVec 5) (a : BitVec 5) (x : BitVec 3) (b : BitVec 5) (y : BitVec 3) : Encoding.Statement (.qrvI d a x b y) := by
  intro _ _
  have hE : Enc.qrvI d a x b y = pack [(7, 87), (5, d.toNat), (5, a.toNat), (3, x.toNat), (5, b.toNat), (3, y.toNat), (4, 4)] := by
    simp only [Enc.qrvI, at', pack, Nat.shiftLeft_eq]; omega
  show decodeWord 4 (Enc.qrvI d a x b y) = _
  rw [hE, major_2B (by simp)]
  simp (disch := first | exact BitVec.isLt _ | decide) only [dec2B, fld_skip, fld_here, bits_skip, bits_here, Nat.reduceSub, Nat.reduceDiv, Nat.reducePow, Nat.reduceAdd, Nat.reduceMod]

theorem Sys2Proof.Laws.Encoding.qrvD (d : BitVec 5) (a : BitVec 5) (x : BitVec 3) (b : BitVec 5) (y : BitVec 3) : Encoding.Statement (.qrvD d a x b y) := by
  intro _ _
  have hE : Enc.qrvD d a x b y = pack [(7, 87), (5, d.toNat), (5, a.toNat), (3, x.toNat), (5, b.toNat), (3, y.toNat), (4, 12)] := by
    simp only [Enc.qrvD, at', pack, Nat.shiftLeft_eq]; omega
  show decodeWord 4 (Enc.qrvD d a x b y) = _
  rw [hE, major_2B (by simp)]
  simp (disch := first | exact BitVec.isLt _ | decide) only [dec2B, fld_skip, fld_here, bits_skip, bits_here, Nat.reduceSub, Nat.reduceDiv, Nat.reducePow, Nat.reduceAdd, Nat.reduceMod]

theorem Sys2Proof.Laws.Encoding.crd (d : BitVec 5) (i : BitVec 12) : Encoding.Statement (.crd d i) := by
  intro _ _
  have hE : Enc.crd d i = pack [(7, 89), (5, d.toNat), (5, 0), (12, i.toNat), (3, 0)] := by
    simp only [Enc.crd, at', pack, Nat.shiftLeft_eq]; omega
  show decodeWord 4 (Enc.crd d i) = _
  rw [hE, major_2C (by simp)]
  simp (disch := first | exact BitVec.isLt _ | decide) only [dec2C, fld_skip, fld_here, bits_skip, bits_here, Nat.reduceSub, Nat.reduceDiv, Nat.reducePow, Nat.reduceAdd, Nat.reduceMod, bne_self_eq_false, ok_false]

theorem Sys2Proof.Laws.Encoding.cwr (a : BitVec 5) (i : BitVec 12) : Encoding.Statement (.cwr a i) := by
  intro _ _
  have hE : Enc.cwr a i = pack [(12, 89), (5, a.toNat), (12, i.toNat), (3, 1)] := by
    simp only [Enc.cwr, at', pack, Nat.shiftLeft_eq]; omega
  show decodeWord 4 (Enc.cwr a i) = _
  rw [hE, major_2C (by simp)]
  simp (disch := first | exact BitVec.isLt _ | decide) only [dec2C, fld_skip, fld_here, bits_skip, bits_here, Nat.reduceSub, Nat.reduceDiv, Nat.reducePow, Nat.reduceAdd, Nat.reduceMod, bne_self_eq_false, ok_false]

theorem Sys2Proof.Laws.Encoding.trap (i : BitVec 12) : Encoding.Statement (.trap i) := by
  intro _ _
  have hE : Enc.trap i = pack [(17, 89), (12, i.toNat), (3, 2)] := by
    simp only [Enc.trap, at', pack, Nat.shiftLeft_eq]; omega
  show decodeWord 4 (Enc.trap i) = _
  rw [hE, major_2C (by simp)]
  simp (disch := first | exact BitVec.isLt _ | decide) only [dec2C, fld_skip, fld_here, bits_skip, bits_here, Nat.reduceSub, Nat.reduceDiv, Nat.reducePow, Nat.reduceAdd, Nat.reduceMod, bne_self_eq_false, ok_false]

theorem Sys2Proof.Laws.Encoding.brk (i : BitVec 12) : Encoding.Statement (.brk i) := by
  intro _ _
  have hE : Enc.brk i = pack [(17, 89), (12, i.toNat), (3, 3)] := by
    simp only [Enc.brk, at', pack, Nat.shiftLeft_eq]; omega
  show decodeWord 4 (Enc.brk i) = _
  rw [hE, major_2C (by simp)]
  simp (disch := first | exact BitVec.isLt _ | decide) only [dec2C, fld_skip, fld_here, bits_skip, bits_here, Nat.reduceSub, Nat.reduceDiv, Nat.reducePow, Nat.reduceAdd, Nat.reduceMod, bne_self_eq_false, ok_false]

theorem Sys2Proof.Laws.Encoding.rft : Encoding.Statement (.rft) := by
  intro _ _
  have hE : Enc.rft = pack [(32, 2147483737)] := by
    rfl
  show decodeWord 4 (Enc.rft) = _
  rw [hE, major_2C (by simp)]
  simp (disch := first | exact BitVec.isLt _ | decide) only [dec2C, bits_here, Nat.reduceSub, Nat.reduceDiv, Nat.reducePow, Nat.reduceAdd, Nat.reduceMod, bne_self_eq_false, ok_false]

theorem Sys2Proof.Laws.Encoding.idle : Encoding.Statement (.idle) := by
  intro _ _
  have hE : Enc.idle = pack [(32, 2684354649)] := by
    rfl
  show decodeWord 4 (Enc.idle) = _
  rw [hE, major_2C (by simp)]
  simp (disch := first | exact BitVec.isLt _ | decide) only [dec2C, bits_here, Nat.reduceSub, Nat.reduceDiv, Nat.reducePow, Nat.reduceAdd, Nat.reduceMod, bne_self_eq_false, ok_false]

theorem Sys2Proof.Laws.Encoding.done : Encoding.Statement (.done) := by
  intro _ _
  have hE : Enc.done = pack [(32, 3221225561)] := by
    rfl
  show decodeWord 4 (Enc.done) = _
  rw [hE, major_2C (by simp)]
  simp (disch := first | exact BitVec.isLt _ | decide) only [dec2C, bits_here, Nat.reduceSub, Nat.reduceDiv, Nat.reducePow, Nat.reduceAdd, Nat.reduceMod, bne_self_eq_false, ok_false]

theorem Sys2Proof.Laws.Encoding.halt : Encoding.Statement (.halt) := by
  intro _ _
  have hE : Enc.halt = pack [(32, 3758096473)] := by
    rfl
  show decodeWord 4 (Enc.halt) = _
  rw [hE, major_2C (by simp)]
  simp (disch := first | exact BitVec.isLt _ | decide) only [dec2C, bits_here, Nat.reduceSub, Nat.reduceDiv, Nat.reducePow, Nat.reduceAdd, Nat.reduceMod, bne_self_eq_false, ok_false, Bool.or_self]

theorem Sys2Proof.Laws.Encoding.haltR : Encoding.Statement (.haltR) := by
  intro _ _
  have hE : Enc.haltR = pack [(32, 3758227545)] := by
    rfl
  show decodeWord 4 (Enc.haltR) = _
  rw [hE, major_2C (by simp)]
  simp (disch := first | exact BitVec.isLt _ | decide) only [dec2C, bits_here, Nat.reduceSub, Nat.reduceDiv, Nat.reducePow, Nat.reduceAdd, Nat.reduceMod, bne_self_eq_false, ok_false, Bool.or_self]

theorem Sys2Proof.Laws.Encoding.cMv (d : BitVec 5) (a : BitVec 5) : Encoding.Statement (.cMv d a) := by
  intro _ _
  have hE : Enc.cMv d a = pack [(5, 2), (5, d.toNat), (5, a.toNat), (1, 0)] := by
    simp only [Enc.cMv, at', pack, Nat.shiftLeft_eq]; omega
  show decodeWord 2 (Enc.cMv d a) = _
  rw [hE, compact]
  simp (disch := first | exact BitVec.isLt _ | decide) only [decode16, fld_skip, fld_here, bits_skip, bits_here, Nat.reduceSub, Nat.reduceDiv, Nat.reducePow, Nat.reduceAdd, Nat.reduceMod, bne_self_eq_false, ok_false]

theorem Sys2Proof.Laws.Encoding.cAdd (d : BitVec 5) (a : BitVec 5) : Encoding.Statement (.cAdd d a) := by
  intro _ _
  have hE : Enc.cAdd d a = pack [(5, 4), (5, d.toNat), (5, a.toNat), (1, 0)] := by
    simp only [Enc.cAdd, at', pack, Nat.shiftLeft_eq]; omega
  show decodeWord 2 (Enc.cAdd d a) = _
  rw [hE, compact]
  simp (disch := first | exact BitVec.isLt _ | decide) only [decode16, fld_skip, fld_here, bits_skip, bits_here, Nat.reduceSub, Nat.reduceDiv, Nat.reducePow, Nat.reduceAdd, Nat.reduceMod, bne_self_eq_false, ok_false]

theorem Sys2Proof.Laws.Encoding.cAddi (d : BitVec 5) (i : BitVec 6) : Encoding.Statement (.cAddi d i) := by
  intro _ _
  have hE : Enc.cAddi d i = pack [(5, 6), (5, d.toNat), (6, i.toNat)] := by
    simp only [Enc.cAddi, at', pack, Nat.shiftLeft_eq]; omega
  show decodeWord 2 (Enc.cAddi d i) = _
  rw [hE, compact]
  simp (disch := first | exact BitVec.isLt _ | decide) only [decode16, fld_skip, fld_here, bits_here, Nat.reduceSub, Nat.reduceDiv, Nat.reducePow, Nat.reduceAdd, Nat.reduceMod]

theorem Sys2Proof.Laws.Encoding.cSub (d : BitVec 5) (a : BitVec 5) : Encoding.Statement (.cSub d a) := by
  intro _ _
  have hE : Enc.cSub d a = pack [(5, 8), (5, d.toNat), (5, a.toNat), (1, 0)] := by
    simp only [Enc.cSub, at', pack, Nat.shiftLeft_eq]; omega
  show decodeWord 2 (Enc.cSub d a) = _
  rw [hE, compact]
  simp (disch := first | exact BitVec.isLt _ | decide) only [decode16, fld_skip, fld_here, bits_skip, bits_here, Nat.reduceSub, Nat.reduceDiv, Nat.reducePow, Nat.reduceAdd, Nat.reduceMod, bne_self_eq_false, ok_false]

theorem Sys2Proof.Laws.Encoding.cAnd (d : BitVec 5) (a : BitVec 5) : Encoding.Statement (.cAnd d a) := by
  intro _ _
  have hE : Enc.cAnd d a = pack [(5, 10), (5, d.toNat), (5, a.toNat), (1, 0)] := by
    simp only [Enc.cAnd, at', pack, Nat.shiftLeft_eq]; omega
  show decodeWord 2 (Enc.cAnd d a) = _
  rw [hE, compact]
  simp (disch := first | exact BitVec.isLt _ | decide) only [decode16, fld_skip, fld_here, bits_skip, bits_here, Nat.reduceSub, Nat.reduceDiv, Nat.reducePow, Nat.reduceAdd, Nat.reduceMod, bne_self_eq_false, ok_false]

theorem Sys2Proof.Laws.Encoding.cLi (d : BitVec 5) (i : BitVec 6) : Encoding.Statement (.cLi d i) := by
  intro _ _
  have hE : Enc.cLi d i = pack [(5, 12), (5, d.toNat), (6, i.toNat)] := by
    simp only [Enc.cLi, at', pack, Nat.shiftLeft_eq]; omega
  show decodeWord 2 (Enc.cLi d i) = _
  rw [hE, compact]
  simp (disch := first | exact BitVec.isLt _ | decide) only [decode16, fld_skip, fld_here, bits_here, Nat.reduceSub, Nat.reduceDiv, Nat.reducePow, Nat.reduceAdd, Nat.reduceMod]

theorem Sys2Proof.Laws.Encoding.cLd (d : BitVec 5) (i : BitVec 6) : Encoding.Statement (.cLd d i) := by
  intro _ _
  have hE : Enc.cLd d i = pack [(5, 14), (5, d.toNat), (6, i.toNat)] := by
    simp only [Enc.cLd, at', pack, Nat.shiftLeft_eq]; omega
  show decodeWord 2 (Enc.cLd d i) = _
  rw [hE, compact]
  simp (disch := first | exact BitVec.isLt _ | decide) only [decode16, fld_skip, fld_here, bits_here, Nat.reduceSub, Nat.reduceDiv, Nat.reducePow, Nat.reduceAdd, Nat.reduceMod]

theorem Sys2Proof.Laws.Encoding.cSd (s : BitVec 5) (i : BitVec 6) : Encoding.Statement (.cSd s i) := by
  intro _ _
  have hE : Enc.cSd s i = pack [(5, 16), (5, s.toNat), (6, i.toNat)] := by
    simp only [Enc.cSd, at', pack, Nat.shiftLeft_eq]; omega
  show decodeWord 2 (Enc.cSd s i) = _
  rw [hE, compact]
  simp (disch := first | exact BitVec.isLt _ | decide) only [decode16, fld_skip, fld_here, bits_here, Nat.reduceSub, Nat.reduceDiv, Nat.reducePow, Nat.reduceAdd, Nat.reduceMod]

theorem Sys2Proof.Laws.Encoding.cLw (d : BitVec 5) (i : BitVec 6) : Encoding.Statement (.cLw d i) := by
  intro _ _
  have hE : Enc.cLw d i = pack [(5, 18), (5, d.toNat), (6, i.toNat)] := by
    simp only [Enc.cLw, at', pack, Nat.shiftLeft_eq]; omega
  show decodeWord 2 (Enc.cLw d i) = _
  rw [hE, compact]
  simp (disch := first | exact BitVec.isLt _ | decide) only [decode16, fld_skip, fld_here, bits_here, Nat.reduceSub, Nat.reduceDiv, Nat.reducePow, Nat.reduceAdd, Nat.reduceMod]

theorem Sys2Proof.Laws.Encoding.cSw (s : BitVec 5) (i : BitVec 6) : Encoding.Statement (.cSw s i) := by
  intro _ _
  have hE : Enc.cSw s i = pack [(5, 20), (5, s.toNat), (6, i.toNat)] := by
    simp only [Enc.cSw, at', pack, Nat.shiftLeft_eq]; omega
  show decodeWord 2 (Enc.cSw s i) = _
  rw [hE, compact]
  simp (disch := first | exact BitVec.isLt _ | decide) only [decode16, fld_skip, fld_here, bits_here, Nat.reduceSub, Nat.reduceDiv, Nat.reducePow, Nat.reduceAdd, Nat.reduceMod]

theorem Sys2Proof.Laws.Encoding.cSlli (d : BitVec 5) (i : BitVec 6) : Encoding.Statement (.cSlli d i) := by
  intro _ _
  have hE : Enc.cSlli d i = pack [(5, 22), (5, d.toNat), (6, i.toNat)] := by
    simp only [Enc.cSlli, at', pack, Nat.shiftLeft_eq]; omega
  show decodeWord 2 (Enc.cSlli d i) = _
  rw [hE, compact]
  simp (disch := first | exact BitVec.isLt _ | decide) only [decode16, fld_skip, fld_here, bits_here, Nat.reduceSub, Nat.reduceDiv, Nat.reducePow, Nat.reduceAdd, Nat.reduceMod]

theorem Sys2Proof.Laws.Encoding.cSrli (d : BitVec 5) (i : BitVec 6) : Encoding.Statement (.cSrli d i) := by
  intro _ _
  have hE : Enc.cSrli d i = pack [(5, 24), (5, d.toNat), (6, i.toNat)] := by
    simp only [Enc.cSrli, at', pack, Nat.shiftLeft_eq]; omega
  show decodeWord 2 (Enc.cSrli d i) = _
  rw [hE, compact]
  simp (disch := first | exact BitVec.isLt _ | decide) only [decode16, fld_skip, fld_here, bits_here, Nat.reduceSub, Nat.reduceDiv, Nat.reducePow, Nat.reduceAdd, Nat.reduceMod]

theorem Sys2Proof.Laws.Encoding.cJ (o : BitVec 11) : Encoding.Statement (.cJ o) := by
  intro _ _
  have hE : Enc.cJ o = pack [(5, 26), (11, o.toNat)] := by
    simp only [Enc.cJ, at', pack, Nat.shiftLeft_eq]; omega
  show decodeWord 2 (Enc.cJ o) = _
  rw [hE, compact]
  simp (disch := first | exact BitVec.isLt _ | decide) only [decode16, fld_skip, fld_here, bits_here, Nat.reduceSub, Nat.reduceDiv, Nat.reducePow, Nat.reduceAdd, Nat.reduceMod]

theorem Sys2Proof.Laws.Encoding.cBrq (o : BitVec 11) : Encoding.Statement (.cBrq o) := by
  intro _ _
  have hE : Enc.cBrq o = pack [(5, 28), (11, o.toNat)] := by
    simp only [Enc.cBrq, at', pack, Nat.shiftLeft_eq]; omega
  show decodeWord 2 (Enc.cBrq o) = _
  rw [hE, compact]
  simp (disch := first | exact BitVec.isLt _ | decide) only [decode16, fld_skip, fld_here, bits_here, Nat.reduceSub, Nat.reduceDiv, Nat.reducePow, Nat.reduceAdd, Nat.reduceMod]

theorem Sys2Proof.Laws.Encoding.cRet : Encoding.Statement (.cRet) := by
  intro _ _
  have hE : Enc.cRet = pack [(16, 30)] := by
    rfl
  show decodeWord 2 (Enc.cRet) = _
  rw [hE, compact]
  simp (disch := first | exact BitVec.isLt _ | decide) only [decode16, bits_here, Nat.reduceSub, Nat.reduceDiv, Nat.reducePow, Nat.reduceAdd, Nat.reduceMod, bne_self_eq_false, ok_false]

theorem Sys2Proof.Laws.Encoding.interruptEntry : Encoding.Statement (.interruptEntry) := fun _ h => absurd rfl h

theorem Sys2Proof.Laws.Encoding.timerExpiry (b : Nat) : Encoding.Statement (.timerExpiry b) := fun _ h => absurd rfl h

theorem Sys2Proof.Laws.Encoding.idleWake (b : Nat) (i : Nat) : Encoding.Statement (.idleWake b i) := fun _ h => absurd rfl h

theorem Sys2Proof.Laws.Encoding.slipSchedule (b : Nat) : Encoding.Statement (.slipSchedule b) := fun _ h => absurd rfl h

theorem Sys2Proof.Laws.Encoding.slipInputsSuffice (b : Nat) (i : Nat) : Encoding.Statement (.slipInputsSuffice b i) := fun _ h => absurd rfl h

theorem Sys2Proof.Laws.Encoding.waitSatisfied (b : Nat) (i : Nat) : Encoding.Statement (.waitSatisfied b i) := fun _ h => absurd rfl h

theorem Sys2Proof.Laws.Encoding.haltDrainComplete (b : Nat) (i : Nat) : Encoding.Statement (.haltDrainComplete b i) := fun _ h => absurd rfl h

theorem Sys2Proof.Laws.Encoding.handlerOverrun : Encoding.Statement (.handlerOverrun) := fun _ h => absurd rfl h

theorem Sys2Proof.Laws.Encoding.itemArrival (n : Nat) : Encoding.Statement (.itemArrival n) := fun _ h => absurd rfl h

theorem Sys2Proof.Laws.Encoding.getReplyArrival (n : Nat) : Encoding.Statement (.getReplyArrival n) := fun _ h => absurd rfl h

theorem Sys2Proof.Laws.Encoding.closeMarkerArrival (b : Nat) (i : Nat) : Encoding.Statement (.closeMarkerArrival b i) := fun _ h => absurd rfl h

theorem Sys2Proof.Laws.Encoding.windowComplete (b : Nat) (i : Nat) : Encoding.Statement (.windowComplete b i) := fun _ h => absurd rfl h

theorem Sys2Proof.Laws.Encoding.launchArrival (n : Nat) : Encoding.Statement (.launchArrival n) := fun _ h => absurd rfl h

theorem Sys2Proof.Laws.Encoding.advanceNoticeArrival (n : Nat) : Encoding.Statement (.advanceNoticeArrival n) := fun _ h => absurd rfl h

theorem Sys2Proof.Laws.Encoding.freeNoticeArrival (n : Nat) : Encoding.Statement (.freeNoticeArrival n) := fun _ h => absurd rfl h

theorem Sys2Proof.Laws.Encoding.ackArrival (n : Nat) : Encoding.Statement (.ackArrival n) := fun _ h => absurd rfl h

theorem Sys2Proof.Laws.Encoding.busyResend (n : Nat) : Encoding.Statement (.busyResend n) := fun _ h => absurd rfl h

theorem Sys2Proof.Laws.Encoding.arrivalDelivery (n : Nat) : Encoding.Statement (.arrivalDelivery n) := fun _ h => absurd rfl h

theorem Sys2Proof.Laws.Encoding.copyStart (b : Nat) : Encoding.Statement (.copyStart b) := fun _ h => absurd rfl h

theorem Sys2Proof.Laws.Encoding.copyLanding (c : Nat) : Encoding.Statement (.copyLanding c) := fun _ h => absurd rfl h

theorem Sys2Proof.Laws.Encoding.copyComplete (c : Nat) : Encoding.Statement (.copyComplete c) := fun _ h => absurd rfl h

theorem Sys2Proof.Laws.Encoding.craneDispatch (b : Nat) : Encoding.Statement (.craneDispatch b) := fun _ h => absurd rfl h

theorem Sys2Proof.Laws.Encoding.craneCommand (b : Nat) : Encoding.Statement (.craneCommand b) := fun _ h => absurd rfl h

theorem Sys2Proof.Laws.Encoding.bankOpApply (n : Nat) : Encoding.Statement (.bankOpApply n) := fun _ h => absurd rfl h

theorem Sys2Proof.Laws.Encoding.pageService (n : Nat) : Encoding.Statement (.pageService n) := fun _ h => absurd rfl h

theorem Sys2Proof.Laws.Encoding.pageServiceComplete (n : Nat) (entry : Nat) (leaf : Nat) : Encoding.Statement (.pageServiceComplete n entry leaf) := fun _ h => absurd rfl h

theorem Sys2Proof.Laws.Encoding.migration (pkg : Nat) (leafAddr : Nat) (dest : Nat) : Encoding.Statement (.migration pkg leafAddr dest) := fun _ h => absurd rfl h

theorem Sys2Proof.Laws.Encoding.kvAppendApply (n : Nat) : Encoding.Statement (.kvAppendApply n) := fun _ h => absurd rfl h

theorem Sys2Proof.Laws.Encoding.kvQueryResolve (n : Nat) : Encoding.Statement (.kvQueryResolve n) := fun _ h => absurd rfl h

theorem Sys2Proof.Laws.Encoding.tripleLanding (n : Nat) : Encoding.Statement (.tripleLanding n) := fun _ h => absurd rfl h

theorem Sys2Proof.Laws.Encoding.kvPageRecall (key : Nat) : Encoding.Statement (.kvPageRecall key) := fun _ h => absurd rfl h

theorem Sys2Proof.Laws.Encoding.regionSelect (pkg : Nat) : Encoding.Statement (.regionSelect pkg) := fun _ h => absurd rfl h

theorem Sys2Proof.Laws.Encoding.regionBind (pkg : Nat) (region : Nat) (place : Places) : Encoding.Statement (.regionBind pkg region place) := fun _ h => absurd rfl h

theorem Sys2Proof.Laws.Encoding.preempt (pkg : Nat) (region : Nat) : Encoding.Statement (.preempt pkg region) := fun _ h => absurd rfl h

theorem Sys2Proof.Laws.Encoding.preemptForce (b : Nat) (i : Nat) : Encoding.Statement (.preemptForce b i) := fun _ h => absurd rfl h

theorem Sys2Proof.Laws.Encoding.regionSuspend (pkg : Nat) (region : Nat) : Encoding.Statement (.regionSuspend pkg region) := fun _ h => absurd rfl h

theorem Sys2Proof.Laws.Encoding.victimBankClaim (b : Nat) (bank : Nat) : Encoding.Statement (.victimBankClaim b bank) := fun _ h => absurd rfl h

theorem Sys2Proof.Laws.Encoding.faultDomainStop : Encoding.Statement (.faultDomainStop) := fun _ h => absurd rfl h

theorem Sys2Proof.Laws.Encoding.rollback : Encoding.Statement (.rollback) := fun _ h => absurd rfl h

theorem Sys2Proof.Laws.Encoding.retentionEntry (unit : Nat) : Encoding.Statement (.retentionEntry unit) := fun _ h => absurd rfl h

theorem Sys2Proof.Laws.Encoding.retentionExit (unit : Nat) : Encoding.Statement (.retentionExit unit) := fun _ h => absurd rfl h

theorem Sys2Proof.Laws.Encoding.tcmpWrite (b : Nat) (v : Nat) : Encoding.Statement (.tcmpWrite b v) := fun _ h => absurd rfl h

theorem Sys2Proof.Laws.Encoding.ipendWrite (b : Nat) (v : Nat) : Encoding.Statement (.ipendWrite b v) := fun _ h => absurd rfl h

theorem Sys2Proof.Laws.Encoding.qrctlWrite (v : Nat) : Encoding.Statement (.qrctlWrite v) := fun _ h => absurd rfl h

theorem Sys2Proof.Laws.Encoding.fdstopWrite (v : Nat) : Encoding.Statement (.fdstopWrite v) := fun _ h => absurd rfl h

theorem Sys2Proof.Laws.Encoding.serrlogWrite (b : Nat) (v : Nat) : Encoding.Statement (.serrlogWrite b v) := fun _ h => absurd rfl h

theorem Sys2Proof.Laws.Encoding.kverrWrite (pkg : Nat) (bank : Nat) (v : Nat) : Encoding.Statement (.kverrWrite pkg bank v) := fun _ h => absurd rfl h

theorem Sys2Proof.Laws.Encoding.plstatClr (pkg : Nat) (port : Nat) (v : Nat) : Encoding.Statement (.plstatClr pkg port v) := fun _ h => absurd rfl h

theorem Sys2Proof.Laws.Encoding.registerWrite (pkg : Nat) (reg : Nat) (v : Nat) : Encoding.Statement (.registerWrite pkg reg v) := fun _ h => absurd rfl h

theorem Sys2Proof.Laws.Encoding.doorbell (pkg : Nat) (q : Nat) (v : Nat) : Encoding.Statement (.doorbell pkg q v) := fun _ h => absurd rfl h

theorem Sys2Proof.Laws.Encoding.qctlEnable (pkg : Nat) (q : Nat) (v : Nat) : Encoding.Statement (.qctlEnable pkg q v) := fun _ h => absurd rfl h

theorem Sys2Proof.Laws.Encoding.qctlRestart (pkg : Nat) (q : Nat) : Encoding.Statement (.qctlRestart pkg q) := fun _ h => absurd rfl h

theorem Sys2Proof.Laws.Encoding.evctlWrite (pkg : Nat) (v : Nat) : Encoding.Statement (.evctlWrite pkg v) := fun _ h => absurd rfl h

theorem Sys2Proof.Laws.Encoding.evheadWrite (pkg : Nat) (v : Nat) : Encoding.Statement (.evheadWrite pkg v) := fun _ h => absurd rfl h

theorem Sys2Proof.Laws.Encoding.evstatWrite (pkg : Nat) (v : Nat) : Encoding.Statement (.evstatWrite pkg v) := fun _ h => absurd rfl h

theorem Sys2Proof.Laws.Encoding.resync (pkg : Nat) (v : Nat) : Encoding.Statement (.resync pkg v) := fun _ h => absurd rfl h

theorem Sys2Proof.Laws.Encoding.resyncComplete (pkg : Nat) : Encoding.Statement (.resyncComplete pkg) := fun _ h => absurd rfl h

theorem Sys2Proof.Laws.Encoding.packetStart (pkg : Nat) (q : Nat) : Encoding.Statement (.packetStart pkg q) := fun _ h => absurd rfl h

theorem Sys2Proof.Laws.Encoding.ldp (pkg : Nat) (q : Nat) : Encoding.Statement (.ldp pkg q) := fun _ h => absurd rfl h

theorem Sys2Proof.Laws.Encoding.ldi (pkg : Nat) (q : Nat) : Encoding.Statement (.ldi pkg q) := fun _ h => absurd rfl h

theorem Sys2Proof.Laws.Encoding.movi (pkg : Nat) (q : Nat) : Encoding.Statement (.movi pkg q) := fun _ h => absurd rfl h

theorem Sys2Proof.Laws.Encoding.pilotAdd (pkg : Nat) (q : Nat) : Encoding.Statement (.pilotAdd pkg q) := fun _ h => absurd rfl h

theorem Sys2Proof.Laws.Encoding.pilotAnd (pkg : Nat) (q : Nat) : Encoding.Statement (.pilotAnd pkg q) := fun _ h => absurd rfl h

theorem Sys2Proof.Laws.Encoding.shr (pkg : Nat) (q : Nat) : Encoding.Statement (.shr pkg q) := fun _ h => absurd rfl h

theorem Sys2Proof.Laws.Encoding.pilotBeq (pkg : Nat) (q : Nat) : Encoding.Statement (.pilotBeq pkg q) := fun _ h => absurd rfl h

theorem Sys2Proof.Laws.Encoding.loopn (pkg : Nat) (q : Nat) : Encoding.Statement (.loopn pkg q) := fun _ h => absurd rfl h

theorem Sys2Proof.Laws.Encoding.pilotLaunch (pkg : Nat) (q : Nat) : Encoding.Statement (.pilotLaunch pkg q) := fun _ h => absurd rfl h

theorem Sys2Proof.Laws.Encoding.regopReady (pkg : Nat) (q : Nat) : Encoding.Statement (.regopReady pkg q) := fun _ h => absurd rfl h

theorem Sys2Proof.Laws.Encoding.regopPrio (pkg : Nat) (q : Nat) : Encoding.Statement (.regopPrio pkg q) := fun _ h => absurd rfl h

theorem Sys2Proof.Laws.Encoding.regopArgs (pkg : Nat) (q : Nat) : Encoding.Statement (.regopArgs pkg q) := fun _ h => absurd rfl h

theorem Sys2Proof.Laws.Encoding.waitr (pkg : Nat) (q : Nat) : Encoding.Statement (.waitr pkg q) := fun _ h => absurd rfl h

theorem Sys2Proof.Laws.Encoding.pilotEvent (pkg : Nat) (q : Nat) : Encoding.Statement (.pilotEvent pkg q) := fun _ h => absurd rfl h

theorem Sys2Proof.Laws.Encoding.fail (pkg : Nat) (q : Nat) : Encoding.Statement (.fail pkg q) := fun _ h => absurd rfl h

theorem Sys2Proof.Laws.Encoding.haltp (pkg : Nat) (q : Nat) : Encoding.Statement (.haltp pkg q) := fun _ h => absurd rfl h

theorem Sys2Proof.Laws.Encoding.pilotWaitResume (pkg : Nat) (q : Nat) : Encoding.Statement (.pilotWaitResume pkg q) := fun _ h => absurd rfl h

theorem Sys2Proof.Laws.Encoding.takeover (pkg : Nat) : Encoding.Statement (.takeover pkg) := fun _ h => absurd rfl h

theorem Sys2Proof.Laws.Encoding.evpush (pkg : Nat) (v : Nat) : Encoding.Statement (.evpush pkg v) := fun _ h => absurd rfl h

theorem Sys2Proof.Laws.Encoding.dbkick (pkg : Nat) (v : Nat) : Encoding.Statement (.dbkick pkg v) := fun _ h => absurd rfl h

theorem Sys2Proof.Laws.Encoding.dbpendWrite (pkg : Nat) (k : Nat) (v : Nat) : Encoding.Statement (.dbpendWrite pkg k v) := fun _ h => absurd rfl h

theorem Sys2Proof.Laws.Encoding.cbstatWrite (pkg : Nat) (v : Nat) : Encoding.Statement (.cbstatWrite pkg v) := fun _ h => absurd rfl h

theorem Sys2Proof.Laws.Encoding.flitReceive (pkg : Nat) (port : Nat) (flit : Bytes) : Encoding.Statement (.flitReceive pkg port flit) := fun _ h => absurd rfl h

theorem Sys2Proof.Laws.Encoding.portRetrain (pkg : Nat) (port : Nat) (ok : Bool) : Encoding.Statement (.portRetrain pkg port ok) := fun _ h => absurd rfl h

theorem Sys2Proof.Laws.Encoding.portDown (pkg : Nat) (port : Nat) : Encoding.Statement (.portDown pkg port) := fun _ h => absurd rfl h

theorem Sys2Proof.Laws.Encoding.exchangeLineSend (pkg : Nat) (n : Nat) : Encoding.Statement (.exchangeLineSend pkg n) := fun _ h => absurd rfl h

theorem Sys2Proof.Laws.Encoding.exchangeLineReceive (n : Nat) : Encoding.Statement (.exchangeLineReceive n) := fun _ h => absurd rfl h

theorem Sys2Proof.Laws.Encoding.transferRecordReceive (n : Nat) : Encoding.Statement (.transferRecordReceive n) := fun _ h => absurd rfl h

theorem Sys2Proof.Laws.Encoding.powerGood (pkg : Nat) : Encoding.Statement (.powerGood pkg) := fun _ h => absurd rfl h

theorem Sys2Proof.Laws.Encoding.phaseComplete (pkg : Nat) (fail : Nat) : Encoding.Statement (.phaseComplete pkg fail) := fun _ h => absurd rfl h

theorem Sys2Proof.Laws.Encoding.phaseTimeout (pkg : Nat) : Encoding.Statement (.phaseTimeout pkg) := fun _ h => absurd rfl h

theorem Sys2Proof.Laws.Encoding.monitorReading (pkg : Nat) (plan : Nat) (margin : Nat) : Encoding.Statement (.monitorReading pkg plan margin) := fun _ h => absurd rfl h

theorem Sys2Proof.Laws.Encoding.pwrcapLower (pkg : Nat) : Encoding.Statement (.pwrcapLower pkg) := fun _ h => absurd rfl h

theorem Sys2Proof.Laws.Encoding.pwrcapRaise (pkg : Nat) : Encoding.Statement (.pwrcapRaise pkg) := fun _ h => absurd rfl h

theorem Sys2Proof.Laws.Encoding.getCertificate (pkg : Nat) : Encoding.Statement (.getCertificate pkg) := fun _ h => absurd rfl h

theorem Sys2Proof.Laws.Encoding.challenge (pkg : Nat) (nonce : Nat) : Encoding.Statement (.challenge pkg nonce) := fun _ h => absurd rfl h

theorem Sys2Proof.Laws.Encoding.getMeasurements (pkg : Nat) : Encoding.Statement (.getMeasurements pkg) := fun _ h => absurd rfl h

theorem Sys2Proof.Laws.Encoding.pldmSensorRead (pkg : Nat) (sensor : Nat) : Encoding.Statement (.pldmSensorRead pkg sensor) := fun _ h => absurd rfl h

theorem Sys2Proof.Laws.Encoding.pldmFirmwareUpdate (pkg : Nat) (image : Bytes) : Encoding.Statement (.pldmFirmwareUpdate pkg image) := fun _ h => absurd rfl h

theorem Sys2Proof.Laws.Encoding.objectLoad (pkg : Nat) (addr : Nat) (len : Nat) (place : Places) : Encoding.Statement (.objectLoad pkg addr len place) := fun _ h => absurd rfl h

theorem Sys2Proof.Laws.Encoding.containerLoad (pkg : Nat) (addr : ContainerAt) (len : Nat) : Encoding.Statement (.containerLoad pkg addr len) := fun _ h => absurd rfl h

theorem Sys2Proof.Laws.Encoding.illegalInstruction (w : Nat) (cause : Nat) : Encoding.Statement (.illegalInstruction w cause) := fun _ h => absurd rfl h

theorem Sys2Proof.Laws.Encoding.fetchFault : Encoding.Statement (.fetchFault) := fun _ h => absurd rfl h

theorem Sys2Proof.Laws.Encoding.chstLanding (n : Nat) : Encoding.Statement (.chstLanding n) := fun _ h => absurd rfl h

theorem Sys2Proof.Laws.Encoding.regionResume (pkg : Nat) (region : Nat) : Encoding.Statement (.regionResume pkg region) := fun _ h => absurd rfl h

theorem Sys2Proof.Laws.Encoding.regionReclaim (pkg : Nat) (region : Nat) : Encoding.Statement (.regionReclaim pkg region) := fun _ h => absurd rfl h

theorem Sys2Proof.Laws.Encoding.kvPageMove (key : Nat) : Encoding.Statement (.kvPageMove key) := fun _ h => absurd rfl h

theorem Sys2Proof.Laws.Encoding.lostFrameRetransmit (n : Nat) : Encoding.Statement (.lostFrameRetransmit n) := fun _ h => absurd rfl h

theorem Sys2Proof.Laws.Encoding.containerWrite (pkg : Nat) (addr : ContainerAt) (rev : Nat) : Encoding.Statement (.containerWrite pkg addr rev) := fun _ h => absurd rfl h
end

