-- ==== Sys2Proof/Laws/Updates.lean ====
section
/-! SUPPORT. Laws of updates: a later update of one key, berth, slip or package replaces an earlier one; what a block, a beginning instruction
and a packet on its way leave alone. -/
namespace Sys2Proof.SMap
variable {α : Type}

theorem erase_erase (k : Nat) : ∀ m : SMap α, erase (erase m k) k = erase m k
  | [] => rfl
  | (j, v) :: t => by
    by_cases h : j = k
    · simp [erase, h, erase_erase k t]
    · simp [erase, h, erase_erase k t]

theorem erase_insert_self (k : Nat) (v : α) : ∀ m : SMap α, erase (insert m k v) k = erase m k
  | [] => by simp [insert, erase]
  | (j, u) :: t => by
    by_cases h : k < j
    · simp [insert, erase, h]
    · by_cases e : j = k
      · simp [insert, erase, e, erase_insert_self k v t]
      · simp [insert, erase, h, e, erase_insert_self k v t]

@[simp] theorem put_put (m : SMap α) (k : Nat) (u v : α) : put (put m k u) k v = put m k v := by
  simp only [put, erase_insert_self, erase_erase]

end Sys2Proof.SMap

namespace Sys2Proof.Machine
open Sys2Proof

@[simp] theorem State.setBerth_setBerth (s : State) (b : Nat) (x y : Berth) : (s.setBerth b x).setBerth b y = s.setBerth b y := by
  simp only [State.setBerth, SMap.put_put]

@[simp] theorem State.setSlip_setSlip (s : State) (b i : Nat) (p q : Slip) : (s.setSlip b i p).setSlip b i q = s.setSlip b i q := by
  simp only [State.setSlip, State.berth_setBerth_self, State.setBerth_setBerth, Berth.setSlip_setSlip]

@[simp] theorem State.modSlip_modSlip (s : State) (b i : Nat) (f g : Slip → Slip) :
    (s.modSlip b i f).modSlip b i g = s.modSlip b i (fun p => g (f p)) := by
  simp only [State.modSlip, State.slip_setSlip_self, State.setSlip_setSlip]

@[simp] theorem State.setPkg_setPkg (s : State) (k : Nat) (x y : Pkg) : (s.setPkg k x).setPkg k y = s.setPkg k y := by
  simp only [State.setPkg, SMap.put_put]

@[simp] theorem State.modPkg_modPkg (s : State) (k : Nat) (f g : Pkg → Pkg) :
    (s.modPkg k f).modPkg k g = s.modPkg k (fun p => g (f p)) := by
  simp only [State.modPkg, State.pkg_setPkg_self, State.setPkg_setPkg]

/-- A slip that blocks at an instruction: its state, its wait, and that the instruction has begun (R209, R218). -/
theorem State.began_block (s : State) {c : Ctx} (h : c.hnd = false) (w : Wait) :
    (s.block c w).began c = s.setSlip c.b c.i { s.slip c.b c.i with st := .blocked, wait := some w, begun := true } := by
  simp only [State.block, State.began, h, Bool.false_eq_true, if_false, State.modSlip_modSlip]
  rfl

/-- A flit on its way changes the packages, and nothing else (R455, R456). -/
theorem flitAlong_same (src dst : Nat) (f : Flit) (n at_ : Nat) (s : State) :
    flitAlong src dst f n at_ s = { s with pkgs := (flitAlong src dst f n at_ s).pkgs } := by
  induction n generalizing at_ s with
  | zero => rfl
  | succ n ih =>
    unfold flitAlong
    split
    · rfl
    · split
      · rfl
      · rw [ih]; rfl

/-- What leaves in flits changes ports and the count of free values, and nothing else (R454, R456). -/
theorem State.linkFlits_same (s : State) (src dst n : Nat) :
    s.linkFlits src dst n = { s with pkgs := (s.linkFlits src dst n).pkgs, fresh := (s.linkFlits src dst n).fresh } := by
  unfold State.linkFlits
  split
  · rfl
  · generalize upTo ((n + 231) / 232) = l
    induction l generalizing s with
    | nil => rfl
    | cons j l ih =>
      rw [List.foldl_cons, ih, flitAlong_same]

theorem State.linkFlit_same (s : State) (src dst : Nat) :
    s.linkFlit src dst = { s with pkgs := (s.linkFlit src dst).pkgs, fresh := (s.linkFlit src dst).fresh } := s.linkFlits_same src dst 64

/-- A packet on its way stands behind all others; only ports and the count of free values change beside the network (R455). -/
theorem State.transmit_same (s : State) (src dst : Nat) (body : Body) :
    s.transmit src dst body = { s with
      net := s.net ++ [{ src := src, dst := dst, body := body }]
      pkgs := (s.linkFlit src dst).pkgs
      fresh := (s.linkFlit src dst).fresh } := by
  unfold State.transmit
  rw [State.linkFlit_same s src dst]

@[simp] theorem State.transmit_mem (s : State) (src dst : Nat) (body : Body) : (s.transmit src dst body).mem = s.mem := by
  rw [State.transmit_same]
@[simp] theorem State.transmit_berths (s : State) (src dst : Nat) (body : Body) : (s.transmit src dst body).berths = s.berths := by
  rw [State.transmit_same]
@[simp] theorem State.transmit_net (s : State) (src dst : Nat) (body : Body) :
    (s.transmit src dst body).net = s.net ++ [{ src := src, dst := dst, body := body }] := by
  rw [State.transmit_same]

end Sys2Proof.Machine
end

