-- ==== Sys2Proof/Tests/Slice0.lean ====
section
/-! SUPPORT. Tests: ill-formed terms that the check refuses, words that decode, small results, and for each statement a state and operands that
meet its hypotheses. Expected values are read from the rules of spec/. -/
namespace Sys2Proof.Tests
open Sys2Proof Sys2Proof.Machine Sys2Proof.Claims
set_option Elab.async false

/-! ### WellFormed refuses each reserved code (R47, R50, R53 to R58, R255, R300, R375) -/

theorem test_wf_br : (Instr.br 1 0 3 0).wellFormed = false := rfl
theorem test_wf_lset : (Instr.lset 4 4 1 2).wellFormed = false := rfl
theorem test_wf_leave : (Instr.leave 3).wellFormed = false := rfl
theorem test_wf_leaveq : (Instr.leaveq 1 0 3).wellFormed = false := rfl
theorem test_wf_vadd : (Instr.vadd 1 2 0 3 4).wellFormed = false := rfl
theorem test_wf_vfadd : (Instr.vfadd 1 2 0 3 2).wellFormed = false := rfl
theorem test_wf_vrsum : (Instr.vrsum 1 2 0 0 6).wellFormed = false := rfl
theorem test_wf_vperm : (Instr.vperm 1 2 0 3 4).wellFormed = false := rfl
theorem test_wf_vsplat : (Instr.vsplat 1 2 0 6).wellFormed = false := rfl
theorem test_wf_vcvt_mode : (Instr.vcvtBfS 1 2 0 0 5).wellFormed = false := rfl
theorem test_wf_vcvt_field : (Instr.vcvtBfS 1 2 0 2 1).wellFormed = false := rfl
theorem test_wf_vpackmx : (Instr.vpackmx 1 2 0 0 7).wellFormed = false := rfl
theorem test_wf_vcmp : (Instr.vcmpEq 1 2 0 3 4).wellFormed = false := rfl
theorem test_wf_put : (Instr.put 7 1 2).wellFormed = false := rfl
theorem test_wf_get : (Instr.get 7 1 2).wellFormed = false := rfl
theorem test_wf_bdef_code : (Instr.bdef 6 0 1 0 2 0).wellFormed = false := rfl
theorem test_wf_bdef_exact : (Instr.bdef 1 1 1 0 2 0).wellFormed = false := rfl
theorem test_wf_brd : (Instr.brd 1 2 0 3).wellFormed = false := rfl
theorem test_wf_arrive : (Instr.arrive 7 1 0).wellFormed = false := rfl
theorem test_wf_kvapp_form : (Instr.kvapp 0 1 2 3 3).wellFormed = false := rfl
theorem test_wf_kvapp_c : (Instr.kvapp 0 1 2 3 0).wellFormed = false := rfl
theorem test_wf_czwait : (Instr.czwait 1 1).wellFormed = false := rfl
theorem test_wf_event : (Instr.rollback).wellFormed = false := rfl

/-! ### Words written bit by bit from the opcode table -/

/-- ADD: the fixed bits 0x00000001, and d = 1 at 7, a = 3 at 12, x = 5 at 17, b = 7 at 20, y = 1 at 25. -/
theorem test_word_add : decodeWord 4 0x027A3081 = .ok (.add 1 3 5 7 1) := rfl
/-- MAXU: the fixed bits 0x00000003, and d = 1 at 7, a = 3 at 12, x = 5 at 17, b = 7 at 20, y = 1 at 25. -/
theorem test_word_maxu : decodeWord 4 0x027A3083 = .ok (.maxu 1 3 5 7 1) := rfl
/-- MUL: the fixed bits 0x00000005, and d = 1 at 7, a = 3 at 12, x = 5 at 17, b = 7 at 20, y = 1 at 25. -/
theorem test_word_mul : decodeWord 4 0x027A3085 = .ok (.mul 1 3 5 7 1) := rfl
/-- ADDI: the fixed bits 0x00000007, and d = 1 at 7, a = 3 at 12, x = 5 at 17, i = 4093 at 20. -/
theorem test_word_addi : decodeWord 4 0xFFDA3087 = .ok (.addi 1 3 5 4093) := rfl
/-- ANDI: the fixed bits 0x00000009, and d = 1 at 7, a = 3 at 12, x = 5 at 17, i = 4093 at 20. -/
theorem test_word_andi : decodeWord 4 0xFFDA3089 = .ok (.andi 1 3 5 4093) := rfl
/-- ORI: the fixed bits 0x0000000B, and d = 1 at 7, a = 3 at 12, x = 5 at 17, i = 4093 at 20. -/
theorem test_word_ori : decodeWord 4 0xFFDA308B = .ok (.ori 1 3 5 4093) := rfl
/-- XORI: the fixed bits 0x0000000D, and d = 1 at 7, a = 3 at 12, x = 5 at 17, i = 4093 at 20. -/
theorem test_word_xori : decodeWord 4 0xFFDA308D = .ok (.xori 1 3 5 4093) := rfl
/-- SLLI: the fixed bits 0x0000000F, and d = 1 at 7, a = 3 at 12, x = 5 at 17, s = 7 at 20. -/
theorem test_word_slli : decodeWord 4 0x007A308F = .ok (.slli 1 3 5 7) := rfl
/-- UPIM: the fixed bits 0x00000011, and d = 1 at 7, i = 1048573 at 12. -/
theorem test_word_upim : decodeWord 4 0xFFFFD091 = .ok (.upim 1 1048573) := rfl
/-- PCADD: the fixed bits 0x00000013, and d = 1 at 7, i = 1048573 at 12. -/
theorem test_word_pcadd : decodeWord 4 0xFFFFD093 = .ok (.pcadd 1 1048573) := rfl
/-- CEQ: the fixed bits 0x00000015, and q = 1 at 7, a = 3 at 12, x = 5 at 17, b = 7 at 20, y = 1 at 25. -/
theorem test_word_ceq : decodeWord 4 0x027A3095 = .ok (.ceq 1 3 5 7 1) := rfl
/-- CEQI: the fixed bits 0x00000017, and q = 1 at 7, a = 3 at 12, x = 5 at 17, i = 509 at 20. -/
theorem test_word_ceqi : decodeWord 4 0x1FDA3097 = .ok (.ceqi 1 3 5 509) := rfl
/-- BR: the fixed bits 0x00000019, and q = 1 at 7, s = 1 at 10, n = 1 at 11, o = 524285 at 13. -/
theorem test_word_br : decodeWord 4 0xFFFFAC99 = .ok (.br 1 1 1 524285) := rfl
/-- J: the fixed bits 0x0000001B, and o = 33554429 at 7. -/
theorem test_word_j : decodeWord 4 0xFFFFFE9B = .ok (.j 33554429) := rfl
/-- JL: the fixed bits 0x0000001D, and o = 33554429 at 7. -/
theorem test_word_jl : decodeWord 4 0xFFFFFE9D = .ok (.jl 33554429) := rfl
/-- JR: the fixed bits 0x0000001F, and a = 1 at 12, x = 3 at 17, i = 4093 at 20. -/
theorem test_word_jr : decodeWord 4 0xFFD6101F = .ok (.jr 1 3 4093) := rfl
/-- LSET: the fixed bits 0x00000021, and w = 1 at 7, m = 3 at 10, a = 5 at 13, b = 7 at 18. -/
theorem test_word_lset : decodeWord 4 0x001CACA1 = .ok (.lset 1 3 5 7) := rfl
/-- LB: the fixed bits 0x00000023, and d = 1 at 7, a = 3 at 12, x = 5 at 17, i = 509 at 23. -/
theorem test_word_lb : decodeWord 4 0xFE8A30A3 = .ok (.lb 1 3 5 509) := rfl
/-- SB: the fixed bits 0x00000025, and s = 1 at 7, a = 3 at 12, x = 5 at 17, i = 509 at 23. -/
theorem test_word_sb : decodeWord 4 0xFE8A30A5 = .ok (.sb 1 3 5 509) := rfl
/-- LX_B: the fixed bits 0x00000027, and d = 1 at 7, a = 3 at 12, x = 5 at 17, b = 7 at 20, y = 1 at 25. -/
theorem test_word_lxB : decodeWord 4 0x027A30A7 = .ok (.lxB 1 3 5 7 1) := rfl
/-- FLW: the fixed bits 0x00000029, and d = 1 at 7, a = 3 at 12, x = 5 at 17, i = 2045 at 20. -/
theorem test_word_flw : decodeWord 4 0x7FDA30A9 = .ok (.flw 1 3 5 2045) := rfl
/-- VL: the fixed bits 0x0000002B, and d = 1 at 7, a = 3 at 12, x = 5 at 17, i = 1021 at 20. -/
theorem test_word_vl : decodeWord 4 0x3FDA30AB = .ok (.vl 1 3 5 1021) := rfl
/-- VLS: the fixed bits 0x0000002D, and d = 1 at 7, a = 3 at 12, x = 5 at 17, b = 7 at 20, m = 1 at 25, e = 3 at 30. -/
theorem test_word_vls : decodeWord 4 0xC27A30AD = .ok (.vls 1 3 5 7 1 3) := rfl
/-- FADD: the fixed bits 0x0000002F, and d = 1 at 7, a = 3 at 12, x = 5 at 17, b = 7 at 20, y = 1 at 25. -/
theorem test_word_fadd : decodeWord 4 0x027A30AF = .ok (.fadd 1 3 5 7 1) := rfl
/-- FMA: the fixed bits 0x00000031, and d = 1 at 7, a = 3 at 12, b = 5 at 17, c = 7 at 22. -/
theorem test_word_fma : decodeWord 4 0x01CA30B1 = .ok (.fma 1 3 5 7) := rfl
/-- FCVTI: the fixed bits 0x00000033, and d = 1 at 7, a = 3 at 12, x = 5 at 17, r = 3 at 20, s = 1 at 22. -/
theorem test_word_fcvti : decodeWord 4 0x007A30B3 = .ok (.fcvti 1 3 5 3 1) := rfl
/-- VADD: the fixed bits 0x00000035, and d = 1 at 7, a = 3 at 12, x = 5 at 17, b = 7 at 20, e = 1 at 25. -/
theorem test_word_vadd : decodeWord 4 0x027A30B5 = .ok (.vadd 1 3 5 7 1) := rfl
/-- VFADD: the fixed bits 0x00000037, and d = 1 at 7, a = 3 at 12, x = 5 at 17, b = 7 at 20, e = 1 at 25. -/
theorem test_word_vfadd : decodeWord 4 0x027A30B7 = .ok (.vfadd 1 3 5 7 1) := rfl
/-- VFMA_S: the fixed bits 0x00000039, and d = 1 at 7, a = 3 at 12, b = 5 at 17, c = 7 at 22. -/
theorem test_word_vfmaS : decodeWord 4 0x01CA30B9 = .ok (.vfmaS 1 3 5 7) := rfl
/-- VRSUM: the fixed bits 0x0000003B, and d = 1 at 7, a = 3 at 12, x = 5 at 17, b = 7 at 20, e = 1 at 25. -/
theorem test_word_vrsum : decodeWord 4 0x027A30BB = .ok (.vrsum 1 3 5 7 1) := rfl
/-- VCVT_BF_S: the fixed bits 0x0000003D, and d = 1 at 7, a = 3 at 12, x = 5 at 17, b = 1 at 20, r = 1 at 25. -/
theorem test_word_vcvtBfS : decodeWord 4 0x021A30BD = .ok (.vcvtBfS 1 3 5 1 1) := rfl
/-- MAND: the fixed bits 0x0000003F, and d = 1 at 7, a = 3 at 12, x = 5 at 17, b = 7 at 20, y = 1 at 25. -/
theorem test_word_mand : decodeWord 4 0x027A30BF = .ok (.mand 1 3 5 7 1) := rfl
/-- CHWAITF: the fixed bits 0x00000041, and c = 1 at 12, n = 4093 at 16. -/
theorem test_word_chwaitf : decodeWord 4 0x0FFD1041 = .ok (.chwaitf 1 4093) := rfl
/-- SEND: the fixed bits 0x00000043, and n = 1 at 7, a = 3 at 12, c = 5 at 22. -/
theorem test_word_send : decodeWord 4 0x014030C3 = .ok (.send 1 3 5) := rfl
/-- BDEF: the fixed bits 0x00000045, and i = 1 at 7, k = 0 at 10, a = 5 at 12, x = 7 at 17, b = 9 at 20, y = 3 at 25. -/
theorem test_word_bdef : decodeWord 4 0x069E50C5 = .ok (.bdef 1 0 5 7 9 3) := rfl
/-- SWDEF: the fixed bits 0x00000047, and a = 1 at 12, x = 3 at 17, b = 5 at 20, y = 7 at 25. -/
theorem test_word_swdef : decodeWord 4 0x0E561047 = .ok (.swdef 1 3 5 7) := rfl
/-- XFER: the fixed bits 0x00000049, and d = 1 at 7, a = 3 at 12. -/
theorem test_word_xfer : decodeWord 4 0x000030C9 = .ok (.xfer 1 3) := rfl
/-- CWLD: the fixed bits 0x0000004B, and a = 1 at 12, v = 1 at 17, b = 5 at 20. -/
theorem test_word_cwld : decodeWord 4 0x0052104B = .ok (.cwld 1 1 5) := rfl
/-- CMMA_BF: the fixed bits 0x0000004D, and a = 1 at 9, f = 3 at 14, s = 5 at 18, z = 7 at 23. -/
theorem test_word_cmmaBf : decodeWord 4 0x0394C24D = .ok (.cmmaBf 1 3 5 7) := rfl
/-- CMMA_E4E5: the fixed bits 0x0000004F, and a = 1 at 9, f = 3 at 14, s = 5 at 18, z = 7 at 23. -/
theorem test_word_cmmaE4e5 : decodeWord 4 0x0394C24F = .ok (.cmmaE4e5 1 3 5 7) := rfl
/-- CMMA_F6B: the fixed bits 0x00000051, and a = 1 at 9, f = 3 at 14, s = 5 at 18, z = 7 at 23. -/
theorem test_word_cmmaF6b : decodeWord 4 0x0394C251 = .ok (.cmmaF6b 1 3 5 7) := rfl
/-- CMMA_E4KF4: the fixed bits 0x00000053, and a = 1 at 9, f = 3 at 14, s = 5 at 18, z = 7 at 23. -/
theorem test_word_cmmaE4kf4 : decodeWord 4 0x0394C253 = .ok (.cmmaE4kf4 1 3 5 7) := rfl
/-- KVOPEN: the fixed bits 0x00000055, and a = 1 at 12, b = 3 at 17. -/
theorem test_word_kvopen : decodeWord 4 0x00061055 = .ok (.kvopen 1 3) := rfl
/-- QRLD: the fixed bits 0x00000057, and a = 1 at 12, x = 3 at 17, b = 5 at 20, y = 7 at 25. -/
theorem test_word_qrld : decodeWord 4 0x0E561057 = .ok (.qrld 1 3 5 7) := rfl
/-- CRD: the fixed bits 0x00000059, and d = 1 at 7, i = 4093 at 17. -/
theorem test_word_crd : decodeWord 4 0x1FFA00D9 = .ok (.crd 1 4093) := rfl
/-- C_MV: the fixed bits 0x0002, and d = 1 at 5, a = 3 at 10. -/
theorem test_word_cMv : decodeWord 2 0x0C22 = .ok (.cMv 1 3) := rfl

/-! ### A small state: slip 0 of berth 5 runs at LOCAL 0 and holds bank 0; TVEC is set -/

/-- The slip that runs. -/
def work : Slip :=
  { st := .running, banks := 1, live := { q0 := { addr := some (localAddr 0) }, q1 := { addr := some (localAddr 4) }, q2 := { addr := some (localAddr 8) } } }
/-- The state with a slip running on berth 5. -/
def withSlip (p : Slip) : State := { cur := 5, berths := [(5, { s0 := p, tvec := 0x1000000000000100 })] }
/-- Who executes there. -/
def me : Ctx := { b := 5, i := 0, hnd := false }
/-- Some words at the start of berth 5's scratchpad. -/
def stored (p : Slip) (bs : List Byte) : State := (withSlip p).poke (scratchKey 5 0) bs

/-- Slip p with x in g1 and y in g2. -/
def regs (p : Slip) (x y : Word) : Slip := { p with g := [(8, x), (16, y)] }

/-! ### Witnesses: what the statements about single instructions assume -/

theorem ctx_work : (withSlip work).ctx = some me := rfl
/-- In that state every list of registers at distance 0 passes; the lists of the statements are met at the highest register numbers. -/
theorem witness_AluTwoRegisters : Runs (withSlip work) me {} [.src .g 31 0, .src .g 31 0, .dst .g 31] := ⟨rfl, fun _ => rfl⟩
theorem witness_AluOneRegisterAndSaturating : Runs (withSlip (regs work 5 7)) me {} [.src .g 1 0, .src .g 2 0, .dst .g 0] ∧
    Runs (withSlip work) me {} [.src .g 31 0, .dst .g 31] := ⟨⟨rfl, fun _ => rfl⟩, rfl, fun _ => rfl⟩
theorem witness_AluImmediates : Runs (withSlip work) me {} [.src .g 31 0, .dst .g 31] ∧ Runs (withSlip work) me {} [.dst .g 0] ∧
    Runs (withSlip work) me {} [.src .g 31 0, .src .g 31 0, .dst .g 31] ∧ Runs (withSlip work) me {} [.src .g 0 0, .dst .g 31] :=
  ⟨⟨rfl, fun _ => rfl⟩, ⟨rfl, fun _ => rfl⟩, ⟨rfl, fun _ => rfl⟩, rfl, fun _ => rfl⟩
theorem witness_ComparesAndConditions : Runs (withSlip work) me {} [.src .g 31 0, .src .g 31 0, .dst .q 7] ∧
    Runs (withSlip work) me {} [.src .g 31 0, .dst .q 0] ∧ Runs (withSlip work) me {} [.src .q 7 0, .src .q 7 0, .dst .q 7] ∧
    Runs (withSlip work) me {} [.src .q 7 0, .dst .q 0] :=
  ⟨⟨rfl, fun _ => rfl⟩, ⟨rfl, fun _ => rfl⟩, ⟨rfl, fun _ => rfl⟩, rfl, fun _ => rfl⟩
theorem witness_QueueStepOutsideLoops : work.levels = [] := rfl

/-- A loop of three iterations over the first 16 bytes of bank 0, and the slip in it with its last instruction at PCQ0. -/
def level : Level := { width := 2, dmax := 1, masks := { g := 2, f := 1, w := 1, q := 2, m := 2 }, start := localAddr 0, stop := localAddr 16, count := 3, idx := 0 }
def looping : Slip :=
  { work with levels := [level], live :=
      { q0 := { addr := some (localAddr 12) }, q1 := { addr := some (localAddr 0), tag := .iter }, q2 := { addr := some (localAddr 4) } } }
theorem witness_IterationCarriesForward : looping.levels = level :: [] ∧ (looping.resolve (fun _ => some 4)).live.q1.tag = .iter := ⟨rfl, rfl⟩

/-- The slip inside the loop, with all of its queue in the body. -/
def inside : Slip := { work with levels := [level] }
theorem witness_BranchesAndJumps_outside : Runs (withSlip work) me {} [.src .q 7 0] ∧ MayBranch (withSlip work) me (jumpTo (localAddr 0x7FFC)) ∧
    (withSlip work).pcOf me = localAddr 0 := ⟨⟨rfl, fun _ => rfl⟩, (fun _ _ h => nomatch h), rfl⟩
theorem witness_BranchesAndJumps_inside : Runs (withSlip inside) me {} [.src .q 1 0] ∧ MayBranch (withSlip inside) me (jumpTo (localAddr 12)) :=
  ⟨⟨rfl, fun _ => rfl⟩, fun _ _ h => by cases h; exact ⟨rfl, rfl, rfl, fun _ => rfl⟩⟩
/-- The word after PCQ2 can be read: its length gives JL its link. -/
theorem witness_BranchesAndJumps_link : Runs (withSlip work) me {} [.dst .g 1] ∧
    ((withSlip work).queueOf me).q2.after ((withSlip work).lenAt me) = some (localAddr 10) ∧
    (withSlip work).lengthWait me ((withSlip work).queueOf me).q1 = none ∧
    (withSlip work).lengthWait me ((withSlip work).queueOf me).q2 = none := ⟨⟨rfl, fun _ => rfl⟩, rfl, rfl, rfl⟩
theorem witness_BranchesAndJumps_jr : Runs (withSlip (regs work (localAddr 0x100) 0)) me {} [.src .g 1 0, .dst .g 1] ∧
    ((withSlip (regs work (localAddr 0x100) 0)).readG me 1 0).toNat % 2 = 0 := ⟨⟨rfl, fun _ => rfl⟩, rfl⟩
theorem witness_BranchFaults_odd : Runs (withSlip (regs work (localAddr 0x101) 0)) me {} [.src .g 1 0] ∧
    ((withSlip (regs work (localAddr 0x101) 0)).readG me 1 0 + (0 : BitVec 12).signExtend 64).toNat % 2 = 1 := ⟨⟨rfl, fun _ => rfl⟩, rfl⟩
/-- A handler runs on the berth. -/
def handling (h : Handler) : State := { cur := 5, berths := [(5, { s0 := { work with st := .ready }, handler := some h, tvec := 0x1000000000000100 })] }
def handler : Handler := { slip := 0, source := .item, live := work.live }
def meH : Ctx := { b := 5, i := 0, hnd := true }
theorem witness_BranchFaults_handler : Runs (handling handler) meH {} [] ∧ ((handling handler).pcOf meH + halves (0 : BitVec 25)).toNat ≤ ((handling handler).pcOf meH).toNat :=
  ⟨⟨rfl, fun _ => rfl⟩, by decide⟩
theorem witness_BranchFaults_loop : Runs (withSlip looping) me {} [] ∧
    (withSlip looping).lengthWait me ((withSlip looping).queueOf me).q1 = none ∧
    (withSlip inside).lengthWait me ((withSlip inside).queueOf me).q1 = none ∧ ((withSlip looping).queueOf me).q1.inBody level = false ∧
    ((withSlip inside).queueOf me).q1.inBody level = true ∧ ((withSlip inside).queueOf me).q2.inBody level = true ∧
    level.covers ((withSlip inside).pcOf me + halves (8 : BitVec 25)) = false := ⟨⟨rfl, fun _ => rfl⟩, rfl, rfl, rfl, rfl, rfl, rfl⟩

/-! ### Loads and stores -/

/-- A LOCAL address of bank 0 in g1: the last doubleword of the bank, and one of a bank that the slip does not hold. -/
theorem witness_LoadsComplete_local : Runs (withSlip (regs work (localAddr 0x7FF8) 0)) me {} [.src .g 1 0, .dst .g 31] ∧
    LoadsAt (withSlip (regs work (localAddr 0x7FF8) 0)) me (localAddr 0x7FF8) 8 (scratchKey 5 0x7FF8)
      ((withSlip (regs work (localAddr 0x7FF8) 0)).bytesAt (scratchKey 5 0x7FF8) 8) ((withSlip (regs work (localAddr 0x7FF8) 0)).touchAll me 0x7FF8 8) :=
  ⟨⟨rfl, fun _ => rfl⟩, rfl, fun _ => rfl, .inl ⟨rfl, rfl, rfl, rfl, rfl⟩⟩
/-- Bytes that an earlier racing read took. -/
theorem witness_LoadsComplete_early : ((withSlip { work with early := [(0, 1)] }).slip 5 0).early ≠ [] ∧ ((withSlip work).slip 5 0).early = [] := ⟨by decide, rfl⟩
theorem witness_StoresComplete : Runs (withSlip (regs work (localAddr 0x7FF8) 0)) me {} [.src .g 1 0, .src .g 2 0] ∧
    StoresAt (withSlip (regs work (localAddr 0x7FF8) 0)) me (localAddr 0x7FF8) 8 (scratchKey 5 0x7FF8) :=
  ⟨⟨rfl, fun _ => rfl⟩, rfl, rfl, .inl ⟨rfl, rfl, rfl⟩⟩
/-- The SYSTEM path of the control berth of package 0 reaches DRAM at physical address 0. -/
def boss : State := { cur := 0, berths := [(0, { s0 := regs work 0xF000000000000000 0 })] }
def meB : Ctx := { b := 0, i := 0, hnd := false }
theorem witness_LoadsComplete_system : Runs boss meB {} [.src .g 1 0, .dst .g 3] ∧ LoadsAt boss meB 0xF000000000000000 8 (physKey 0 0) (boss.bytesAt (physKey 0 0) 8) (boss.loadBytes meB true (physKey 0 0) 8).1 :=
  ⟨⟨rfl, fun _ => rfl⟩, rfl, fun _ => rfl, .inr (.inr ⟨rfl, ⟨false, rfl⟩, rfl, rfl⟩)⟩
/-- A page of class OWNED that slip 0 owns, cached at virtual page 0. -/
def mapped : State := { cur := 5, berths := [(5, { s0 := { regs work 0x100 0 with own0 := 1, priv := false }, root := 1, tlb := [{ asid := 0, base := 0, size := 65536, leaf := 0x10013 }] })] }
theorem witness_LoadsComplete_global : Runs mapped me {} [.src .g 1 0, .dst .g 3] ∧ LoadsAt mapped me 0x100 8 (physKey 0 0x10100) (mapped.bytesAt (physKey 0 0x10100) 8)
    (mapped.loadBytes me false (physKey 0 0x10100) 8).1 :=
  ⟨⟨rfl, fun _ => rfl⟩, rfl, fun _ => rfl, .inr (.inl ⟨rfl, ⟨true, rfl⟩, rfl, rfl⟩)⟩
theorem witness_AccessFaults_path : Runs (withSlip (regs work 0x2000000000000000 0)) me {} [.src .g 1 0, .dst .g 3] ∧
    bitsOf ((0x2000000000000000 : Word)).toNat 63 60 = 2 := ⟨⟨rfl, fun _ => rfl⟩, rfl⟩
theorem witness_AccessFaults_local : bitsOf (localAddr 0x80000).toNat 59 19 ≠ 0 ∧ (localAddr 0x7FFC).toNat % 8 ≠ 0 ∧
    (withSlip work).holdsBank me (bitsOf (localAddr 0x8000).toNat 18 0) = false ∧ (withSlip work).holdsBank me (bitsOf (localAddr 0x7FF8).toNat 18 0) = true ∧
    (SMap.get? ({ withSlip work with syncs := [(scratchKey 5 0x7FF0, {})] } : State).syncs (scratchKey 5 (bitsOf (localAddr 0x7FF8).toNat 18 0 / 16 * 16))).isSome = true := by
  decide
theorem witness_AccessFaults_system : (withSlip { work with priv := false }).privOf me = false ∧
    boss.reachSystem meB (0xFF00000000000050 + 0) 8 = .trap 9 ∧ boss.reachSystem meB 0xF00F000000000050 8 = .device 0xF000000000050 ∧
    devReg 0xF000000000050 = none := by decide

/-! ### Vectors and floating point -/

theorem witness_VectorMemory : Runs (withSlip (regs work (localAddr 0x100) 8)) me {} [.src .g 1 0, .src .g 2 0, .src .m 0 0, .dst .w 31] ∧
    Runs (withSlip (regs work (localAddr 0x100) 8)) me {} [.src .g 1 0, .src .w 2 0, .src .m 0 0, .src .w 31 0] := ⟨⟨rfl, fun _ => rfl⟩, rfl, fun _ => rfl⟩
theorem witness_VectorMemory_elements : ElementsPass (withSlip work) me 8 0xFF (fun j => localAddr (0x7FC0 + 8 * j)) false ∧
    ElementsPass (withSlip work) me 8 0xFF (fun j => localAddr (0x7FC0 + 8 * j)) true := by
  constructor <;>
  · intro j hj _
    have : j = 0 ∨ j = 1 ∨ j = 2 ∨ j = 3 ∨ j = 4 ∨ j = 5 ∨ j = 6 ∨ j = 7 := by omega
    rcases this with rfl | rfl | rfl | rfl | rfl | rfl | rfl | rfl <;> exact ⟨rfl, rfl, by decide⟩
theorem witness_ScalarFloat : Runs (withSlip work) me {} [.src .f 31 0, .src .f 31 0, .dst .f 31] ∧ Runs (withSlip work) me {} [.src .f 0 0, .dst .g 31] ∧
    Runs (withSlip work) me {} [.src .f 1 0, .src .f 2 0, .src .f 3 0, .dst .f 31] ∧ Runs (withSlip work) me {} [.src .f 1 0, .src .f 2 0, .dst .q 7] :=
  ⟨⟨rfl, fun _ => rfl⟩, ⟨rfl, fun _ => rfl⟩, ⟨rfl, fun _ => rfl⟩, rfl, fun _ => rfl⟩
theorem witness_VectorInteger : (3 : BitVec 3).toNat ≤ 3 ∧ Runs (withSlip work) me {} [.src .w 31 0, .src .w 31 0, .dst .w 31] := ⟨by decide, rfl, fun _ => rfl⟩
theorem witness_VectorFloat : (1 : BitVec 3).toNat ≤ 1 ∧ Runs (withSlip work) me {} [.src .w 31 0, .src .w 31 0, .dst .w 31] ∧
    Runs (withSlip work) me {} [.src .w 31 0, .dst .w 0] ∧ Runs (withSlip work) me {} [.src .w 1 0, .src .w 2 0, .src .w 3 0, .dst .w 31] :=
  ⟨by decide, ⟨rfl, fun _ => rfl⟩, ⟨rfl, fun _ => rfl⟩, rfl, fun _ => rfl⟩
theorem witness_VectorSelectAndPermute : (5 : BitVec 3).toNat ≤ 5 ∧ Runs (withSlip work) me {} [.src .w 1 0, .src .w 2 0, .src .m 7 0, .dst .w 31] ∧
    Runs (withSlip work) me {} [.src .w 1 0, .src .g 2 0, .dst .w 31] ∧ Runs (withSlip work) me {} [.src .g 1 0, .dst .w 31] :=
  ⟨by decide, ⟨rfl, fun _ => rfl⟩, ⟨rfl, fun _ => rfl⟩, rfl, fun _ => rfl⟩
theorem witness_VectorReductions : Runs (withSlip work) me {} [.src .w 31 0, .src .m 7 0, .dst .w 31] ∧ (3 : BitVec 3).toNat ≤ 3 ∧ (5 : BitVec 3).toNat = 5 :=
  ⟨⟨rfl, fun _ => rfl⟩, by decide, rfl⟩
theorem witness_VectorConversions : Runs (withSlip work) me {} [.src .w 31 0, .dst .w 31] ∧ Runs (withSlip work) me {} [.src .w 31 0, .dst .w 31, .src .w 31 0] ∧
    (3 : BitVec 3).toNat < 4 ∧ (6 : BitVec 3).toNat ≤ 6 := ⟨⟨rfl, fun _ => rfl⟩, ⟨rfl, fun _ => rfl⟩, by decide, by decide⟩
theorem witness_VectorCompareAndMasks : Runs (withSlip work) me {} [.src .w 31 0, .src .w 31 0, .dst .m 7] ∧
    Runs (withSlip work) me {} [.src .m 7 0, .src .m 7 0, .dst .m 7] ∧ Runs (withSlip work) me {} [.src .m 0 0, .dst .g 31] :=
  ⟨⟨rfl, fun _ => rfl⟩, ⟨rfl, fun _ => rfl⟩, rfl, fun _ => rfl⟩

/-! ### Loops and traps -/

theorem witness_LoopsEnter : (((withSlip (regs work 3 0)).slip 5 0).aside = []) ∧ Runs (withSlip (regs work 3 0)) me { hnd := false } [.src .g 1 0] ∧
    (∀ word, ((withSlip (regs work 3 0)).slip 5 0).loopFault word 16 (localAddr 0) = none) ∧ ((withSlip (regs work 3 0)).readG me 1 0).toNat % 2 ^ 32 ≠ 0 ∧
    ((withSlip work).readG me 1 0).toNat % 2 ^ 32 = 0 :=
  ⟨rfl, ⟨rfl, fun _ => rfl⟩, fun _ => rfl, by decide, by decide⟩
theorem witness_LoopsEnter_record : LoadsAt (stored work [3]) me (localAddr 0) 8 (scratchKey 5 0) ((stored work [3]).bytesAt (scratchKey 5 0) 8) ((stored work [3]).touchAll me 0 8) ∧
    (stored work [3]).natAt (scratchKey 5 0) 4 ≠ 0 := ⟨⟨rfl, fun _ => rfl, .inl ⟨rfl, rfl, rfl, rfl, rfl⟩⟩, by decide⟩
theorem witness_LoopsEnter_lset : Runs (withSlip work) me { hnd := false } [.src .g 1 0, .src .g 2 0] := ⟨rfl, fun _ => rfl⟩
theorem witness_LeaveExits : Runs (withSlip inside) me { hnd := false } [.src .q 1 0] ∧ inside.aside = [] ∧ inside.levels = level :: [] ∧
    level.covers ((withSlip inside).pcOf me) = true ∧ ((withSlip inside).queueOf me).q0.taken = false ∧ (withSlip inside).lengthWait me ((withSlip inside).queueOf me).q1 = none ∧
    ((withSlip inside).queueOf me).q1.inBody level = true ∧
    ((withSlip inside).queueOf me).q2.inBody level = true := ⟨⟨rfl, fun _ => rfl⟩, rfl, rfl, rfl, rfl, rfl, rfl, rfl⟩
theorem witness_LeaveExits_faults : Runs (withSlip work) me { hnd := false } [] ∧ work.levels = [] ∧ level.covers (localAddr 16) = false ∧
    ((withSlip looping).queueOf me).q1.inBody level = false ∧ ({ inside with levels := [], aside := [level] } : Slip).aside ≠ [] :=
  ⟨⟨rfl, fun _ => rfl⟩, rfl, rfl, rfl, by decide⟩
theorem witness_TrapEntrySaves : ((withSlip work).slip 5 0).intrap = false ∧ ¬ RollbackCause 26 0 ∧ ¬ IsUpcall (withSlip work) 5 0 26 false ∧ ((withSlip work).berth 5).tvec ≠ 0 := by
  refine ⟨rfl, ?_, ?_, by decide⟩ <;> simp [RollbackCause, IsUpcall]
/-- A user program with an upcall vector. -/
def user : State := { cur := 5, berths := [(5, { s0 := { work with priv := false }, upvec := 0x200 })] }
theorem witness_TrapEntrySaves_upcall : IsUpcall user 5 0 11 false ∧ ¬ RollbackCause 11 0 := by
  refine ⟨⟨.inl rfl, rfl, rfl, by decide⟩, by simp [RollbackCause]⟩
theorem witness_FaultsThatStop_double : ({ work with intrap := true } : Slip).intrap = true ∧ ¬ RollbackCause 8 0 ∧ (withSlip work).isActive 5 = false ∧
    (withSlip work).isActive 0 = true := ⟨rfl, by simp [RollbackCause], by decide, by decide⟩
theorem witness_FaultsThatStop_rollback : RollbackCause 29 0 ∧ RollbackCause 30 0x10C ∧ (withSlip work).isActive 5 = false := by
  refine ⟨.inr (.inl rfl), .inr (.inr ⟨rfl, by decide⟩), by decide⟩
theorem witness_FaultsThatStop_handler : meH.hnd = true ∧ ((handling handler).berth 5).handler = some handler := ⟨rfl, rfl⟩
theorem witness_ReturnFromTrap : Runs (withSlip { work with intrap := true, saved := work.live }) me { hnd := false } [] ∧
    ((withSlip { work with intrap := true, saved := work.live }).slip 5 0).levels = [] ∧ ((withSlip work).slip 5 0).intrap = false :=
  ⟨⟨rfl, fun _ => rfl⟩, rfl, rfl⟩
theorem witness_TrapInstructionsAndEvents : (withSlip work).ctx = some me ∧ Runs (withSlip work) me {} [] := ⟨rfl, rfl, fun _ => rfl⟩
/-- The message interrupt is pending and enabled. -/
def pending : State := { cur := 5, berths := [(5, { s0 := { work with mie := true }, ipMsg := true, tvec := 0x100 })] }
theorem witness_TrapInstructionsAndEvents_interrupt : pending.ctx = some me ∧ (pending.slip 5 0).intrap = false ∧ pending.pendingFor 5 0 = 2 := by decide
theorem witness_TrapInstructionsAndEvents_fetch :
    (withSlip { work with banks := 0 }).reachFetch me ((withSlip { work with banks := 0 }).pcOf me).toNat = .trap 12 ∧
    ((withSlip { work with live := { q0 := { nf := true } } }).slip 5 0).live.q0.nf = true := ⟨rfl, rfl⟩
theorem witness_TrapInstructionsAndEvents_overrun : (handling { handler with steps := 256 }).ctx = some meH ∧
    ((handling { handler with steps := 256 }).berth 5).handler = some { handler with steps := 256 } := ⟨rfl, rfl⟩
theorem witness_ContextChecks : (handling handler).ctx = some meH ∧ (withSlip { work with priv := false }).ctx = some me ∧
    ((withSlip work).slip 5 0).dmax < (1 : BitVec 3).toNat ∧ ((withSlip inside).slip 5 0).distanceBad .g 1 1 = false ∧ level.width > 1 ∧
    level.masks.has .g 5 = false := ⟨rfl, rfl, by decide, rfl, by decide, rfl⟩
theorem witness_ConstantRegisters : (withSlip work).ctx = some me ∧ me.hnd = false := ⟨rfl, rfl⟩

/-! ### Control registers, waits, firings -/

theorem witness_ControlRegisters_read : Runs (withSlip work) me {} [.dst .g 31] ∧ (0x10B, ((withSlip work).slip 5 0).instret) ∈ csrValues (withSlip work) me ∧
    ((withSlip work).slip 5 0).priv = true ∧ ((withSlip { work with priv := false }).slip 5 0).priv = false := ⟨⟨rfl, fun _ => rfl⟩, by simp [csrValues, me], rfl, rfl⟩
theorem witness_ControlRegisters_write : Runs (withSlip (regs work 0x10000 0)) me {} [.src .g 1 0] ∧ ((withSlip (regs work 0x10000 0)).readG me 1 0).toNat ≥ 2 ^ 16 ∧
    ((withSlip work).slip 5 0).priv = true := ⟨⟨rfl, fun _ => rfl⟩, by decide, rfl⟩
theorem witness_ControlRegisters_events : ((withSlip work).berth (withSlip work).cur).running = some 0 := rfl
theorem witness_WaitsAndWakes : Runs (withSlip { work with mie := true }) me { priv := true, hnd := false } [] ∧ (withSlip { work with mie := true }).pendingFor 5 0 = 0 ∧
    pending.pendingFor 5 0 ≠ 0 := ⟨⟨rfl, fun _ => rfl⟩, by decide, by decide⟩
/-- A slip blocked in IDLE with its interrupt pending; one that waits for a filled slot that is there. -/
def asleep (p : Slip) : State := { cur := 5, berths := [(5, { s0 := p, ipMsg := true, tcmp := 100 })] }
theorem witness_WaitsAndWakes_events : (asleep { work with st := .blocked, wait := some .idle, mie := true }).pendingFor 5 0 ≠ 0 ∧
    ({ work with st := .waiting, bound := true, act := some { pkg := 0, region := 0x1000, root := 0x1000, fdom := 0, queue := 0, entry := localAddr 0, launch := false, succ := noActor, pred := noActor, predDone := true, crates := [], banks := 1 } } : Slip).inputsSuffice = true ∧
    (asleep { work with st := .blocked, wait := some (.filled 0 0) }).waitOver 5 0 (.filled 0 0) = true ∧
    ((asleep work).berth 5).tcmp ≠ 0 ∧ ((asleep work).berth 5).cycle < ((asleep work).berth 5).tcmp := by decide

/-- An actor that starts at LOCAL 0 and takes no launches. -/
def actor : Act := { pkg := 0, region := 0x1000, root := 0x1000, fdom := 0, queue := 0, entry := localAddr 0, launch := false, succ := noActor, pred := noActor, predDone := true, crates := [], banks := 1 }
def idleSlip : Slip := { work with st := .ready, bound := true, act := some actor }
theorem witness_SlipScheduling : ((withSlip idleSlip).berth 5).running = none ∧ ((withSlip idleSlip).berth 5).fenced = false ∧ ((withSlip idleSlip).berth 5).pick = some 0 ∧
    ((withSlip { idleSlip with firing := true }).berth 5).pick = some 0 := by decide
theorem witness_SlipScheduling_launch : ((withSlip { idleSlip with act := some { actor with launch := true }, launches := [{ words := [], queue := 0, packet := 0, pkg := 0 }] }).berth 5).pick = some 0 := by decide
theorem witness_FiringsEnd : Runs (withSlip { work with act := some { actor with succ := 3 } }) me { hnd := false } [] ∧ work.levels.length ≤ 8 ∧ ((3 : Nat) ≠ noActor) ∧
    Runs (handling handler) meH {} [] := ⟨⟨rfl, fun _ => rfl⟩, by decide, by decide, rfl, fun _ => rfl⟩
theorem witness_FiringsEnd_drained : (withSlip { work with st := .halting, halting := true }).haltReady 5 0 = true ∧
    ((withSlip { work with st := .halting, halting := true }).haltReports 5 0).2 = false ∧ (withSlip { work with st := .halting, halting := true }).doneWaits 5 0 = false := by decide
/-- Its region's DONE finds the 256 records of the ring unposted. -/
def full256 : State :=
  { withSlip { work with st := .halting, halting := true, act := some actor } with pkgs := [(0, { jheld := 256, regions := [{ block := 0x1000, root := 0x1000, fdom := 0, queue := 0, actors := [], live := 1 }] })] }
theorem witness_FiringsEnd_full : full256.haltReady 5 0 = true ∧ (full256.haltReports 5 0).2 = false ∧ full256.doneWaits 5 0 = true := by decide

/-! ### Channels, messages, windows -/

/-- A producer handle 1 with two free slots of 64 bytes granted, a consumer handle 2 with one filled slot. -/
def linked : Slip :=
  { regs work 7 0 with actor := 4, bound := true, chans :=
      [(1, { role := .producer, cap := 4, slotb := 64, granted := 2, peer := 6, peerSlip := 1, peerHandle := 3 }),
       (2, { role := .consumer, cap := 4, slotb := 64, granted := 1, tk := 1, base := 0x100, peer := 6, peerSlip := 1, peerHandle := 4 })] }
def linkedS : State := withSlip linked
def chan1 : Chan := SMap.get {} (linkedS.slip 5 0).chans 1
def chan2 : Chan := SMap.get {} (linkedS.slip 5 0).chans 2
theorem witness_ChannelInstructions_runs : Runs linkedS me { hnd := false } [.handle 1] ∧ Runs linkedS me { hnd := false } [.handle 2] ∧
    Runs linkedS me { hnd := false } [.handle 1, .src .w 3 0] ∧ Runs linkedS me { hnd := false } [.handle 2, .dst .g 3] ∧
    Runs linkedS me { hnd := false } [.handle 1, .dst .g 3] :=
  ⟨⟨rfl, fun _ => rfl⟩, ⟨rfl, fun _ => rfl⟩, ⟨rfl, fun _ => rfl⟩, ⟨rfl, fun _ => rfl⟩, rfl, fun _ => rfl⟩
theorem witness_ChannelInstructions_counts : chan1.role = .producer ∧ chan2.role = .consumer ∧
    (chan2.tk + 2 ^ 32 - chan2.ri % 2 ^ 32) % 2 ^ 32 = 1 ∧ chan1.cap - (chan1.wi + 2 ^ 32 - chan1.hk % 2 ^ 32) % 2 ^ 32 = 4 ∧
    (2 : BitVec 12).toNat * 32 + 64 ≤ chan1.granted * chan1.slotb ∧ chan1.granted * chan1.slotb < (3 : BitVec 12).toNat * 32 + 64 ∧
    (1 : BitVec 12).toNat * 32 < chan2.granted * chan2.slotb ∧ chan2.cap < (5 : BitVec 12).toNat ∧ chan2.granted < (2 : BitVec 12).toNat := by decide +kernel
theorem witness_ChannelInstructions_ring : (linkedS.clearTouch 5 0).ringPending me chan1 = false ∧
    ((sent linkedS 5 6 (.chst 1 3 0 0 0 0 0 0)).clearTouch 5 0).ringPending me chan1 = true := by decide +kernel

/-- One packet for slip 0 of berth 5 is on its way. -/
def arrived (p : Slip) (b : Body) : State := sent (withSlip p) 6 5 b
theorem witness_NoticesAndArrivalsCount_notices : (arrived linked (.advance 0 2 0 3)).arriving 0 = some { src := 6, dst := 5, body := .advance 0 2 0 3 } ∧
    (arrived linked (.freed 0 1 0 3)).arriving 0 = some { src := 6, dst := 5, body := .freed 0 1 0 3 } ∧
    (arrived linked (.freed 0 1 0 3)).entryFree { src := 6, dst := 5, body := .freed 0 1 0 3 } = true ∧
    ({ arrived linked (.freed 0 1 0 3) with berths := [(5, { s0 := linked, inbox := 1 })] } : State).entryFree { src := 6, dst := 5, body := .freed 0 1 0 3 } = false ∧
    linked.bound = true ∧ linked.tag = 4 * 2 ^ 32 ∧ chan1.role ≠ .unbound ∧ chan2.role ≠ .unbound := by decide +kernel
theorem witness_NoticesAndArrivalsCount_chst : (arrived linked (.chst 0 2 0 0x100 224 5 1 0)).arriving 0 = some { src := 6, dst := 5, body := .chst 0 2 0 0x100 224 5 1 0 } ∧
    chan2.role = .consumer ∧ linked.ringOutside chan2 224 64 = none ∧ ({ linked with banks := 2 } : Slip).ringOutside chan2 224 64 = some 480 ∧ 224 < chan2.cap * chan2.slotb ∧ 64 ≤ chan2.cap * chan2.slotb := by decide +kernel

/-- A slip of actor 4 whose group is itself and actor 9 at berth 6, with g1 and w2 as given. -/
def grouped (x : Word) (v : Wide) : Slip :=
  { work with g := [(8, x), (16, localAddr 0x40)], w := [(16, v)], actor := 4, bound := true, wgroup := 1, members := [{ berth := 5, slip := 0, actor := 4, tag := 4 * 2 ^ 32, banks := 1 },
      { berth := 6, slip := 0, actor := 9, tag := 9 * 2 ^ 32, banks := 1 }] }
def sends (x : Word) (v : Wide) : State := { cur := 5, berths := [(5, { s0 := grouped x v, hbase := 0x1000, hlimit := 0x2000 })] }
theorem witness_MessageIssue_send : Runs (sends 9 0x1100) me {} [.src .g 1 0, .src .w 2 0] ∧ (withSlip work).slip 5 0 = work ∧ work.members = [] ∧
    ((sends 9 0x1100).slip 5 0).members.find? (fun m => m.actor == ((sends 9 0x1100).readG me 1 0).toNat % 2 ^ 32) = some { berth := 6, slip := 0, actor := 9, tag := 9 * 2 ^ 32, banks := 1 } ∧
    ((sends 9 0x1100).berth 5).hbase ≤ ((sends 9 0x1100).readW me 2 0).setWidth 64 ∧ ((sends 9 0x1100).readW me 2 0).setWidth 64 < ((sends 9 0x1100).berth 5).hlimit ∧
    ((sends 9 0x2000).berth 5).hlimit ≤ ((sends 9 0x2000).readW me 2 0).setWidth 64 := ⟨⟨rfl, fun _ => rfl⟩, by decide +kernel⟩
theorem witness_MessageIssue_put : Runs (sends 0x2000000030000040 1) me {} [.src .g 1 0, .src .w 2 0] ∧ (sends 0x2000000030000040 1).remoteBerth 0x2000000030000040 = some 6 ∧
    (sends 0 1).remoteBerth 0x3000000030000040 = none ∧ (0x2000000030000041 : Nat) % 2 ^ (6 : BitVec 3).toNat ≠ 0 ∧
    BankOf (sends 0x2000000030000040 1) (grouped 0x2000000030000040 1) 6 0 { berth := 6, slip := 0, actor := 9, tag := 9 * 2 ^ 32, banks := 1 } :=
  ⟨⟨rfl, fun _ => rfl⟩, by decide, by decide, by decide, rfl⟩
theorem witness_MessageIssue_get : Runs (sends 0x2000000030000040 1) me { hnd := false } [.src .g 1 0, .src .g 2 0] ∧
    ((sends 0x2000000030000040 1).readG me 2 0).toNat / 2 ^ 19 = 2 ^ 41 ∧ ((sends 0x2000000030000040 1).readG me 2 0).toNat % 2 ^ 6 = 0 ∧
    ((sends 0x2000000030000040 1).slip 5 0).banks.testBit (((sends 0x2000000030000040 1).readG me 2 0).toNat % 2 ^ 19 / 0x8000) = true := ⟨⟨rfl, fun _ => rfl⟩, by decide +kernel⟩
theorem witness_MessageIssue_window : Runs (sends 0 0) me { hnd := false } [] := ⟨rfl, fun _ => rfl⟩

/-- An item for slip 0 of berth 5, of window 0. -/
def item (k : ItemKind) : Item := { kind := k, sidx := 1, sseq := 2, win := 0, src := 6, srcSlip := 1, srcTag := 9, dst := 5, dstSlip := 0, dtag := 4 * 2 ^ 32 }
def put8 : Item := item (.put 0x40 8 77)
theorem witness_MessageArrivals_item : (arrived (grouped 0 0) (.item put8)).arriving 0 = some { src := 6, dst := 5, body := .item put8 } ∧
    (arrived (grouped 0 0) (.item put8)).entryFree { src := 6, dst := 5, body := .item put8 } = true ∧ (grouped 0 0).bound = true ∧ (grouped 0 0).tag = put8.dtag ∧ (grouped 0 0).halting = false ∧
    ((grouped 0 0).parked.filter (fun y => y.win % 2 == put8.win % 2)).length < 16 + (grouped 0 0).spillCap ∧
    (({ grouped 0 0 with parked := List.replicate 16 put8 } : Slip).parked.filter (fun y => y.win % 2 == put8.win % 2)).length ≥ 16 + 0 ∧
    ((withSlip work).slip 5 0).bound = false := by decide +kernel
theorem witness_MessageArrivals_busy : ({ arrived (grouped 0 0) (.item put8) with berths := [(5, { s0 := grouped 0 0, inbox := 1 })] } : State).arriving 0 =
    some { src := 6, dst := 5, body := .item put8 } ∧
    ({ arrived (grouped 0 0) (.item put8) with berths := [(5, { s0 := grouped 0 0, inbox := 1 })] } : State).entryFree { src := 6, dst := 5, body := .item put8 } = false ∧
    ({ arrived (grouped 0 0) (.item put8) with berths := [(5, { s0 := grouped 0 0, refused := [7] })], net := [{ src := 7, dst := 5, body := .item put8, busy := 1 }] } : State).entryFree
      { src := 6, dst := 5, body := .item put8 } = false := by decide +kernel
/-- The answer to an item that slip 0 of berth 5 sent, a reply to its GET, a launch for it. -/
theorem witness_MessageArrivals_answers :
    (arrived (grouped 0 0) (.ack 0 (4 * 2 ^ 32) .stale put8)).arriving 0 = some { src := 6, dst := 5, body := .ack 0 (4 * 2 ^ 32) .stale put8 } ∧
    (arrived (grouped 0 0) (.reply 0 (4 * 2 ^ 32) { win := 0, seq := 0, off := 0x40, size := 8, data := 5 })).arriving 0 =
      some { src := 6, dst := 5, body := .reply 0 (4 * 2 ^ 32) { win := 0, seq := 0, off := 0x40, size := 8, data := 5 } } ∧
    (arrived (grouped 0 0) (.launch 0 (4 * 2 ^ 32) { words := [1], queue := 3, packet := 2, pkg := 0 })).arriving 0 =
      some { src := 6, dst := 5, body := .launch 0 (4 * 2 ^ 32) { words := [1], queue := 3, packet := 2, pkg := 0 } } ∧ isControl 5 = false ∧ isControl 0 = true ∧
    ({ boss with berths := [(0, { s0 := { work with bound := true } })] } : State).slip 0 0 = { work with bound := true } ∧
    (sent boss 6 0 (.launch 0 0 { words := [1], queue := 3, packet := 2, pkg := 0 })).arriving 0 =
      some { src := 6, dst := 0, body := .launch 0 0 { words := [1], queue := 3, packet := 2, pkg := 0 } } ∧ (boss.berth 0).handler = none := by decide +kernel
theorem witness_MessageArrivals_resend : ({ net := [{ src := 6, dst := 5, body := .item put8, waiting := true }] } : State).net[0]? =
    some { src := 6, dst := 5, body := .item put8, waiting := true } := rfl

/-- A WINDOW under way. -/
def closes (x : Closing) (items : List Item) : Slip :=
  { work with st := .blocked, wait := some .window, bound := true, actor := 4, closing := some x, parked := items, markers := [(0, 0)] }
def open1 : Closing := { k := false, g := false }
theorem witness_WindowsClose_marker : ((withSlip (closes open1 [])).slip 5 0).closing = some open1 ∧ ((withSlip (closes open1 [])).slip 5 0).members = [] ∧
    (withSlip (closes open1 [])).quiet 5 0 0 = true := by decide +kernel
theorem witness_WindowsClose_checks : Closable (withSlip (closes { open1 with marked := true } [put8])) 5 0 { open1 with marked := true } ∧
    (withSlip { closes { open1 with marked := true } [] with overflowed := [0] }).windowFault 5 0 ≠ none ∧
    (withSlip (closes { open1 with marked := true } [put8])).windowFault 5 0 = none ∧
    (withSlip (closes { open1 with marked := true } [put8])).partPoisoned (scratchKey 5 0x40) 8 = false :=
  ⟨⟨rfl, rfl, by decide, rfl, rfl, rfl⟩, by decide, by decide, by decide +kernel⟩
theorem witness_WindowsClose_send : (closes { open1 with marked := true } [item (.send 0x1100 1)]).parked.filter (fun y => y.win == 0) = [item (.send 0x1100 1)] ∧
    (withSlip (closes { open1 with marked := true } [item (.send 0x1100 1)])).windowFault 5 0 = none := by decide +kernel
theorem witness_WindowsClose_done : Closable (withSlip (closes { open1 with marked := true, applying := true } [put8])) 5 0 { open1 with marked := true, applying := true } ∧
    (withSlip (closes { open1 with marked := true, applying := true } [put8])).voidOpen 5 0 = false ∧
    (withSlip (closes { open1 with marked := true, applying := true } [put8])).asksCheckpoint 5 0 = false := ⟨⟨rfl, rfl, by decide, rfl, rfl, rfl⟩, by decide, by decide +kernel⟩

/-! ### Cells, sync words, fences -/

/-- Slip 0 with a window of the Plain of 16 cells from cell 2, a Plain address in g1, a value in g2. -/
def celled (x y : Word) : Slip := { regs work x y with plwin := 0x1000000002 }
def plain : Word := 0x3000000000000000
theorem witness_BankOperationsAndCellReads_issue : Runs (withSlip (celled plain 5)) me {} [.src .g 1 0, .src .g 2 0] ∧
    (withSlip (celled plain 5)).cellReach me plain.toNat 8 8 false = .hit (plainKey 0 128) ∧
    (withSlip (celled plain 5)).cellReach me (plain.toNat + 960) 64 64 false = .hit (plainKey 0 1088) ∧
    (withSlip (celled plain 5)).cellReach me (plain.toNat + 1024) 64 64 false = .trap 9 ∧
    (withSlip (celled plain 5)).cellReach me (plain.toNat + 4) 8 8 false = .trap 8 ∧
    Runs (withSlip (celled plain 5)) me {} [.src .g 1 0, .src .w 2 0] ∧
    (withSlip (celled plain 5)).cellReach me plain.toNat 64 1024 false = .hit (plainKey 0 128) :=
  ⟨⟨rfl, fun _ => rfl⟩, by decide, by decide, by decide, by decide, ⟨rfl, fun _ => rfl⟩, by decide +kernel⟩
/-- An operation at the first cell of the window, which is of a kind, with a count and an expected count. -/
def bop (o : BOp) (t : CellTag) : State :=
  { withSlip (celled plain 5) with bankOps := [{ key := plainKey 0 128, op := o, value := 5, berth := 5, slip := 0 }], cells := [(plainKey 0 128, t)] }
theorem witness_BankOperationsApply : MayApply (bop .add { expect := 2 }) 0 { key := plainKey 0 128, op := .add, value := 5, berth := 5, slip := 0 } :=
  ⟨rfl, by decide, (by intro e he; cases he), by decide, by decide, by decide +kernel⟩
theorem witness_BankOperationsApply_cases : MayApply (bop (.define true 0 7) {}) 0 { key := plainKey 0 128, op := .define true 0 7, value := 5, berth := 5, slip := 0 } ∧
    MayApply (bop (.fxa false) { exact := true }) 0 { key := plainKey 0 128, op := .fxa false, value := 5, berth := 5, slip := 0 } ∧
    ((BOp.fxa false).exactValue 5).isSome = true ∧
    ((bop (.fxa false) { exact := true }).poke (plainKey 0 128 + 44) [1]).natAt (plainKey 0 128 + 40) 4 < ((bop (.fxa false) { exact := true }).poke (plainKey 0 128 + 44) [1]).natAt (plainKey 0 128 + 44) 4 :=
  ⟨⟨rfl, by decide, (by intro e he; cases he), by decide, by decide, by decide⟩, ⟨rfl, by decide, (by intro e he; cases he), by decide, by decide, by decide⟩,
    by decide, by decide +kernel⟩
/-- A sealed cell, an open one, and an operation of the slip on its way to it. -/
theorem witness_BankOperationsAndCellReads_read : Runs (withSlip (celled plain 5)) me { hnd := false } [.src .g 1 0, .dst .g 3] ∧
    (withSlip (celled plain 5)).cellReach me plain.toNat 8 8 true = .hit (plainKey 0 128) ∧ (withSlip (celled plain 5)).cellAsleep (plainKey 0 128) = false ∧
    (withSlip (celled plain 5)).sealed (plainKey 0 128) = true ∧ (withSlip (celled plain 5)).poisoned (plainKey 0 128) 64 = false ∧
    (bop .add { expect := 2 }).sealed (plainKey 0 128) = false := ⟨⟨rfl, fun _ => rfl⟩, by decide, by decide, by decide, by decide, by decide +kernel⟩

/-- A sync word at LOCAL 0x40 that counts 8 bytes and 1 arrival, with hidden part w. -/
def syncing (x y : Word) (w : SyncWord) : State :=
  { (withSlip (regs work x y)).poke (scratchKey 5 0x40) [8, 0, 0, 0, 0, 0, 0, 0, 1] with syncs := [(scratchKey 5 0x40, w)] }
theorem witness_SyncInstructions_swdef : Runs (syncing (localAddr 0x40) 0x100000008 {}) me {} [.src .g 1 0, .src .g 2 0] ∧
    SyncAddress (syncing (localAddr 0x40) 0x100000008 {}) me ((syncing (localAddr 0x40) 0x100000008 {}).readG me 1 0) ∧
    (syncing (localAddr 0x40) 0x100000008 {}).commandBars me (localAddr 0x40).toNat 16 = false ∧
    (syncing (localAddr 0x40) 0x100000008 {}).natAt (scratchKey 5 0x40 + 4) 4 = 0 ∧ (syncing (localAddr 0x40) 0x100000008 {}).natAt (scratchKey 5 0x40 + 10) 2 = 0 ∧
    ((syncing (localAddr 0x40) 0x100000008 {}).poke (scratchKey 5 0x44) [3]).natAt (scratchKey 5 0x40 + 4) 4 ≠ 0 ∧ ({ overlaps := [(0, scratchKey 5 0x80)] } : SyncWord).overlaps = [(0, scratchKey 5 0x80)] :=
  ⟨⟨rfl, fun _ => rfl⟩, ⟨by decide, by decide, by decide⟩, by decide, by decide, by decide, by decide +kernel, rfl⟩
theorem witness_SyncInstructions_swait : Runs (syncing (localAddr 0x40) 1 {}) me { hnd := false } [.src .g 1 0, .src .g 2 0] ∧
    SMap.get? (syncing (localAddr 0x40) 1 {}).syncs (scratchKey 5 0x40) = some {} ∧ SMap.get? (withSlip work).syncs (scratchKey 5 0x40) = none ∧
    ¬ AtOrBefore 1 ((syncing (localAddr 0x40) 1 {}).natAt (scratchKey 5 0x40 + 12) 4) ∧
    AtOrBefore 0 ((syncing (localAddr 0x40) 0 {}).natAt (scratchKey 5 0x40 + 12) 4) ∧ AtOrBefore 0xFFFFFFFF 0 ∧ (0xFFFFFFFF : Nat) % 2 ^ 32 ≠ 0 ∧
    ({ raised := [(0xFFFFFFFF, scratchKey 5 0x80)] } : SyncWord).overlaps ++ ({ raised := [(0xFFFFFFFF, scratchKey 5 0x80)] } : SyncWord).raised = [(0xFFFFFFFF, scratchKey 5 0x80)] :=
  ⟨⟨rfl, fun _ => rfl⟩, by decide, by decide, by unfold AtOrBefore; decide, by unfold AtOrBefore; decide, by unfold AtOrBefore; decide, by decide +kernel, rfl⟩
theorem witness_SyncInstructions_arrive : Runs (withSlip (regs work 0x2000000030000040 0)) me {} [.src .g 1 0] ∧
    (withSlip work).arriveTarget 5 0x2000000030000040 = some 6 ∧ (withSlip work).arriveTarget 5 (localAddr 0x40).toNat = some 5 ∧
    (∃ o ∈ (bop .add {}).bankOps, o.berth = 5 ∧ o.slip = 0) ∧ (withSlip work).bankOps = [] := ⟨⟨rfl, fun _ => rfl⟩, by decide +kernel⟩
theorem witness_SyncInstructions_fence : Runs (bop .add {}) me {} [] ∧ (withSlip work).chstPending 5 0 = false ∧ work.putPending = false := ⟨⟨rfl, fun _ => rfl⟩, by decide +kernel⟩
theorem witness_NoticesAndArrivalsCount_arrival :
    (sent (syncing 0 0 {}) 6 5 (.arrival (localAddr 0x40) 1 none)).arriving 0 = some { src := 6, dst := 5, body := .arrival (localAddr 0x40) 1 none } ∧
    (syncing 0 0 {}).entryFree { src := 6, dst := 5, body := .arrival (localAddr 0x40) 1 none } = true ∧ ((syncing 0 0 {}).berth 5).holder 0 = some 0 ∧ ((syncing 0 0 {}).berth 5).holder 1 = none ∧
    (syncing 0 0 {}).natAt (scratchKey 5 0x40 + 10) 2 + 1 < 2 ^ 16 ∧ (syncing 0 0 {}).natAt (scratchKey 5 0x40) 4 ≠ 0 ∧ Closes 8 1 8 1 1 ∧ Closes 8 1 7 1 0 ∧ Closes 0 1 0 1 1 := by
  refine ⟨by decide, by decide, by decide, by decide, by decide, by decide, ?_, ?_, ?_⟩ <;> unfold Closes <;> decide
/-- A flush of address space 7, mark 3, that an atomic waits under; the slip has yet to DRAIN. -/
def flushing : State := { withSlip { work with drains := [3] } with bankOps := [{ key := 0, op := .add, value := 0, berth := 5, slip := 0, asid := some 7, flushers := [3] }] }
theorem witness_FlushesAndPages_flush : Runs (withSlip (regs work 7 0)) me { priv := true, hnd := false } [.src .g 1 0] ∧
    2 ^ 16 ≤ ((withSlip (regs work 0x10000 0)).readG me 1 0).toNat ∧ ((withSlip (regs work 7 0)).readG me 1 0).toNat < 2 ^ 16 ∧
    (∃ o ∈ flushing.bankOps, ∃ m ∈ (flushing.slip 5 0).drains, m ∈ o.flushers) ∧ (withSlip work).bankOps = [] ∧
    (∃ o ∈ flushing.bankOps, pkgOf o.berth = pkgOf me.b ∧ o.asid = some 7) :=
  ⟨⟨rfl, fun _ => rfl⟩, by decide, by decide, by decide +kernel, rfl, by decide +kernel⟩

/-! ### Copies -/

/-- A request for 8 bytes from LOCAL 0x100 to LOCAL 0x200 on channel 1 with no sync word. -/
def request : Wide := BitVec.ofNat 512 (2 ^ 60 + 0x100 + (2 ^ 60 + 0x200) * 2 ^ 64 + 8 * 2 ^ 128 + (0xFFFF * 2 ^ 48 + 2 ^ 46) * 2 ^ 192)
def asks (v : Wide) (o : List Outstanding) : State := withSlip { work with w := [(16, v)], outstanding := o, xnext := [(1, 8)], g := [(8, 8)] }
theorem witness_CopiesIssue_accept : Runs (asks request []) me { hnd := false } [.src .w 2 0, .dst .g 3] ∧
    (asks request []).requestFault me (Request.ofWide ((asks request []).readW me 2 0)) = none ∧
    (asks (request + 1#512 <<< 157) []).requestFault me (Request.ofWide ((asks (request + 1#512 <<< 157) []).readW me 2 0)) ≠ none ∧
    ((asks request []).copies.filter (fun x => x.berth == 5 && x.stage == .queued)).length < 8 := ⟨⟨rfl, fun _ => rfl⟩, by decide +kernel⟩
/-- Nine copies of berth 5 in its FIFO is one more than it holds. -/
def fifo : List Copy := List.replicate 8 { berth := 5, slip := 1, tag := 0, priv := true, src := 0, dst := 0, kind := 0, len := 1, sync := 0xFFFF, chan := 0, arr := false, pv := false, pref := 0, id := 1, geo := [], prefRec := [] }
theorem witness_CopiesIssue_full : 8 ≤ (fifo.filter (fun x => x.berth == 5 && x.stage == .queued)).length ∧
    8 ≤ ((asks request (List.replicate 8 { chan := 1, id := 1 })).slip 5 0).outstanding.length ∧
    ({ chan := 1, id := 1 } : Outstanding).done = false := by decide +kernel
theorem witness_CopiesIssue_wait : Runs (asks request [{ chan := 1, id := 8 }]) me { hnd := false } [.src .g 1 0] ∧
    ((asks request [{ chan := 1, id := 8 }]).readG me 1 0).toNat = 8 ∧ AtOrBefore 8 8 ∧ ¬ AtOrBefore 9 8 ∧ AtOrBefore 0 0 ∧ ¬ AtOrBefore 8 0 ∧
    ((asks request []).slip 5 0).xdone = [] := by
  refine ⟨⟨rfl, fun _ => rfl⟩, by decide +kernel, ?_, ?_, ?_, ?_, rfl⟩ <;> unfold AtOrBefore <;> decide
theorem witness_CopiesIssue_stat : Runs (asks request []) me {} [.dst .g 3] := ⟨rfl, fun _ => rfl⟩

/-- The copy that the request becomes, walking at an element. -/
def copy1 : Copy :=
  { berth := 5, slip := 0, tag := 0, priv := true, src := localAddr 0x100, dst := localAddr 0x200, kind := 0, len := 8, sync := 2, chan := 1, arr := false,
    pv := false, pref := 0, id := 1, geo := [], prefRec := [], stage := .active }
def walking (k : Copy) : State := { withSlip work with copies := [k], syncs := [(scratchKey 5 0x20, {})] }
theorem witness_CopiesWalk_start : (walking { copy1 with stage := .queued }).copies[0]? = some { copy1 with stage := .queued } := rfl
theorem witness_CopiesWalk_land : copy1.pos < copy1.total ∧ (walking copy1).copyBehind 0 copy1 ((walking copy1).srcOf copy1 0) (copy1.dstOf 0) = false ∧
    (walking copy1).srcOf copy1 0 = some (localAddr 0x100) ∧
    (walking copy1).copySide copy1 (localAddr 0x100).toNat false = .scratch 5 0x100 ∧ (walking copy1).copySide copy1 (copy1.dstOf 0).toNat true = .scratch 5 0x200 ∧
    (walking copy1).elementReason copy1 (.scratch 5 0x100) (.scratch 5 0x200) (copy1.dstOf 0).toNat 0 = 0 ∧ (walking copy1).landingHeld copy1 (.scratch 5 0x200) = false ∧
    (walking copy1).landingUndefined copy1 (.scratch 5 0x200) = false ∧ (walking copy1).landingBehind copy1 (.scratch 5 0x200) = false ∧
    (walking copy1).copySide copy1 0x2000000000000000 false = .fail 5 := by decide +kernel
theorem witness_CopiesWalk_side : PlainSide (.scratch 5 0x200) (scratchKey 5 0x200) ∧ PlainSide (.mem (physKey 0 0x40) .owned 1) (physKey 0 0x40) :=
  ⟨⟨rfl, rfl, .inl ⟨5, 0x200, rfl, rfl⟩⟩, rfl, rfl, .inr ⟨_, _, rfl, by decide⟩⟩
theorem witness_CopiesWalk_done : ({ copy1 with pos := 8 } : Copy).total ≤ 8 ∧ (walking { copy1 with pos := 8 }).contribution { copy1 with pos := 8 } = some (some 5) := by decide +kernel

/-! ### The crane -/

/-- A slip that holds tile 0, with x in g1 and y in g2, over a crane. -/
def lifting (x y : Word) (k : Crane) : State := { cur := 5, berths := [(5, { s0 := { regs work x y with tiles := 1 }, crane := k, tvec := 0x100 })] }
theorem witness_CraneCommandsQueue_swap : Runs (lifting 0 0 {}) me { hnd := false } [] ∧ ((lifting 0 0 {}).slip 5 0).tiles ≠ 0 ∧
    ((lifting 0 0 {}).berth 5).crane.queue.length < 16 ∧ (List.replicate 16 ({ seq := 1, slip := 0, op := .swap } : CraneCmd)).length ≥ 16 ∧
    Runs (lifting 0 0 {}) me { hnd := false } [.tile 0] ∧ ((lifting 0 0 {}).slip 5 0).tiles.testBit 0 = true ∧ ((lifting 0 0 {}).slip 5 0).tiles.testBit 7 = false :=
  ⟨⟨rfl, fun _ => rfl⟩, by decide, by decide, by decide, ⟨rfl, fun _ => rfl⟩, by decide⟩
/-- A dense plane of 8 columns of 32 BF16 elements, 64 bytes apart; a sparse one of factor 2 with 64, 96 bytes apart, every mask half full. -/
theorem witness_CraneCommandsQueue_load : Runs (lifting (localAddr 0) 0x20100 {}) me { hnd := false } [.src .g 1 0, .src .g 2 0] ∧
    LoadPasses (lifting (localAddr 0) 0x20100 {}) me (localAddr 0) 0x20100 8 false := by
  refine ⟨⟨rfl, fun _ => rfl⟩, by decide, rfl, by decide, by decide, by decide, by decide, by decide +kernel, by decide, by decide, by decide, fun h => nomatch h⟩
def masked : State := { lifting (localAddr 0) 0x30210 {} with mem := (List.range 768).map (fun j => (scratchKey 5 0 + j, 0x0F)) }
theorem witness_CraneCommandsQueue_sparse : LoadPasses masked me (localAddr 0) 0x30210 8 true := by
  refine ⟨by decide, rfl, by decide, by decide, by decide, by decide, by decide +kernel, by decide, by decide, by decide, fun _ => ⟨by decide +kernel, ?_⟩⟩
  intro j _; rfl
/-- Tile 0, activation row descriptor in g1, and a plane tag of 8 columns in the mirror. -/
def tagged : Crane := { m0 := some { fmt := 0, sp := 0, n := 8, kg := 1 } }
theorem witness_CraneCommandsQueue_multiply : Runs (lifting 0x200000000 0 tagged) me { hnd := false } [.tile 0, .src .g 1 0, .src .f 0 0, .src .f 1 0] ∧
    (0x200000000 : Nat) / 2 ^ 40 = 0 ∧ (0x200000000 : Nat) / 2 ^ 26 % 2 ^ 6 = 0 ∧ shapeOf 0 0 = some (8, 32, 0) ∧ shapeOf 0 31 = none ∧
    (lifting 0x200000000 0 tagged).mmaFault me 0 0 0 8 32 0 0 64 1 0 0 = none ∧
    (lifting 0x200000000 0 {}).mmaFault me 0 0 0 8 32 0 0 64 1 0 0 ≠ none :=
  ⟨⟨rfl, fun _ => rfl⟩, by decide, by decide, rfl, rfl, by decide +kernel, by decide +kernel⟩
/-- Commands 1 and 2 of tile 0: one complete, with or without an error, one queued. -/
def done1 (e : Option (Nat × Word)) : Crane := { finished := [{ seq := 1, tile := some 0, err := e }], tiles := [(0, { pending := [1] })] }
theorem witness_CraneTiles_wait : Runs (lifting 0 0 (done1 none)) me { hnd := false } [.tile 0] ∧ (done1 none).settled (some 0) = true ∧ (done1 none).settled none = true ∧
    ({ done1 none with queue := [{ seq := 1, slip := 0, op := .clear 0 }] } : Crane).settled (some 0) = false ∧
    (done1 (some (25, 7))).finished = [{ seq := 1, tile := some 0, err := some (25, 7) }] := ⟨⟨rfl, fun _ => rfl⟩, by decide⟩
/-- Rows of 128 bytes: FP32 rounded, raw, and the 16-byte record. -/
theorem witness_CraneTiles_out : Runs (lifting (localAddr 0) 0x400 {}) me { hnd := false } [.tile 0, .src .g 1 0, .src .g 2 0] ∧ ({} : Crane).idle = true ∧
    (lifting (localAddr 0) 0x400 {}).tileFault me (encode (.czout 1 2 0)) 0 (localAddr 0) 0x400 (fun n => decide (n < 4) || n == 7) = none ∧
    (lifting (localAddr 0) 0x403 {}).tileFault me (encode (.czld 1 2 0)) 0 (localAddr 0) 0x403 (fun n => n == 3 || n == 7) = none ∧
    (lifting (localAddr 0) 7 {}).tileFault me (encode (.czld 1 2 0)) 0 (localAddr 0) 7 (fun n => n == 3 || n == 7) = none ∧
    (lifting 0 0 {}).badRow 5 (tileRows 0 0x403) = none ∧ (∀ row ∈ tileRows 0 0x400, (lifting 0 0 {}).commandBars me (localAddr row.1).toNat row.2 = false) :=
  ⟨⟨rfl, fun _ => rfl⟩, rfl, by decide +kernel, by decide +kernel, by decide +kernel, by decide +kernel, by decide +kernel⟩
theorem witness_CraneWorks_dispatch : (({} : State).setBerth 5 { crane := { queue := [{ seq := 1, slip := 0, op := .swap }] } }).cranePick 5 = some (5, true) ∧
    (∀ x, x / 8 = 5 / 8 → ((lifting 0 0 { queue := [{ seq := 1, slip := 0, op := .swap }] }).berth x).crane.running = none) := by
  have h : ∀ x, x < 8 → ((lifting 0 0 { queue := [{ seq := 1, slip := 0, op := .swap }] }).berth x).crane.running = none := by decide +kernel
  exact ⟨by decide +kernel, fun x hx => h x (by omega)⟩
theorem witness_CraneWorks_command : (lifting 0 0 { running := some { seq := 1, slip := 0, op := .swap } }).badRow 5 (CraneOp.swap).reads = none ∧
    (lifting 0 0 tagged).badRow 5 (CraneOp.mma 0 0 0 64 1 8 32).reads = none ∧ ({ p0 := { tag := some { fmt := 0, sp := 0, n := 8, kg := 1 } } } : Crane).active = false ∧
    ({ lifting 0 0 tagged with poison := [scratchKey 5 8] } : State).badRow 5 (CraneOp.mma 0 0 0 64 1 8 32).reads = some 8 := by decide +kernel

/-! ### Key-value pages -/

/-- A page of the valley window of package 0: its address and its key. -/
def pageAt : Word := 0x4000000000004000
def pageKey : Nat := physKey 0 0x4000
def owned (st : KvState) : KvHdr := { st := st, asid := 0, actor := 0, fmt := true, fix := true, dh := 0 }
def valley (x y : Word) (h : KvHdr) : State := { withSlip { regs work x y with g := [(8, x), (16, y), (24, localAddr 0x400)] } with kv := [(pageKey, h)] }
theorem witness_ValleyInstructions_page : Runs (valley pageAt 4 (owned .free)) me { hnd := false } [.src .g 1 0, .src .g 2 0] ∧ Runs (valley pageAt 4 (owned .free)) me { hnd := false } [.src .g 1 0] ∧
    (valley pageAt 4 (owned .free)).kvPage pageAt.toNat = some pageKey ∧ (valley 0 0 (owned .free)).kvPage (pageAt.toNat + 1) = none ∧
    KvQuiet (valley pageAt 4 (owned .free)) me pageKey ∧ Owns (valley pageAt 4 (owned .free)) me (owned .free) ∧ Owns (valley pageAt 4 (owned .opened)) me (owned .opened) :=
  ⟨⟨rfl, fun _ => rfl⟩, ⟨rfl, fun _ => rfl⟩, by decide +kernel, by decide +kernel, ⟨by decide +kernel, by decide +kernel, by decide +kernel, rfl, rfl, rfl⟩, ⟨by decide, rfl, rfl⟩, by decide, rfl, rfl⟩
/-- The option words of the three ways to open: fixed scales, BF16, fitted scales. -/
theorem witness_ValleyInstructions_options : (0x7F0008 : Nat) < 2 ^ 24 ∧ (0x7F0008 : Nat).testBit 3 = true ∧ (0x7F0008 : Nat).testBit 2 = false ∧ (0x7F0008 : Nat) / 2 ^ 4 % 2 ^ 4 = 0 ∧
    (0x7F0008 : Nat) / 2 ^ 16 = 127 ∧ (0x7F0008 : Nat) % 4 ≠ 3 ∧ (4 : Nat).testBit 2 = true ∧ (2 : Nat) < 3 := by decide
theorem witness_ValleyInstructions_status : Runs (valley pageAt 0 (owned .sealed)) me { hnd := false } [.src .g 1 0, .dst .g 3] := ⟨rfl, fun _ => rfl⟩
theorem witness_ValleyInstructions_append : Runs (valley pageAt (localAddr 0x100) (owned .opened)) me { hnd := false } [.src .g 1 0, .src .g 2 0, .src .g 3 0] ∧
    (valley pageAt (localAddr 0x100) (owned .opened)).operandFault me (localAddr 0x100) 256 64 = none ∧
    (valley pageAt (localAddr 0x100) (owned .opened)).operandPoison me (localAddr 0x100) 256 = none := ⟨⟨rfl, fun _ => rfl⟩, by decide +kernel⟩
/-- A query record at LOCAL 0x100: destination LOCAL 0x800, sync word 1, no flags; its vector at LOCAL 0x400. -/
def queried : State := (valley pageAt (localAddr 0x100) (owned .sealed)).poke (scratchKey 5 0x100) (leBytes 8 (localAddr 0x800).toNat ++ [1])
theorem witness_ValleyInstructions_query : Runs queried me { hnd := false } [.src .g 1 0, .src .g 2 0, .src .g 3 0] ∧ queried.operandFault me (localAddr 0x100) 32 32 = none ∧
    queried.operandPoison me (localAddr 0x100) 32 = none ∧ queried.natAt (scratchKey 5 0x10B) 1 = 0 ∧ queried.natAt (scratchKey 5 0x118) 8 = 0 ∧
    queried.natAt (scratchKey 5 0x10A) 1 = 0 ∧ queried.operandFault me (localAddr 0x400) 256 64 = none ∧ queried.operandPoison me (localAddr 0x400) 256 = none ∧
    queried.destFault (BitVec.ofNat 64 (queried.natAt (scratchKey 5 0x100) 8)) = none ∧ queried.natAt (scratchKey 5 0x108) 2 ≤ 0x7FFF := ⟨⟨rfl, fun _ => rfl⟩, by decide +kernel⟩
theorem witness_ValleyInstructions_privileged : Runs (valley pageAt 0x700000001 (owned .sealed)) me { priv := true, hnd := false } [.src .g 1 0, .src .g 2 0] ∧
    Runs (valley pageAt 0 (owned .sealed)) me { priv := true, hnd := false } [.src .g 1 0] ∧ (valley pageAt 0 (owned .sealed)).kvCmds = [] ∧
    (0x700000001 : Nat) / 2 ^ 16 % 2 ^ 16 = 0 ∧ (0x10000 : Nat) / 2 ^ 16 % 2 ^ 16 ≠ 0 ∧ (valley pageAt 0 (owned .sealed)).heldByCheckpoint 5 0 = false :=
  ⟨⟨rfl, fun _ => rfl⟩, ⟨rfl, fun _ => rfl⟩, rfl, by decide, by decide, by decide +kernel⟩
/-- A command at the page. -/
def command (o : KvOp) : KvCmd := { berth := 5, slip := 0, owner := none, asid := 0, actor := 0, page := pageKey, addr := pageAt, seq := 0, op := o }
def append1 : KvCmd := command (.append 0 0 0 0 (List.replicate 128 0))
theorem witness_ValleyInstructions_behind : ∃ k ∈ ({ valley 0 0 (owned .sealed) with kvCmds := [append1] } : State).kvCmds, k.berth = 5 ∧ k.slip = 0 ∧
    k.page / 2 ^ 27 = pageKey / 2 ^ 27 ∧ k.waits = false := ⟨append1, by simp, rfl, rfl, rfl, rfl⟩
def query1 (l : Nat) : KvCmd := command (.query (localAddr 0x800) 1 false 0 0 true 0 l 0 (List.replicate 64 0))
theorem witness_ValleyEvents_append : ({ valley 0 0 (owned .opened) with kvCmds := [append1] } : State).kvCmds[0]? = some append1 ∧
    ({ valley 0 0 (owned .opened) with kvCmds := [append1] } : State).heldByCheckpoint 5 0 = false ∧
    ({ valley 0 0 (owned .opened) with kvCmds := [append1] } : State).kvBehind 0 append1 = false ∧
    append1.op = .append 0 0 0 0 (List.replicate 128 0) ∧ (owned .opened).len < (owned .opened).capacity ∧ (List.replicate 128 0 : List Nat).length = 128 * 2 ^ 0 ∧ (owned .opened).resident = true ∧
    ({ valley 0 0 (owned .opened) with kvCmds := [append1] } : State).kvMoves append1 0 0 (List.replicate 128 0) = false :=
  ⟨rfl, by decide +kernel, by decide +kernel, rfl, by decide, by simp, rfl, rfl⟩
theorem witness_ValleyEvents_query : ({ valley 0 0 (owned .sealed) with kvCmds := [query1 1] } : State).kvBehind 0 (query1 1) = false ∧ (owned .sealed).len < 1 ∧ 1 ≤ (owned .sealed).capacity ∧
    (owned .sealed).capacity < 65 ∧ ({ owned .sealed with len := 1 } : KvHdr).len = 1 ∧
    ({ valley 0 0 (owned .opened) with kvCmds := [query1 1] } : State).kvFull (query1 1) = false ∧ (query1 1).backoff = false ∧ (query1 1).waits = false ∧
    ({ kvCmds := List.replicate 16 { query1 1 with waits := true } } : State).kvFull (query1 1) = true :=
  ⟨by decide +kernel, by decide, by decide, by decide, rfl, by decide +kernel, rfl, rfl, by decide +kernel⟩
/-- A triple of 272 bytes for LOCAL 0x800 and sync word 4, which is defined. -/
def triple : Triple := { berth := 5, slip := 0, page := pageKey, owner := none, dest := localAddr 0x800, sync := 4, arr := false, data := List.replicate 272 1 }
theorem witness_ValleyEvents_triple : triple.place = 5 ∧ ({ syncing 0 0 {} with triples := [triple] } : State).tripleFault triple = none ∧
    ({ syncing 0 0 {} with triples := [triple] } : State).tripleFault { triple with dest := localAddr 0x8000 } = some (12, localAddr 0x8000) ∧
    (syncing 0 0 {}).natAt (scratchKey 5 0x44) 4 + 272 < 2 ^ 32 ∧ SMap.get? (withSlip work).syncs (scratchKey 5 0x40) = none ∧
    SMap.get? (syncing 0 0 {}).syncs (scratchKey 5 0x900) = none := by decide +kernel
theorem witness_ValleyEvents_move : (owned .sealed).st ≠ .unalloc ∧ ({ owned .sealed with resident := false } : KvHdr).resident = false := by decide

/-! ### The quasi-random unit, pages, regions, pre-emption, fault domains -/

theorem witness_QuasiRandom_points : Runs (withSlip (regs work 5 3)) me { hnd := false } [.src .g 1 0, .src .g 2 0, .dst .g 3] ∧
    Runs (withSlip (regs work 5 3)) me { hnd := false } [.src .g 1 0, .src .g 2 0, .dst .f 3] ∧ Runs (withSlip (regs work 5 3)) me { hnd := false } [.src .g 1 0, .src .g 2 0, .dst .w 3] ∧
    Runs (withSlip (regs work 5 3)) me { hnd := false } [.src .g 1 0, .src .g 2 0] := ⟨⟨rfl, fun _ => rfl⟩, ⟨rfl, fun _ => rfl⟩, ⟨rfl, fun _ => rfl⟩, rfl, fun _ => rfl⟩
/-- Two dimensions from 63 on, of the 256 bytes at LOCAL 0x40; a reserved bit; a bank not held. -/
theorem witness_QuasiRandom_load : (withSlip (regs work (localAddr 0x40) 0x13F)).qrldFault me (encode (.qrld 1 0 2 0)) (localAddr 0x40) 0x13F = none ∧
    (withSlip (regs work (localAddr 0x40) 0x17F)).qrldFault me (encode (.qrld 1 0 2 0)) (localAddr 0x40) 0x17F ≠ none ∧
    (withSlip (regs work (localAddr 0x8000) 0)).qrldFault me (encode (.qrld 1 0 2 0)) (localAddr 0x8000) 0 ≠ none := by decide +kernel
theorem witness_QuasiRandom_unscrambled : ({ ctl := 1 } : QrBank).ctl.getLsbD 0 = true := rfl

/-- A notice taken up, of a page whose slip waits; the tables of its root at 0x1000 to 0x5000 give its leaf a place at 0x5000. -/
def served : State :=
  { (((((withSlip work).pokeNat (physKey 0 0x1000) 8 0x2001).pokeNat (physKey 0 0x2000) 8 0x3001).pokeNat (physKey 0 0x3000) 8 0x4001).pokeNat (physKey 0 0x4000) 8 0x5001) with
    notices := [{ pkg := 0, root := 1, asid := 0, vpage := 0, started := true, waiters := [(5, 0)] }] }
theorem witness_FlushesAndPages_service : served.notices[0]? = some { pkg := 0, root := 1, asid := 0, vpage := 0, started := true, waiters := [(5, 0)] } ∧
    (({ served with notices := [] } : State).pokeNat (physKey 0 0x5000) 8 0x10013).walkFrom 0 1 0 = .leaf 0x10013 0 65536 := by decide +kernel
/-- Page 0 of address space 0 has its leaf of class OWNED at 0x5000, the frame at 0x10000; its migration to 0x20000 not begun, under way, and at its end. -/
def leafed (m : List Migration) : State :=
  ({ served with notices := [], pkgs := [(0, { migrations := m })], berths := [(5, { root := 1 })] } : State).pokeNat (physKey 0 0x5000) 8 0x10013
def moving : Migration := { page := 0, leafAddr := 0x5000, old := 0x10000, new := 0x20000, copied := 1023 }
def crossing (e : Bool) : BankOp := { key := physKey 0 0x10040, op := .add, value := 0, berth := 5, slip := 0, early := e }
theorem witness_FlushesAndPages_migration : (leafed []).natAt (physKey 0 0x5000) 8 = 0x10013 ∧
    (leafed []).leafPlace 0 0 4 ((leafed []).spaceRoot 0 0 * 4096) = some (0x5000, 0) ∧ (leafed []).badLeaf 0 0 0x10013 = false ∧ (leafed []).inMemory 0 0x20000 65536 = true ∧
    addrOf 0x10013 = 0x10000 ∧ ((leafed [moving]).pkg 0).migrations.find? (fun m => m.page == 0) = some moving ∧
    (∃ o ∈ ({ leafed [moving] with bankOps := [crossing true] } : State).bankOps, o.early = true ∧ onPage 0 moving.old o.key = true) ∧
    (∀ o ∈ ({ leafed [moving] with bankOps := [crossing false] } : State).bankOps, ¬ (o.early = true ∧ onPage 0 moving.old o.key = true)) := by decide +kernel

/-- Package 0 with a tree of one node at 0x1000, in a state, of priority 5, budgets of one slip and one bank, and the pipeline at 0x3000 of one actor,
number 4, with bank 0; the actor's clean count is n. -/
def tree (st n : Nat) (x : Pkg) : State :=
  ((((({ pkgs := [(0, { x with queues := [(0, { qroot := 0x1000 })] })] } : State).poke (globKey 0 0x1018) (leBytes 2 (st + 5 * 256))).poke (globKey 0 0x1028) [1, 0, 0, 0, 1]).poke (globKey 0 0x1068)
    [0, 0x30]).poke (globKey 0 0x3000) (leBytes 4 n)).poke (globKey 0 0x3048) (leBytes 4 4 ++ leBytes 8 (2 ^ 64 - 1) ++ [1, 0, 0, 0xFF])
theorem witness_RegionsSelectedAndBound_select : (tree 1 1 {}).choice 0 = some 0x1000 ∧ (tree 4 1 {}).regionState 0 0x1000 = 4 ∧ 5 ≤ (tree 6 1 {}).regionState 0 0x1000 := by decide +kernel
/-- The actor goes to slip 2 of berth 5. -/
def seat : Places := [(4, 5, 2)]
theorem witness_RegionsSelectedAndBound_bind : (tree 2 1 { selected := [0x1000] }).regionState 0 0x1000 = 2 ∧ ((tree 2 1 { selected := [0x1000] }).pkg 0).selected.contains 0x1000 = true ∧
    (tree 2 1 { selected := [0x1000] }).admission 0 0x1000 = 0 ∧
    (tree 2 1 { selected := [0x1000] }).windowPlace ((tree 2 1 { selected := [0x1000] }).pipeRec 0 ((tree 2 1 { selected := [0x1000] }).blk 0 0x1000 fPipe)).ncell seat = some (0, 0) ∧
    (tree 2 1 { selected := [0x1000] }).affordable 0 ((tree 2 1 { selected := [0x1000] }).claim 0 0x1000) (((tree 2 1 { selected := [0x1000] }).pkg 0).before 0x1000) = true ∧
    (tree 2 0 { selected := [0x1000] }).admission 0 0x1000 = 1 ∧ ((tree 2 0 { selected := [0x1000] }).pkg 0).admitted = [] := by decide +kernel
theorem witness_RegionsSelectedAndBound_seats :
    let s := tree 2 1 { selected := [0x1000] }
    let d := s.pipeRec 0 (s.blk 0 0x1000 fPipe)
    s.placeSuits 0 0x1000 seat false = true ∧ s.placeSuits 0 0x1000 [] false = false ∧
    (∀ x ∈ d.actors, s.imageReady 0 (s.regionEnv 0 0x1000 d).root x = true) ∧ (∃ x ∈ d.actors, placeOf seat x.number = some (5, 2)) := by decide +kernel

/-- The region BOUND to slip 2 of berth 5, with the slip as p. -/
def home : Region := { block := 0x1000, root := 0x1000, fdom := 0, queue := 0, actors := [{ berth := 5, slip := 2, actor := 4, tag := 4 * 2 ^ 32, banks := 1 }] }
def bound (p : Slip) : State := (tree 3 1 { regions := [home], selected := [0x2000], snaps := [(0x2000, 9)] }).setSlip 5 2 p
def kept : Slip := { st := .waiting, bound := true, actor := 4, banks := 1, taken := true, act := some { actor with root := 0x1000 } }
/-- The same, and the node at 0x2000 has the same pipeline and a module without packages to bind it in. -/
def crowded : State := { (bound kept).poke (globKey 0 0x2060) [0, 0, 0, 0, 0, 0, 0, 0, 0, 0x30] with domain := [] }
theorem witness_PreemptionAndRetention_preempt : (crowded.pkg 0).regions.find? (fun r => r.block == 0x1000) = some home ∧ crowded.regionState 0 0x1000 = 3 ∧
    (crowded.pkg 0).snapOf 0x1000 < (crowded.pkg 0).snapOf 0x2000 ∧ 0x2000 ∈ (crowded.pkg 0).selected ∧ crowded.bindable 0 0x2000 true = false ∧ home.suspended = false ∧
    (bound kept).boundMembers home ≠ [] ∧ (bound kept).regionQuiet ((bound kept).boundMembers home) = true := by decide +kernel
theorem witness_PreemptionAndRetention_force : ((bound { kept with taken := false, preemptAt := some 0 }).slip 5 2).preemptAt = some 0 ∧
    65536 ≤ ((({ cycle := 65536 } : Berth).cycle - 0).toNat) ∧ ((bound kept).berth 5).handler = none := by decide +kernel
/-- Bank 15 of berth 5 is left in place for a suspended actor; or it is in retention. -/
def leftBehind : State := { berths := [(5, { victims := [{ banks := 2 ^ 15, pkg := 0, region := 0x1000, actor := 4 }] })] }
theorem witness_PreemptionAndRetention_banks : (leftBehind.berth 5).victims = [{ banks := 2 ^ 15, pkg := 0, region := 0x1000, actor := 4 }] ∧ leftBehind.landingsInto 5 (2 ^ 15) = false ∧
    (∃ v ∈ (leftBehind.berth 5).victims, v.banks.testBit 15 = true) ∧ ({ retained := 2 ^ 15 } : Berth).retained.testBit 15 = true ∧ leftBehind.needsVictim = false ∧ leftBehind.sleptBad = [] := by decide +kernel
/-- A bank of the Plain that no one has touched for 65,536 cycles, for fewer, and one in retention. -/
theorem witness_PreemptionAndRetention_plain : plainKey 0 128 / 2 ^ 60 = 3 ∧ SMap.get 0 (({} : State).pkg 0).cellIdle (plainBank (plainKey 0 128)) < 65536 ∧
    65536 ≤ SMap.get 0 (({ pkgs := [(0, { cellIdle := [(2, 65536)] })] } : State).pkg 0).cellIdle (plainBank (plainKey 0 128)) ∧ ({} : State).cellAsleep (plainKey 0 128) = false ∧
    ({ pkgs := [(0, { asleep := [2] })] } : State).cellAsleep (plainKey 0 128) = true := by decide +kernel
/-- Bank 0 of every berth of package 0 is left in place for a suspended actor, and the node at 0x1000 is selected: it needs one. -/
def victim0 : Berth := { victims := [{ banks := 1, pkg := 0, region := 0x9000, actor := 9 }] }
def packed : State := { tree 2 1 { selected := [0x1000] } with berths := (List.range 4608).map (fun b => (b, victim0)) }
theorem get_const (d x : Berth) : ∀ (l : List Nat) (b : Nat), b ∈ l → SMap.get d (l.map (fun b => (b, x))) b = x
  | [], b, h => nomatch h
  | a :: l, b, h => by
    simp only [List.map_cons, SMap.get]
    split
    · rfl
    · rename_i hn
      exact get_const d x l b ((List.mem_cons.1 h).resolve_left (fun e => hn e.symm))
theorem packed_berths : packed.berths = (List.range 4608).map (fun b => (b, victim0)) := by rw [packed]
theorem packed_seats : packed.seatsFor 0 0x1000 = [{ actor := 4, need := 1, tiles := false, pred := noActor }] := by decide +kernel
theorem packed_windows : packed.windowChoices (packed.cellsFor 0 0x1000) = [[]] := by decide +kernel
theorem packed_full : packed.bindable 0 0x1000 false = false := by
  unfold State.bindable
  rw [packed_windows, packed_seats]
  simp only [List.any_cons, List.any_nil, Bool.or_false, State.anyPlace, List.any_eq_false]
  intro q hq
  have hb : q.1 ∈ List.range 4608 := by
    simp only [State.berthPlaces, packed, upTo, List.mem_flatMap, List.mem_map] at hq
    obtain ⟨p, hp, b, hb, i, -, rfl⟩ := hq
    have : p = 0 := by simpa [tree] using hp
    subst this; simpa using hb
  have hx : packed.berth q.1 = victim0 := by
    have hs : packed.berth q.1 = SMap.get {} packed.berths q.1 := rfl
    rw [hs, packed_berths, get_const {} victim0 (List.range 4608) q.1 hb]
  unfold State.placeSuits State.seatsFit
  simp only [packed_seats, List.all_cons, List.all_nil, Bool.and_true]
  have : ∀ env l, packed.seatFits 0 0x1000 env l [(4, q.1, q.2)] false { actor := 4, need := 1, tiles := false, pred := noActor } = false := by
    intro env l
    have ho : victim0.occupied 0 0x1000 4 false &&& 1 = 1 := by decide
    simp [State.seatFits, placeOf, hx, ho]
  rw [this]; simp
theorem packed_claims : packed.bindable 0 0x1000 true = true := by
  unfold State.bindable
  rw [packed_windows, packed_seats]
  simp only [List.any_cons, List.any_nil, Bool.or_false, State.anyPlace, List.any_eq_true]
  refine ⟨(0, 0), ?_, by decide +kernel⟩
  simp only [State.berthPlaces, packed, upTo, List.mem_flatMap, List.mem_map, List.mem_range]
  exact ⟨0, by simp [tree], 0, by omega, 0, by omega, rfl⟩
theorem witness_PreemptionAndRetention_needed : packed.needsVictim = true ∧ (packed.berth 0).victims = victim0.victims ∧ packed.landingsInto 0 1 = false := by
  refine ⟨?_, by decide +kernel, by decide +kernel⟩
  unfold State.needsVictim
  rw [show packed.pkgs = [(0, packed.pkg 0)] from by decide +kernel]
  simp only [List.any_cons, List.any_nil, Bool.or_false]
  rw [show (packed.pkg 0).selected = [0x1000] from by decide +kernel]
  simp [packed_full, packed_claims]

/-- The domain of that region, a fault of its actor, its checkpoint. -/
def domain0 : DomKey := { pkg := 0, root := 0x1000, fdom := 0 }
def fault0 (cause : Nat) : Stop := { berth := 5, slip := 2, kind := 1, cause := cause, tval := 0, pcq0 := 0, owner := some { dom := domain0, region := 0x1000, actor := 4 } }
def snapped : Ckpt := { window := 0, waiting := [], snaps := [{ berth := 5, index := 2, slip := kept, crane := none }] }
theorem witness_FaultDomains_stop : ({ bound kept with stops := [fault0 11] } : State).regionsOf domain0 = [home] ∧ home.suspended = false ∧
    ({ bound kept with stops := [fault0 11] } : State).rollbacks = [] ∧ (fault0 11).begun = false ∧ (5, 2) ∈ (bound kept).boundPlaces domain0 ∧
    (bound kept).drains domain0 = false ∧ ({ bound kept with bankOps := [{ key := plainKey 0 0, op := .add, value := 0, berth := 5, slip := 2 }] } : State).drains domain0 = true := by decide +kernel
theorem witness_FaultDomains_rollback :
    ({ bound kept with rollbacks := [fault0 29], doms := [{ key := domain0, ckpt := some snapped }] } : State).rollbackKind (fault0 29) domain0 = none ∧
    ({ bound kept with rollbacks := [fault0 29], doms := [{ key := domain0, ckpt := some snapped }] } : State).slipsOf domain0 = [(5, 2)] ∧
    ({ bound kept with doms := [{ key := domain0, ckpt := some snapped }] } : State).dom domain0 = some { key := domain0, ckpt := some snapped } ∧
    snapped.halted = [] ∧ kept.tag = ((bound kept).slip 5 2).tag ∧ (bound kept).dom domain0 = none ∧
    ({ bound kept with doms := [{ key := domain0, replaying := true }] } : State).rollbackKind (fault0 29) domain0 = some 6 := by decide +kernel

/-! ### The host's registers, the pilot engine -/

/-- Package 0 READY with queue 3 as x. -/
def hosted (x : HQueue) : State := { pkgs := [(0, { ready := true, queues := [(3, x)] })] }
theorem witness_HostRegisters_doorbell : ((hosted { st := 1 }).pkg 0).ready = true ∧ queueOf (hosted { st := 1 }) 0 3 = { st := 1 } ∧
    between 16 ({} : HQueue).head ≤ 2 ^ ({} : HQueue).size ∧ 2 ^ ({} : HQueue).size < between 17 0 ∧ ({} : HQueue).st ≠ 1 ∧ 2 ^ 17 ≤ (2 ^ 20 : Nat) := by decide +kernel
/-- A pilot image of one HALTP with its trailer under key 1, signed under the modulus 3^1938. -/
def pilotFile : List Byte := [14, 0, 0, 0, 0, 0, 0, 0] ++ leBytes 4 0x5349474E ++ leBytes 4 8 ++ leBytes 4 1 ++ List.replicate 52 0 ++ beBytes 384
  0x9100bc6bcdd96c3f8d89d58167f7f6263fef2cbeb8c7bc7716020e9db852da0eb6bab103e271d0133db969b88d32e52f01b0b56c061c05f512824fbf0d5f74ce0798275a9aea7a685f705ca836807acebf77c5c34a3e4d33eac7903dc4ab6d21e8b7fbe98abb5847e521c7b25558fea2d81a18cd1cf2ee2ee5c0e1d3ffb21cd848c77666573064023e0bd6f1f86dc391d29484af623b0e79d03790dc09d76a48d2ceb0c8dcab60a5361f9edd9f0e372a502f9e58941acfeadcc064caf5a374d2e1d0a39715a305948722b5bffdc4a322e55579c4dde4e5e355db6454c0a3f07cb926ba040ac58877b4d07c96de14486541fbb9ede36866182090246894e63f5a37abb3cf71164cd667d6c580f62972d5e644f987319d547e3fc09e8ca094a80e230ea75334a23b359b31c03b56ecc64fd3e03532e66faf163e0dd1380f367d268512b28ff4612c92fda8db0ee0bff41eeb75ecb4c4113ed017268e409c39cbe29fcc89e1efc19f58de30f141a68b815db6e87ccdcedbdd7fb2c65729c1f740da
/-- An empty firmware file under key 0. -/
def firmwareFile : List Byte := leBytes 4 0x5349474E ++ leBytes 4 0 ++ leBytes 4 0 ++ List.replicate 52 0 ++ beBytes 384
  0x1471a2370dd4175e8e8a56fde732f656803a2c57e5d6763c1a6e2da906251a1ee41bea20f9d297101a2abeed19df565b55b02cc4bab3599c383d02ef744667c06647b236e5884b833a404478563a187899babc98dc3257c32368c7bb0c1979e4841fe19b846291a07b89571dce6fd4239ae105c83956b41a4ca7989b660ead9c53ccc57d3d83f12dc5eb1716826e2937e1eb1ebdb75f2e64308ff8f5e84ec6856d5572ce208920236915fc870d99ca58c158ea127cea065306c91725c818f03fb8ad208819f260c0163884a8bbcff4c7bb1370f6a275f5f2fc40bde2c2f82a195336c0167a5f403a455ec490e1d2de5c6f3e7e2ef13f2861365f792e6cad9ae22fc9864318478704f9d6261493e663c78e78000b0155055aebb3786ca751706a70aba794aabfda3ae1b2a9409e92510a704bcf9dcb1dd7ea1031355dc53da3378470ff1a518768fb1b750e5bad61a891ed2684e9fb9b0905d86d406bdb571787930bbca6d316385cb1c0ad8bf3ce36a6adde59b38ef5a1c565496f6267490f1a
def keyed : Pkg := { ready := true, keys := [(0, (List.replicate 1938 3).foldl (· * ·) 1), (1, (List.replicate 1938 3).foldl (· * ·) 1)] }
def imaged : State := ({ pkgs := [(0, { keyed with queues := [(3, { qpilot := 0x5000 })] })] } : State).poke (globKey 0 0x5000) pilotFile
theorem witness_HostRegisters_enable : imaged.pilotImage 0 (queueOf imaged 0 3).qpilot.toNat = some pilotFile ∧ pilotChecks (pilotFile.take (pilotFile.length - 448)) = true ∧
    (queueOf imaged 0 3).st = 0 ∧ (queueOf imaged 0 3).enable = false ∧ (0x104 : Nat).testBit 8 = true ∧ (hosted {}).pilotImage 0 0 = none := by decide +kernel
theorem witness_HostRegisters_restart : (queueOf (hosted { st := 2, enable := true, image := [0] }) 0 3).st = 2 ∧ (queueOf (hosted { st := 2, enable := true, image := [0] }) 0 3).image ≠ [] := by decide +kernel
/-- A ring of 8 entries, full, with the coalesced event due, whose host has read one entry; and a summary under way. -/
theorem witness_HostRegisters_events : ({ evEn := true, ovf := true, evtail := 8 } : Pkg).ovf = true ∧ between 8 1 ≠ 2 ^ ({ evEn := true } : Pkg).esize ∧
    ({ resyncst := true } : Pkg).resyncst = true ∧ ({} : Pkg).evEn = false ∧ (1 : Nat).testBit 0 = true := by decide
theorem witness_HostRegisters_packet : (queueOf (hosted { st := 1, tail := 1 }) 0 3).engine = none ∧ between 1 0 ≤ 2 ^ 4 ∧
    leNat (((hosted { st := 1, tail := 1 }).bytesAt (hostKey 0) 64).take 8) < 2 ^ 11 := by decide +kernel
theorem witness_ControlPlane : ({ jheld := 1, evEn := true } : Pkg).jposted < ({ jheld := 1, evEn := true } : Pkg).jheld ∧ Roomy { jheld := 1, evEn := true } ∧ boss.ctx = some meB ∧
    boss.csrWrite meB 0x10B (BitVec.ofNat 64 5) = .inl (boss.csrSet meB 0x10B 5) := ⟨by decide, ⟨rfl, by decide⟩, rfl, rfl⟩

/-- Queue 0 of the tree runs a packet: the engine has x registers, and stands at an instruction. -/
def piloting (s : State) (ins : List Byte) (x : SMap Word) : State := withQueue s 0 0 { qroot := 0x1000, st := 1, qiwsize := 0x1000, image := ins, engine := some { packet := [], x := x } }
theorem at_pilot (s : State) (ins : List Byte) (x : SMap Word) (h : ins.length = 8) :
    AtPilot (piloting s ins x) 0 0 { packet := [], x := x } (pilotIns ins) := by
  simp [AtPilot, piloting, queueOf, withQueue, withPkg, State.pkg, SMap.get_put_self, ← h]
theorem witness_PilotInstructions_plain : (pilotIns [1, 0x21, 7, 0, 0, 0, 0, 0]).op = 1 ∧ (pilotIns [2, 0, 0, 0, 0, 0, 0, 0]).op = 2 ∧ (pilotIns [3, 0, 0, 0, 255, 255, 255, 255]).imm32 = -1 ∧
    (pilotIns [7, 0x21, 2, 0, 0, 0, 0, 0]).imm16 = 2 ∧ (pilotIns [8, 1, 2, 0, 9, 0, 0, 0]).imm32.toNat = 9 ∧ (0 : Nat) ≤ 0x0FF8 / 64 * 64 ∧ (0x0FF8 + 7) / 64 * 64 + 64 ≤ 0x1000 ∧
    0x1000 < (0xFF9 + 7) / 64 * 64 + 64 := by decide
theorem witness_PilotInstructions_loops : ({ packet := [], loops := [{ start := 8, stop := 24, left := 2 }] } : Engine).loops = [{ start := 8, stop := 24, left := 2 }] := rfl
/-- A LAUNCH of the node at 0x1000, BOUND, to the owner of the page at GLOBAL 0: its page table starts at 0x10000, its owner table lies at 0x20000. -/
def launched : State :=
  ((((((((((((bound kept).pokeNat (globKey 0 0x1080) 8 0x10000).pokeNat (globKey 0 0x1060) 8 0x20000).pokeNat (globKey 0 0x3018) 8 0x1000).pokeNat (globKey 0 0x3020) 8 0x2000).poke (globKey 0 0x3064)
    [1]).pokeNat (physKey 0 0x10000) 8 0x11001).pokeNat (physKey 0 0x11000) 8 0x12001).pokeNat (physKey 0 0x12000) 8 0x13001).pokeNat (physKey 0 0x13000) 8 0x14001).pokeNat (physKey 0 0x14000) 8 0x30013).poke
    (globKey 0 0x20000) [4])
theorem witness_PilotInstructions_launch :
    let s := piloting launched [9, 0x30, 0, 0, 0, 0, 0, 0] [(1, 0x1000), (3, 0x1000)]
    let d := s.pipeRec 0 (s.blk 0 0x1000 fPipe)
    let e := s.regionEnv 0 0x1000 d
    s.inTree 0 0 0x1000 = true ∧ s.regionState 0 0x1000 = 3 ∧ (s.pkg 0).regions.find? (fun r => r.block == 0x1000 && !r.suspended) = some home ∧ e.hbase = 0x1000 ∧ e.hlimit = 0x2000 ∧
    s.walkFrom 0 e.root 0 = .leaf 0x30013 0 65536 ∧ classOf 0x30013 = .owned ∧ s.effective 0 9 home.block fOwntab = 0x20000 ∧ s.blk 0 0x20000 (8 * ownerOf 0x30013, 4) = 4 ∧
    d.actors.any (fun y => y.number == 4 && y.launch) = true ∧ ((s.boundMembers home).find? (fun m => m.actor == 4)).isSome = true := by decide +kernel
theorem witness_PilotInstructions_launch_else : (piloting (tree 2 1 {}) [9, 0x30, 0, 0, 0, 0, 0, 0] []).regionState 0 0x1000 = 2 ∧ (piloting (tree 6 1 {}) [] []).regionState 0 0x1000 = 6 ∧
    (piloting (tree 2 1 {}) [] []).inTree 0 0 0x1000 = true ∧ (piloting (tree 2 1 {}) [] []).inTree 0 0 0x4000 = false := by decide +kernel
theorem witness_PilotInstructions_regions : (piloting (tree 0 1 {}) [10, 0x30, 0, 0, 0, 0, 0, 0] [(3, 0x1000)]).inTree 0 0 0x1000 = true ∧ (tree 0 1 {}).regionState 0 0x1000 = 0 ∧
    5 ≤ (tree 5 1 {}).regionState 0 0x1000 ∧ (tree 4 1 {}).regionState 0 0x1000 < 5 := by decide +kernel
theorem witness_PilotInstructions_event : Roomy { evEn := true } ∧ ({ evEn := true } : Pkg).eventBefore 3 = false ∧
    ({ queues := [(2, { engine := some { packet := [], blocked := some .event } })] } : Pkg).eventBefore 3 = true ∧ ¬ Roomy {} :=
  ⟨⟨rfl, by decide⟩, rfl, rfl, fun h => nomatch h.1⟩
theorem witness_PilotInstructions_resume : (queueOf (withQueue (tree 5 1 {}) 0 0 { image := [11, 0x30, 0, 0, 0, 0, 0, 0], engine := some { packet := [], x := [(3, 0x1000)], blocked := some .waitr } }) 0 0).engine =
    some { packet := [], x := [(3, 0x1000)], blocked := some .waitr } := by decide +kernel

/-! ### Takeover, links, bring-up, objects -/

theorem witness_TakeoverAndLinks_takeover : ([(0, 25)] : List (Nat × Nat)).find? (fun e => pkgOf e.1 == 0) = some (0, 25) ∧ ({} : Pkg).takeover = false := by decide
theorem witness_TakeoverAndLinks_ports : ({ down := false } : Port).retraining = false ∧ ({ down := false, failed := 16 } : Port).failed = 16 ∧ ({ retraining := true } : Port).trained = false ∧
    SMap.get? ({ cables := [(5, (1, 7))], pkgs := [(0, { powered := true, phase := 1 })] } : State).cables (0 * 36 + 5) = some (1, 7) := by decide
/-- Port 5 leads to package 1, alone or beside port 6. -/
def linkedPorts (l : List (Nat × Port)) : State := { domain := [0, 1], pkgs := [(0, { ports := (5, { peer := 1, down := false, retraining := true }) :: l })] }
def owner0 : Owner := { dom := domain0, region := 0x1000, actor := 0 }
def linkedOne : State :=
  { linkedPorts [] with pkgs := [(0, { ports := [(5, { peer := 1, down := false, retraining := true })], routes := [(pairKey 5 8192, 5)] })],
                        net := [{ src := 5, dst := 8192, body := .arrival 0 0 (some owner0) }], berths := [(5, { s0 := { work with act := some actor, bound := true } })] }
/-- A flit as it was sent, and what is none. -/
theorem flit_ok (n : Nat) : flitOk (freeFlit n).bytes = true := by
  have h : (freeFlit n).front.length = 248 := by simp [freeFlit, Flit.front, upTo]
  have hl : ∀ k v, (leBytes k v).length = k := fun k => by induction k with
    | zero => intro v; rfl
    | succ k ih => intro v; simp [leBytes, ih]
  unfold flitOk Flit.bytes fieldAt
  rw [List.drop_left' h, List.take_left' h, List.take_of_length_le (by simp [hl]), leNat_leBytes]
  have hn : ∀ w : Word, natWord (w.toNat % 256 ^ 8) = w := fun w => by
    rw [Nat.mod_eq_of_lt (Nat.lt_of_lt_of_eq w.isLt (by decide)), natWord, BitVec.ofNat_toNat, BitVec.setWidth_eq]
  rw [hn, List.length_append, h, hl]
  simp [Flit.front, freeFlit]
theorem witness_TakeoverAndLinks_flits : flitOk (freeFlit 0).bytes = true ∧ flitOk [] = false ∧
    (∃ f ∈ ({ sent := [freeFlit 0] } : Port).sent, f.bytes = (freeFlit 0).bytes) := ⟨flit_ok 0, rfl, _, by simp, rfl⟩
theorem witness_TakeoverAndLinks_down : (∃ e ∈ ((linkedPorts [(6, { peer := 1, down := false })]).pkg 0).ports, e.1 ≠ 5 ∧ e.2.down = false ∧ e.2.peer = 1) ∧
    (∀ e ∈ ((linkedPorts []).pkg 0).ports, e.1 ≠ 5 → e.2.down = false → e.2.peer ≠ 1) ∧ (linkedPorts []).linkCarries 0 5 0 8192 = true ∧
    (linkedOne.traffic = [{ src := 5, dst := 8192, work := [(5, 0, some owner0)] }] ∧ linkedOne.linkCarries 0 5 5 8192 = true ∧ 0 ∈ linkedOne.routePkgs 5 8192 256 0) := by decide +kernel
/-- The registration entry of the page at 0x10000 of address space 0, mirrored by peer 3 at 0x20000. -/
def entry0 : List Byte := leBytes 8 0x10000 ++ leBytes 4 4 ++ leBytes 2 0 ++ leBytes 2 3 ++ leBytes 8 0x20000 ++ List.replicate 8 0
/-- Page tables of that space at 0x1000 to 0x5000, its leaf of class EXCHANGE at frame 0x30000. -/
def mirrored (p : Pkg) (f : List Frame) : State :=
  ((((({ pkgs := [(0, p)], wire := f, berths := [(5, { root := 1 })] } : State).pokeNat (physKey 0 0x1000) 8 0x2001).pokeNat (physKey 0 0x2000) 8 0x3001).pokeNat (physKey 0 0x3000) 8 0x4001).pokeNat (physKey 0 0x4000) 8
    0x5001).pokeNat (physKey 0 0x5008) 8 0x3001B
def landed0 : Landed := { dom := domain0, region := 0x1000, asid := 0, root := 1, tag := { actor := 4, chan := 0, id := 1 }, lines := [0x400] }
theorem witness_TakeoverAndLinks_send : ((mirrored { outgoing := [landed0], xregSeen := [(0, entry0)] } []).pkg 0).outgoing[0]? = some landed0 ∧
    ((mirrored { outgoing := [landed0], xregSeen := [(0, entry0)] } []).pkg 0).pageEntry (linePage 0x400) = some entry0 ∧ fieldAt entry0 14 2 = 3 ∧
    (mirrored {} []).walkFrom 0 1 (0x400 % 2 ^ 51 * 64) = .leaf 0x3001B 0x10000 65536 := by decide +kernel
def frame0 (l : Option (Nat × List Byte)) : Frame := { peer := 0, page := 0x10000, tag := { actor := 9, chan := 1, id := 2 }, line := l }
theorem witness_TakeoverAndLinks_frames : (mirrored { xregSeen := [(0, entry0)] } [frame0 none]).wire[0]? = some (frame0 none) ∧ (frame0 none).lost = false ∧
    (frame0 none).peer = (mirrored {} []).scaleId ∧ (mirrored { xregSeen := [(0, entry0)] } []).mirrorOf 0x10000 = some (0, entry0) ∧
    (mirrored { xregSeen := [(0, entry0)] } []).walkFrom 0 ((mirrored { xregSeen := [(0, entry0)] } []).spaceRoot 0 (fieldAt entry0 12 2)) (0x10000 % 2 ^ 57 + 64 * (1023 % 1024)) = .leaf 0x3001B 0x10000 65536 ∧
    classOf 0x3001B = .exchange ∧ (List.replicate 64 0 : List Byte).length = 64 ∧ SMap.get? (({ lines := [(0x400, { actor := 1, chan := 0, id := 0 })] } : Pkg)).lines 0x400 ≠ none := by decide +kernel
theorem witness_BringUp_phases : ({ powered := true } : Pkg).phase = 0 ∧ ({ firmware := [[]] } : Pkg).firmware.all (({} : Pkg).signed 0 0) = false ∧ ({ powered := true, phase := 1, ageplan := 1 } : Pkg).ageplan ≠ 0 ∧
    ({ powered := true, phase := 2 } : Pkg).phase < 3 ∧ ({ powered := true, phase := 3 } : Pkg).changing = false ∧ (0x000100000000 : Nat) / 2 ^ (16 * 2) % 2 ^ 16 = 1 ∧ ({} : Pkg).signed 0 0 [] = false := by decide +kernel
/-- An object with no sections, and one with a code section of two bytes, either with FWD set; no device has a revision that refuses it. -/
def objectFile (n : Nat) : List Byte :=
  leBytes 4 0x01424F4B ++ leBytes 4 1 ++ leBytes 4 0 ++ leBytes 4 2 ++ leBytes 4 n ++ List.replicate 12 0 ++ leBytes 4 64 ++ List.replicate 28 0 ++
    (if n = 0 then [] else leBytes 8 0 ++ leBytes 8 96 ++ leBytes 8 2 ++ leBytes 8 0 ++ [0x60, 0])
theorem forward_selected (y : Bool) (b : List Byte) : selectImage Config.revision [{ rev := 0, syn := y, fwd := true, body := b }] = some { rev := 0, syn := y, fwd := true, body := b } := by
  unfold selectImage
  generalize Config.revision = r
  cases r <;> cases y <;> simp
/-- A fat object of one image, module or native, or of none; a module of no actors, and one that is refused. -/
def fatFile (y : Byte) (n : Nat) (m : List Byte) : List Byte :=
  leBytes 4 0x01424F4B ++ leBytes 4 1 ++ leBytes 4 0 ++ leBytes 4 1 ++ leBytes 4 n ++ List.replicate 12 0 ++ leBytes 4 64 ++ List.replicate 28 0 ++
    (if n = 0 then [] else leBytes 4 0 ++ [y, 1, 0, 0] ++ leBytes 8 96 ++ leBytes 8 m.length ++ List.replicate 8 0 ++ m)
def module0 (n : Nat) : List Byte := leBytes 4 0x00534E59 ++ leBytes 4 1 ++ leBytes 4 n ++ List.replicate 24 0
theorem witness_ObjectsAndContainers_module : isObject (fatFile 1 1 (module0 0)) = true ∧ fatZero (fatFile 1 1 (module0 0)) = true ∧
    imagesOf (fatFile 1 1 (module0 0)) = [{ rev := 0, syn := true, fwd := true, body := module0 0 }] ∧ isModule (module0 0) = true ∧ translateModule (module0 0) = some ([], []) ∧
    isModule (module0 1) = true ∧ translateModule (module0 1) = none ∧ isModule [] = false ∧ isObject (fatFile 0 0 []) = true ∧ imagesOf (fatFile 0 0 []) = [] ∧
    imagesOf (fatFile 0 1 []) = [{ rev := 0, syn := false, fwd := true, body := [] }] := by decide +kernel
theorem witness_ObjectsAndContainers_image : isObject (objectFile 1) = true ∧ imagesOf (objectFile 1) = [{ rev := 0, syn := false, fwd := true, body := objectFile 1 }] ∧ isObject [] = false ∧
    selectImage Config.revision [] = none ∧ (readObject (objectFile 1)).sects = [{ kind := 0, align := 0, owner := 0, base := 0, body := [0x60, 0] }] ∧ (readObject (objectFile 1)).rels = [] ∧
    reservedZero (objectFile 1) = true ∧ (readObject (objectFile 1)).formed = true :=
  ⟨by decide +kernel, by decide +kernel, by decide, rfl, by decide +kernel, by decide +kernel, by decide +kernel, by decide +kernel⟩
/-- Its code goes to virtual 0 and physical 0x40000, under the tables at 0x1000 to 0x5000; a base that is not aligned. -/
def placing : Places := [(0, 0, 0x40000), (3, 1 <<< 12, 0)]
theorem witness_ObjectsAndContainers_place : (∀ y ∈ (readObject (objectFile 1)).sects, y.loadBase placing % 65536 = 0) ∧ (mirrored {} []).placeable 0 placing 0x100000 98 (readObject (objectFile 1)).sects = true ∧
    placedAt placing 0 = some (0, 0x40000) ∧
    (mirrored {} []).leafSlot 0 0 4 (placeRoot placing) = some 0x5000 ∧ (∃ y ∈ (readObject (objectFile 1)).sects, y.loadBase [(0, 2, 0)] % 65536 ≠ 0) := by decide +kernel
theorem witness_ObjectsAndContainers_refused : ∃ rep, (readObject (objectFile 0)).relocateAll placing 0 [{ offset := 0, sect := 0, type := 1, sym := 0, addend := 0, pair := 0 }] = .inr rep := ⟨_, rfl⟩
/-- A container of no records. -/
def emptyContainer : List Byte := leBytes 4 1 ++ List.replicate 28 0 ++ sha256 []
theorem witness_ObjectsAndContainers_container : readContainer emptyContainer = some [] ∧ emptyContainer.length = 64 ∧
    (({} : State).poke (globKey 0 0x1000) emptyContainer).bytesAt (globKey 0 0x1000) 64 = emptyContainer ∧ contextOf [] = some {} ∧ (readContainer []).bind contextOf = none ∧
    ({} : State).regionState 0 0x2000 = 0 := by decide +kernel
/-- A suspended region without slips is written. -/
theorem witness_ObjectsAndContainers_write : ([{ home with suspended := true }] : List Region).find? (fun r => r.block == 0x1000 && r.suspended) = some { home with suspended := true } := by decide

/-! ### The machine as a whole -/

/-- ADDI g3, g0, 7 at LOCAL 0. -/
def ready : State := stored work (leBytes 4 (encode (.addi 3 0 0 7)))
theorem witness_StepRunsDecodedInstruction : ready.ctx = some me ∧ ready.fetchWord me (ready.pcOf me) = some (4, encode (.addi 3 0 0 7)) ∧
    decodeWord 4 (encode (.addi 3 0 0 7)) = .ok (.addi 3 0 0 7) ∧ (ready.queueOf me).q0.nf = false ∧ (ready.slip 5 0).stopped = false ∧ ready.pendingFor 5 0 = 0 ∧
    (ready.berth 5).fenced = false ∧ (ready.berth 5).handler = none :=
  ⟨rfl, by decide +kernel, rfl, rfl, rfl, by decide, rfl, rfl⟩
theorem witness_StepRunsDecodedInstruction_fetch : ready.reachFetch me (ready.pcOf me).toNat = .hit (scratchKey 5 0) false ∧ ready.poisoned (scratchKey 5 0) 2 = false ∧
    ready.natAt (scratchKey 5 0) 2 % 2 = 1 ∧ (stored work [0x66]).natAt (scratchKey 5 0) 2 % 2 = 0 ∧ decodeWord 2 0 = .error .illegal ∧
    (withSlip { work with banks := 0 }).fetchWord me (localAddr 0) = none := ⟨rfl, by decide +kernel, by decide +kernel, by decide +kernel, rfl, by decide +kernel⟩
theorem witness_StepRunsDecodedInstruction_first : ({ stops := [fault0 11] } : State).stops ≠ [] ∧ ({ agenda := [.berth 5] } : State).agenda = [.berth 5] ∧
    (∃ e ∈ ((withSlip idleSlip).berth 5).slips, e.2.st = .ready) ∧ (withSlip idleSlip).ctx = none ∧ (withSlip { work with st := .blocked }).ctx = none := by decide +kernel
theorem witness_DecodeEncodeRoundTrip : (Instr.addi 3 0 0 7).wellFormed = true ∧ (Instr.addi 3 0 0 7).len ≠ 0 := by decide
theorem witness_MemoryStaysCanonical : Safe State.reset ∧ step State.reset = .next State.reset.ticked := ⟨rfl, rfl⟩

/-! ### Small results; the values are the spec's own examples, or computed by hand from its rules -/

/-- The state after one instruction. -/
def after (i : Instr) (s : State) : State := match exec i s with
  | .next t => t
  | .fault _ => {}
  | .refused _ => {}
/-- g3 after an instruction on x in g1 and y in g2; q3; f3 on a in f1 and b in f2. -/
def g3 (i : Instr) (x y : Word) : Word := (after i (withSlip (regs work x y))).readG me 3 0
def q3 (i : Instr) (x y : Word) : Bool := (after i (withSlip (regs work x y))).readQ me 3 0
def f3 (i : Instr) (x y : W32) : W32 := (after i (withSlip { work with f := [(8, x), (16, y)] })).readF me 3 0
/-- w3 after an instruction on w1 and w2. -/
def w3 (i : Instr) (x y : Wide) : Wide := (after i (withSlip { work with w := [(8, x), (16, y)] })).readW me 3 0

-- R98, R99, R102: wraps, corners of division, sign extension, shifts modulo 64
theorem test_add_wraps : g3 (.add 3 1 0 2 0) 0xFFFFFFFFFFFFFFFF 2 = 1 := by decide +kernel
theorem test_sub : g3 (.sub 3 1 0 2 0) 1 2 = 0xFFFFFFFFFFFFFFFF := by decide +kernel
theorem test_adds_clamps : g3 (.adds 3 1 0 2 0) 0x7FFFFFFFFFFFFFFF 1 = 0x7FFFFFFFFFFFFFFF := by decide +kernel
theorem test_sll_64 : g3 (.sll 3 1 0 2 0) 5 64 = 5 := by decide +kernel
theorem test_sra : g3 (.sra 3 1 0 2 0) 0x8000000000000000 63 = 0xFFFFFFFFFFFFFFFF := by decide +kernel
theorem test_mulh : g3 (.mulh 3 1 0 2 0) 0xFFFFFFFFFFFFFFFF 2 = 0xFFFFFFFFFFFFFFFF := by decide +kernel
theorem test_mulhu : g3 (.mulhu 3 1 0 2 0) 0xFFFFFFFFFFFFFFFF 2 = 1 := by decide +kernel
theorem test_div_truncates : g3 (.div 3 1 0 2 0) 0xFFFFFFFFFFFFFFF9 2 = 0xFFFFFFFFFFFFFFFD := by decide +kernel
theorem test_div_wraps : g3 (.div 3 1 0 2 0) 0x8000000000000000 0xFFFFFFFFFFFFFFFF = 0x8000000000000000 := by decide +kernel
theorem test_rem_sign : g3 (.rem 3 1 0 2 0) 0xFFFFFFFFFFFFFFF9 2 = 0xFFFFFFFFFFFFFFFF := by decide +kernel
theorem test_divu_zero : g3 (.divu 3 1 0 2 0) 7 0 = 0xFFFFFFFFFFFFFFFF := by decide +kernel
theorem test_remu_zero : g3 (.remu 3 1 0 2 0) 7 0 = 7 := by decide +kernel
theorem test_addi_minus : g3 (.addi 3 1 0 0xFFF) 0 0 = 0xFFFFFFFFFFFFFFFF := by decide +kernel
theorem test_upim_sign : g3 (.upim 3 0x80000) 0 0 = 0xFFFFFFFF80000000 := by decide +kernel
theorem test_sxb : g3 (.sxb 3 1 0) 0x80 0 = 0xFFFFFFFFFFFFFF80 := by decide +kernel
theorem test_brev : g3 (.brev 3 1 0) 1 0 = 0x8000000000000000 := by decide +kernel
theorem test_clz_zero : g3 (.clz 3 1 0) 0 0 = 64 := by decide +kernel
-- R105: CLTUI q3, g1, -1 is true but for all ones
theorem test_cltui : q3 (.cltui 3 1 0 0x1FF) 5 0 = true ∧ q3 (.cltui 3 1 0 0x1FF) 0xFFFFFFFFFFFFFFFF 0 = false := by decide +kernel
theorem test_clt : q3 (.clt 3 1 0 2 0) 0xFFFFFFFFFFFFFFFF 0 = true ∧ q3 (.cltu 3 1 0 2 0) 0xFFFFFFFFFFFFFFFF 0 = false := by decide +kernel
-- R106: QNOT q3, q0 clears q3, and QOR q3, q0, q0 sets it
theorem test_qnot : q3 (.qnot 3 0 0) 0 0 = false ∧ q3 (.qor 3 0 0 0 0) 0 0 = true := by decide +kernel
-- spec/04: a load sign-extends, a store writes its low bytes, little-endian
theorem test_lb : (after (.lb 3 1 0 0) ((withSlip (regs work (localAddr 0x40) 0)).poke (scratchKey 5 0x40) [0x80])).readG me 3 0 = 0xFFFFFFFFFFFFFF80 := by decide +kernel
theorem test_lhu : (after (.lhu 3 1 0 0) ((withSlip (regs work (localAddr 0x40) 0)).poke (scratchKey 5 0x40) [0x34, 0x92])).readG me 3 0 = 0x9234 := by decide +kernel
theorem test_sw : (after (.sw 2 1 0 0) (withSlip (regs work (localAddr 0x40) 0x1122334455667788))).bytesAt (scratchKey 5 0x40) 5 = [0x88, 0x77, 0x66, 0x55, 0] := by decide +kernel

-- spec/03: the examples of stochastic rounding, of the MX conversion, of a KF4 group, of the exact cell
theorem test_round_stochastic : (roundTo .bf16 .sr false 0x3FFF (exact .fp32 0x3F804000)).1 = 0x3F81 ∧ (roundTo .bf16 .sr false 0x4000 (exact .fp32 0x3F804000)).1 = 0x3F80 ∧
    (roundNE .bf16 (exact .fp32 0x3F804000)).1 = 0x3F80 := by decide +kernel
theorem test_round_mx : (roundNE .e4m3 (Val.ofInt 300)).1 = 0x79 ∧ (roundTo .e4m3 .ne true 0 (Val.ofInt 500)).1 = 0x7E ∧ roundTo .e4m3 .ne false 0 (Val.ofInt 500) = (0x7F, Ev.oneOvf) := by decide +kernel
theorem test_kf4 : vcompare (exact .e2m1 0xA) (Val.ofInt (-1)) = some .eq := by decide +kernel
theorem test_kf4_scale : vcompare ((exactE3M5 0x44).scale 4) (Val.ofInt 9) = some .eq := by decide +kernel
theorem test_cell_round : roundNE .fp32 ((Val.ofInt ((2 ^ 24 + 2) * 2 ^ 149)).scale (-149)) = (0x4B800001, {}) := by decide +kernel
theorem test_fadd : f3 (.fadd 3 1 0 2 0) 0x3F800000 0x40000000 = 0x40400000 := by decide +kernel
theorem test_fsub_cancels : f3 (.fsub 3 1 0 2 0) 0x3F800000 0x3F800000 = 0 := by decide +kernel
theorem test_fma_one_rounding : (fpFma .fp32 false false 0x3F800001 0x3F7FFFFE 0xBF800000).1 = 0xA8800000 := by decide +kernel

-- spec/05: the example of exp2 normalisation terms
/-- The lanes of a vector of FP32 values, the first given, the others x. -/
def lanes (l : List Nat) (x : Nat) : Wide := BitVec.ofNat 512 (leNat ((l ++ List.replicate (16 - l.length) x).flatMap (leBytes 4)))
theorem test_vrmax : w3 (.vrmax 3 1 0 0 4) (lanes [0x40400000, 0x3F800000, 0x40000000, 0x40400000] 0xFF800000) 0 = lanes [0x40400000] 0 := by decide +kernel
theorem test_vbcast : w3 (.vbcast 3 1 0 0 2) (lanes [0x40400000] 0) 0 = lanes [] 0x40400000 := by decide +kernel
theorem test_vfsub : w3 (.vfsub 3 1 0 2 0) (lanes [0x40400000, 0x3F800000, 0x40000000, 0x40400000] 0xFF800000) (lanes [] 0x40400000) =
    lanes [0, 0xC0000000, 0xBF800000, 0] 0xFF800000 := by decide +kernel
theorem test_vfexp2 : w3 (.vfexp2 3 1 0 0) (lanes [0, 0xC0000000, 0xBF800000, 0] 0xFF800000) 0 = lanes [0x3F800000, 0x3E800000, 0x3F000000, 0x3F800000] 0 := by decide +kernel
theorem test_vrsum : w3 (.vrsum 3 1 0 0 4) (lanes [0x3F800000, 0x3E800000, 0x3F000000, 0x3F800000] 0) 0 = lanes [0x40300000] 0 := by decide +kernel
theorem test_vadd_wraps : w3 (.vadd 3 1 0 2 0) (BitVec.allOnes 512) 1 = BitVec.allOnes 512 - 0xFF := by decide +kernel

-- spec/01: cur = 6, W = 4, dmax = 2: iteration 0 uses version 7, iteration 1 version 0, iteration 5 version 4, and reads version 2 at distance 2
def entered : Slip := (({ work with cur := [(1, 6)], pend := { width := 4, dmax := 2, masks := { g := 2 } } } : Slip).enterLoop (localAddr 0) (localAddr 16) 9).nextVersions { g := 2 }
def fifth : Slip := entered.nextIteration.nextIteration.nextIteration.nextIteration.nextIteration
theorem test_versions : entered.version .g 1 0 = 7 ∧ entered.nextIteration.version .g 1 0 = 0 ∧ fifth.version .g 1 0 = 4 ∧ fifth.version .g 1 2 = 2 := by decide +kernel

-- spec/07: the TRAP in a slot of a taken branch
def trapping : Slip := { work with live :=
  { q0 := { addr := some (localAddr 0x104), slot := true, taken := true }, q1 := { addr := some (localAddr 0x108), slot := true, taken := true }, q2 := { addr := some (localAddr 0x200) } } }
noncomputable def trapped : Slip := (after (.trap 7) ((withSlip trapping).poke (scratchKey 5 0x200) [1])).slip 5 0
theorem test_trap_saves : trapped.saved.q0.addr = some (localAddr 0x108) ∧ trapped.saved.q1.addr = some (localAddr 0x200) ∧ trapped.saved.q2.addr = some (localAddr 0x204) := by decide +kernel
theorem test_trap_cause : trapped.tcause = 0x5A ∧ trapped.tval = 7 ∧ trapped.intrap = true := by decide +kernel

-- spec/20: the header words and scales of the example
theorem test_kvstat : (after (.kvstat 3 1) (valley pageAt 0 { owned .sealed with fmt := false, fix := true, xk := 0x7F, xv := 0x78, len := 1 })).readG me 3 0 = 0xD0787F01 := by decide +kernel
theorem test_kv_scales : kvScale [Val.ofInt 300, Val.ofInt 2] = 127 ∧ kvScale [Val.ofInt 3, Val.ofInt 1] = 120 ∧ kvScale [Val.ofInt 500, Val.ofInt 2] = 128 ∧ kvScale [Val.ofInt 1] = 119 := by decide +kernel
/-- The pages of the example, layer 1, bank 5, page 12. -/
theorem test_kv_page : ({} : State).kvPage 0x4000000450030000 = some (physKey 0 0x228030000) := by decide +kernel

-- spec/01, spec/25: the numbers of berths and the REMOTE address of the examples
theorem test_remote : ({ domain := [0, 3] } : State).remoteBerth 0x2000034BA8000200 = some (3 * 8192 + 2421) := by decide +kernel

-- spec/18: 2^24, 1 and 1 summed in a BF16 plane; spec/22: point 5 of the van der Corput table
theorem test_quasi_random : ({ v := [(0, 0x80000000), (1, 0x40000000), (2, 0x20000000)], ctl := 1 } : QrBank).point 0 5 = 0xA0000000 := by decide +kernel

-- spec/23, spec/18: the example words of CWR and CMMA
theorem test_word_cwr : decodeWord 4 0x22106059 = .ok (.cwr 6 0x108) := rfl
theorem test_word_cmma : decodeWord 4 0x00D095CD = .ok (.cmmaE4e4 10 2 0x14 1) := rfl
theorem test_word_vector : decodeWord 4 0x0000A0AB = .ok (.vl 1 10 0 0) ∧ decodeWord 4 0x1800113B = .ok (.vrmax 2 1 0 0 4) ∧ decodeWord 4 0x440021BB = .ok (.vbcast 3 2 0 0 2) ∧
    decodeWord 4 0x4010A32B = .ok (.vs 6 10 0 1) := ⟨rfl, rfl, rfl, rfl⟩

/-! ### Every form named -/

/-- For the multiplies: a mirror of a plane of the pair's format, and rows of 128 bytes. -/
def facing (n : Nat) : State := lifting 0x400000000 0 { m0 := some { fmt := pairPlane n, sp := 0, n := 8, kg := 1 } }
theorem witness_FormsCompleteByName_multiplies : ∀ n, n < 14 → Runs (facing n) me { hnd := false } [.tile 0, .src .g 1 0, .src .f 30 0, .src .f 31 0] ∧
    shapeOf n 0 = some (8, 32, 0) ∧ (facing n).mmaFault me n 0 0 8 32 0 0 128 1 ((facing n).readF me 30 0) ((facing n).readF me 31 0) = none ∧
    ((facing n).readG me 1 0).toNat = 0x400000000 := by
  have h : ∀ n, n < 14 → shapeOf n 0 = some (8, 32, 0) ∧
    (facing n).mmaFault me n 0 0 8 32 0 0 128 1 ((facing n).readF me 30 0) ((facing n).readF me 31 0) = none ∧
    ((facing n).readG me 1 0).toNat = 0x400000000 := by decide +kernel
  exact fun n hn => ⟨⟨rfl, fun _ => rfl⟩, (h n hn).1, (h n hn).2.1, (h n hn).2.2⟩
theorem witness_FormsCompleteByName_rest : (3 : BitVec 3).toNat < 4 ∧ Runs (withSlip work) me {} [.src .w 31 0, .dst .w 31, .src .w 31 0] ∧
    Runs (withSlip work) me {} [.src .w 31 0, .dst .w 31] ∧ Runs (withSlip work) me {} [.src .w 31 0, .src .w 31 0, .dst .m 7] ∧
    Runs (withSlip work) me {} [.src .m 7 0, .dst .m 7] ∧ Runs (withSlip work) me {} [.src .m 7 0, .dst .g 31] ∧
    Runs (withSlip work) me { priv := true, hnd := false } [] ∧ (∀ o ∈ (withSlip work).bankOps, o.flushers = []) ∧ (∀ k ∈ (withSlip work).copies, k.flushers = []) :=
  ⟨by decide, ⟨rfl, fun _ => rfl⟩, ⟨rfl, fun _ => rfl⟩, ⟨rfl, fun _ => rfl⟩, ⟨rfl, fun _ => rfl⟩, ⟨rfl, fun _ => rfl⟩, ⟨rfl, fun _ => rfl⟩,
    fun _ h => (nomatch h), fun _ h => (nomatch h)⟩
theorem witness_FormsCompleteByName_turns : (walking { copy1 with stage := .queued }).copies.findIdx? (fun k => k.berth == 5 && k.stage == .queued) = some 0 ∧
    ({ copy1 with pos := 8, sync := 0xFFFF } : Copy).total ≤ 8 ∧ ({ copy1 with pos := 8, sync := 0xFFFF } : Copy).lines = [] := by decide +kernel

/-! ### Signed files -/

theorem witness_HostRegisters_signature : keyed.signed 1 15 pilotFile = true := by decide +kernel
/-- The key of the firmware, for which the fuses of its package vouch. -/
def key0 : Nat := (List.replicate 1938 3).foldl (· * ·) 1
def fused : Pkg := { keyed with fuses := sha256 (Config.keyBytes key0) }
theorem witness_BringUp_signature : fused.signed 0 0 firmwareFile = true := by
  have hn : firmwareFile.length - 448 = 0 := by decide +kernel
  have hk : SMap.get? fused.keys (fieldAt (firmwareFile.drop 0) 8 4) = some key0 := by
    rw [show fieldAt (firmwareFile.drop 0) 8 4 = 0 by decide +kernel]; rfl
  have hv : pssVerify key0 (firmwareFile.take (0 + 64)) ((firmwareFile.drop 0).drop 64) = true := by decide +kernel
  have ha : fused.keyAllowed (fieldAt (firmwareFile.drop 0) 8 4) key0 = true := by simp [Pkg.keyAllowed, fused]
  unfold Pkg.signed
  rw [hn]
  simp only [hk, hv, ha]
  decide +kernel

/-! ### More forms -/

/-- BR, JL, JLR and C.RET where a loop stands in the way, at both ends of what each clause asks. -/
theorem witness_BranchFaults_links : Runs (withSlip inside) me {} [.src .q 1 0] ∧ Runs (withSlip looping) me {} [.dst .g 1] ∧
    Runs (withSlip (regs inside 1 0)) me {} [.src .g 1 0, .dst .g 1] ∧ (withSlip inside).lengthWait me ((withSlip inside).queueOf me).q2 = none :=
  ⟨⟨rfl, fun _ => rfl⟩, ⟨rfl, fun _ => rfl⟩, ⟨rfl, fun _ => rfl⟩, rfl⟩
/-- A load at virtual 0x100 where the translation finds leaf e, or the root's entry 0 is e. -/
def mappedAs (e : Nat) : State := { mapped with berths := [(5, { s0 := { regs work 0x100 0 with own0 := 1, priv := false }, root := 1, tlb := [{ asid := 0, base := 0, size := 65536, leaf := e }] })] }
def rooted (e : Nat) : State := ({ mapped with berths := [(5, { s0 := regs work 0x100 0, root := 1 })] } : State).pokeNat (physKey 0 0x1000) 8 e
theorem witness_AccessFaults_global : mapped.translate 5 false 0x100 = .leaf 0x10013 0 65536 ∧ (mapped.slip 5 0).owns 0 = true ∧
    (mappedAs 0x0100000000010013).translate 5 false 0x100 = .leaf 0x0100000000010013 0 65536 ∧ (mapped.slip 5 0).owns 1 = false ∧
    (mappedAs 0x10053).translate 5 false 0x100 = .leaf 0x10053 0 65536 ∧ (0x10053 : Nat).testBit 6 = true ∧ 0x10053 / 8 % 8 = 2 ∧
    (rooted 0).translate 5 false 0x100 = .absent ∧ (rooted 7).translate 5 false 0x100 = .malformed ∧ (rooted 0).notices = [] ∧
    ((rooted 0).slip 5 0).pageFailed = none ∧ 0x200000000000000 / 2 ^ 57 % 2 ^ 3 ≠ 0 := by decide +kernel
theorem witness_AccessFaults_map : (withSlip work).inMemory 0 0x8000000000000 1 = false ∧ 0xF008000000000000 / 2 ^ 52 % 2 ^ 8 = 0 ∧
    0xF008000000000000 % 2 ^ 52 / 2 ^ 48 ≠ 15 ∧ boss.inMemory 0 4 1 = true := by decide +kernel
/-- An open and an aligned read of PCQ, a trap whose saved queue is named, and registers without privilege. -/
def saving : Slip := { regs work 5 0 with intrap := true, saved := work.live }
theorem witness_ControlRegisters_queue : (namedQueue (withSlip work) me).q0.addr = some (localAddr 0) ∧ (namedQueue (withSlip work) me).q2.addr = some (localAddr 8) ∧
    (namedQueue (withSlip saving) me).q1.addr = some (localAddr 4) ∧ (withSlip saving).lengthWait me (namedQueue (withSlip saving) me).q0 = none ∧
    (withSlip saving).lengthWait me (namedQueue (withSlip saving) me).q1 = none ∧ Runs (withSlip saving) me {} [.src .g 1 0] ∧
    (∀ m ∈ csrMasks, m.1 = 0x000 → (5 : Word).toNat &&& m.2 ≠ 0) ∧ ∀ m ∈ csrMasks, m.1 = 0x002 → (5 : Word).toNat &&& m.2 = 0 :=
  ⟨rfl, rfl, rfl, rfl, rfl, ⟨rfl, fun _ => rfl⟩, by decide, by decide⟩
/-- A group of two whose first member closes; a member that halts. -/
def ending : Slip := { grouped 0 0 with st := .halting, halting := true }
theorem witness_WindowsClose_group : (withSlip { grouped 0 0 with closing := some open1 }).quiet 5 0 0 = true ∧ ((withSlip (grouped 0 0)).group 5 0).length = 2 ∧
    (∀ m ∈ (withSlip (grouped 0 0)).group 5 0, (withSlip (grouped 0 0)).pairHolds 5 m.berth = false) ∧ (withSlip ending).quiet 5 0 0 = true ∧ ending.left = [] ∧
    (∃ m ∈ (withSlip ending).group 5 0, ((withSlip ending).slip m.berth m.slip).tag = m.tag) ∧ (withSlip { grouped 0 0 with unacked := [put8] }).quiet 5 0 0 = false := by decide +kernel
/-- A PUT into a ring, a PUT into a bank not held, a stale record. -/
def closed1 : Closing := { open1 with marked := true }
def ringed : Slip := { closes closed1 [put8] with chans := [(2, { role := .consumer, cap := 4, slotb := 64, base := 0x40 })] }
theorem witness_WindowsClose_causes : ((withSlip ringed).berth 5).ringsIn 0x40 8 ≠ [] ∧ ((withSlip (closes closed1 [put8])).berth 5).ringsIn 0x40 8 = [] ∧
    (withSlip (closes closed1 [item (.put 0x8000 8 77)])).windowRing 5 (closes closed1 [item (.put 0x8000 8 77)]) = none ∧
    (closes closed1 [item (.put 0x8000 8 77)]).windowOutside = some (localAddr 0x8000) ∧ (closes closed1 [put8]).windowOutside = none ∧
    (∀ z ∈ ([{ win := 0, actor := 9, sseq := 1 }, { win := 0, actor := 8, sseq := 4 }] : List StaleRec), z.win = 0 → z = { win := 0, actor := 9, sseq := 1 } ∨ 1 < z.sseq) := by decide +kernel
/-- A GET and a PUT parked out of their order, and a reply. -/
def get1 : Item := { item (.get 0x40 8 0x80) with sseq := 1 }
def mixed : Slip := { closes closed1 [put8, get1] with gets := [{ win := 0, seq := 3, off := 0x100, size := 8, owed := false }], replies := [{ win := 0, seq := 3, off := 0x100, size := 8, data := 5 }] }
theorem witness_WindowsClose_order : [get1, put8].Perm (mixed.parked.filter (fun x => x.win == mixed.wseq)) ∧
    [get1, put8].Pairwise (fun x y => x.sidx < y.sidx ∨ (x.sidx = y.sidx ∧ x.sseq < y.sseq)) ∧ (withSlip mixed).windowFault 5 0 = none ∧ (withSlip mixed).poison = [] ∧
    Closable (withSlip mixed) 5 0 closed1 :=
  ⟨.swap _ _ [], by decide, by decide +kernel, rfl, rfl, rfl, by decide, rfl, rfl, rfl⟩
/-- The copy's sync word, and one that cannot be read. -/
theorem witness_CopiesWalk_poison : ({ walking { copy1 with pos := 8 } with poison := [scratchKey 5 0x20] } : State).contribution { copy1 with pos := 8 } = some (some 5) ∧
    ({ walking copy1 with poison := [scratchKey 5 0x20] } : State).poisoned (scratchKey 5 0x20) 16 = true ∧ (walking copy1).poisoned (scratchKey 5 0x20) 16 = false := by decide +kernel
theorem witness_ValleyEvents_poison : ({ syncing 0 0 {} with triples := [triple], poison := [scratchKey 5 0x40] } : State).tripleFault triple = none ∧
    ({ syncing 0 0 {} with triples := [triple], poison := [scratchKey 5 0x40] } : State).poisoned (scratchKey 5 0x40) 16 = true := by decide +kernel
/-- A query behind one that its unit refuses. -/
theorem witness_ValleyEvents_held : ({ kvCmds := List.replicate 16 { query1 1 with waits := true } ++ [query1 1, query1 2] } : State).kvCmds[16]? = some (query1 1) ∧
    ({ kvCmds := List.replicate 16 { query1 1 with waits := true } ++ [query1 1, query1 2] } : State).kvFull (query1 1) = true := by decide +kernel
/-- A register write by the executing slip that has no privilege for it, or that sets a reserved bit. -/
theorem witness_ControlPlane_raised : boss.csrWrite meB 0x100 (BitVec.ofNat 64 0x10000) = .inr 2 := by decide +kernel
/-- An LDI whose 8 bytes end with its unit, and one that runs past it. -/
theorem witness_PilotInstructions_ldi : (0x38 : Nat) % 64 ≤ 56 ∧ 56 < (0x39 : Nat) % 64 ∧ ((piloting (tree 2 1 {}) [2, 0x30, 0, 0, 0, 0, 0, 0] []).bytesAt (hostKey 0) 64).length = 64 ∧
    SMap.get? (({ packet := [], units := [(0, [1])] } : Engine)).units 0 = some [1] := by decide +kernel
/-- A grouping node's charge on which a bound region draws. -/
theorem witness_RegionsSelectedAndBound_resume : (tree 4 1 {}).regionState 0 0x1000 = 4 ∧ ((tree 4 1 {}).pkg 0).admitted = [] := by decide +kernel
theorem witness_BringUp_readings : ({ powered := true, phase := 1 } : Pkg).changing = false ∧ (0x000300020001 : Nat) < 2 ^ 48 ∧ (0x000300020000 : Nat) % 2 ^ 16 = 0 ∧
    ({ powered := true } : Pkg).powered = true := by decide +kernel
theorem witness_ObjectsAndContainers_unplaced : (mirrored {} []).placeable 0 [(0, 0, 0x40000)] 0x100000 98 (readObject (objectFile 1)).sects = false ∧
    (∀ y ∈ (readObject (objectFile 1)).sects, y.loadBase [(0, 0, 0x40000)] % 65536 = 0) := by decide +kernel
/-- Slots that a copy still reads, and none; a handle bound to nothing; a landing whose second word is poisoned, from a ring base that is not
8-aligned. -/
theorem witness_ChannelInstructions_reads : (linkedS.clearTouch 5 0).slotsRead me chan2 1 = false ∧
    (({ linkedS with copies := [{ copy1 with src := localAddr 0x100 }] } : State).clearTouch 5 0).slotsRead me chan2 1 = true ∧
    (SMap.get {} (linkedS.slip 5 0).chans 7 : Chan).role = .unbound ∧ chan2.granted * chan2.slotb ≤ (2 : BitVec 12).toNat * 32 := by decide +kernel
theorem witness_NoticesAndArrivalsCount_ring : linkedS.ringBad 5 0x100 256 224 64 = none ∧
    ({ linkedS with poison := [scratchKey 5 0x140] } : State).ringBad 5 0x104 256 0 64 = some (0x104, 64) := by decide +kernel
/-- A target and a bank of no member, and GET destinations of a bad path, misaligned and in a bank not held. -/
theorem witness_MessageIssue_outside : ((sends 7 0x1100).slip 5 0).members.find? (fun m => m.actor == ((sends 7 0x1100).readG me 1 0).toNat % 2 ^ 32) = none ∧
    (sends 0 1).bankMember (grouped 0 1) 6 1 = none ∧ (localAddr 0x40).toNat / 2 ^ 19 = 2 ^ 41 ∧ (0x40 : Word).toNat / 2 ^ 19 ≠ 2 ^ 41 ∧
    (localAddr 0x44).toNat % 2 ^ (6 : BitVec 3).toNat ≠ 0 ∧ (grouped 0 1).banks.testBit ((localAddr 0x8000).toNat % 2 ^ 19 / 0x8000) = false := by decide +kernel
theorem witness_BankOperationsApply_misuse : ({ expect := 2 } : CellTag).exact = false ∧ ((BOp.vsa 0 1).exactValue 5).isSome = true ∧
    (bop (.vsa 0 1) { exact := true }).natAt (plainKey 0 128 + 44) 4 ≤ (bop (.vsa 0 1) { exact := true }).natAt (plainKey 0 128 + 40) 4 ∧
    MayApply (bop (.vsa 0 1) { expect := 2 }) 0 { key := plainKey 0 128, op := .vsa 0 1, value := 5, berth := 5, slip := 0 } :=
  ⟨rfl, by decide, by decide +kernel, rfl, by decide, (by intro e he; cases he), by decide, by decide, by decide +kernel⟩
/-- A preference record that an earlier copy of the slip is to land on; the oldest of eight requests done; two to acknowledge before a wait. -/
theorem witness_CopiesIssue_record : (asks request []).recordBehind me (Request.ofWide request) = false ∧
    ({ asks request [] with copies := [{ copy1 with dst := localAddr 0 }] } : State).recordBehind me (Request.ofWide (request + 1#512 <<< 236)) = true ∧
    (List.replicate 8 ({ chan := 1, id := 1, done := true } : Outstanding)).length = 8 ∧ ({ chan := 1, id := 7, done := true, err := some 5 } : Outstanding).err = some 5 ∧
    ([{ chan := 1, id := 7, done := true }, { chan := 0, id := 1 }, { chan := 1, id := 8 }] : List Outstanding).filter (fun o => o.chan == 1 && genLe o.id 8) =
      [{ chan := 1, id := 7, done := true }] ++ [{ chan := 1, id := 8 }] ∧ ¬ AtOrBefore 8 6 := by
  refine ⟨by decide +kernel, by decide +kernel, by decide, rfl, by decide, ?_⟩; unfold AtOrBefore; decide
/-- A sync word of a bank held, and of one not held, on a scratchpad landing and on one in memory. -/
theorem witness_CopiesWalk_sync : (walking copy1).awaitsTransfer copy1 = false ∧ ((walking copy1).slip 5 0).early = [] ∧ (walking copy1).syncHeld copy1 5 = true ∧
    (walking copy1).syncHeld { copy1 with sync := 0x800 } 5 = false ∧
    (walking copy1).syncOutside { copy1 with sync := 0x800, dst := 0x5000, pos := 8 } = true ∧ (walking copy1).syncOutside copy1 = false := by decide +kernel
theorem witness_Crane_waits : work.tiles = 0 ∧ ((lifting 0 0 { queue := List.replicate 16 { seq := 1, slip := 0, op := .swap } }).berth 5).crane.queue.length = 16 ∧
    ({ queue := [{ seq := 1, slip := 0, op := .swap }] } : Crane).idle = false ∧ work.tiles.testBit 0 = false ∧
    (lifting (localAddr 0) 0x400 { queue := [{ seq := 1, slip := 0, op := .swap }] }).tileFault me (encode (.czout 1 2 0)) 0 (localAddr 0) 0x400
      (fun n => decide (n < 4) || n == 7) = none := by decide +kernel
/-- An E4M3 page of scale 0, on which 256 lies beyond the range and 0 does not, and an infinite element; a full page; a successor that is the
actor's, and one that is not. -/
def narrow : KvHdr := { owned .opened with fmt := false, xk := 0, xv := 0 }
theorem witness_ValleyEvents_narrow : kvEnc (exact .bf16 0x4380) 0 false % 128 = 127 ∧ (exact .bf16 0x4380).isNaN = false ∧ kvEnc (exact .bf16 0) 0 false % 128 ≠ 127 ∧
    (exact .bf16 0x7F80).isInf = true ∧ narrow.fmt = false ∧ ({ narrow with fix := false } : KvHdr).fix = false ∧ ({ narrow with len := narrow.capacity } : KvHdr).capacity ≤ narrow.capacity ∧
    (1 : Nat) ≠ narrow.dh ∧ (owned .free).st = .free ∧ pageKey + 0x4000 ≠ pageKey ∧ (owned .opened).st ≠ .free ∧ FitsScale [exact .bf16 0] 0 := by
  refine ⟨by decide +kernel, by decide, by decide +kernel, by decide +kernel, rfl, rfl, by decide, by decide, rfl, by decide, by decide, ?_⟩
  have hi : Fmt.bf16.infCode ≠ some 0 := by decide
  intro neg n e i h
  simp [exact, hi] at h
  simp [h]
/-- A saved queue whose second entry is open behind an instruction at virtual 0, in a space where leaf e maps page 0, and in one where none does. -/
def opened (e : Nat) : State :=
  ({ served with notices := [], berths := [(5, { root := 1, s0 := { work with intrap := true, saved := { q0 := { addr := some 0 } } } })] } : State).pokeNat (physKey 0 0x5000) 8 e
theorem witness_ControlPlane_lengths : (opened 0x1008B).pcqWait me 5 = none ∧ (opened 0x100CB).pcqWait me 5 = some none ∧ (opened 0).pcqWait me 5 = some (some 0) ∧
    ((opened 0).csrWrite me 5 0).isLeft = true ∧ (opened 0).ctx = some me := by decide +kernel
/-- A line whose page has no leaf, and lines whose pages have one. -/
theorem witness_TakeoverAndLinks_absent : (mirrored { xregSeen := [(0, entry0)] } []).lineAbsent 0 landed0 = none ∧
    ((mirrored { xregSeen := [(0, entry0)] } []).pokeNat (physKey 0 0x5008) 8 0).lineAbsent 0 landed0 = some 0x400 := by decide +kernel
/-- A module whose code and descriptor stand at 0x40000 and 0x90000, and one whose code base is not aligned; a native image that is a fat object. -/
def module5 : Places := placing ++ [(5, 0x90000, 0)]
def textOf (l : List SynActor) : Sect := { kind := 0, align := 2, owner := 0, base := 0, body := textBytes l }
theorem witness_ObjectsAndContainers_modules : (mirrored {} []).placeable 0 module5 0x100000 128 [textOf []] = true ∧
    (mirrored {} []).pipeApart 0 module5 0x100000 128 (descriptorBytes [] []).length (textOf []) = true ∧
    (mirrored {} []).pipeApart 0 [(0, 0, 0x40000), (3, 1 <<< 12, 0), (5, 0x40000, 0)] 0x100000 128 64 { textOf [] with body := [1] } = false ∧
    (leNat (((fatFile 0 0 []).drop 12).take 4)).testBit 0 = true ∧ (leNat (((objectFile 1).drop 12).take 4)).testBit 0 = false := by decide +kernel
/-- Elements of another path, beyond a scratchpad, misaligned, in a bank not held, and in a sync word. -/
theorem witness_ElementFaults : Runs (withSlip (regs work (localAddr 0x100) 8)) me {} [.src .g 1 0, .src .g 2 0, .src .m 0 0, .dst .w 31] ∧ (0x100 : Word).toNat / 2 ^ 60 ≠ 1 ∧
    (localAddr 0x80000).toNat / 2 ^ 19 % 2 ^ 41 ≠ 0 ∧ (localAddr 0x101).toNat % 8 ≠ 0 ∧ (withSlip work).holdsBank me 0x8000 = false ∧ (withSlip work).holdsBank me 0x40 = true ∧
    (SMap.get? (syncing 0 0 {}).syncs (scratchKey 5 0x40)).isSome = true ∧ (withSlip work).localFault me (localAddr 0x100).toNat 8 = none ∧
    bitsOf (localAddr 0x100).toNat 63 60 = 1 := ⟨⟨rfl, fun _ => rfl⟩, by decide +kernel⟩
/-- A first half at the end of a bank, whose second half no bank holds; a page that is absent; a halfword whose word is poisoned. -/
def splits (a : Nat) : Slip := { work with live := { q0 := { addr := some (localAddr a) } } }
theorem witness_TrapInstructionsAndEvents_halves : ((withSlip (splits 0x7FFE)).fetchHalf me ((withSlip (splits 0x7FFE)).pcOf me)).isSome = true ∧
    (withSlip (splits 0x7FFE)).reachFetch me ((withSlip (splits 0x7FFE)).pcOf me + 2).toNat = .trap 12 ∧ (opened 0).reachFetch me 0 = .absent 0 ∧
    ((opened 0).slip 5 0).pageFailed ≠ some (pageName ((opened 0).berth 5).asid 0) ∧ (opened 0).notices = [] ∧
    ({ withSlip work with poison := [scratchKey 5 0] } : State).poisoned (scratchKey 5 0) 2 = true ∧
    ({ withSlip work with poison := [scratchKey 5 0] } : State).fetchHalf me ((withSlip work).pcOf me) = none := by decide +kernel
theorem witness_ControlRegisters_none : ¬ assignedCsr 0x41 ∧ ¬ assignedCsr 0x200 ∧ ({ work with intrap := true, saved := work.live } : Slip).saved.q0.tag = .plain := by
  refine ⟨?_, ?_, rfl⟩ <;> unfold assignedCsr <;> decide
/-- A DONE whose next inputs are there, and one whose are not. -/
theorem witness_FiringsEnd_ready : idleSlip.inputsSuffice = true ∧ work.inputsSuffice = false ∧ (withSlip work).doneWaits 5 0 = false ∧ full256.doneWaits 5 0 = true := by decide +kernel

end Sys2Proof.Tests
end

section
/-! Bit fields as quotients and remainders, and the extension of loaded bytes (spec/00 R3, spec/04 R118). -/
namespace Sys2Proof

theorem bitsOf_eq (n hi lo : Nat) : bitsOf n hi lo = n / 2 ^ lo % 2 ^ (hi - lo + 1) := by
  rw [bitsOf, Nat.shiftRight_eq_div_pow, Nat.one_shiftLeft]

theorem bitsOf_low (n hi : Nat) : bitsOf n hi 0 = n % 2 ^ (hi + 1) := by
  rw [bitsOf_eq, Nat.pow_zero, Nat.div_one, Nat.sub_zero]

theorem bitOf_eq_testBit (n i : Nat) : bitOf n i = n.testBit i := by
  rw [Nat.testBit_eq_decide_div_mod_eq, bitOf, Nat.shiftRight_eq_div_pow]
  rfl

/-- The cases of an index below 8. -/
theorem lt_eight_cases {k : Nat} (h : k < 8) : k = 0 ∨ k = 1 ∨ k = 2 ∨ k = 3 ∨ k = 4 ∨ k = 5 ∨ k = 6 ∨ k = 7 := by omega

/-- The path of an address is its quotient by 2^60 (R269). -/
theorem path_eq (ea : Word) : bitsOf ea.toNat 63 60 = ea.toNat / 2 ^ 60 := by
  have := ea.isLt
  rw [bitsOf_eq]
  omega

@[simp] theorem natWord_toNat (w : Word) : natWord w.toNat = w := by simp [natWord]

/-- SignExt of R92 is the sign extension of the low n bits. -/
theorem signExt_eq_signExtend (v : Nat) {n : Nat} (hn : 0 < n) : signExt v n = (BitVec.ofNat n v).signExtend 64 := by
  rw [signExt, toWord, BitVec.signExtend, sext, BitVec.toInt_eq_msb_cond, BitVec.msb_eq_getLsbD_last, BitVec.getLsbD_ofNat,
    bitOf_eq_testBit, BitVec.toNat_ofNat, Nat.one_shiftLeft]
  have h : n - 1 < n := by omega
  simp [h]

end Sys2Proof

namespace Sys2Proof.Claims
open Sys2Proof Sys2Proof.Machine

/-- The bytes a load finds, extended, are what R118 says. -/
theorem extendBytes_eq_extended (signed : Bool) {n : Nat} (hn : 0 < n) (bs : List Byte) :
    extendBytes signed n bs = extended signed n (leNat bs) := by
  cases signed with
  | true => simp [extendBytes, extended, signExt_eq_signExtend _ (show 0 < 8 * n by omega)]
  | false => rfl

/-- Byte j of the little-endian bytes of a number (R3). -/
theorem leBytes_getD : ∀ (n v j : Nat), j < n → ((leBytes n v).getD j 0).toNat = v / 256 ^ j % 256
  | n + 1, v, 0, _ => by simp [leBytes]
  | n + 1, v, j + 1, h => by
    rw [leBytes, List.getD_cons_succ, leBytes_getD n _ j (by omega), Nat.pow_succ', Nat.div_div_eq_div_mul]

end Sys2Proof.Claims
end

section
/-! Changes beside the registers: what keeps every slip but its registers, and the marks that an access leaves (R312, R319, R424, R439). -/
namespace Sys2Proof.Machine
open Sys2Proof

/-! ### Kept, from its parts -/

/-- A change of one berth that reaches neither its slips nor its handler. -/
theorem Kept.of_unit {s t : State} {c : Ctx} (others : ∀ b, b ≠ c.b → t.berth b = s.berth b) (unit : (t.berth c.b).rest = (s.berth c.b).rest)
    (slips : ∀ i, t.slip c.b i = s.slip c.b i) (handler : (t.berth c.b).handler = (s.berth c.b).handler) : Kept s t c [] {} :=
  { berths := others
    unit := unit
    slips := fun j _ => slips j
    slip := by rw [slips]
    events := by rw [slips, Slip.count_none]
    g := fun r _ _ => by simp only [State.readG, slips, handler]
    f := fun r _ _ => by simp only [State.readF, slips]
    w := fun r _ _ => by simp only [State.readW, slips, handler]
    q := fun r _ _ => by simp only [State.readQ, slips]
    m := fun r _ _ => by simp only [State.readM, slips]
    ownSlip := fun _ => by rw [slips]
    tagged := fun _ => by rw [handler]
    handler := fun _ => handler }

/-- A change outside the berths. -/
theorem Kept.of_berths {s t : State} (c : Ctx) (h : t.berths = s.berths) : Kept s t c [] {} := by
  have hb : ∀ b, t.berth b = s.berth b := fun b => by rw [State.berth, State.berth, h]
  exact .of_unit (fun b _ => hb b) (by rw [hb]) (fun i => by rw [State.slip, State.slip, hb]) (by rw [hb])

/-- Two changes in a row, the first without events. -/
theorem Kept.trans {s t u : State} {c : Ctx} {ex ex' : List (RSet × Nat)} {ev : Ev} (h : Kept s t c ex {}) (k : Kept t u c ex' ev) :
    Kept s u c (ex ++ ex') ev :=
  { berths := fun b hb => (k.berths b hb).trans (h.berths b hb)
    unit := k.unit.trans h.unit
    slips := fun j hj => (k.slips j hj).trans (h.slips j hj)
    slip := k.slip.trans h.slip
    events := by
      have hp : (t.slip c.b c.i).rest.intrap = (s.slip c.b c.i).rest.intrap := congrArg Slip.intrap h.slip
      have he := h.events
      rw [Slip.count_none] at he
      exact k.events.trans (Slip.count_evc_congr (p := t.slip c.b c.i) (t := s.slip c.b c.i) hp he ev)
    g := fun r hr hx => (k.g r hr (fun m => hx (by simp [m]))).trans (h.g r hr (fun m => hx (by simp [m])))
    f := fun r hr hx => (k.f r hr (fun m => hx (by simp [m]))).trans (h.f r hr (fun m => hx (by simp [m])))
    w := fun r hr hx => (k.w r hr (fun m => hx (by simp [m]))).trans (h.w r hr (fun m => hx (by simp [m])))
    q := fun r hr hx => (k.q r hr (fun m => hx (by simp [m]))).trans (h.q r hr (fun m => hx (by simp [m])))
    m := fun r hr hx => (k.m r hr (fun m => hx (by simp [m]))).trans (h.m r hr (fun m => hx (by simp [m])))
    ownSlip := fun hh => (k.ownSlip hh).trans (h.ownSlip hh)
    tagged := fun hh => (k.tagged hh).trans (h.tagged hh)
    handler := fun hh => (k.handler hh).trans (h.handler hh) }

/-- What a slip's racing reads took early is none of what is kept (R313). -/
theorem Kept.of_early (s : State) (c : Ctx) (e : Slip → List (Nat × Byte)) :
    Kept s (s.modSlip c.b c.i (fun p => { p with early := e p })) c [] {} :=
  { berths := fun b hb => by simp [hb]
    unit := by rw [State.berth_modSlip_self]; rcases c.i with _ | _ | _ | i <;> rfl
    slips := fun j hj => s.slip_modSlip_of_other c.b _ hj
    slip := by rw [State.slip_modSlip_self]; rfl
    events := by rw [State.slip_modSlip_self, Slip.count_none]
    g := fun r _ _ => by simp only [State.readG, State.slip_modSlip_self, State.berth_modSlip_self, Berth.handler_setSlip]; rfl
    f := fun r _ _ => by simp only [State.readF, State.slip_modSlip_self]; rfl
    w := fun r _ _ => by simp only [State.readW, State.slip_modSlip_self, State.berth_modSlip_self, Berth.handler_setSlip]; rfl
    q := fun r _ _ => by simp only [State.readQ, State.slip_modSlip_self]; rfl
    m := fun r _ _ => by simp only [State.readM, State.slip_modSlip_self]; rfl
    ownSlip := fun _ => by rw [State.slip_modSlip_self]; rfl
    tagged := fun _ => by simp
    handler := fun _ => by simp }

/-- Two berths whose slips stand in the same states run the same slip (R218). -/
theorem Berth.running_congr {x y : Berth} (h : ∀ j, j < 4 → (y.slip j).st = (x.slip j).st) : y.running = x.running := by
  have h0 : y.s0.st = x.s0.st := h 0 (by decide)
  have h1 : y.s1.st = x.s1.st := h 1 (by decide)
  have h2 : y.s2.st = x.s2.st := h 2 (by decide)
  have h3 : y.s3.st = x.s3.st := h 3 (by decide)
  simp only [Berth.running, Berth.slips, firstSome, h0, h1, h2, h3]

/-- An index above 3 names slip 3. -/
theorem Berth.slip_min (x : Berth) (i : Nat) : x.slip (Min.min i 3) = x.slip i := by
  rcases i with _ | _ | _ | i
  iterate 3 rfl
  rw [Nat.min_eq_right (by omega)]
  rfl

/-- Each slip stands in the state it stood in. -/
theorem Kept.st {s t : State} {c : Ctx} {ex : List (RSet × Nat)} {ev : Ev} (h : Kept s t c ex ev) (j : Nat) :
    (t.slip c.b j).st = (s.slip c.b j).st := by
  by_cases hj : c.other j
  · rw [h.slips j hj]
  · have hown : ∀ u : State, u.slip c.b j = u.slip c.b c.i := fun u => by
      rw [State.slip, State.slip, ← Berth.slip_min, Classical.not_not.mp hj, Berth.slip_min]
    have hst : (t.slip c.b c.i).rest.st = (s.slip c.b c.i).rest.st := congrArg Slip.st h.slip
    rwa [hown, hown]

/-- Whoever executes still does after a change that is kept. -/
theorem Kept.ctx {s t : State} {c : Ctx} {ex : List (RSet × Nat)} {ev : Ev} (h : Kept s t c ex ev) (hcur : t.cur = s.cur)
    (hc : s.ctx = some c) : t.ctx = some c := by
  obtain ⟨hb, hsome, -⟩ := ctx_spec hc
  have hrun : (t.berth s.cur).running = (s.berth s.cur).running := by
    rw [← hb]
    exact Berth.running_congr fun j _ => h.st j
  have hhnd := h.tagged
  have hnot := h.handler
  rw [hb] at hsome hhnd hnot
  unfold State.ctx at hc ⊢
  rw [hcur]
  cases hx : (s.berth s.cur).handler with
  | none =>
    have hf : c.hnd = false := by
      simp only [hx, Option.map_eq_some_iff] at hc
      obtain ⟨i, -, rfl⟩ := hc
      rfl
    simpa only [hnot hf, hx, hrun] using hc
  | some x =>
    have ht := hhnd (hsome x hx).1
    simp only [hx] at hc
    cases hy : (t.berth s.cur).handler with
    | none => simp [hx, hy] at ht
    | some y =>
      simp only [hx, hy, Option.map_some, Option.some.injEq, Prod.mk.injEq] at ht
      simpa only [hy, ht.1] using hc

/-! ### The marks of an access -/

/-- t is s after an access has left its marks: no byte of memory and no register has changed, and the current berth is the same. -/
structure Marked (s t : State) (c : Ctx) : Prop where
  mem : t.mem = s.mem
  cur : t.cur = s.cur
  kept : Kept s t c [] {}

theorem Marked.refl (s : State) (c : Ctx) : Marked s s c := ⟨rfl, rfl, .of_berths c rfl⟩

theorem Marked.trans {s t u : State} {c : Ctx} (h : Marked s t c) (k : Marked t u c) : Marked s u c :=
  ⟨k.mem.trans h.mem, k.cur.trans h.cur, h.kept.trans k.kept⟩

theorem Marked.byteAt {s t : State} {c : Ctx} (h : Marked s t c) (k : Nat) : t.byteAt k = s.byteAt k := by
  rw [State.byteAt, State.byteAt, h.mem]

/-- Marks left one after another, one for each element of a list. -/
theorem Marked.foldl {α : Type} {c : Ctx} {f : State → α → State} (h : ∀ t a, Marked t (f t a) c) :
    ∀ (l : List α) (s : State), Marked s (l.foldl f s) c
  | [], s => .refl s c
  | a :: l, s => (h s a).trans (Marked.foldl h l (f s a))

theorem marked_setSync (s : State) (c : Ctx) (k : Nat) (w : SyncWord) : Marked s (s.setSync k w) c := ⟨rfl, rfl, .of_berths c rfl⟩
theorem marked_setGran (s : State) (c : Ctx) (k : Nat) (g : Gran) : Marked s (s.setGran k g) c := ⟨rfl, rfl, .of_berths c rfl⟩
theorem marked_freshened (s : State) (c : Ctx) : Marked s s.freshened c := ⟨rfl, rfl, .of_berths c rfl⟩

/-- The first change of a unit is recorded in its domain's journals alone (R424). -/
theorem marked_jot (s : State) (c : Ctx) (b i : Nat) (u : Unit') (ch : Option Change) : Marked s (s.jot b i u ch) c := by
  unfold State.jot
  split
  · exact .refl s c
  · split
    · exact .refl s c
    · split
      · exact .refl s c
      · exact ⟨rfl, rfl, .of_berths c rfl⟩

theorem marked_jotScratch (s : State) (c : Ctx) (b off : Nat) : Marked s (s.jotScratch b off) c := by
  unfold State.jotScratch
  split
  · exact marked_jot s c _ _ _ _
  · exact .refl s c

theorem marked_jotSpan (s : State) (c : Ctx) (b off n : Nat) : Marked s (s.jotSpan b off n) c :=
  (marked_jotScratch s c b off).trans (.foldl (fun t _ => marked_jotScratch t c b _) _ _)

theorem marked_heal (s : State) (c : Ctx) (k n : Nat) : Marked s (s.heal k n) c := by
  unfold State.heal
  split
  · exact .refl s c
  · exact ⟨rfl, rfl, .of_berths c rfl⟩

/-- A timing event of the berth changes one of its counters EVC8 to EVC15 (R442). -/
theorem marked_timing (s : State) (c : Ctx) (k : Nat) : Marked s (s.timing c.b k) c := by
  have hx : ∀ x : Berth, x.addEvc k 1 = { x with evcHi := (x.addEvc k 1).evcHi } := fun _ => rfl
  refine ⟨rfl, rfl, .of_unit (fun b hb => ?_) ?_ (fun i => ?_) ?_⟩
  · rw [State.timing, State.berth_modBerth_of_ne _ _ hb]
  · rw [State.timing, State.berth_modBerth_self]; rfl
  · rw [State.timing, State.slip, State.berth_modBerth_self, hx]
    rcases i with _ | _ | _ | i <;> rfl
  · rw [State.timing, State.berth_modBerth_self]; rfl

theorem marked_markOverlap (s : State) (c : Ctx) (key gen granule : Nat) : Marked s (s.markOverlap c.b key gen granule) c := by
  unfold State.markOverlap
  split
  · exact .refl s c
  · exact ((marked_jotScratch s c _ _).trans (marked_setSync _ c _ _)).trans (marked_timing _ c _)

/-- A plain access marks a granule: overlaps, and the touch mark (R319). -/
theorem marked_touch (s : State) (c : Ctx) (off : Nat) : Marked s (s.touch c off) c := by
  have hrecord : ∀ (t : State) (r : Nat × Nat), Marked t (match SMap.get? t.syncs r.1 with
      | some w => if genLe w.aq r.2 then t.markOverlap c.b r.1 r.2 (scratchKey c.b off) else t
      | none => t) c := fun t r => by
    split
    · split
      · exact marked_markOverlap t c _ _ _
      · exact .refl t c
    · exact .refl t c
  unfold State.touch
  split
  · exact .refl s c
  · have hrecords := Marked.foldl hrecord (s.gran (scratchKey c.b off)).records s
    simp only
    split
    · exact hrecords
    · exact hrecords.trans ((marked_jotScratch _ c _ _).trans (marked_setGran _ c _ _))

theorem marked_touchAll (s : State) (c : Ctx) (off z : Nat) : Marked s (s.touchAll c off z) c := .foldl (fun t g => marked_touch t c g) _ s

theorem marked_dropEarly (s : State) (c : Ctx) (key n : Nat) : Marked s (s.modSlip c.b c.i (fun p => p.dropEarly key n)) c :=
  ⟨rfl, rfl, .of_early s c _⟩

theorem marked_storedOver (s : State) (c : Ctx) (key n : Nat) : Marked s (s.storedOver c.b c.i key n) c := by
  unfold State.storedOver
  split
  · exact marked_dropEarly s c key n
  · exact .refl s c

/-- A load leaves no more than that its racing reads drop what they took (R312, R313). -/
theorem marked_loadBytes (s : State) (c : Ctx) (sys : Bool) (key n : Nat) : Marked s (s.loadBytes c sys key n).1 c := by
  unfold State.loadBytes
  split
  · exact marked_dropEarly s c key n
  · exact .refl s c

/-! ### Memory written beside the registers -/

theorem kept_poke (s : State) (c : Ctx) (k : Nat) (bs : List Byte) : Kept s (s.poke k bs) c [] {} := .of_berths c rfl

end Sys2Proof.Machine
end

section
/-! One load and one store that pass their checks (spec/04 R116 to R122, spec/15 R295 to R297). -/
namespace Sys2Proof.Machine
open Sys2Proof

/-! ### A register written, and the queue's step -/

@[simp] theorem State.advance_mem (s : State) (c : Ctx) (br : Option Branch) (x : Bool) : (s.advance c br x).mem = s.mem :=
  (congrArg State.mem (keptAll_advance s c br x).rest :)

theorem readG_writeG_advance {s : State} {c : Ctx} (hc : s.ctx = some c) {d : Nat} (hd : d < 32) (v : Word) :
    ((s.writeG c d v).advance c none true).readG c d 0 = if d = 0 then 0 else v := by
  rw [(keptAll_advance (s.writeG c d v) c none true).g d hd (by simp), State.readG_writeG hc, if_pos rfl]

theorem readW_writeW_advance {s : State} {c : Ctx} (hc : s.ctx = some c) {d : Nat} (hd : d < 32) (v : Wide) :
    ((s.writeW c d v).advance c none true).readW c d 0 = v := by
  rw [(keptAll_advance (s.writeW c d v) c none true).w d hd (by simp), State.readW_writeW hc, if_pos rfl]

theorem readF_writeF_advance (s : State) (c : Ctx) {d : Nat} (hd : d < 32) (v : W32) :
    ((s.writeF c d v).advance c none true).readF c d 0 = v := by
  rw [(keptAll_advance (s.writeF c d v) c none true).f d hd (by simp), State.readF_writeF, if_pos rfl]

/-- Marks, and then a change of registers and the queue: memory is as it was, and all but those registers is kept. -/
theorem Marked.then_kept {s u t : State} {c : Ctx} {ex : List (RSet × Nat)} {ev : Ev} (h : Marked s u c) (k : KeptAll u t c ex ev) :
    t.mem = s.mem ∧ Kept s t c ex ev :=
  ⟨(congrArg State.mem k.rest).trans h.mem, h.kept.trans k.toKept⟩

end Sys2Proof.Machine

namespace Sys2Proof.Claims
open Sys2Proof Sys2Proof.Machine

/-! ### Loads -/

/-- A load whose checks pass goes on with the bytes it finds. -/
theorem loadK_of_loadsAt {s t : State} {c : Ctx} {ea : Word} {n key : Nat} {bs : List Byte} (h : LoadsAt s c ea n key bs t) (word : Nat)
    (k : State → List Byte → Res) : s.loadK c word ea n k = k t bs := by
  obtain ⟨hpoison, -, ⟨hpath, hfault, rfl, rfl, rfl⟩ | ⟨hpath, ⟨o, hreach⟩, hbars, hload⟩ | ⟨hpath, ⟨o, hreach⟩, hbars, hload⟩⟩ := h
  · simp [State.loadK, hpath, hfault, hpoison]
  · simp [State.loadK, hpath, hreach, hbars, hpoison, hload]
  · simp [State.loadK, hpath, hreach, hbars, hpoison, hload]

/-- What such a load leaves before it writes its register. -/
theorem LoadsAt.marked {s t : State} {c : Ctx} {ea : Word} {n key : Nat} {bs : List Byte} (h : LoadsAt s c ea n key bs t) : Marked s t c := by
  obtain ⟨-, -, ⟨-, -, -, -, rfl⟩ | ⟨-, -, -, hload⟩ | ⟨-, -, -, hload⟩⟩ := h
  · exact marked_touchAll s c _ n
  · simpa [hload] using marked_loadBytes s c false key n
  · simpa [hload] using marked_loadBytes s c true key n

/-- A load into gD: an instruction that runs and whose meaning is one load. -/
theorem loadsG {i : Instr} {s : State} {c : Ctx} {md : Mode} {uses : List Use} {word d n : Nat} {ea : Word} {signed : Bool}
    {body : Ctx → State → Res} (hd : d < 32) (hn : 0 < n) (h : Runs s c md uses) (he : exec i s = instr word md uses body s)
    (hb : body c s = s.loadK c word ea n (fun t bs => .ok (t.writeG c d (extendBytes signed n bs)))) : LoadsG i s c d ea n signed := by
  intro key bs t0 hl
  exact ⟨_, by rw [he, instr_runs h, hb, loadK_of_loadsAt hl, extendBytes_eq_extended signed hn, finish_ok],
    readG_writeG_advance (hl.marked.kept.ctx hl.marked.cur h.1) hd _, hl.marked.then_kept ((keptAll_writeG d _).advance none true)⟩

/-! ### Stores -/

/-- A store whose checks pass goes on in a state that differs from the one before in marks and the stored bytes. -/
theorem storeK_of_storesAt {s : State} {c : Ctx} {ea : Word} {key : Nat} {bs : List Byte} (h : StoresAt s c ea bs.length key) (word : Nat)
    (k : State → Res) : ∃ u, Marked s u c ∧ s.storeK c word ea bs k = k (u.poke key bs) := by
  obtain ⟨hbars, hpoison, ⟨hpath, hfault, rfl⟩ | ⟨hpath, o, hreach⟩ | ⟨hpath, o, hreach⟩⟩ := h
  · let off := bitsOf ea.toNat 18 0
    refine ⟨((s.touchAll c off bs.length).jotSpan c.b off bs.length).heal (scratchKey c.b off) bs.length,
      ((marked_touchAll s c _ _).trans (marked_jotSpan _ c c.b _ _)).trans (marked_heal _ c _ _), ?_⟩
    simp [State.storeK, hpath, hfault, hbars, hpoison, State.storeScratch, off]
  · have hover := marked_storedOver s c key bs.length
    cases o with
    | false =>
      refine ⟨_, hover.trans (marked_heal _ c key bs.length), ?_⟩
      simp [State.storeK, hpath, hreach, hbars, hpoison]
    | true =>
      refine ⟨_, (hover.trans (marked_jot _ c c.b c.i (.page (key / 65536 * 65536)) (some (.bytes key bs.length)))).trans
        (marked_heal _ c key bs.length), ?_⟩
      simp [State.storeK, hpath, hreach, hbars, hpoison]
  · refine ⟨_, (marked_storedOver s c key bs.length).trans (marked_heal _ c key bs.length), ?_⟩
    simp [State.storeK, hpath, hreach, hbars, hpoison]

/-- The bytes of v that were poked are stored (R3). -/
theorem stored_poke {s u : State} {c : Ctx} (h : Marked s u c) (key n v : Nat) : Stored s (u.poke key (leBytes n v)) key n v := by
  intro k
  rw [State.byteAt_poke, length_leBytes, h.byteAt]
  by_cases hk : key ≤ k ∧ k < key + n
  · rw [if_pos hk, if_pos hk, leBytes_getD n v _ (by omega)]
  · rw [if_neg hk, if_neg hk]

/-- A store: an instruction that runs and whose meaning is one store. -/
theorem storesV {i : Instr} {s : State} {c : Ctx} {md : Mode} {uses : List Use} {word n v : Nat} {ea : Word}
    {body : Ctx → State → Res} (h : Runs s c md uses) (he : exec i s = instr word md uses body s)
    (hb : body c s = s.storeK c word ea (leBytes n v) .ok) : StoresV i s c ea n v := by
  intro key hs
  obtain ⟨u, hu, hk⟩ := storeK_of_storesAt (bs := leBytes n v) (by rwa [length_leBytes]) word .ok
  refine ⟨_, by rw [he, instr_runs h, hb, hk, finish_ok], fun k => ?_,
    hu.kept.trans ((kept_poke u c key _).trans (keptAll_advance _ c none true).toKept)⟩
  rw [State.byteAt, State.advance_mem]
  exact stored_poke hu key n v k

/-! ### The forms -/

/-- Each load with an offset or an index is its shared meaning, at its own size and extension. -/
theorem exec_loadOps : ∀ e ∈ loadOps,
    (∀ d a x i s, exec (e.1 d a x i) s =
      loadOff (encode (e.1 d a x i)) d.toNat a.toNat x.toNat (scaled i e.2.2.1) e.2.2.1 e.2.2.2 s) ∧
    (∀ d a x b y s, exec (e.2.1 d a x b y) s =
      loadIdx (encode (e.2.1 d a x b y)) d.toNat a.toNat x.toNat b.toNat y.toNat e.2.2.1 e.2.2.2 s) := by
  simp only [loadOps, List.forall_mem_cons]
  refine ⟨⟨?_, ?_⟩, ⟨?_, ?_⟩, ⟨?_, ?_⟩, ⟨?_, ?_⟩, ⟨?_, ?_⟩, ⟨?_, ?_⟩, ⟨?_, ?_⟩, List.forall_mem_nil _⟩ <;> intros <;> rfl

theorem loadOps_size : ∀ e ∈ loadOps, 0 < e.2.2.1 := by decide

/-- Each store with an offset or an index is its shared meaning, at its own size. -/
theorem exec_storeOps : ∀ e ∈ storeOps,
    (∀ r a x i s, exec (e.1 r a x i) s = storeOff (encode (e.1 r a x i)) r.toNat a.toNat x.toNat (scaled i e.2.2) e.2.2 s) ∧
    (∀ r a x b y s, exec (e.2.1 r a x b y) s =
      storeIdx (encode (e.2.1 r a x b y)) r.toNat a.toNat x.toNat b.toNat y.toNat e.2.2 s) := by
  simp only [storeOps, List.forall_mem_cons]
  refine ⟨⟨?_, ?_⟩, ⟨?_, ?_⟩, ⟨?_, ?_⟩, ⟨?_, ?_⟩, List.forall_mem_nil _⟩ <;> intros <;> rfl

theorem exec_cLd (d : BitVec 5) (i : BitVec 6) (s : State) :
    exec (.cLd d i) s = loadOff (encode (.cLd d i)) d.toNat 2 0 (BitVec.ofNat 64 (8 * i.toNat)) 8 false s := by
  rw [Nat.mul_comm]; rfl

theorem exec_cLw (d : BitVec 5) (i : BitVec 6) (s : State) :
    exec (.cLw d i) s = loadOff (encode (.cLw d i)) d.toNat 2 0 (BitVec.ofNat 64 (4 * i.toNat)) 4 true s := by
  rw [Nat.mul_comm]; rfl

theorem exec_cSd (r : BitVec 5) (i : BitVec 6) (s : State) :
    exec (.cSd r i) s = storeOff (encode (.cSd r i)) r.toNat 2 0 (BitVec.ofNat 64 (8 * i.toNat)) 8 s := by
  rw [Nat.mul_comm]; rfl

theorem exec_cSw (r : BitVec 5) (i : BitVec 6) (s : State) :
    exec (.cSw r i) s = storeOff (encode (.cSw r i)) r.toNat 2 0 (BitVec.ofNat 64 (4 * i.toNat)) 4 s := by
  rw [Nat.mul_comm]; rfl

theorem exec_flw (d a : BitVec 5) (x : BitVec 3) (i : BitVec 11) (s : State) :
    exec (.flw d a x i) s = instr (encode (.flw d a x i)) {} [.src .g a.toNat x.toNat, .dst .f d.toNat]
      (fun c s => s.loadK c (encode (.flw d a x i)) (s.readG c a.toNat x.toNat + scaled i 4) 4
        (fun t bs => .ok (t.writeF c d.toNat (BitVec.ofNat 32 (leNat bs))))) s := rfl

theorem exec_vl (d a : BitVec 5) (x : BitVec 3) (i : BitVec 10) (s : State) :
    exec (.vl d a x i) s = instr (encode (.vl d a x i)) {} [.src .g a.toNat x.toNat, .dst .w d.toNat]
      (fun c s => s.loadK c (encode (.vl d a x i)) (s.readG c a.toNat x.toNat + scaled i 64) 64
        (fun t bs => .ok (t.writeW c d.toNat (BitVec.ofNat 512 (leNat bs))))) s := rfl

theorem exec_fsw (r a : BitVec 5) (x : BitVec 3) (i : BitVec 11) (s : State) :
    exec (.fsw r a x i) s = instr (encode (.fsw r a x i)) {} [.src .g a.toNat x.toNat, .src .f r.toNat 0]
      (fun c s => s.storeK c (encode (.fsw r a x i)) (s.readG c a.toNat x.toNat + scaled i 4) (leBytes 4 (s.readF c r.toNat 0).toNat) .ok) s := rfl

theorem exec_vs (r a : BitVec 5) (x : BitVec 3) (i : BitVec 10) (s : State) :
    exec (.vs r a x i) s = instr (encode (.vs r a x i)) {} [.src .g a.toNat x.toNat, .src .w r.toNat 0]
      (fun c s => s.storeK c (encode (.vs r a x i)) (s.readG c a.toNat x.toNat + scaled i 64) (leBytes 64 (s.readW c r.toNat 0).toNat) .ok) s := rfl

/-! ### A load with an offset or an index completes -/

/-- In a handler no f register is named, so one that runs is in none (R226). -/
theorem hnd_false_of_names_f {s : State} {c : Ctx} {md : Mode} {uses : List Use} (h : Runs s c md uses)
    (hf : uses.any Use.outsideBank = true) : c.hnd = false := by
  cases hh : c.hnd with
  | false => rfl
  | true => rw [Runs.inBank h hh] at hf; cases hf

theorem loadOff_loadsG {i : Instr} {s : State} {c : Ctx} {word a x n : Nat} {d : BitVec 5} {off : Word} {signed : Bool} (hn : 0 < n)
    (h : Runs s c {} [.src .g a x, .dst .g d.toNat]) (he : exec i s = loadOff word d.toNat a x off n signed s) :
    LoadsG i s c d.toNat (s.readG c a x + off) n signed := loadsG d.isLt hn h he rfl

theorem loadIdx_loadsG {i : Instr} {s : State} {c : Ctx} {word a x b y n : Nat} {d : BitVec 5} {signed : Bool} (hn : 0 < n)
    (h : Runs s c {} [.src .g a x, .src .g b y, .dst .g d.toNat]) (he : exec i s = loadIdx word d.toNat a x b y n signed s) :
    LoadsG i s c d.toNat (s.readG c a x + s.readG c b y) n signed := loadsG d.isLt hn h he rfl

end Sys2Proof.Claims

namespace Sys2Proof.Proofs
open Sys2Proof Sys2Proof.Machine Sys2Proof.Claims

/-- Settles O5: a load whose checks pass leaves marks alone before its register is written. -/
theorem loadsComplete : Obligations.LoadsComplete := by
  intro s c d a b x y
  refine ⟨fun e he i => ⟨fun h => ?_, fun h => ?_⟩, fun i h => ⟨?_, ?_⟩, fun i key bs t0 h hl => ?_, fun i key bs t0 h hl => ?_⟩
  · exact loadOff_loadsG (loadOps_size e he) h ((exec_loadOps e he).1 d a x i s)
  · exact loadIdx_loadsG (loadOps_size e he) h ((exec_loadOps e he).2 d a x b y s)
  · exact loadOff_loadsG (by decide) h (exec_cLd d i s)
  · exact loadOff_loadsG (by decide) h (exec_cLw d i s)
  · exact ⟨_, by rw [exec_flw, instr_runs h, loadK_of_loadsAt hl, finish_ok], readF_writeF_advance t0 c d.isLt _,
      hl.marked.then_kept ((keptAll_writeF (hnd_false_of_names_f h (by simp [Use.outsideBank, RSet.outsideBank])) d.toNat _).advance none true)⟩
  · exact ⟨_, by rw [exec_vl, instr_runs h, loadK_of_loadsAt hl, finish_ok],
      readW_writeW_advance (hl.marked.kept.ctx hl.marked.cur h.1) d.isLt _, hl.marked.then_kept ((keptAll_writeW d.toNat _).advance none true)⟩

/-- Settles O6: a store whose checks pass leaves marks and its bytes, and nothing else. -/
theorem storesComplete : Obligations.StoresComplete := by
  intro s c r a b x y
  refine ⟨fun e he i => ⟨fun h => ?_, fun h => ?_⟩, fun i h => ⟨?_, ?_⟩, fun i h => ?_, fun i h => ?_⟩
  · exact storesV h ((exec_storeOps e he).1 r a x i s) rfl
  · exact storesV h ((exec_storeOps e he).2 r a x b y s) rfl
  · exact storesV h (exec_cSd r i s) rfl
  · exact storesV h (exec_cSw r i s) rfl
  · exact storesV h (exec_fsw r a x i s) rfl
  · exact storesV h (exec_vs r a x i s) rfl

end Sys2Proof.Proofs
end

section
/-! Where an access goes no further than its checks: the tables of R119 and R295, R146, and the device registers of R276. -/
namespace Sys2Proof.Machine
open Sys2Proof

/-! ### The LOCAL path (R119) -/

theorem State.localFault_outside (s : State) (c : Ctx) {a : Nat} (z : Nat) (h : a / 2 ^ 19 % 2 ^ 41 ≠ 0) :
    s.localFault c a z = some (9, natWord a) := by
  simp only [State.localFault, bitsOf_eq]
  exact if_pos h

theorem State.localFault_misaligned (s : State) (c : Ctx) {a z : Nat} (h : a / 2 ^ 19 % 2 ^ 41 = 0) (hz : a % z ≠ 0) :
    s.localFault c a z = some (8, natWord a) := by
  simp only [State.localFault, bitsOf_eq]
  rw [if_neg (Classical.not_not.mpr h), if_pos hz]

theorem State.localFault_bank {s : State} {c : Ctx} {a z : Nat} (h : a / 2 ^ 19 % 2 ^ 41 = 0) (hz : a % z = 0)
    (hb : s.holdsBank c (a % 2 ^ 19) = false) : s.localFault c a z = some (12, natWord a) := by
  simp only [State.localFault, bitsOf_low, bitsOf_eq a 59 19]
  rw [if_neg (Classical.not_not.mpr h), if_neg (Classical.not_not.mpr hz), if_pos (by rw [hb]; rfl)]

/-- An access of z bytes that touches a defined sync word. -/
theorem State.localFault_sync {s : State} {c : Ctx} {a z : Nat} (h : a / 2 ^ 19 % 2 ^ 41 = 0) (hz : a % z = 0)
    (hb : s.holdsBank c (a % 2 ^ 19) = true)
    (hs : ∃ j, 16 * j < z ∧ (SMap.get? s.syncs (scratchKey c.b (a % 2 ^ 19 / 16 * 16 + 16 * j))).isSome = true) :
    s.localFault c a z = some (21, natWord a) := by
  have hany : (upTo ((z + 15) / 16)).any (fun j => (SMap.get? s.syncs (scratchKey c.b (a % 2 ^ 19 / 16 * 16 + 16 * j))).isSome) = true := by
    obtain ⟨j, hj, hw⟩ := hs
    exact List.any_eq_true.mpr ⟨j, List.mem_range.mpr (by omega), hw⟩
  simp only [State.localFault, bitsOf_low, bitsOf_eq a 59 19]
  rw [if_neg (Classical.not_not.mpr h), if_neg (Classical.not_not.mpr hz), if_neg (by rw [hb]; decide), if_pos hany]

/-! ### The GLOBAL path (R295) -/

/-- A plain access, as R280 names it. -/
def accOf (store : Bool) : Acc := if store then .store else .load

@[simp] theorem accOf_false : accOf false = .load := rfl
@[simp] theorem accOf_true : accOf true = .store := rfl

theorem accOf_beq_fetch (store : Bool) : (accOf store == Acc.fetch) = false := by cases store <;> rfl

theorem ownerOf_eq (e : Nat) : ownerOf e = e / 2 ^ 56 % 256 := bitsOf_eq e 63 56

/-- The classes that admit a plain access (R280): CONST a load, OWNED its owner's, HOSTIO a control berth's. -/
theorem classAdmits_accOf (e : Nat) (store own ctl : Bool) : classAdmits e (accOf store) own ctl = true ↔
    (e / 8 % 8 = 1 ∧ store = false) ∨ (e / 8 % 8 = 2 ∧ own = true) ∨ (e / 8 % 8 = 5 ∧ ctl = true) := by
  have hlt : e / 8 % 8 < 8 := Nat.mod_lt _ (by decide)
  have hclass : bitsOf e 5 3 = e / 8 % 8 := bitsOf_eq e 5 3
  simp only [classAdmits, classOf, hclass]
  generalize e / 8 % 8 = k at hlt
  obtain rfl | rfl | rfl | rfl | rfl | rfl | rfl | rfl := lt_eight_cases hlt <;> cases store <;> simp [accOf]

/-- Those classes for whoever executes: the owner's number is the entry's top byte. -/
theorem slip_admits_accOf (e : Nat) (store : Bool) (s : State) (c : Ctx) :
    classAdmits e (accOf store) ((s.slip c.b c.i).owns (ownerOf e)) (isControl c.b) = true ↔ (e / 8 % 8 = 1 ∧ store = false) ∨
      (e / 8 % 8 = 2 ∧ (s.slip c.b c.i).owns (e / 2 ^ 56 % 256) = true) ∨ (e / 8 % 8 = 5 ∧ isControl c.b = true) := by
  rw [classAdmits_accOf, ownerOf_eq]

theorem State.reachGlobal_beyond (s : State) (c : Ctx) (acc : Acc) {a : Nat} (z : Nat) (h : a / 2 ^ 57 % 2 ^ 3 ≠ 0) :
    s.reachGlobal c acc a z = .trap 9 := by
  rw [State.reachGlobal, bitsOf_eq]
  exact if_pos h

theorem State.reachGlobal_misaligned (s : State) (c : Ctx) (acc : Acc) {a z : Nat} (h : a / 2 ^ 57 % 2 ^ 3 = 0) (hz : a % z ≠ 0) :
    s.reachGlobal c acc a z = .trap 8 := by
  rw [State.reachGlobal, bitsOf_eq a 59 57]
  exact (if_neg (Classical.not_not.mpr h)).trans (if_pos hz)

section
variable {s : State} {c : Ctx} {store : Bool} {a z : Nat} (h : a / 2 ^ 57 % 2 ^ 3 = 0) (hz : a % z = 0)
include h hz

theorem State.reachGlobal_malformed (ht : s.translate c.b false (a % 2 ^ 57) = .malformed) :
    s.reachGlobal c (accOf store) a z = .trap 10 := by
  simp only [State.reachGlobal, bitsOf_low, accOf_beq_fetch, ht, bitsOf_eq a 59 57]
  rw [if_neg (Classical.not_not.mpr h), if_neg (Classical.not_not.mpr hz)]

theorem State.reachGlobal_absent (ht : s.translate c.b false (a % 2 ^ 57) = .absent) :
    s.reachGlobal c (accOf store) a z = .absent (a % 2 ^ 57 / 2 ^ 16) := by
  simp only [State.reachGlobal, bitsOf_low, accOf_beq_fetch, ht, bitsOf_eq a 59 57]
  exact (if_neg (Classical.not_not.mpr h)).trans (if_neg (Classical.not_not.mpr hz))

theorem State.reachGlobal_refused {e base size : Nat} (ht : s.translate c.b false (a % 2 ^ 57) = .leaf e base size)
    (ha : classAdmits e (accOf store) ((s.slip c.b c.i).owns (ownerOf e)) (isControl c.b) = false) :
    s.reachGlobal c (accOf store) a z = .trap 10 := by
  simp only [State.reachGlobal, bitsOf_low, accOf_beq_fetch, ht, ha, bitsOf_eq a 59 57]
  rw [if_neg (Classical.not_not.mpr h), if_neg (Classical.not_not.mpr hz)]
  rfl

/-- A page in migration holds the access (R293). -/
theorem State.reachGlobal_held {e base size : Nat} (ht : s.translate c.b false (a % 2 ^ 57) = .leaf e base size)
    (ha : classAdmits e (accOf store) ((s.slip c.b c.i).owns (ownerOf e)) (isControl c.b) = true) (hm : e.testBit 6 = true) :
    s.reachGlobal c (accOf store) a z = .held := by
  simp only [State.reachGlobal, bitsOf_low, accOf_beq_fetch, ht, ha, bitOf_eq_testBit, hm, bitsOf_eq a 59 57]
  rw [if_neg (Classical.not_not.mpr h), if_neg (Classical.not_not.mpr hz)]
  rfl

end

/-- A page that is not resident and not yet asked for: the walker posts its notice (R288). -/
theorem State.absentRes_posts {s : State} {c : Ctx} {v : Nat} (tv : Word)
    (hf : (s.slip c.b c.i).pageFailed ≠ some (pageName (s.berth c.b).asid v))
    (hn : s.notices.any (fun m => m.names (c.b / 2 ^ 13) (s.berth c.b).asid v) = false) :
    s.absentRes c v tv = .trap ((s.noticeFor c.b v none).timing c.b 12) 11 tv := by
  simp only [State.absentRes]
  rw [if_neg hf, if_neg (by rw [Bool.not_eq_true]; exact hn)]

/-! ### The SYSTEM path (R276) -/

/-- The device range is the top sixteenth of the physical addresses (R276). -/
theorem isDevice_iff {pa : Nat} (h : pa < 2 ^ 52) : isDevice pa = true ↔ pa / 2 ^ 48 = 15 := by
  simp only [isDevice, Bool.and_eq_true, decide_eq_true_eq]
  omega

theorem State.reachSystem_unprivileged {s : State} {c : Ctx} (a z : Nat) (hp : s.privOf c = false) : s.reachSystem c a z = .trap 3 := by
  simp [State.reachSystem, hp]

/-- Where the map has a place for a byte (R276): in memory, or in the device range. -/
theorem State.mapped_iff (s : State) (b a : Nat) : (s.inMemory (pkgOf b) (a % 2 ^ 52) 1 || isDevice (a % 2 ^ 52)) = true ↔
    s.inMemory (b / 2 ^ 13) (a % 2 ^ 52) 1 = true ∨ a % 2 ^ 52 / 2 ^ 48 = 15 := by
  rw [Bool.or_eq_true, isDevice_iff (Nat.mod_lt _ (by decide))]
  rfl

theorem State.reachSystem_nowhere {s : State} {c : Ctx} {a : Nat} (z : Nat) (hp : s.privOf c = true)
    (h : a / 2 ^ 52 % 2 ^ 8 ≠ 0 ∨ (s.inMemory (c.b / 2 ^ 13) (a % 2 ^ 52) 1 = false ∧ a % 2 ^ 52 / 2 ^ 48 ≠ 15)) :
    s.reachSystem c a z = .trap 9 := by
  have hm := s.mapped_iff c.b a
  simp only [State.reachSystem, bitsOf_low, bitsOf_eq a 59 52, hp]
  rw [if_neg (by decide), if_pos]
  rw [Bool.or_eq_true, decide_eq_true_eq, Bool.not_eq_true', ← Bool.not_eq_true, hm, not_or, Bool.not_eq_true]
  exact h

theorem State.reachSystem_misaligned {s : State} {c : Ctx} {a z : Nat} (hp : s.privOf c = true) (h : a / 2 ^ 52 % 2 ^ 8 = 0)
    (hm : s.inMemory (c.b / 2 ^ 13) (a % 2 ^ 52) 1 = true ∨ a % 2 ^ 52 / 2 ^ 48 = 15) (hz : a % z ≠ 0) :
    s.reachSystem c a z = .trap 8 := by
  have hm := (s.mapped_iff c.b a).mpr hm
  simp only [State.reachSystem, bitsOf_low, bitsOf_eq a 59 52, hp]
  rw [if_neg (by decide), if_neg, if_pos hz]
  rw [Bool.or_eq_true, decide_eq_true_eq, Bool.not_eq_true', hm]
  simpa using h

/-! ### What the checks answer, of a load and a store alike -/

/-- The answer of an access of n bytes that its checks let go no further (R119, R295); none where they all pass or the access is to a
device register. -/
def State.checkRes (s : State) (c : Ctx) (word : Nat) (store : Bool) (ea : Word) (n : Nat) : Option Res :=
  match bitsOf ea.toNat 63 60 with
  | 1 => (s.localFault c ea.toNat n).map (fun f => .trap s f.1 f.2)
  | 0 =>
    match s.reachGlobal c (accOf store) ea.toNat n with
    | .trap cause => some (.trap s cause ea)
    | .held => some (.stay s)
    | .absent v => some (s.absentRes c v ea)
    | .device _ => none
    | .hit _ _ => none
  | 15 =>
    match s.reachSystem c ea.toNat n with
    | .trap cause => some (.trap s cause (if cause = 3 then natWord word else ea))
    | .held => none
    | .absent _ => none
    | .device _ => none
    | .hit _ _ => none
  | _ => some (.trap s 9 ea)

/-- A load answers as its checks do. -/
theorem State.loadK_of_checkRes {s : State} {c : Ctx} {word n : Nat} {ea : Word} {r : Res} (h : s.checkRes c word false ea n = some r)
    (k : State → List Byte → Res) : s.loadK c word ea n k = r := by
  unfold State.checkRes at h
  split at h
  next hp =>
    obtain ⟨⟨cause, tv⟩, hf, rfl⟩ := Option.map_eq_some_iff.mp h
    simp only [State.loadK, hp, hf]
  next hp =>
    rw [accOf_false] at h
    cases hr : s.reachGlobal c .load ea.toNat n <;> rw [hr] at h <;> cases h <;> simp only [State.loadK, hp, hr]
  next hp =>
    cases hr : s.reachSystem c ea.toNat n <;> rw [hr] at h <;> cases h
    simp only [State.loadK, hp, hr]
  next =>
    cases h
    unfold State.loadK
    simp only

/-- A store answers as its checks do. -/
theorem State.storeK_of_checkRes {s : State} {c : Ctx} {word : Nat} {ea : Word} {bs : List Byte} {r : Res}
    (h : s.checkRes c word true ea bs.length = some r) (k : State → Res) : s.storeK c word ea bs k = r := by
  unfold State.checkRes at h
  split at h
  next hp =>
    obtain ⟨⟨cause, tv⟩, hf, rfl⟩ := Option.map_eq_some_iff.mp h
    simp only [State.storeK, hp, hf]
  next hp =>
    rw [accOf_true] at h
    cases hr : s.reachGlobal c .store ea.toNat bs.length <;> rw [hr] at h <;> cases h <;> simp only [State.storeK, hp, hr]
  next hp =>
    cases hr : s.reachSystem c ea.toNat bs.length <;> rw [hr] at h <;> cases h
    simp only [State.storeK, hp, hr]
  next =>
    cases h
    unfold State.storeK
    simp only

section
variable {s : State} {c : Ctx} {store : Bool} {ea : Word} {n : Nat} (word : Nat)

/-- On a path that none reaches (R119). -/
theorem State.checkRes_pathless (h0 : ea.toNat / 2 ^ 60 ≠ 0) (h1 : ea.toNat / 2 ^ 60 ≠ 1) (h15 : ea.toNat / 2 ^ 60 ≠ 15) :
    s.checkRes c word store ea n = some (.trap s 9 ea) := by
  rw [← path_eq] at h0 h1 h15
  unfold State.checkRes
  simp only

theorem State.checkRes_local {cause : Nat} (hp : ea.toNat / 2 ^ 60 = 1)
    (hf : s.localFault c ea.toNat n = some (cause, natWord ea.toNat)) : s.checkRes c word store ea n = some (.trap s cause ea) := by
  rw [← path_eq] at hp
  simp [State.checkRes, hp, hf]

theorem State.checkRes_global_trap {cause : Nat} (hp : ea.toNat / 2 ^ 60 = 0)
    (hr : s.reachGlobal c (accOf store) ea.toNat n = .trap cause) : s.checkRes c word store ea n = some (.trap s cause ea) := by
  rw [← path_eq] at hp
  simp only [State.checkRes, hp, hr]

theorem State.checkRes_global_held (hp : ea.toNat / 2 ^ 60 = 0) (hr : s.reachGlobal c (accOf store) ea.toNat n = .held) :
    s.checkRes c word store ea n = some (.stay s) := by
  rw [← path_eq] at hp
  simp only [State.checkRes, hp, hr]

theorem State.checkRes_global_absent {v : Nat} (hp : ea.toNat / 2 ^ 60 = 0) (hr : s.reachGlobal c (accOf store) ea.toNat n = .absent v) :
    s.checkRes c word store ea n = some (s.absentRes c v ea) := by
  rw [← path_eq] at hp
  simp only [State.checkRes, hp, hr]

theorem State.checkRes_system {cause : Nat} (hp : ea.toNat / 2 ^ 60 = 15) (hr : s.reachSystem c ea.toNat n = .trap cause) :
    s.checkRes c word store ea n = some (.trap s cause (if cause = 3 then natWord word else ea)) := by
  rw [← path_eq] at hp
  simp only [State.checkRes, hp, hr]

end

end Sys2Proof.Machine

namespace Sys2Proof.Claims
open Sys2Proof Sys2Proof.Machine

/-! ### Where every load and store traps -/

/-- An instruction that answers as the checks of its access do traps, or is held, by the tables of R119 and R295. -/
theorem accessTraps_of_checkRes {i : Instr} {s : State} {c : Ctx} {store : Bool} {ea : Word} {n : Nat}
    (h : ∀ r, s.checkRes c (encode i) store ea n = some r → exec i s = finish c r) : AccessTraps i s c store ea n := by
  refine ⟨fun h0 h1 h15 => ?_, fun hp ha => ?_, fun hp ha hz => ?_, fun ⟨hp, ha, hz⟩ hb => ?_, fun ⟨hp, ha, hz⟩ hb hw => ?_,
    fun hp ha => ?_, fun hp ha hz => ?_, fun ⟨hp, ha, hz⟩ ht => ?_, fun e base size ⟨hp, ha, hz⟩ ht hn => ?_,
    fun e base size ⟨hp, ha, hz⟩ ht hadm hm => ?_, fun ⟨hp, ha, hz⟩ ht hf hn => ?_, fun hp hpriv => ?_, fun hp hpriv ha => ?_,
    fun hp hpriv ha hm hz => ?_⟩
  · exact h _ (State.checkRes_pathless _ h0 h1 h15)
  · exact h _ (State.checkRes_local _ hp (s.localFault_outside c n ha))
  · exact h _ (State.checkRes_local _ hp (s.localFault_misaligned c ha hz))
  · exact h _ (State.checkRes_local _ hp (State.localFault_bank ha hz hb))
  · exact h _ (State.checkRes_local _ hp (State.localFault_sync ha hz hb hw))
  · exact h _ (State.checkRes_global_trap _ hp (s.reachGlobal_beyond c _ n ha))
  · exact h _ (State.checkRes_global_trap _ hp (s.reachGlobal_misaligned c _ ha hz))
  · exact h _ (State.checkRes_global_trap _ hp (State.reachGlobal_malformed ha hz ht))
  · have hrefuses := Bool.eq_false_iff.mpr fun hadm => hn ((slip_admits_accOf e store s c).mp hadm)
    exact h _ (State.checkRes_global_trap _ hp (State.reachGlobal_refused ha hz ht hrefuses))
  · exact h _ (State.checkRes_global_held _ hp (State.reachGlobal_held ha hz ht ((slip_admits_accOf e store s c).mpr hadm) hm))
  · rw [h _ (State.checkRes_global_absent _ hp (State.reachGlobal_absent ha hz ht)), State.absentRes_posts ea hf hn, finish_trap]
  · exact h _ (State.checkRes_system _ hp (State.reachSystem_unprivileged _ n hpriv))
  · exact h _ (State.checkRes_system _ hp (State.reachSystem_nowhere n hpriv ha))
  · exact h _ (State.checkRes_system _ hp (State.reachSystem_misaligned hpriv ha hm hz))

/-- Of an instruction whose meaning is one load. -/
theorem load_accessTraps {i : Instr} {s : State} {c : Ctx} {md : Mode} {uses : List Use} {ea : Word} {n : Nat} {body : Ctx → State → Res}
    {k : State → List Byte → Res} (h : Runs s c md uses) (he : exec i s = instr (encode i) md uses body s)
    (hb : body c s = s.loadK c (encode i) ea n k) : AccessTraps i s c false ea n :=
  accessTraps_of_checkRes fun r hr => by rw [he, instr_runs h, hb, State.loadK_of_checkRes hr]

/-- Of an instruction whose meaning is one store. -/
theorem store_accessTraps {i : Instr} {s : State} {c : Ctx} {md : Mode} {uses : List Use} {ea : Word} {n v : Nat}
    {body : Ctx → State → Res} {k : State → Res} (h : Runs s c md uses) (he : exec i s = instr (encode i) md uses body s)
    (hb : body c s = s.storeK c (encode i) ea (leBytes n v) k) : AccessTraps i s c true ea n :=
  accessTraps_of_checkRes fun r hr => by rw [he, instr_runs h, hb, State.storeK_of_checkRes (by rwa [length_leBytes])]

theorem accessFaults_holds : accessFaults := by
  intro s c d a b x y ga gb
  refine ⟨fun e he i => ⟨fun h => ?_, fun h => ?_⟩, fun i h => ⟨?_, ?_⟩, fun i h => ?_, fun i h => ?_,
    fun e he i => ⟨fun h => ?_, fun h => ?_⟩, fun i h => ⟨?_, ?_⟩, fun i h => ?_, fun i h => ?_⟩
  · exact load_accessTraps h ((exec_loadOps e he).1 d a x i s) rfl
  · exact load_accessTraps h ((exec_loadOps e he).2 d a x b y s) rfl
  · exact load_accessTraps h (exec_cLd d i s) rfl
  · exact load_accessTraps h (exec_cLw d i s) rfl
  · exact load_accessTraps h (exec_flw d a x i s) rfl
  · exact load_accessTraps h (exec_vl d a x i s) rfl
  · exact store_accessTraps h ((exec_storeOps e he).1 d a x i s) rfl
  · exact store_accessTraps h ((exec_storeOps e he).2 d a x b y s) rfl
  · exact store_accessTraps h (exec_cSd d i s) rfl
  · exact store_accessTraps h (exec_cSw d i s) rfl
  · exact store_accessTraps h (exec_fsw d a x i s) rfl
  · exact store_accessTraps h (exec_vs d a x i s) rfl

/-! ### Device registers -/

/-- What an access at a device register answers, by the register there. deviceRes is unfolded as a constant, before its arguments stand
in it: a check of the unfolded body would evaluate devReg at a variable address. -/
theorem deviceRes_eq_elim (s : State) (c : Ctx) (ea : Word) (pa n : Nat) (act : DevReg → Res) (ignored : Res) :
    s.deviceRes c ea pa n act ignored = (devReg pa).elim ignored
      (fun r => if !r.anyBerth && !isControl c.b then .trap s 9 ea else if n ≠ 8 then ignored else act r) := by
  rw [show @State.deviceRes = _ from by delta State.deviceRes; exact rfl]
  cases devReg pa <;> rfl

/-- A load where the spec lists no device register goes on with a free value (log 27). -/
theorem loadK_unlisted {s : State} {c : Ctx} {ea : Word} {n pa : Nat} (hp : ea.toNat / 2 ^ 60 = 15)
    (hr : s.reachSystem c ea.toNat n = .device pa) (hb : s.copyBars c false ea.toNat n = false) (hd : devReg pa = none) (word : Nat)
    (k : State → List Byte → Res) : s.loadK c word ea n k = k s.freshened (leBytes n (Config.freeWide s.fresh).toNat) := by
  rw [← path_eq] at hp
  simp only [State.loadK, hp, hr, hb, deviceRes_eq_elim, hd, Option.elim_none]
  rfl

/-- A store there changes nothing (log 27). -/
theorem storeK_unlisted {s : State} {c : Ctx} {ea : Word} {bs : List Byte} {pa : Nat} (hp : ea.toNat / 2 ^ 60 = 15)
    (hr : s.reachSystem c ea.toNat bs.length = .device pa) (hb : s.commandBars c ea.toNat bs.length = false) (hd : devReg pa = none)
    (word : Nat) (k : State → Res) : s.storeK c word ea bs k = k s := by
  rw [← path_eq] at hp
  simp only [State.storeK, hp, hr, hb, deviceRes_eq_elim, hd, Option.elim_none]
  rfl

/-- A store of a one to a reserved bit of a device register (R6). -/
theorem storeK_reserved {s : State} {c : Ctx} {ea : Word} {bs : List Byte} {pa : Nat} {r : DevReg} (hp : ea.toNat / 2 ^ 60 = 15)
    (hr : s.reachSystem c ea.toNat bs.length = .device pa) (hb : s.commandBars c ea.toNat bs.length = false) (hd : devReg pa = some r)
    (hc : isControl c.b = true) (hn : bs.length = 8) (hv : leNat bs &&& r.reserved ≠ 0) (word : Nat) (k : State → Res) :
    s.storeK c word ea bs k = .trap s 2 (natWord word) := by
  rw [← path_eq] at hp
  simp only [State.storeK, hp, hr, hb, deviceRes_eq_elim, hd, Option.elim_some, hc]
  rw [if_neg (by decide), if_neg (by simp), if_neg (Classical.not_not.mpr hn), if_pos hv]

/-- The eight bytes of a register make up its value. -/
theorem leNat_leBytes_word (v : Word) : leNat (leBytes 8 v.toNat) = v.toNat := by
  rw [leNat_leBytes, show 256 ^ 8 = 2 ^ 64 by decide, Nat.mod_eq_of_lt v.isLt]

theorem deviceAccesses_holds : deviceAccesses := by
  intro s c d a x i
  refine ⟨fun e he h => ?_, fun e he h => ?_⟩ <;> intro n ea pa hp hr hb
  · intro hd
    rw [(exec_loadOps e he).1, loadOff, instr_runs h, loadK_unlisted hp hr hb hd, finish_ok]
    exact ⟨_, rfl, (marked_freshened s c).then_kept ((keptAll_writeG d.toNat _).advance none true)⟩
  · have hlen : (leBytes n (s.readG c d.toNat 0).toNat).length = n := length_leBytes _ _
    rw [← hlen] at hr hb
    rw [(exec_storeOps e he).1, storeOff, instr_runs h]
    refine ⟨fun r hd hc hn hv => ?_, fun hd => ?_⟩
    · rw [storeK_reserved hp hr hb hd hc (hlen.trans hn) (by rw [hn, leNat_leBytes_word]; exact hv), finish_trap]
      rfl
    · rw [storeK_unlisted hp hr hb hd, finish_ok]
      exact ⟨_, rfl, s.advance_mem c none true, (keptAll_advance s c none true).toKept⟩

/-! ### The elements of a vector access (R146) -/

theorem firstSome_eq_findSome? {α β : Type} (f : α → Option β) : ∀ l : List α, firstSome f l = l.findSome? f
  | [] => rfl
  | a :: l => by
    rw [firstSome, List.findSome?_cons, firstSome_eq_findSome? f l]
    cases f a <;> rfl

/-- The first active element that fails its checks decides. -/
theorem firstSome_elemFault {s : State} {c : Ctx} {z mask j : Nat} {ea : Nat → Word} {f : Nat × Word} (hj : j < 64 / z)
    (hm : bitOf mask j = true) (hf : s.elemFault c z (ea j) = some f) (hb : ∀ k, k < j → bitOf mask k = true → s.elemFault c z (ea k) = none) :
    firstSome (fun e => s.elemFault c z e.2) (activeElems z mask ea) = some f := by
  obtain ⟨m, hn⟩ : ∃ m, 64 / z = j + 1 + m := ⟨64 / z - (j + 1), by omega⟩
  rw [firstSome_eq_findSome?, List.findSome?_eq_some_iff]
  refine ⟨((upTo j).filter (bitOf mask)).map (fun i => (i, ea i)), (j, ea j),
    (((List.range m).map (j + 1 + ·)).filter (bitOf mask)).map (fun i => (i, ea i)), ?_, hf, fun e he => ?_⟩
  · simp [activeElems, upTo, hn, List.range_add, List.range_succ, hm]
  · simp only [upTo, List.mem_map, List.mem_filter, List.mem_range] at he
    obtain ⟨k, ⟨hk, hmk⟩, rfl⟩ := he
    exact hb k hk hmk

theorem elemFault_of_localFault {s : State} {c : Ctx} {z cause : Nat} {ea : Word} (hp : ea.toNat / 2 ^ 60 = 1)
    (hf : s.localFault c ea.toNat z = some (cause, natWord ea.toNat)) : s.elemFault c z ea = some (cause, ea) := by
  rw [← path_eq] at hp
  simp [State.elemFault, hp, hf]

theorem elemFault_none {s : State} {c : Ctx} {z : Nat} {ea : Word} (hp : bitsOf ea.toNat 63 60 = 1)
    (hf : s.localFault c ea.toNat z = none) : s.elemFault c z ea = none := by
  simp [State.elemFault, hp, hf]

/-- A vector access that traps with the first fault of its active elements traps as R146 says. -/
theorem elementTraps_of_firstSome {i : Instr} {s : State} {c : Ctx} {z mask : Nat} {ea : Nat → Word}
    (h : ∀ cause tv, firstSome (fun e => s.elemFault c z e.2) (activeElems z mask ea) = some (cause, tv) →
      exec i s = .next (s.raise c cause tv false)) : ElementTraps i s c z mask ea := by
  intro j hj hm hbefore
  have hfirst : ∀ cause, s.elemFault c z (ea j) = some (cause, ea j) → exec i s = .next (s.raise c cause (ea j) false) :=
    fun cause hf => h cause (ea j) (firstSome_elemFault hj hm hf fun k hk hmk => elemFault_none (hbefore k hk hmk).1 (hbefore k hk hmk).2)
  refine ⟨fun hp => ?_, fun hp ha => ?_, fun ⟨hp, ha⟩ hz => ?_, fun ⟨hp, ha⟩ hz hb => ?_, fun ⟨hp, ha⟩ hz hb hw => ?_⟩
  · rw [← path_eq] at hp
    exact hfirst 9 (if_pos hp)
  · exact hfirst 9 (elemFault_of_localFault hp (s.localFault_outside c z ha))
  · exact hfirst 8 (elemFault_of_localFault hp (s.localFault_misaligned c ha hz))
  · exact hfirst 12 (elemFault_of_localFault hp (State.localFault_bank ha hz hb))
  · have hz0 : 0 < z := Nat.pos_of_ne_zero fun h0 => by simp [h0] at hj
    exact hfirst 21 (elemFault_of_localFault hp (State.localFault_sync ha hz hb ⟨0, hz0, hw⟩))

theorem vecLoad_trap {s : State} {c : Ctx} {z mask cause : Nat} {ea : Nat → Word} {tv : Word}
    (h : firstSome (fun e => s.elemFault c z e.2) (activeElems z mask ea) = some (cause, tv)) (d : Nat) :
    s.vecLoad c d z mask ea = .trap s cause tv := by
  simp only [State.vecLoad, h]

theorem vecStore_trap {s : State} {c : Ctx} {z mask cause : Nat} {ea : Nat → Word} {tv : Word}
    (h : firstSome (fun e => s.elemFault c z e.2) (activeElems z mask ea) = some (cause, tv)) (v : Wide) :
    s.vecStore c z mask ea v = .trap s cause tv := by
  simp only [State.vecStore, h]

/-- EA(i) of the strided forms, modulo 2^64 (R146). -/
theorem strided_eq (base step : Word) : strided base step = fun j => base + BitVec.ofNat 64 j * step := by
  funext j
  rw [strided, toWord, BitVec.ofInt_add, BitVec.ofInt_mul, BitVec.ofInt_toInt, BitVec.ofInt_toInt]
  rfl

/-- EA(i) of the indexed forms (R146). -/
theorem indexed_eq (base : Word) (idx : Wide) (z : Nat) : indexed base idx z = fun j => base + BitVec.ofNat 64 (elemOf idx (8 * z) j * z) := rfl

section
variable (d a b : BitVec 5) (x m : BitVec 3) (e : BitVec 2) (s : State)

theorem exec_vls : exec (.vls d a x b m e) s =
    instr (encode (.vls d a x b m e)) {} [.src .g a.toNat x.toNat, .src .g b.toNat 0, .src .m m.toNat 0, .dst .w d.toNat]
      (fun c s => s.vecLoad c d.toNat (2 ^ e.toNat) (s.readM c m.toNat 0).toNat
        (fun j => s.readG c a.toNat x.toNat + BitVec.ofNat 64 j * s.readG c b.toNat 0)) s := by
  simp only [← strided_eq, ← Nat.one_shiftLeft e.toNat]
  rfl

theorem exec_vlg : exec (.vlg d a x b m e) s =
    instr (encode (.vlg d a x b m e)) {} [.src .g a.toNat x.toNat, .src .w b.toNat 0, .src .m m.toNat 0, .dst .w d.toNat]
      (fun c s => s.vecLoad c d.toNat (2 ^ e.toNat) (s.readM c m.toNat 0).toNat
        (fun j => s.readG c a.toNat x.toNat + BitVec.ofNat 64 (elemOf (s.readW c b.toNat 0) (8 * 2 ^ e.toNat) j * 2 ^ e.toNat))) s := by
  simp only [← indexed_eq, ← Nat.one_shiftLeft e.toNat]
  rfl

theorem exec_vss : exec (.vss d a x b m e) s =
    instr (encode (.vss d a x b m e)) {} [.src .g a.toNat x.toNat, .src .g b.toNat 0, .src .m m.toNat 0, .src .w d.toNat 0]
      (fun c s => s.vecStore c (2 ^ e.toNat) (s.readM c m.toNat 0).toNat
        (fun j => s.readG c a.toNat x.toNat + BitVec.ofNat 64 j * s.readG c b.toNat 0) (s.readW c d.toNat 0)) s := by
  simp only [← strided_eq, ← Nat.one_shiftLeft e.toNat]
  rfl

theorem exec_vsg : exec (.vsg d a x b m e) s =
    instr (encode (.vsg d a x b m e)) {} [.src .g a.toNat x.toNat, .src .w b.toNat 0, .src .m m.toNat 0, .src .w d.toNat 0]
      (fun c s => s.vecStore c (2 ^ e.toNat) (s.readM c m.toNat 0).toNat
        (fun j => s.readG c a.toNat x.toNat + BitVec.ofNat 64 (elemOf (s.readW c b.toNat 0) (8 * 2 ^ e.toNat) j * 2 ^ e.toNat))
        (s.readW c d.toNat 0)) s := by
  simp only [← indexed_eq, ← Nat.one_shiftLeft e.toNat]
  rfl

end

/-- Of an instruction whose meaning is one vector load. -/
theorem vecLoad_elementTraps {i : Instr} {s : State} {c : Ctx} {md : Mode} {uses : List Use} {word d z mask : Nat} {ea : Nat → Word}
    {body : Ctx → State → Res} (h : Runs s c md uses) (he : exec i s = instr word md uses body s)
    (hb : body c s = s.vecLoad c d z mask ea) : ElementTraps i s c z mask ea :=
  elementTraps_of_firstSome fun cause tv hf => by rw [he, instr_runs h, hb, vecLoad_trap hf, finish_trap]

/-- Of an instruction whose meaning is one vector store. -/
theorem vecStore_elementTraps {i : Instr} {s : State} {c : Ctx} {md : Mode} {uses : List Use} {word z mask : Nat} {ea : Nat → Word}
    {v : Wide} {body : Ctx → State → Res} (h : Runs s c md uses) (he : exec i s = instr word md uses body s)
    (hb : body c s = s.vecStore c z mask ea v) : ElementTraps i s c z mask ea :=
  elementTraps_of_firstSome fun cause tv hf => by rw [he, instr_runs h, hb, vecStore_trap hf, finish_trap]

theorem elementFaults_holds : elementFaults := by
  intro s c d a b x m e
  refine ⟨fun h => ?_, fun h => ?_, fun h => ?_, fun h => ?_⟩
  · exact vecLoad_elementTraps h (exec_vls d a b x m e s) rfl
  · exact vecLoad_elementTraps h (exec_vlg d a b x m e s) rfl
  · exact vecStore_elementTraps h (exec_vss d a b x m e s) rfl
  · exact vecStore_elementTraps h (exec_vsg d a b x m e s) rfl

end Sys2Proof.Claims

namespace Sys2Proof.Proofs
open Sys2Proof.Claims

/-- Settles O7: loads and stores answer as the checks they share do, and a vector access as the first of its elements. -/
theorem accessFaults : Obligations.AccessFaults := ⟨accessFaults_holds, deviceAccesses_holds, elementFaults_holds⟩

end Sys2Proof.Proofs
end

section
/-! Control registers: which numbers are assigned and who may use them, what each reads, what a write of each does (spec/01 R26 to R32,
spec/07 R185, R186). -/
namespace Sys2Proof.Claims
open Sys2Proof Sys2Proof.Machine

/-! ### Numbers and access (R26, R27) -/

theorem csrKnown_iff (n : Nat) : csrKnown n = true ↔ assignedCsr n := by
  simp only [csrKnown, assignedCsr, Bool.or_eq_true, Bool.and_eq_true, decide_eq_true_eq, beq_iff_eq, bne_iff_ne]
  omega

theorem csrPriv_iff (n : Nat) : csrPriv n = true ↔ n ≥ 0x100 ∨ (0x018 ≤ n ∧ n ≤ 0x020) := by
  simp only [csrPriv, Bool.or_eq_true, Bool.and_eq_true, decide_eq_true_eq]

/-- An unassigned number of the privileged ranges is above both of them. -/
theorem priv_of_unassigned {n : Nat} {P : Prop} (hk : ¬ assignedCsr n) (hm : n < 0x100 ∨ P) (hp : csrPriv n = true) : P := by
  rw [csrPriv_iff] at hp
  refine hm.resolve_left fun hlt => hk ?_
  rw [assignedCsr]
  omega

section
variable {s : State} {c : Ctx} (hh : c.hnd = false)
include hh

theorem privOf_eq : s.privOf c = (s.slip c.b c.i).priv := by
  rw [State.privOf, hh]; rfl

/-- A register that whoever executes may use, and that is assigned. -/
theorem csrFault_none {n : Nat} (hp : csrPriv n = true → (s.slip c.b c.i).priv = true) (hk : csrKnown n = true) :
    s.csrFault c n = none := by
  cases hpriv : csrPriv n with
  | false => simp [State.csrFault, hpriv, hk]
  | true => simp [State.csrFault, hh, privOf_eq hh, hp hpriv, hk]

theorem csrFault_unassigned {n : Nat} (hp : csrPriv n = true → (s.slip c.b c.i).priv = true) (hk : csrKnown n = false) :
    s.csrFault c n = some 1 := by
  cases hpriv : csrPriv n with
  | false => simp [State.csrFault, hpriv, hk]
  | true => simp [State.csrFault, hh, privOf_eq hh, hp hpriv, hk]

/-- An instruction that runs as unprivileged also runs where it is privileged, with privilege. -/
theorem runs_withPriv {uses : List Use} {b : Bool} (h : Runs s c {} uses) (hp : b = true → (s.slip c.b c.i).priv = true) :
    Runs s c { priv := b } uses := by
  refine ⟨h.1, fun word => ?_⟩
  rw [← h.2 word]
  cases b with
  | false => rfl
  | true => simp [State.contextFault, hh, hp rfl]

/-- A privileged instruction without privilege (R62 step 4). -/
theorem instr_unprivileged {md : Mode} {uses : List Use} (hc : s.ctx = some c) (hm : md.priv = true) (hp : (s.slip c.b c.i).priv = false)
    (word : Nat) (body : Ctx → State → Res) : instr word md uses body s = .next (s.raise c 3 (natWord word) false) := by
  simp [instr, hc, State.contextFault, hh, hm, hp]

end

/-! ### What each register reads -/

theorem withBit_eq (b : Bool) (i : Nat) : withBit b i = if b then 2 ^ i else 0 := by
  rw [withBit, Nat.one_shiftLeft]

theorem natWord_status (p : Slip) (i : Nat) : natWord (p.status i false) = statusValue p i := by
  unfold Slip.status statusValue
  cases p.levels <;>
    simp only [withBit_eq, Nat.shiftLeft_eq, natWord, Bool.not_false, Bool.and_true, Bool.false_eq_true, if_false, Nat.add_zero]

theorem natWord_lctl (p : Slip) : natWord (p.lctl false) = lctlValue p := by
  rw [Slip.lctl, lctlValue, natWord, Nat.shiftLeft_eq]
  rfl

theorem natWord_lidx (p : Slip) : natWord p.lidx = lidxValue p := by
  rw [Slip.lidx, lidxValue, natWord]
  rfl

theorem natWord_pcqf (s : State) (c : Ctx) :
    natWord ((s.csrQueue c).nf + (s.slip c.b c.i).pie <<< 4 + withBit (s.slip c.b c.i).ppriv 7) = pcqfValue s c := by
  simp only [Queue.nf, pcqfValue, withBit_eq, Nat.shiftLeft_eq, natWord]
  rfl

theorem natWord_ipend (x : Berth) : natWord x.ipend =
    BitVec.ofNat 64 ((if x.tim then 1 else 0) + (if x.ipMsg then 2 else 0) + (if x.ipDbell then 4 else 0)) := by
  simp only [Berth.ipend, withBit_eq, natWord] <;> rfl

/-- A slip's share of EVCk, for privileged code the sum of the four (R443). -/
theorem csrRead_evc (s : State) {c : Ctx} (hh : c.hnd = false) {k : Nat} (hk : k < 8) : s.csrRead c (0x010 + k) = evcValue s c k := by
  rw [evcValue, ← privOf_eq hh]
  obtain rfl | rfl | rfl | rfl | rfl | rfl | rfl | rfl := lt_eight_cases hk <;> rfl

theorem csrRead_evcHi (s : State) (c : Ctx) {k : Nat} (hk : k < 8) :
    s.csrRead c (0x018 + k) = BitVec.ofNat 64 (SMap.get 0 (s.berth c.b).evcHi (8 + k)) := by
  obtain rfl | rfl | rfl | rfl | rfl | rfl | rfl | rfl := lt_eight_cases hk <;> rfl

theorem csrRead_xdone (s : State) (c : Ctx) {k : Nat} (hk : k < 4) :
    s.csrRead c (0x030 + k) = BitVec.ofNat 64 (SMap.get 0 (s.slip c.b c.i).xdone k).toNat := by
  obtain rfl | rfl | rfl | rfl : k = 0 ∨ k = 1 ∨ k = 2 ∨ k = 3 := by omega
  all_goals rfl

/-- The value that the claims give a register is the one CRD reads. -/
theorem csrRead_csrValues (s : State) {c : Ctx} (hh : c.hnd = false) : ∀ e ∈ csrValues s c, s.csrRead c e.1 = e.2 := by
  have hstatus : s.csrRead c 0x000 = natWord ((s.slip c.b c.i).status c.i false) := by rw [← hh]; rfl
  have hlctl : s.csrRead c 0x00C = natWord ((s.slip c.b c.i).lctl false) := by rw [← hh]; rfl
  simp only [csrValues, List.forall_mem_append, List.forall_mem_cons, List.forall_mem_map, List.mem_range]
  refine ⟨⟨⟨⟨hstatus.trans (natWord_status _ _), rfl, rfl, natWord_pcqf s c, rfl, rfl, rfl, rfl, ?_, hlctl.trans (natWord_lctl _),
    natWord_lidx _, rfl, ?_, rfl, rfl, rfl, rfl, rfl, rfl, ?_, rfl, rfl, rfl, rfl, rfl, rfl, rfl, rfl, rfl, rfl, natWord_ipend _,
    List.forall_mem_nil _⟩, fun k hk => csrRead_evc s hh hk⟩, fun k hk => csrRead_evcHi s c hk⟩, fun k hk => csrRead_xdone s c hk⟩
  all_goals simp only [State.csrRead, Slip.tag, Nat.shiftLeft_eq]; rfl

/-- Those registers are assigned, and none is an entry of the PC queue. -/
theorem csrValues_known (s : State) (c : Ctx) : ∀ e ∈ csrValues s c, csrKnown e.1 = true ∧ (e.1 < 3 ∨ 5 < e.1) := by
  simp only [csrKnown_iff, assignedCsr, csrValues, List.forall_mem_append, List.forall_mem_cons, List.forall_mem_map, List.mem_range]
  refine ⟨⟨⟨?_, fun k hk => ?_⟩, fun k hk => ?_⟩, fun k hk => ?_⟩
  · simp
  all_goals omega

/-! ### What a write of each register does -/

/-- A register that a permitted write may change, and that is no entry of the PC queue. -/
def Writable (n : Nat) : Prop := csrKnown n = true ∧ csrReadOnly n = false ∧ (n < 3 ∨ 5 < n)

/-- Writable, by the numbers. -/
theorem writable_iff (n : Nat) : Writable n ↔ n ≤ 0x002 ∨ (0x006 ≤ n ∧ n ≤ 0x00A) ∨ (0x00F ≤ n ∧ n ≤ 0x01F) ∨ n = 0x040 ∨
    (0x100 ≤ n ∧ n ≤ 0x102) ∨ (0x104 ≤ n ∧ n ≤ 0x10B) ∨ n = 0x110 ∨ n = 0x111 := by
  rw [Writable, csrKnown_iff, ← Bool.not_eq_true]
  simp only [assignedCsr, csrReadOnly, Bool.or_eq_true, Bool.and_eq_true, decide_eq_true_eq, beq_iff_eq]
  omega

theorem csrSet_evc (s : State) (c : Ctx) (v : Word) {k : Nat} (hk : k < 8) : s.csrSet c (0x010 + k) v =
    s.setSlip c.b c.i { s.slip c.b c.i with evc := SMap.put (s.slip c.b c.i).evc k (v.toNat % 2 ^ 32) } := by
  obtain rfl | rfl | rfl | rfl | rfl | rfl | rfl | rfl := lt_eight_cases hk <;> rfl

theorem csrSet_evcHi (s : State) (c : Ctx) (v : Word) {k : Nat} (hk : k < 8) : s.csrSet c (0x018 + k) v =
    s.setBerth c.b { s.berth c.b with evcHi := SMap.put (s.berth c.b).evcHi (8 + k) (v.toNat % 2 ^ 32) } := by
  obtain rfl | rfl | rfl | rfl | rfl | rfl | rfl | rfl := lt_eight_cases hk <;> rfl

/-- The writes of registers of a slip. -/
theorem csrSet_slipWrites (s : State) (c : Ctx) (v : Word) :
    ∀ e ∈ slipWrites v, s.csrSet c e.1 v = s.setSlip c.b c.i (e.2 (s.slip c.b c.i)) := by
  simp only [slipWrites, List.forall_mem_append, List.forall_mem_cons, List.forall_mem_map, List.mem_range]
  refine ⟨⟨?_, rfl, rfl, ?_, rfl, rfl, rfl, rfl, rfl, rfl, rfl, List.forall_mem_nil _⟩, fun k hk => csrSet_evc s c v hk⟩
  · simp only [State.csrSet, bitOf_eq_testBit]; rfl
  · simp only [State.csrSet, Queue.setNf, bitOf_eq_testBit, bitsOf_eq]; rfl

/-- The writes of registers of the berth. -/
theorem csrSet_berthWrites (s : State) (c : Ctx) (v : Word) :
    ∀ e ∈ berthWrites v, s.csrSet c e.1 v = s.setBerth c.b (e.2 (s.berth c.b)) := by
  simp only [berthWrites, List.forall_mem_append, List.forall_mem_cons, List.forall_mem_map, List.mem_range]
  refine ⟨⟨rfl, rfl, rfl, rfl, rfl, ?_, rfl, ?_, List.forall_mem_nil _⟩, fun k hk => csrSet_evcHi s c v hk⟩
  · simp only [State.csrSet, bitsOf_eq]; rfl
  · simp only [State.csrSet, State.writeIpend, bitOf_eq_testBit]; rfl

theorem slipWrites_writable (v : Word) : ∀ e ∈ slipWrites v, Writable e.1 := by
  simp only [writable_iff, slipWrites, List.forall_mem_append, List.forall_mem_cons, List.forall_mem_map, List.mem_range]
  refine ⟨?_, fun k hk => ?_⟩
  · simp
  · omega

theorem berthWrites_writable (v : Word) : ∀ e ∈ berthWrites v, Writable e.1 := by
  simp only [writable_iff, berthWrites, List.forall_mem_append, List.forall_mem_cons, List.forall_mem_map, List.mem_range]
  refine ⟨?_, fun k hk => ?_⟩
  · simp
  · omega

/-! ### Reserved fields, and who may write (R6, R27, R185) -/

theorem csrMasks_writable : ∀ m ∈ csrMasks, Writable m.1 := by
  simp [writable_iff, csrMasks]

theorem csrReserved_csrMasks : ∀ m ∈ csrMasks, csrReserved m.1 = m.2 := by decide

/-- A register without an entry in the table has no reserved field. -/
theorem csrReserved_cases (n : Nat) : csrReserved n = 0 ∨ (n, csrReserved n) ∈ csrMasks := by
  unfold csrReserved
  split <;> simp [csrMasks]

/-- A word that is clean by the table has no one in a reserved field. -/
theorem and_csrReserved_of_clean {v : Word} {n : Nat} (h : ∀ m ∈ csrMasks, m.1 = n → v.toNat &&& m.2 = 0) :
    v.toNat &&& csrReserved n = 0 := by
  rcases csrReserved_cases n with h0 | hm
  · rw [h0, Nat.and_zero]
  · exact h _ hm rfl

theorem csrUserWrite_iff (n : BitVec 12) :
    csrUserWrite n.toNat = true ↔ n = 0x008 ∨ (0x010 ≤ n.toNat ∧ n.toNat ≤ 0x017) ∨ n = 0x040 := by
  simp only [csrUserWrite, Bool.or_eq_true, Bool.and_eq_true, decide_eq_true_eq, beq_iff_eq, ← BitVec.toNat_inj]
  rw [show (0x008 : BitVec 12).toNat = 0x008 from rfl, show (0x040 : BitVec 12).toNat = 0x040 from rfl, or_assoc]

/-- What user code may write is no register of privileged code. -/
theorem csrPriv_of_csrUserWrite {n : Nat} (h : csrUserWrite n = true) : csrPriv n = false := by
  rw [← Bool.not_eq_true, csrPriv_iff]
  simp only [csrUserWrite, Bool.or_eq_true, Bool.and_eq_true, decide_eq_true_eq, beq_iff_eq] at h
  omega

/-- The registers that every writer finds read-only and that user code may read. -/
theorem readOnly_number {n : BitVec 12} (hn : n = 0x00B ∨ n = 0x00C ∨ n = 0x00D ∨ n = 0x00E ∨ n = 0x021 ∨ n = 0x022 ∨ n = 0x023 ∨
    (0x030 ≤ n.toNat ∧ n.toNat ≤ 0x033)) : csrPriv n.toNat = false ∧ csrKnown n.toNat = true ∧ csrReadOnly n.toNat = true := by
  rw [← Bool.not_eq_true, csrPriv_iff, csrKnown_iff, assignedCsr]
  simp only [csrReadOnly, Bool.or_eq_true, Bool.and_eq_true, decide_eq_true_eq, beq_iff_eq]
  rcases hn with rfl | rfl | rfl | rfl | rfl | rfl | rfl | hn
  case inr.inr.inr.inr.inr.inr.inr => omega
  all_goals decide

/-! ### CRD -/

theorem exec_crd (d : BitVec 5) (n : BitVec 12) (s : State) : exec (.crd d n) s = execCrd d n s := rfl

section
variable {s : State} {c : Ctx} {d : BitVec 5} {n : BitVec 12} (h : Runs s c {} [.dst .g d.toNat]) (hh : c.hnd = false)
  (hp : csrPriv n.toNat = true → (s.slip c.b c.i).priv = true)
include h hh hp

/-- CRD of an assigned register that is no entry of the PC queue. -/
theorem crd_givesG (hk : csrKnown n.toNat = true) (hn : n.toNat < 3 ∨ 5 < n.toNat) :
    GivesG (.crd d n) s c d.toNat (s.csrRead c n.toNat) {} := by
  refine givesG d.isLt (runs_withPriv hh h hp) (exec_crd d n s) ?_
  simp [csrFault_none hh hp hk, hn]

theorem crd_unassigned (hk : csrKnown n.toNat = false) :
    exec (.crd d n) s = .next (s.raise c 1 (BitVec.ofNat 64 (encode (.crd d n))) false) := by
  rw [exec_crd, execCrd, instr_runs (runs_withPriv hh h hp)]
  simp only [csrFault_unassigned hh hp hk]
  rfl

/-- CRD of an entry of the PC queue, once the lengths it needs can be read (R186). -/
theorem crd_givesPcq {a : Word} (h3 : 3 ≤ n.toNat) (h5 : n.toNat ≤ 5) (hw : firstSome (s.lengthWait c) (s.csrLengths c n.toNat) = none)
    (hv : s.csrRead c n.toNat = a) : GivesPcq (.crd d n) s c d.toNat a := by
  have hk : csrKnown n.toNat = true := by rw [csrKnown_iff, assignedCsr]; omega
  have hn : ¬ (n.toNat < 3 ∨ 5 < n.toNat) := by omega
  let u := s.writeG c d.toNat a
  have hu : KeptAll s u c [(.g, d.toNat)] {} := keptAll_writeG d.toNat a
  have hfresh : Kept u u.freshened.freshened c [] {} := .of_berths c rfl
  have hadv := keptAll_advance u.freshened.freshened c none true
  refine ⟨u.freshened.freshened.advance c none true, ?_, ?_, hu.toKept.trans (hfresh.trans hadv.toKept), ?_⟩
  · rw [exec_crd, execCrd, instr_runs (runs_withPriv hh h hp)]
    simp only [csrFault_none hh hp hk, State.awaitLengths, hw, hv]
    rw [if_neg (by simpa using hn), finish_ok]
  · rw [hadv.g _ d.isLt (by simp), hfresh.g _ d.isLt (by simp), State.readG_writeG h.1, if_pos rfl]
  · rw [hadv.rest, show u.freshened.freshened.rest = { u.rest with fresh := u.rest.fresh + 2 } from rfl, hu.rest]
    rfl

end

/-- The registers that R26 and R27 keep for privileged code, without privilege. -/
theorem crd_unprivileged {s : State} {c : Ctx} {d : BitVec 5} {n : BitVec 12} (hc : s.ctx = some c) (hh : c.hnd = false)
    (hm : csrPriv n.toNat = true) (hp : (s.slip c.b c.i).priv = false) :
    exec (.crd d n) s = .next (s.raise c 3 (BitVec.ofNat 64 (encode (.crd d n))) false) := by
  rw [exec_crd, execCrd, instr_unprivileged hh hc hm hp]
  rfl

/-! ### CWR -/

theorem exec_cwr (a : BitVec 5) (n : BitVec 12) (s : State) : exec (.cwr a n) s = execCwr a n s := rfl

/-- What a write of a control register answers where R26 lets it through. -/
theorem csrWrite_of_permitted {s : State} {c : Ctx} {n : Nat} (hf : s.csrFault c n = none) (v : Word) : s.csrWrite c n v =
    if csrReadOnly n || (!s.privOf c && !csrUserWrite n) then .inl s
    else if v.toNat &&& csrReserved n ≠ 0 then .inr 2 else .inl (s.csrSet c n v) := by
  simp only [State.csrWrite, hf]

theorem pcqWait_outside {s : State} {c : Ctx} {n : Nat} (h : n < 3 ∨ 5 < n ∨ (s.slip c.b c.i).intrap = false ∨ s.privOf c = false) :
    s.pcqWait c n = none := by
  refine if_neg ?_
  simp only [Bool.and_eq_true, decide_eq_true_eq]
  rintro ⟨⟨⟨h3, h5⟩, hp⟩, ht⟩
  rcases h with h | h | h | h
  · omega
  · omega
  · rw [h] at ht; cases ht
  · rw [h] at hp; cases hp

section
variable {s : State} {c : Ctx} {a : BitVec 5} {n : BitVec 12} (h : Runs s c {} [.src .g a.toNat 0]) (hh : c.hnd = false)
  (hp : csrPriv n.toNat = true → (s.slip c.b c.i).priv = true)
include h hh hp

theorem cwr_trap {cause : Nat} (hw : s.csrWrite c n.toNat (s.readG c a.toNat 0) = .inr cause) :
    exec (.cwr a n) s = .next (s.raise c cause (BitVec.ofNat 64 (encode (.cwr a n))) false) := by
  rw [exec_cwr, execCwr, instr_runs (runs_withPriv hh h hp)]
  simp only [hw]
  rfl

theorem cwr_completes {t : State} (hw : s.csrWrite c n.toNat (s.readG c a.toNat 0) = .inl t) (hq : s.pcqWait c n.toNat = none) :
    exec (.cwr a n) s = .next (t.advance c none true) := by
  rw [exec_cwr, execCwr, instr_runs (runs_withPriv hh h hp)]
  simp only [hw]
  unfold State.pcqWait at hq
  split
  next hcond =>
    rw [if_pos hcond] at hq
    simp only [State.awaitLengths, hq, finish_ok]
  next => rw [finish_ok]

theorem cwr_unassigned (hk : csrKnown n.toNat = false) :
    exec (.cwr a n) s = .next (s.raise c 1 (BitVec.ofNat 64 (encode (.cwr a n))) false) :=
  cwr_trap h hh hp (by simp only [State.csrWrite, csrFault_unassigned hh hp hk])

/-- A write of a register that is read-only for the writer (R26, R27). -/
theorem cwr_ignored (hk : csrKnown n.toNat = true)
    (hro : csrReadOnly n.toNat = true ∨ ((s.slip c.b c.i).priv = false ∧ csrUserWrite n.toNat = false)) :
    exec (.cwr a n) s = .next (s.advance c none true) := by
  refine cwr_completes h hh hp ?_ (pcqWait_outside ?_)
  · rw [csrWrite_of_permitted (csrFault_none hh hp hk), privOf_eq hh]
    exact if_pos (by simpa using hro)
  · rw [privOf_eq hh]
    rcases hro with hro | ⟨hpriv, -⟩
    · simp only [csrReadOnly, Bool.or_eq_true, Bool.and_eq_true, decide_eq_true_eq, beq_iff_eq] at hro
      omega
    · exact .inr (.inr (.inr hpriv))

end

theorem cwr_unprivileged {s : State} {c : Ctx} {a : BitVec 5} {n : BitVec 12} (hc : s.ctx = some c) (hh : c.hnd = false)
    (hm : csrPriv n.toNat = true) (hp : (s.slip c.b c.i).priv = false) :
    exec (.cwr a n) s = .next (s.raise c 3 (BitVec.ofNat 64 (encode (.cwr a n))) false) := by
  rw [exec_cwr, execCwr, instr_unprivileged hh hc hm hp]
  rfl

/-- Who may write a register: privileged code, and user code those of R27. -/
def MayWrite (s : State) (c : Ctx) (n : Nat) : Prop := (s.slip c.b c.i).priv = true ∨ csrUserWrite n = true

theorem MayWrite.priv {s : State} {c : Ctx} {n : Nat} (hm : MayWrite s c n) (hp : csrPriv n = true) : (s.slip c.b c.i).priv = true := by
  rcases hm with hm | hm
  · exact hm
  · rw [csrPriv_of_csrUserWrite hm] at hp; cases hp

section
variable {s : State} {c : Ctx} {a : BitVec 5} {n : BitVec 12} (h : Runs s c {} [.src .g a.toNat 0]) (hh : c.hnd = false)
  (hm : MayWrite s c n.toNat) (hk : csrKnown n.toNat = true) (hro : csrReadOnly n.toNat = false)

include hh hm hk hro

/-- What a write answers by the reserved fields alone (R6). -/
theorem csrWrite_of_mayWrite (v : Word) :
    s.csrWrite c n.toNat v = if v.toNat &&& csrReserved n.toNat ≠ 0 then .inr 2 else .inl (s.csrSet c n.toNat v) := by
  rw [csrWrite_of_permitted (csrFault_none hh hm.priv hk), privOf_eq hh]
  refine if_neg ?_
  rcases hm with hm | hm <;> simp [hm, hro]

include h

/-- A permitted write of ones into a reserved field (R6). -/
theorem cwr_reserved (hv : (s.readG c a.toNat 0).toNat &&& csrReserved n.toNat ≠ 0) :
    exec (.cwr a n) s = .next (s.raise c 2 (BitVec.ofNat 64 (encode (.cwr a n))) false) :=
  cwr_trap h hh hm.priv ((csrWrite_of_mayWrite hh hm hk hro _).trans (if_pos hv))

/-- A permitted write that waits for no length. -/
theorem cwr_sets (hv : (s.readG c a.toNat 0).toNat &&& csrReserved n.toNat = 0) (hq : s.pcqWait c n.toNat = none) :
    exec (.cwr a n) s = .next ((s.csrSet c n.toNat (s.readG c a.toNat 0)).advance c none true) :=
  cwr_completes h hh hm.priv ((csrWrite_of_mayWrite hh hm hk hro _).trans (if_neg (Classical.not_not.mpr hv))) hq

end

/-! ### The saved queue (R186) -/

theorem addr_savedEntry (q : Queue) (a : Word) (nf : Bool) : (q.savedEntry a nf).addr = some a := by
  unfold Queue.savedEntry
  split
  next hf => simpa using List.find?_some hf
  next => rfl

theorem nf_savedEntry (q : Queue) (a : Word) (nf : Bool) : (q.savedEntry a nf).nf = nf := by
  unfold Queue.savedEntry
  split <;> rfl

theorem closed_of_isSome {e : QE} (h : e.addr.isSome = true) (free : Word) : e.closed free = e := if_pos h

theorem nf_closed (e : QE) (free : Word) : (e.closed free).nf = e.nf := by
  unfold QE.closed
  split <;> rfl

/-- A write of an entry of a saved queue: that entry's address, the addresses that the others have, and every nullify flag. -/
theorem writeSaved_entries (q : Queue) (a free1 free2 : Word) {k : Nat} (hk : k < 3) :
    let r := q.writeSaved k a free1 free2
    r.q0.addr = (if k = 0 then some a else q.q0.addr) ∧ (q.q1.addr.isSome = true → r.q1.addr = if k = 1 then some a else q.q1.addr) ∧
      (q.q2.addr.isSome = true → r.q2.addr = if k = 2 then some a else q.q2.addr) ∧
      r.q0.nf = q.q0.nf ∧ r.q1.nf = q.q1.nf ∧ r.q2.nf = q.q2.nf := by
  obtain rfl | rfl | rfl : k = 0 ∨ k = 1 ∨ k = 2 := by omega
  all_goals simp +contextual [Queue.writeSaved, addr_savedEntry, nf_savedEntry, closed_of_isSome, nf_closed]

theorem csrSet_pcq (s : State) (c : Ctx) (v : Word) {n : Nat} (h3 : 3 ≤ n) (h5 : n ≤ 5) : s.csrSet c n v = s.writePcq c (n - 3) v := by
  obtain rfl | rfl | rfl : n = 3 ∨ n = 4 ∨ n = 5 := by omega
  all_goals rfl

/-- The numbers of the PC queue's entries name assigned registers without reserved fields. -/
theorem pcq_number {n : Nat} (h3 : 3 ≤ n) (h5 : n ≤ 5) : csrKnown n = true ∧ csrReadOnly n = false ∧ csrReserved n = 0 := by
  obtain rfl | rfl | rfl : n = 3 ∨ n = 4 ∨ n = 5 := by omega
  all_goals decide

/-- The entry that a register number names. -/
theorem pcq_index {n : BitVec 12} (h3 : 3 ≤ n.toNat) (h5 : n.toNat ≤ 5) {k : Nat} (hk : k < 3) :
    n.toNat - 3 = k ↔ n = BitVec.ofNat 12 (3 + k) := by
  rw [← BitVec.toNat_inj, BitVec.toNat_ofNat, Nat.mod_eq_of_lt (by omega)]
  omega

/-- A write into the saved queue, once the lengths that its open entries need can be read (R186, R7): two marks for free values are used up. -/
theorem cwr_pcq {s : State} {c : Ctx} {a : BitVec 5} {n : BitVec 12} (h : Runs s c {} [.src .g a.toNat 0]) (hh : c.hnd = false)
    (hp : (s.slip c.b c.i).priv = true) (ht : (s.slip c.b c.i).intrap = true) (h3 : 3 ≤ n.toNat) (h5 : n.toNat ≤ 5)
    (h0 : s.lengthWait c (namedQueue s c).q0 = none) (h1 : s.lengthWait c (namedQueue s c).q1 = none) :
    ∃ t, exec (.cwr a n) s = .next t ∧
      (t.slip c.b c.i).saved = (namedQueue s c).writeSaved (n.toNat - 3) (s.readG c a.toNat 0) (Config.freeWord s.fresh)
        (Config.freeWord (s.fresh + 1)) ∧
      t.rest = { s.rest with fresh := s.fresh + 2 } ∧
      Kept (s.setSlip c.b c.i { s.slip c.b c.i with saved := (t.slip c.b c.i).saved }) t c [] {} := by
  obtain ⟨hk, hro, hclean⟩ := pcq_number h3 h5
  have hq : s.pcqWait c n.toNat = none := by
    have hw : firstSome (s.lengthWait c) (s.csrLengths c 5) = none := by
      simp only [State.csrLengths, firstSome, show s.csrQueue c = namedQueue s c from rfl, h0, h1]
    simp only [State.pcqWait, hw, ite_self]
  let r := (namedQueue s c).writeSaved (n.toNat - 3) (s.readG c a.toNat 0) (Config.freeWord s.fresh) (Config.freeWord (s.fresh + 1))
  let u := s.setSlip c.b c.i { s.slip c.b c.i with saved := r }
  have hset : s.csrSet c n.toNat (s.readG c a.toNat 0) = u.freshened.freshened := by
    rw [csrSet_pcq s c _ h3 h5, State.writePcq, if_pos ht]
    simp only [u, r, namedQueue, if_pos ht]
    rfl
  have hadv := keptAll_advance u.freshened.freshened c none true
  have hslip : u.freshened.freshened.slip c.b c.i = { s.slip c.b c.i with saved := r } := State.slip_setSlip_self s c.b c.i _
  have hsaved : ((u.freshened.freshened.advance c none true).slip c.b c.i).saved = r :=
    (congrArg Slip.saved hadv.slip :).trans (congrArg Slip.saved hslip)
  refine ⟨u.freshened.freshened.advance c none true, ?_, hsaved, hadv.rest, ?_⟩
  · rw [← hset]
    exact cwr_sets h hh (.inl hp) hk hro (by rw [hclean, Nat.and_zero]) hq
  · rw [hsaved]
    exact (Kept.of_berths (s := u) (t := u.freshened.freshened) c rfl).trans hadv.toKept

/-- Outside a trap a write of an entry of the PC queue changes nothing (R186). -/
theorem cwr_pcq_outside {s : State} {c : Ctx} {a : BitVec 5} {n : BitVec 12} (h : Runs s c {} [.src .g a.toNat 0]) (hh : c.hnd = false)
    (ht : (s.slip c.b c.i).intrap = false) (h3 : 3 ≤ n.toNat) (h5 : n.toNat ≤ 5) :
    exec (.cwr a n) s = .next (s.advance c none true) := by
  obtain ⟨hk, hro, hclean⟩ := pcq_number h3 h5
  have hset : s.csrSet c n.toNat (s.readG c a.toNat 0) = s := by
    rw [csrSet_pcq s c _ h3 h5, State.writePcq, if_neg (by simp [ht])]
  cases hp : (s.slip c.b c.i).priv with
  | true =>
    rw [cwr_sets h hh (.inl hp) hk hro (by rw [hclean, Nat.and_zero]) (pcqWait_outside (.inr (.inr (.inl ht)))), hset]
  | false =>
    refine cwr_ignored h hh (fun hpriv => ?_) hk (.inr ⟨hp, ?_⟩)
    · rw [csrPriv_iff] at hpriv; omega
    · simp only [csrUserWrite, Bool.or_eq_false_iff, Bool.and_eq_false_iff, decide_eq_false_iff_not, beq_eq_false_iff_ne]
      omega

/-! ### The writes as events -/

/-- The word of ones that a write of SERRLOG clears: VALID and OVF, bits 63 and 62 (R440). -/
theorem serrlogMask_getLsbD (v : Nat) {j : Nat} (hj : j < 64) :
    (natWord (v &&& 0xC000000000000000)).getLsbD j = (v.testBit j && decide (62 ≤ j)) := by
  have hmask : (0xC000000000000000 : Nat).testBit j = decide (62 ≤ j) := by
    rw [show (0xC000000000000000 : Nat) = 3 <<< 62 from rfl, Nat.testBit_shiftLeft]
    by_cases h62 : 62 ≤ j
    · obtain rfl | rfl : j = 62 ∨ j = 63 := by omega
      all_goals rfl
    · simp [h62]
  rw [natWord, BitVec.getLsbD_ofNat, Nat.testBit_and, hmask, decide_eq_true hj, Bool.true_and]

/-- A write of SERRLOG clears the bits of that word that it writes with one. -/
theorem getLsbD_serrlog (w : Word) (v : Nat) {j : Nat} (hj : j < 64) :
    (w &&& ~~~(natWord (v &&& 0xC000000000000000))).getLsbD j = (w.getLsbD j && !(v.testBit j && decide (62 ≤ j))) := by
  rw [BitVec.getLsbD_and, BitVec.getLsbD_not, serrlogMask_getLsbD v hj, decide_eq_true hj, Bool.true_and]

theorem exec_qrctlWrite {s : State} {i : Nat} (h : (s.berth s.cur).running = some i) (v : Nat) :
    exec (.qrctlWrite v) s = .next (s.writeQrctl { b := s.cur, i := i, hnd := false } (natWord v)) := by
  show execQrctlWrite v s = _
  simp only [execQrctlWrite, State.runningCtx, h, Option.map_some]

theorem exec_fdstopWrite {s : State} {i : Nat} (h : (s.berth s.cur).running = some i) (v : Nat) :
    exec (.fdstopWrite v) s = .next (s.writeFdstop { b := s.cur, i := i, hnd := false } v) := by
  show execFdstopWrite v s = _
  simp only [execFdstopWrite, State.runningCtx, h, Option.map_some]

theorem writeFdstop_none {v : Nat} (hv : v % 64 = 0) (s : State) (c : Ctx) : s.writeFdstop c v = s := by
  rw [State.writeFdstop, bitsOf_low]
  exact if_pos hv

/-- A nonzero CAUSE stops the slip's domain (R420). -/
theorem writeFdstop_some {v : Nat} (hv : v % 64 ≠ 0) (s : State) (c : Ctx) :
    s.writeFdstop c v = s.report c.b c.i 5 (v % 64) (BitVec.ofNat 64 (v / 2 ^ 32 % 2 ^ 32)) := by
  rw [State.writeFdstop, bitsOf_low, bitsOf_eq]
  exact if_neg hv

end Sys2Proof.Claims

namespace Sys2Proof.Proofs
open Sys2Proof Sys2Proof.Machine Sys2Proof.Claims

/-- Settles O19: the checks of R26 decide which of a register's own rules a CRD or CWR follows; the events write as CWR does. -/
theorem controlRegisters : Obligations.ControlRegisters := by
  refine ⟨fun s c d n h hh => ?crd, fun s c a n h hh => ?cwr, fun s b v => ⟨?_, ?_, ?_⟩, fun s i v hi => ⟨?_, fun hv => ?_, fun hv => ?_⟩⟩
  case crd =>
    intro p q marked
    have hmarked : csrPriv n.toNat = true ↔ marked := csrPriv_iff _
    refine ⟨fun e he hn hm => ?_, fun a hn ha => ?_, fun a hn hw ha => ?_, fun a hn hw0 hw1 ha => ?_, fun hm hp => ?_, fun hk hm => ?_⟩
    · obtain ⟨hk, hpcq⟩ := csrValues_known s c e he
      rw [hn] at hk hpcq
      rw [← csrRead_csrValues s hh e he, hn]
      exact crd_givesG h hh (fun hp => hm.resolve_left (Classical.not_not.mpr (hmarked.mp hp))) hk hpcq
    · have hv : s.csrRead c 0x003 = q.q0.addr.getD (Config.freeWord s.fresh) := rfl
      subst hn
      exact crd_givesPcq h hh (fun hp => absurd hp (by decide)) (by decide) (by decide) rfl (hv.trans (by rw [ha, Option.getD_some]))
    · have hlen : firstSome (s.lengthWait c) (s.csrLengths c 0x004) = none := by
        simp only [State.csrLengths, firstSome, show s.csrQueue c = q from rfl, hw]
      have hv : s.csrRead c 0x004 = q.q1.addr.getD (Config.freeWord s.fresh) := rfl
      subst hn
      exact crd_givesPcq h hh (fun hp => absurd hp (by decide)) (by decide) (by decide) hlen (hv.trans (by rw [ha, Option.getD_some]))
    · have hlen : firstSome (s.lengthWait c) (s.csrLengths c 0x005) = none := by
        simp only [State.csrLengths, firstSome, show s.csrQueue c = q from rfl, hw0, hw1]
      have hv : s.csrRead c 0x005 = q.q2.addr.getD (Config.freeWord (s.fresh + 1)) := rfl
      subst hn
      exact crd_givesPcq h hh (fun hp => absurd hp (by decide)) (by decide) (by decide) hlen (hv.trans (by rw [ha, Option.getD_some]))
    · exact crd_unprivileged h.1 hh (hmarked.mpr hm) hp
    · exact crd_unassigned h hh (priv_of_unassigned hk hm) (by rw [← Bool.not_eq_true, csrKnown_iff]; exact hk)
  case cwr =>
    intro v p q writes clean traps
    have hmay : writes → MayWrite s c n.toNat := Or.imp_right (csrUserWrite_iff n).mpr
    have hset : writes → v.toNat &&& csrReserved n.toNat = 0 → Writable n.toNat →
        exec (.cwr a n) s = .next ((s.csrSet c n.toNat v).advance c none true) := fun hw hv hn => by
      obtain ⟨hk, hro, hpcq⟩ := hn
      exact cwr_sets h hh (hmay hw) hk hro hv (pcqWait_outside (hpcq.imp_right .inl))
    have hclean : clean → v.toNat &&& csrReserved n.toNat = 0 := and_csrReserved_of_clean
    refine ⟨fun hm hp => ?_, fun hk hm => ?_, fun m hm hn hw hv => ?_, fun e he hn hw hc => ?_, fun e he hn hw hc => ?_, fun hn hw hc => ?_,
      fun hn hw hc hv => ?_, fun hn hw => ?_, fun h3 h5 hp ht hw0 hw1 => ?_, fun h3 h5 ht => ?_, fun hlt hne hp => ?_, fun hn => ?_,
      fun hn hp hc => ?_⟩
    · exact cwr_unprivileged h.1 hh ((csrPriv_iff _).mpr hm) hp
    · exact cwr_unassigned h hh (priv_of_unassigned hk hm) (by rw [← Bool.not_eq_true, csrKnown_iff]; exact hk)
    · obtain ⟨hk, hro, -⟩ := csrMasks_writable m hm
      rw [hn] at hk hro
      exact cwr_reserved h hh (hmay hw) hk hro (by rw [← hn, csrReserved_csrMasks m hm]; exact hv)
    · rw [hset hw (hclean hc) (hn ▸ slipWrites_writable v e he), ← hn, csrSet_slipWrites s c v e he]
    · rw [hset hw (hclean hc) (hn ▸ berthWrites_writable v e he), ← hn, csrSet_berthWrites s c v e he]
    · subst hn
      exact hset hw (hclean hc) ((writable_iff _).mpr (by decide))
    · subst hn
      have hcode : v.toNat / 2 ^ 32 % 2 ^ 32 = v.toNat / 2 ^ 32 := Nat.mod_eq_of_lt (by have := v.isLt; omega)
      rw [hset hw (hclean hc) ((writable_iff _).mpr (by decide)), ← hcode, ← writeFdstop_some hv]
      rfl
    · subst hn
      exact hset hw (Nat.and_zero _) ((writable_iff _).mpr (by decide))
    · obtain ⟨t, ht, hsaved, hrest, hkept⟩ := cwr_pcq h hh hp ht h3 h5 hw0 hw1
      have hentries := writeSaved_entries q v (Config.freeWord s.fresh) (Config.freeWord (s.fresh + 1)) (show n.toNat - 3 < 3 by omega)
      rw [← hsaved] at hentries
      obtain ⟨h0, h1, h2, hf0, hf1, hf2⟩ := hentries
      have hentry {k : Nat} (hk : k < 3) := pcq_index h3 h5 hk
      exact ⟨t, ht, h0.trans (ite_congr (propext (hentry (by decide))) (fun _ => rfl) (fun _ => rfl)), fun ho => (h1 ho).trans (ite_congr (propext (hentry (by decide))) (fun _ => rfl) (fun _ => rfl)),
        fun ho => (h2 ho).trans (ite_congr (propext (hentry (by decide))) (fun _ => rfl) (fun _ => rfl)), hf0, hf1, hf2, hrest, hkept⟩
    · exact cwr_pcq_outside h hh ht h3 h5
    · have hn8 : n.toNat ≠ 0x008 := fun h8 => hne (BitVec.eq_of_toNat_eq h8)
      refine cwr_ignored h hh (fun hpriv => ?_) ?_ (.inr ⟨hp, ?_⟩)
      · rw [csrPriv_iff] at hpriv; omega
      · rw [csrKnown_iff, assignedCsr]; omega
      · simp only [csrUserWrite, Bool.or_eq_false_iff, Bool.and_eq_false_iff, decide_eq_false_iff_not, beq_eq_false_iff_ne]
        omega
    · obtain ⟨hpriv, hk, hro⟩ := readOnly_number hn
      exact cwr_ignored h hh (fun hm => absurd hm (by rw [hpriv]; decide)) hk (.inl hro)
    · rcases hn with rfl | rfl
      · exact hset (.inl hp) (hclean hc) ((writable_iff _).mpr (by decide))
      · exact cwr_ignored h hh (fun _ => hp) (by decide) (.inl (by decide))
  · exact ⟨_, rfl, State.berth_modBerth_self _ _ _, rfl⟩
  · refine ⟨_, rfl, rfl, ?_⟩
    rw [State.writeIpend, State.berth_modBerth_self]
    simp only [bitOf_eq_testBit]
  · have herr : ((s.writeSerrlog b v).berth b).serrlog = (s.berth b).serrlog &&& ~~~(natWord (v &&& 0xC000000000000000)) := by
      rw [State.writeSerrlog, State.berth_modBerth_self]
    refine ⟨_, rfl, rfl, fun j hj => ?_, fun j hj => ?_⟩
    · rw [herr, getLsbD_serrlog _ _ (by omega), decide_eq_false (by omega : ¬ 62 ≤ j), Bool.and_false, Bool.not_false, Bool.and_true]
    · rw [herr, getLsbD_serrlog _ _ (by omega), decide_eq_true (by omega : 62 ≤ j), Bool.and_true]
  · rw [exec_qrctlWrite hi]
    exact ⟨_, rfl, rfl, State.slip_modSlip_self _ _ _ _⟩
  · rw [exec_fdstopWrite hi, writeFdstop_none hv]
  · rw [exec_fdstopWrite hi, writeFdstop_some hv]
    exact ⟨_, rfl, rfl, rfl, _, rfl, rfl, rfl, rfl, rfl, rfl, rfl⟩

end Sys2Proof.Proofs
end

section
/-! The encoder and the decoder (spec/02 R39, R41 to R60): what an instruction's word is as a number, and the word in bytes. -/
namespace Sys2Proof.Laws
open Sys2Proof Sys2Proof.Machine

/-! ### The word of an instruction: its parity and its size (R39, R41) -/

/-- n has the parity p and is below b. -/
def Fits (p b n : Nat) : Prop := n % 2 = p ∧ n < b

/-- A field above bit 0 keeps the parity, and n stays below b where b leaves room for the field's largest value. -/
theorem Fits.add_at {p b n lo w : Nat} {v : BitVec w} (h : Fits p (b - (2 ^ w - 1) <<< lo) n) (hl : 0 < lo) :
    Fits p b (n + at' lo v.toNat) := by
  obtain ⟨hp, hb⟩ := h
  obtain ⟨k, rfl⟩ : ∃ k, lo = k + 1 := ⟨lo - 1, by omega⟩
  have hv : v.toNat ≤ 2 ^ w - 1 := Nat.le_sub_one_of_lt v.isLt
  have hm : v.toNat <<< (k + 1) ≤ (2 ^ w - 1) <<< (k + 1) := by
    simp only [Nat.shiftLeft_eq]
    exact Nat.mul_le_mul_right _ hv
  refine ⟨?_, by simp only [at']; omega⟩
  rw [at', Nat.shiftLeft_eq, Nat.pow_succ, ← Nat.mul_assoc, Nat.add_mul_mod_self_right, hp]

/-- A word is its fixed bits and fields above bit 0: a 32-bit one is odd and a compact one even (R41), and it fits its length. -/
theorem encode_fits (i : Instr) : Fits (i.len / 4) (256 ^ i.len) (encode i) := by
  cases i
  all_goals
    dsimp only [Instr.len, encode]
    repeat refine Fits.add_at ?_ (by decide)
    exact ⟨rfl, by decide⟩

theorem len_cases (i : Instr) : i.len = 0 ∨ i.len = 2 ∨ i.len = 4 := by
  cases i
  all_goals
    dsimp only [Instr.len]
    decide

/-! ### A word decodes to its instruction (R42 to R60) -/

/-- The family Encoding, an instruction at a time. -/
theorem decodeWord_encode : ∀ i : Instr, Encoding.Statement i
  | .add d a x b y => Encoding.add d a x b y | .sub d a x b y => Encoding.sub d a x b y | .and d a x b y => Encoding.and d a x b y
  | .or d a x b y => Encoding.or d a x b y | .xor d a x b y => Encoding.xor d a x b y | .andn d a x b y => Encoding.andn d a x b y
  | .orn d a x b y => Encoding.orn d a x b y | .xnor d a x b y => Encoding.xnor d a x b y | .sll d a x b y => Encoding.sll d a x b y
  | .srl d a x b y => Encoding.srl d a x b y | .sra d a x b y => Encoding.sra d a x b y | .rol d a x b y => Encoding.rol d a x b y
  | .ror d a x b y => Encoding.ror d a x b y | .min d a x b y => Encoding.min d a x b y | .max d a x b y => Encoding.max d a x b y
  | .minu d a x b y => Encoding.minu d a x b y | .maxu d a x b y => Encoding.maxu d a x b y | .adds d a x b y => Encoding.adds d a x b y
  | .subs d a x b y => Encoding.subs d a x b y | .clz d a x => Encoding.clz d a x | .ctz d a x => Encoding.ctz d a x
  | .popc d a x => Encoding.popc d a x | .brev d a x => Encoding.brev d a x | .sxb d a x => Encoding.sxb d a x
  | .sxh d a x => Encoding.sxh d a x | .sxw d a x => Encoding.sxw d a x | .zxb d a x => Encoding.zxb d a x
  | .zxh d a x => Encoding.zxh d a x | .zxw d a x => Encoding.zxw d a x | .mul d a x b y => Encoding.mul d a x b y
  | .mulh d a x b y => Encoding.mulh d a x b y | .mulhu d a x b y => Encoding.mulhu d a x b y | .div d a x b y => Encoding.div d a x b y
  | .divu d a x b y => Encoding.divu d a x b y | .rem d a x b y => Encoding.rem d a x b y | .remu d a x b y => Encoding.remu d a x b y
  | .addi d a x i => Encoding.addi d a x i | .andi d a x i => Encoding.andi d a x i | .ori d a x i => Encoding.ori d a x i
  | .xori d a x i => Encoding.xori d a x i | .slli d a x s => Encoding.slli d a x s | .srli d a x s => Encoding.srli d a x s
  | .srai d a x s => Encoding.srai d a x s | .rori d a x s => Encoding.rori d a x s | .upim d i => Encoding.upim d i
  | .pcadd d i => Encoding.pcadd d i | .ceq q a x b y => Encoding.ceq q a x b y | .cne q a x b y => Encoding.cne q a x b y
  | .clt q a x b y => Encoding.clt q a x b y | .cltu q a x b y => Encoding.cltu q a x b y | .cge q a x b y => Encoding.cge q a x b y
  | .cgeu q a x b y => Encoding.cgeu q a x b y | .qand q a x b y => Encoding.qand q a x b y | .qor q a x b y => Encoding.qor q a x b y
  | .qxor q a x b y => Encoding.qxor q a x b y | .qnot q a x => Encoding.qnot q a x | .ceqi q a x i => Encoding.ceqi q a x i
  | .cnei q a x i => Encoding.cnei q a x i | .clti q a x i => Encoding.clti q a x i | .cltui q a x i => Encoding.cltui q a x i
  | .cgei q a x i => Encoding.cgei q a x i | .cgeui q a x i => Encoding.cgeui q a x i | .br q s n o => Encoding.br q s n o
  | .j o => Encoding.j o | .jl o => Encoding.jl o | .jr a x i => Encoding.jr a x i | .jlr a x i => Encoding.jlr a x i
  | .lset w m a b => Encoding.lset w m a b | .loop c o => Encoding.loop c o | .loops s o => Encoding.loops s o
  | .leave n => Encoding.leave n | .leaveq q s n => Encoding.leaveq q s n | .lb d a x i => Encoding.lb d a x i
  | .lbu d a x i => Encoding.lbu d a x i | .lh d a x i => Encoding.lh d a x i | .lhu d a x i => Encoding.lhu d a x i
  | .lw d a x i => Encoding.lw d a x i | .lwu d a x i => Encoding.lwu d a x i | .ld d a x i => Encoding.ld d a x i
  | .sb s a x i => Encoding.sb s a x i | .sh s a x i => Encoding.sh s a x i | .sw s a x i => Encoding.sw s a x i
  | .sd s a x i => Encoding.sd s a x i | .lxB d a x b y => Encoding.lxB d a x b y | .lxBu d a x b y => Encoding.lxBu d a x b y
  | .lxH d a x b y => Encoding.lxH d a x b y | .lxHu d a x b y => Encoding.lxHu d a x b y | .lxW d a x b y => Encoding.lxW d a x b y
  | .lxWu d a x b y => Encoding.lxWu d a x b y | .lxD d a x b y => Encoding.lxD d a x b y | .sxB s a x b y => Encoding.sxB s a x b y
  | .sxH s a x b y => Encoding.sxH s a x b y | .sxW s a x b y => Encoding.sxW s a x b y | .sxD s a x b y => Encoding.sxD s a x b y
  | .flw d a x i => Encoding.flw d a x i | .fsw s a x i => Encoding.fsw s a x i | .vl d a x i => Encoding.vl d a x i
  | .vs s a x i => Encoding.vs s a x i | .vls d a x b m e => Encoding.vls d a x b m e | .vss s a x b m e => Encoding.vss s a x b m e
  | .vlg d a x b m e => Encoding.vlg d a x b m e | .vsg s a x b m e => Encoding.vsg s a x b m e
  | .fadd d a x b y => Encoding.fadd d a x b y | .fsub d a x b y => Encoding.fsub d a x b y | .fmul d a x b y => Encoding.fmul d a x b y
  | .fdiv d a x b y => Encoding.fdiv d a x b y | .fsqrt d a x => Encoding.fsqrt d a x | .fmin d a x b y => Encoding.fmin d a x b y
  | .fmax d a x b y => Encoding.fmax d a x b y | .fabs d a x => Encoding.fabs d a x | .fneg d a x => Encoding.fneg d a x
  | .fma d a b c => Encoding.fma d a b c | .fms d a b c => Encoding.fms d a b c | .fnma d a b c => Encoding.fnma d a b c
  | .fnms d a b c => Encoding.fnms d a b c | .fcvti d a x r s => Encoding.fcvti d a x r s | .fcvtf d a x r s => Encoding.fcvtf d a x r s
  | .fcvtb d a x r s => Encoding.fcvtb d a x r s | .fmvgf d a x => Encoding.fmvgf d a x | .fmvfg d a x => Encoding.fmvfg d a x
  | .fceq q a x b y => Encoding.fceq q a x b y | .fclt q a x b y => Encoding.fclt q a x b y | .fcle q a x b y => Encoding.fcle q a x b y
  | .fclass d a x => Encoding.fclass d a x | .vadd d a x b e => Encoding.vadd d a x b e | .vsub d a x b e => Encoding.vsub d a x b e
  | .vmul d a x b e => Encoding.vmul d a x b e | .vmulh d a x b e => Encoding.vmulh d a x b e | .vmin d a x b e => Encoding.vmin d a x b e
  | .vmax d a x b e => Encoding.vmax d a x b e | .vminu d a x b e => Encoding.vminu d a x b e
  | .vmaxu d a x b e => Encoding.vmaxu d a x b e | .vand d a x b e => Encoding.vand d a x b e | .vor d a x b e => Encoding.vor d a x b e
  | .vxor d a x b e => Encoding.vxor d a x b e | .vsll d a x b e => Encoding.vsll d a x b e | .vsrl d a x b e => Encoding.vsrl d a x b e
  | .vsra d a x b e => Encoding.vsra d a x b e | .vadds d a x b e => Encoding.vadds d a x b e
  | .vsubs d a x b e => Encoding.vsubs d a x b e | .vfadd d a x b e => Encoding.vfadd d a x b e
  | .vfsub d a x b e => Encoding.vfsub d a x b e | .vfmul d a x b e => Encoding.vfmul d a x b e
  | .vfdiv d a x b e => Encoding.vfdiv d a x b e | .vfmin d a x b e => Encoding.vfmin d a x b e
  | .vfmax d a x b e => Encoding.vfmax d a x b e | .vfexp2 d a x e => Encoding.vfexp2 d a x e | .vfrcp d a x e => Encoding.vfrcp d a x e
  | .vfrsq d a x e => Encoding.vfrsq d a x e | .vfabs d a x e => Encoding.vfabs d a x e | .vfneg d a x e => Encoding.vfneg d a x e
  | .vfmaS d a b c => Encoding.vfmaS d a b c | .vfmaBf d a b c => Encoding.vfmaBf d a b c | .vfmsS d a b c => Encoding.vfmsS d a b c
  | .vfmsBf d a b c => Encoding.vfmsBf d a b c | .vselB d a b c => Encoding.vselB d a b c | .vselH d a b c => Encoding.vselH d a b c
  | .vselW d a b c => Encoding.vselW d a b c | .vselD d a b c => Encoding.vselD d a b c | .vrsum d a x b e => Encoding.vrsum d a x b e
  | .vrmax d a x b e => Encoding.vrmax d a x b e | .vrmin d a x b e => Encoding.vrmin d a x b e
  | .vperm d a x b e => Encoding.vperm d a x b e | .vbcast d a x b e => Encoding.vbcast d a x b e
  | .vsplat d a x e => Encoding.vsplat d a x e | .vcvtBfS d a x b r => Encoding.vcvtBfS d a x b r
  | .vcvtSBf d a x => Encoding.vcvtSBf d a x | .vcvtHfS d a x b r => Encoding.vcvtHfS d a x b r | .vcvtSHf d a x => Encoding.vcvtSHf d a x
  | .vcvtI32S d a x b r => Encoding.vcvtI32S d a x b r | .vcvtSI32 d a x b r => Encoding.vcvtSI32 d a x b r
  | .vcvtI8S d a x b r => Encoding.vcvtI8S d a x b r | .vcvtSI8 d a x => Encoding.vcvtSI8 d a x
  | .vcvtHfBf d a x b r => Encoding.vcvtHfBf d a x b r | .vcvtBfHf d a x b r => Encoding.vcvtBfHf d a x b r
  | .vpackmx d a x s t => Encoding.vpackmx d a x s t | .vunpkmx d a x t => Encoding.vunpkmx d a x t
  | .mand d a x b y => Encoding.mand d a x b y | .mor d a x b y => Encoding.mor d a x b y | .mxor d a x b y => Encoding.mxor d a x b y
  | .mnot d a x => Encoding.mnot d a x | .mpop d a x => Encoding.mpop d a x | .mfirst d a x => Encoding.mfirst d a x
  | .vfcmpEq m a x b e => Encoding.vfcmpEq m a x b e | .vfcmpLt m a x b e => Encoding.vfcmpLt m a x b e
  | .vcmpEq m a x b e => Encoding.vcmpEq m a x b e | .vcmpNe m a x b e => Encoding.vcmpNe m a x b e
  | .vcmpLt m a x b e => Encoding.vcmpLt m a x b e | .vcmpLtu m a x b e => Encoding.vcmpLtu m a x b e
  | .vcmpGe m a x b e => Encoding.vcmpGe m a x b e | .vcmpGeu m a x b e => Encoding.vcmpGeu m a x b e
  | .vfcmpLe m a x b e => Encoding.vfcmpLe m a x b e | .chwaitf c n => Encoding.chwaitf c n | .chwaite c n => Encoding.chwaite c n
  | .chadvc c n => Encoding.chadvc c n | .chadvp c n => Encoding.chadvp c n | .chst s c u => Encoding.chst s c u
  | .chaddr d c u => Encoding.chaddr d c u | .send n a c => Encoding.send n a c | .put s a c => Encoding.put s a c
  | .get s a b => Encoding.get s a b | .window k g => Encoding.window k g | .bdef i k a x b y => Encoding.bdef i k a x b y
  | .badd a x b y => Encoding.badd a x b y | .band a x b y => Encoding.band a x b y | .bor a x b y => Encoding.bor a x b y
  | .bxor a x b y => Encoding.bxor a x b y | .bmin u a x b y => Encoding.bmin u a x b y | .bmax u a x b y => Encoding.bmax u a x b y
  | .bfxa f a x b y => Encoding.bfxa f a x b y | .bminf a x b y => Encoding.bminf a x b y | .bmaxf a x b y => Encoding.bmaxf a x b y
  | .bvsa e a x b y => Encoding.bvsa e a x b y | .brd d a x o => Encoding.brd d a x o | .swdef a x b y => Encoding.swdef a x b y
  | .arrive s a x => Encoding.arrive s a x | .swait s a x b y => Encoding.swait s a x b y | .fence s => Encoding.fence s
  | .flushas a x => Encoding.flushas a x | .drain => Encoding.drain | .xfer d a => Encoding.xfer d a | .xferq d a => Encoding.xferq d a
  | .xwait a k => Encoding.xwait a k | .xstat d k => Encoding.xstat d k | .cwld a v b => Encoding.cwld a v b
  | .cwlds a v b => Encoding.cwlds a v b | .cwswap => Encoding.cwswap | .czclr z => Encoding.czclr z | .czwait l z => Encoding.czwait l z
  | .czout a b z => Encoding.czout a b z | .czld a b z => Encoding.czld a b z | .cmmaBf a f s z => Encoding.cmmaBf a f s z
  | .cmmaHf a f s z => Encoding.cmmaHf a f s z | .cmmaI8 a f s z => Encoding.cmmaI8 a f s z
  | .cmmaE4e4 a f s z => Encoding.cmmaE4e4 a f s z | .cmmaE4e5 a f s z => Encoding.cmmaE4e5 a f s z
  | .cmmaE5e4 a f s z => Encoding.cmmaE5e4 a f s z | .cmmaE5e5 a f s z => Encoding.cmmaE5e5 a f s z
  | .cmmaF6a a f s z => Encoding.cmmaF6a a f s z | .cmmaF6b a f s z => Encoding.cmmaF6b a f s z
  | .cmmaF6ab a f s z => Encoding.cmmaF6ab a f s z | .cmmaMxf4 a f s z => Encoding.cmmaMxf4 a f s z
  | .cmmaKf4 a f s z => Encoding.cmmaKf4 a f s z | .cmmaE4kf4 a f s z => Encoding.cmmaE4kf4 a f s z
  | .cmmaMxi8 a f s z => Encoding.cmmaMxi8 a f s z | .kvopen a b => Encoding.kvopen a b | .kvapp h a b c p => Encoding.kvapp h a b c p
  | .kvqry a b c => Encoding.kvqry a b c | .kvseal a => Encoding.kvseal a | .kvstat d a => Encoding.kvstat d a
  | .kvdrop a => Encoding.kvdrop a | .kvdropGrant a b => Encoding.kvdropGrant a b | .kvdropRevoke a => Encoding.kvdropRevoke a
  | .qrld a x b y => Encoding.qrld a x b y | .qrseed a x b y => Encoding.qrseed a x b y | .qri d a x b y => Encoding.qri d a x b y
  | .qrf d a x b y => Encoding.qrf d a x b y | .qrvI d a x b y => Encoding.qrvI d a x b y | .qrvD d a x b y => Encoding.qrvD d a x b y
  | .crd d i => Encoding.crd d i | .cwr a i => Encoding.cwr a i | .trap i => Encoding.trap i | .brk i => Encoding.brk i
  | .rft => Encoding.rft | .idle => Encoding.idle | .done => Encoding.done | .halt => Encoding.halt | .haltR => Encoding.haltR
  | .cMv d a => Encoding.cMv d a | .cAdd d a => Encoding.cAdd d a | .cAddi d i => Encoding.cAddi d i | .cSub d a => Encoding.cSub d a
  | .cAnd d a => Encoding.cAnd d a | .cLi d i => Encoding.cLi d i | .cLd d i => Encoding.cLd d i | .cSd s i => Encoding.cSd s i
  | .cLw d i => Encoding.cLw d i | .cSw s i => Encoding.cSw s i | .cSlli d i => Encoding.cSlli d i | .cSrli d i => Encoding.cSrli d i
  | .cJ o => Encoding.cJ o | .cBrq o => Encoding.cBrq o | .cRet => Encoding.cRet | .interruptEntry => Encoding.interruptEntry
  | .timerExpiry b => Encoding.timerExpiry b | .idleWake b i => Encoding.idleWake b i | .slipSchedule b => Encoding.slipSchedule b
  | .slipInputsSuffice b i => Encoding.slipInputsSuffice b i | .waitSatisfied b i => Encoding.waitSatisfied b i
  | .haltDrainComplete b i => Encoding.haltDrainComplete b i | .handlerOverrun => Encoding.handlerOverrun
  | .itemArrival n => Encoding.itemArrival n | .getReplyArrival n => Encoding.getReplyArrival n
  | .closeMarkerArrival b i => Encoding.closeMarkerArrival b i | .windowComplete b i => Encoding.windowComplete b i
  | .launchArrival n => Encoding.launchArrival n | .advanceNoticeArrival n => Encoding.advanceNoticeArrival n
  | .freeNoticeArrival n => Encoding.freeNoticeArrival n | .ackArrival n => Encoding.ackArrival n | .busyResend n => Encoding.busyResend n
  | .arrivalDelivery n => Encoding.arrivalDelivery n | .copyStart b => Encoding.copyStart b | .copyLanding c => Encoding.copyLanding c
  | .copyComplete c => Encoding.copyComplete c | .craneDispatch b => Encoding.craneDispatch b | .craneCommand b => Encoding.craneCommand b
  | .bankOpApply n => Encoding.bankOpApply n | .pageService n => Encoding.pageService n
  | .pageServiceComplete n entry leaf => Encoding.pageServiceComplete n entry leaf
  | .migration pkg page dest => Encoding.migration pkg page dest | .kvAppendApply n => Encoding.kvAppendApply n
  | .kvQueryResolve n => Encoding.kvQueryResolve n | .tripleLanding n => Encoding.tripleLanding n
  | .kvPageRecall key => Encoding.kvPageRecall key | .regionSelect pkg => Encoding.regionSelect pkg
  | .regionBind pkg region place => Encoding.regionBind pkg region place | .preempt pkg region => Encoding.preempt pkg region
  | .preemptForce b i => Encoding.preemptForce b i | .regionSuspend pkg region => Encoding.regionSuspend pkg region
  | .victimBankClaim b bank => Encoding.victimBankClaim b bank | .faultDomainStop => Encoding.faultDomainStop
  | .rollback => Encoding.rollback | .retentionEntry unit => Encoding.retentionEntry unit
  | .retentionExit unit => Encoding.retentionExit unit | .tcmpWrite b v => Encoding.tcmpWrite b v
  | .ipendWrite b v => Encoding.ipendWrite b v | .qrctlWrite v => Encoding.qrctlWrite v | .fdstopWrite v => Encoding.fdstopWrite v
  | .serrlogWrite b v => Encoding.serrlogWrite b v | .kverrWrite pkg bank v => Encoding.kverrWrite pkg bank v
  | .plstatClr pkg port v => Encoding.plstatClr pkg port v | .registerWrite pkg reg v => Encoding.registerWrite pkg reg v
  | .doorbell pkg q v => Encoding.doorbell pkg q v | .qctlEnable pkg q v => Encoding.qctlEnable pkg q v
  | .qctlRestart pkg q => Encoding.qctlRestart pkg q | .evctlWrite pkg v => Encoding.evctlWrite pkg v
  | .evheadWrite pkg v => Encoding.evheadWrite pkg v | .evstatWrite pkg v => Encoding.evstatWrite pkg v
  | .resync pkg v => Encoding.resync pkg v | .resyncComplete pkg => Encoding.resyncComplete pkg
  | .packetStart pkg q => Encoding.packetStart pkg q | .ldp pkg q => Encoding.ldp pkg q | .ldi pkg q => Encoding.ldi pkg q
  | .movi pkg q => Encoding.movi pkg q | .pilotAdd pkg q => Encoding.pilotAdd pkg q | .pilotAnd pkg q => Encoding.pilotAnd pkg q
  | .shr pkg q => Encoding.shr pkg q | .pilotBeq pkg q => Encoding.pilotBeq pkg q | .loopn pkg q => Encoding.loopn pkg q
  | .pilotLaunch pkg q => Encoding.pilotLaunch pkg q | .regopReady pkg q => Encoding.regopReady pkg q
  | .regopPrio pkg q => Encoding.regopPrio pkg q | .regopArgs pkg q => Encoding.regopArgs pkg q | .waitr pkg q => Encoding.waitr pkg q
  | .pilotEvent pkg q => Encoding.pilotEvent pkg q | .fail pkg q => Encoding.fail pkg q | .haltp pkg q => Encoding.haltp pkg q
  | .pilotWaitResume pkg q => Encoding.pilotWaitResume pkg q | .takeover pkg => Encoding.takeover pkg
  | .evpush pkg v => Encoding.evpush pkg v | .dbkick pkg v => Encoding.dbkick pkg v | .dbpendWrite pkg k v => Encoding.dbpendWrite pkg k v
  | .cbstatWrite pkg v => Encoding.cbstatWrite pkg v | .flitReceive pkg port flit => Encoding.flitReceive pkg port flit
  | .portRetrain pkg port ok => Encoding.portRetrain pkg port ok | .portDown pkg port => Encoding.portDown pkg port
  | .exchangeLineSend pkg n => Encoding.exchangeLineSend pkg n | .exchangeLineReceive n => Encoding.exchangeLineReceive n
  | .transferRecordReceive n => Encoding.transferRecordReceive n | .powerGood pkg => Encoding.powerGood pkg
  | .phaseComplete pkg fail => Encoding.phaseComplete pkg fail | .phaseTimeout pkg => Encoding.phaseTimeout pkg
  | .monitorReading pkg plan margin => Encoding.monitorReading pkg plan margin | .pwrcapLower pkg => Encoding.pwrcapLower pkg
  | .pwrcapRaise pkg => Encoding.pwrcapRaise pkg | .getCertificate pkg => Encoding.getCertificate pkg
  | .challenge pkg nonce => Encoding.challenge pkg nonce | .getMeasurements pkg => Encoding.getMeasurements pkg
  | .pldmSensorRead pkg sensor => Encoding.pldmSensorRead pkg sensor
  | .pldmFirmwareUpdate pkg image => Encoding.pldmFirmwareUpdate pkg image
  | .objectLoad pkg addr len place => Encoding.objectLoad pkg addr len place
  | .containerLoad pkg addr len => Encoding.containerLoad pkg addr len
  | .illegalInstruction w cause => Encoding.illegalInstruction w cause | .fetchFault => Encoding.fetchFault
  | .chstLanding n => Encoding.chstLanding n | .regionResume pkg region => Encoding.regionResume pkg region
  | .regionReclaim pkg region => Encoding.regionReclaim pkg region | .kvPageMove key => Encoding.kvPageMove key
  | .lostFrameRetransmit n => Encoding.lostFrameRetransmit n | .containerWrite pkg addr rev => Encoding.containerWrite pkg addr rev

/-- A number that is the word of a well-formed instruction decodes to it. -/
theorem decodeWord_of_encode {i : Instr} {n w : Nat} (hl : i.len = n) (hn : n ≠ 0) (he : encode i = w) (hw : i.wellFormed = true) :
    decodeWord n w = .ok i := by
  subst hl he
  exact decodeWord_encode i hw hn

/-! ### A word in bytes (R3, R39) -/

theorem toNat_ofNat_eight_mod_two (n : Nat) : (BitVec.ofNat 8 n).toNat % 2 = n % 2 := by
  rw [BitVec.toNat_ofNat]
  omega

/-- Four bytes whose first is odd are one 32-bit word. -/
theorem decode_leBytes_four {n : Nat} {i : Instr} (ho : n % 2 = 1) (hn : n < 256 ^ 4) (hd : decodeWord 4 n = .ok i) (rest : List Byte) :
    decode (leBytes 4 n ++ rest) = .ok (i, rest) := by
  have hw : decode32 (leNat (leBytes 4 n)) = .ok i := by rw [leNat_leBytes, Nat.mod_eq_of_lt hn]; exact hd
  simp only [leBytes] at hw
  simp only [leBytes, List.cons_append, List.nil_append, decode, toNat_ofNat_eight_mod_two, ho, if_true, hw]

/-- Two bytes whose first is even are one compact word. -/
theorem decode_leBytes_two {n : Nat} {i : Instr} (he : n % 2 = 0) (hn : n < 256 ^ 2) (hd : decodeWord 2 n = .ok i) (rest : List Byte) :
    decode (leBytes 2 n ++ rest) = .ok (i, rest) := by
  have hw : decode16 (leNat (leBytes 2 n)) = .ok i := by rw [leNat_leBytes, Nat.mod_eq_of_lt hn]; exact hd
  simp only [leBytes] at hw
  simp only [leBytes, List.cons_append, List.nil_append, decode, toNat_ofNat_eight_mod_two, he, Nat.zero_ne_one, if_false, hw]

end Sys2Proof.Laws

namespace Sys2Proof.Proofs
open Sys2Proof Sys2Proof.Laws

/-- Settles O47: the word's parity tells its length, its bytes give it back, and each instruction's word decodes to it. -/
theorem decodeEncodeRoundTrip : Obligations.DecodeEncodeRoundTrip := by
  intro i rest hw hl
  have hd := decodeWord_encode i hw hl
  obtain ⟨hp, hn⟩ := encode_fits i
  rw [encodeBytes]
  obtain h | h | h := len_cases i
  · exact absurd h hl
  · rw [h] at hp hn hd ⊢
    exact decode_leBytes_two hp hn hd rest
  · rw [h] at hp hn hd ⊢
    exact decode_leBytes_four hp hn hd rest

/-- Settles O46: each word but the zeros is the encoding of its instruction. -/
theorem sampleWordsDecode : Obligations.SampleWordsDecode := by
  refine ⟨?_, ?_, ?_, ?_, ?_, ?_, ?_, ?_, ?_, ?_, ?_, ?_, ?_, ?_, ?_, ?_, ?_, ?_, ?_, ?_, ?_, ?_, rfl⟩
  all_goals exact decodeWord_of_encode rfl (by decide) rfl rfl

end Sys2Proof.Proofs
end

section
/-! Branches and jumps: what the checks of R166 and R227 answer, and the link (spec/04 R107 to R115, spec/06 R166, spec/11 R227). -/
namespace Sys2Proof.Claims
open Sys2Proof Sys2Proof.Machine

/-! ### The operands -/

theorem halfOff_eq_halves {n : Nat} (o : BitVec n) : halfOff o = halves o := by
  rw [halfOff, halves, toWord, Int.mul_comm]

/-- The nullify modes of R109, by the field. -/
theorem nullifies_eq : ∀ (n : BitVec 2) (taken : Bool), nullifies n.toNat taken = ((n == 1 && !taken) || (n == 2 && taken)) := by decide

/-! ### The checks of a branch -/

section
variable {s : State} {c : Ctx} {br : Branch} {k : State → State}

/-- With the lengths of those entries at hand nothing waits. -/
theorem awaitLengths_none {es : List QE} (h : firstSome (s.lengthWait c) es = none) (f : State → Res) : s.awaitLengths c es f = f s := by
  simp only [State.awaitLengths, h]

theorem firstSome_one {α β : Type} {f : α → Option β} {a : α} (ha : f a = none) : firstSome f [a] = none := by
  simp only [firstSome, ha]

theorem firstSome_two {α β : Type} {f : α → Option β} {a b : α} (ha : f a = none) (hb : f b = none) : firstSome f [a, b] = none := by
  simp only [firstSome, ha, hb]

/-- In a handler a taken branch goes ahead only (R227). -/
theorem branchRes_handler (hh : c.hnd = true) :
    s.branchRes c br k = if br.taken = true ∧ br.target.toNat ≤ (s.pcOf c).toNat then .trap s 17 br.target else .branch (k s) br := by
  simp only [State.branchRes, hh, if_true, Bool.and_eq_true, decide_eq_true_eq]

theorem branchRes_outside (hh : c.hnd = false) (hl : (s.slip c.b c.i).levels = []) : s.branchRes c br k = .branch (k s) br := by
  simp only [State.branchRes, hh, hl, Bool.false_eq_true, if_false]

/-- In a loop the slots stand in the body, and then a taken branch stays in it (R166). -/
theorem branchRes_inLoop {l : Level} {rest : List Level} (hh : c.hnd = false) (hl : (s.slip c.b c.i).levels = l :: rest)
    (hw : s.lengthWait c (s.queueOf c).q1 = none) :
    s.branchRes c br k =
      if ¬ ((s.queueOf c).q1.inBody l = true ∧ (s.queueOf c).q2.inBody l = true) then .trap s 7 (s.pcOf c)
      else if br.taken = true ∧ l.covers br.target = false then .trap s 6 br.target else .branch (k s) br := by
  simp only [State.branchRes, hh, hl, Bool.false_eq_true, if_false, awaitLengths_none (firstSome_one hw),
    Bool.not_eq_true', ← Bool.not_eq_true, Bool.and_eq_true]

theorem branchRes_of_mayBranch (h : MayBranch s c br) : s.branchRes c br k = .branch (k s) br := by
  unfold MayBranch at h
  cases hh : c.hnd with
  | true =>
    rw [if_pos hh] at h
    rw [branchRes_handler hh, if_neg (fun ⟨ht, hle⟩ => absurd (h ht) (Nat.not_lt.mpr hle))]
  | false =>
    rw [if_neg (by simp [hh])] at h
    cases hl : (s.slip c.b c.i).levels with
    | nil => exact branchRes_outside hh hl
    | cons l rest =>
      obtain ⟨hw, h1, h2, ht⟩ := h l rest hl
      rw [branchRes_inLoop hh hl hw, if_neg (fun hn => hn ⟨h1, h2⟩), if_neg (fun ⟨htk, hc⟩ => by rw [ht htk] at hc; cases hc)]

/-- A jump that links waits for nothing where the lengths that the link needs can be read (R7). -/
theorem linkRes_ready (h1 : s.lengthWait c (s.queueOf c).q1 = none) (h2 : s.lengthWait c (s.queueOf c).q2 = none) :
    s.linkRes c br = s.branchRes c br (fun u => u.writeLink c) :=
  awaitLengths_none (firstSome_two h1 h2) _

theorem writeLink_some {a : Word} (h : (s.queueOf c).q2.after (s.lenAt c) = some a) : s.writeLink c = s.writeG c 1 a := by
  simp only [State.writeLink, h]

/-! ### What stops a branch -/

/-- An instruction that ends as the checks of a branch answer traps where they do; the branch may nullify in any mode. -/
theorem branchTraps_of_branchRes {i : Instr} {br' : Branch} {link : Bool} (taken : br'.taken = br.taken) (target : br'.target = br.target)
    (he : (link = true → s.lengthWait c (s.queueOf c).q1 = none ∧ s.lengthWait c (s.queueOf c).q2 = none) →
      exec i s = finish c (s.branchRes c br' k)) : BranchTraps i s c br link := by
  intro h1 h2
  have hr := he (fun hl => ⟨h1 (.inl hl), h2 hl⟩)
  refine ⟨fun hh ht hle => ?_, fun l rest hh hl => ⟨fun hout => ?_, fun hq1 hq2 ht hc => ?_⟩⟩
  · rw [hr, branchRes_handler hh, taken, target, if_pos ⟨ht, hle⟩, finish_trap]
  · rw [hr, branchRes_inLoop hh hl (h1 (.inr hh)), if_pos, finish_trap]
    rintro ⟨hq1, hq2⟩
    rcases hout with hout | hout
    · exact Bool.noConfusion (hq1.symm.trans hout)
    · exact Bool.noConfusion (hq2.symm.trans hout)
  · rw [hr, branchRes_inLoop hh hl (h1 (.inr hh)), if_neg (fun hn => hn ⟨hq1, hq2⟩), taken, target, if_pos ⟨ht, hc⟩, finish_trap]

end

/-! ### The shared meanings: a branch on q, a relative jump, a jump through a register -/

section
variable {s : State} {c : Ctx} {i : Instr} {word n : Nat} {o : BitVec n}

/-- The branch that a BR is, by its sense and its nullify mode (R109). -/
def condBranch (s : State) (c : Ctx) (q : Nat) (sense : Bool) (mode : Nat) (off : Word) : Branch :=
  { taken := s.readQ c q 0 != sense, target := s.pcOf c + off, nullify := nullifies mode (s.readQ c q 0 != sense), leave := false }

section
variable {mode q : Nat} {sense : Bool} (h : Runs s c {} [.src .q q 0]) (hi : exec i s = branchOn word (halfOff o) mode sense q s)
include h hi

theorem branchOn_runs : exec i s = finish c (s.branchRes c (condBranch s c q sense mode (halves o)) id) := by
  rw [← halfOff_eq_halves]
  exact hi.trans (instr_runs h _ _)

theorem branchOn_completes (hm : MayBranch s c (condBranch s c q sense mode (halves o))) :
    exec i s = .next (s.advance c (some (condBranch s c q sense mode (halves o))) true) := by
  rw [branchOn_runs h hi, branchRes_of_mayBranch hm, finish_branch, id]

theorem branchOn_traps : BranchTraps i s c
    { taken := s.readQ c q 0 != sense, target := s.pcOf c + halves o, nullify := false, leave := false } false :=
  branchTraps_of_branchRes (br' := condBranch s c q sense mode (halves o)) rfl rfl (fun _ => branchOn_runs h hi)

end

section
variable (h : Runs s c {} []) (hi : exec i s = jumpRel word (halfOff o) s)
include h hi

theorem jumpRel_runs : exec i s = finish c (s.branchRes c (jumpTo (s.pcOf c + halves o)) id) := by
  rw [← halfOff_eq_halves]
  exact hi.trans (instr_runs h _ _)

theorem jumpRel_completes (hm : MayBranch s c (jumpTo (s.pcOf c + halves o))) :
    exec i s = .next (s.advance c (some (jumpTo (s.pcOf c + halves o))) true) := by
  rw [jumpRel_runs h hi, branchRes_of_mayBranch hm, finish_branch, id]

theorem jumpRel_traps : BranchTraps i s c (jumpTo (s.pcOf c + halves o)) false :=
  branchTraps_of_branchRes rfl rfl (fun _ => jumpRel_runs h hi)

end

theorem jl_runs {o : BitVec 25} (h : Runs s c {} [.dst .g 1]) :
    exec (.jl o) s = finish c (s.linkRes c (jumpTo (s.pcOf c + halves o))) := by
  rw [← halfOff_eq_halves]
  exact instr_runs h (encode (.jl o)) (fun c s => s.linkRes c (jumpTo (s.pcOf c + halfOff o)))

section
variable {a x : Nat} {off : Word} {uses : List Use} (h : Runs s c {} (.src .g a x :: uses))
include h

theorem jumpReg_odd {link : Bool} (hi : exec i s = jumpReg word a x off uses link s) (ho : (s.readG c a x + off).toNat % 2 = 1) :
    exec i s = .next (s.raise c 8 (s.readG c a x + off) false) :=
  (hi.trans (instr_runs h _ _)).trans (by simp only [ho, if_true, finish_trap])

theorem jumpReg_runs (hi : exec i s = jumpReg word a x off uses false s) (he : (s.readG c a x + off).toNat % 2 = 0) :
    exec i s = finish c (s.branchRes c (jumpTo (s.readG c a x + off)) id) :=
  (hi.trans (instr_runs h _ _)).trans (by simp only [he, Nat.zero_ne_one, if_false, Bool.false_eq_true]; rfl)

theorem jumpReg_runs_link (hi : exec i s = jumpReg word a x off uses true s) (he : (s.readG c a x + off).toNat % 2 = 0) :
    exec i s = finish c (s.linkRes c (jumpTo (s.readG c a x + off))) :=
  (hi.trans (instr_runs h _ _)).trans (by simp only [he, Nat.zero_ne_one, if_false, if_true]; rfl)

theorem jumpReg_completes (hi : exec i s = jumpReg word a x off uses false s) (he : (s.readG c a x + off).toNat % 2 = 0)
    (hm : MayBranch s c (jumpTo (s.readG c a x + off))) :
    exec i s = .next (s.advance c (some (jumpTo (s.readG c a x + off))) true) := by
  rw [jumpReg_runs h hi he, branchRes_of_mayBranch hm, finish_branch, id]

/-- A jump through a register traps at an odd target, and then as its checks say. -/
theorem jumpReg_traps {link : Bool} (hi : exec i s = jumpReg word a x off uses link s) : JumpTraps i s c (s.readG c a x + off) link := by
  refine ⟨jumpReg_odd h hi, fun he => ?_⟩
  cases link with
  | false => exact branchTraps_of_branchRes rfl rfl (fun _ => jumpReg_runs h hi he)
  | true =>
    refine branchTraps_of_branchRes (k := fun u => u.writeLink c) rfl rfl (fun hw => ?_)
    obtain ⟨h1, h2⟩ := hw rfl
    rw [jumpReg_runs_link h hi he, linkRes_ready h1 h2]

end
end

/-! ### Every branch and jump -/

theorem branchesAndJumps_hold : branchesAndJumps := by
  intro s c
  refine ⟨fun q t n o h => ?br, fun o h => ?cBrq, fun o h => jumpRel_completes h rfl, fun o h => jumpRel_completes h rfl,
    fun o a h hm h1 h2 ha => ?jl, fun a x i h he hm => jumpReg_completes h rfl he hm, fun a x i link h he hm h1 h2 ha => ?jlr,
    fun h he hm => ?cRet⟩
  case br =>
    intro taken br hm
    have hbr : condBranch s c q.toNat (t == 1) n.toNat (halves o) = br := by simp only [condBranch, nullifies_eq, br, taken]
    rw [← hbr] at hm ⊢
    exact branchOn_completes h rfl hm
  case cBrq =>
    intro br hm
    have hbr : condBranch s c 1 false 0 (halves o) = br := by simp only [condBranch, br, Bool.bne_false]; rfl
    rw [← hbr] at hm ⊢
    exact branchOn_completes h rfl hm
  case jl => rw [jl_runs h, linkRes_ready h1 h2, branchRes_of_mayBranch hm, writeLink_some ha, finish_branch]
  case jlr => rw [jumpReg_runs_link h rfl he, linkRes_ready h1 h2, branchRes_of_mayBranch hm, writeLink_some ha, finish_branch]
  case cRet =>
    rw [← BitVec.add_zero (s.readG c 1 0)] at he hm ⊢
    exact jumpReg_completes h rfl he hm

theorem branchFaults_hold : branchFaults := by
  intro s c
  refine ⟨fun q t n o h => branchOn_traps h rfl, fun o h => ?cBrq, fun o h => jumpRel_traps h rfl, fun o h => jumpRel_traps h rfl,
    fun o h => ?jl, fun a x i h => jumpReg_traps h rfl, fun a x i h => jumpReg_traps h rfl, fun h => ?cRet⟩
  case cBrq =>
    rw [← Bool.bne_false (s.readQ c 1 0)]
    exact branchOn_traps h rfl
  case jl =>
    refine branchTraps_of_branchRes (k := fun u => u.writeLink c) rfl rfl (fun hw => ?_)
    obtain ⟨h1, h2⟩ := hw rfl
    rw [jl_runs h, linkRes_ready h1 h2]
  case cRet =>
    rw [← BitVec.add_zero (s.readG c 1 0)]
    exact jumpReg_traps h rfl

end Sys2Proof.Claims

namespace Sys2Proof.Proofs
open Sys2Proof.Claims

/-- Settles O53: each form is a branch on q, a relative jump or a jump through a register, and the checks they share let it complete or
stop it. -/
theorem branchesAndJumps : Obligations.BranchesAndJumps := ⟨branchesAndJumps_hold, branchFaults_hold⟩

end Sys2Proof.Proofs
end

section
/-! Lanes of a w register: what an instruction that computes lane by lane gives (spec/01 R14, spec/05 R125), and the lane functions of
R132 and R141 on bit vectors. -/
namespace Sys2Proof.Claims
open Sys2Proof Sys2Proof.Machine

/-! ### Results given lane by lane -/

/-- An instruction that packs the n results of a lane function, and adds up their events. -/
theorem givesW_lanes {i : Instr} {s : State} {c : Ctx} {md : Mode} {uses : List Use} {word d k n : Nat} {g : Nat → Nat × Ev}
    {body : Ctx → State → Res} (hd : d < 32) (h : Runs s c md uses) (he : exec i s = instr word md uses body s)
    (hb : body c s = .ok ((s.writeW c d (wideOf k (((upTo n).map g).map (fun r => r.1)))).count c
      (Ev.sum (((upTo n).map g).map (fun r => r.2))))) :
    GivesW i s c d k n (fun j => (g j).1) (laneEvents n (fun j => (g j).2)) := by
  obtain ⟨t, ht, hv, hk⟩ := givesW_value hd h he hb
  refine ⟨t, ht, fun j hj => ?_, by rw [List.map_map] at hk; exact hk⟩
  have hfit : k * j + k ≤ 512 := by
    have := Nat.mul_le_of_le_div k (j + 1) 512 hj
    rwa [Nat.mul_comm, Nat.mul_succ] at this
  rw [hv, elemOf_wideOf k _ j hfit, List.map_map, upTo, List.getD_eq_getElem?_getD, List.getElem?_map]
  by_cases hn : j < n <;> simp [hn]

/-- One element over the whole register. -/
theorem givesW_whole {i : Instr} {s : State} {c : Ctx} {md : Mode} {uses : List Use} {word d v : Nat} {ev : Ev}
    {body : Ctx → State → Res} (hd : d < 32) (h : Runs s c md uses) (he : exec i s = instr word md uses body s)
    (hb : body c s = .ok ((s.writeW c d (BitVec.ofNat 512 v)).count c ev)) : GivesW i s c d 512 1 (fun _ => v) ev := by
  obtain ⟨t, ht, hv, hk⟩ := givesW_value hd h he hb
  refine ⟨t, ht, fun j hj => ?_, hk⟩
  obtain rfl : j = 0 := by omega
  rw [hv, elemOf, if_pos Nat.one_pos, Nat.mul_zero, Nat.shiftRight_zero, BitVec.toNat_ofNat, Nat.one_shiftLeft, Nat.mod_mod]

theorem laneEvents_none (n : Nat) : laneEvents n (fun _ => {}) = {} := by
  have h (l : List Nat) : (l.map (fun _ => ({} : Ev))).foldl Ev.add {} = {} := by
    induction l with
    | nil => rfl
    | cons x l ih => exact ih
  exact h _

/-! ### Lanes as bit vectors -/

theorem elemOf_lt (v : Wide) (k j : Nat) : elemOf v k j < 2 ^ k := by
  rw [elemOf, Nat.one_shiftLeft]
  exact Nat.mod_lt _ (Nat.two_pow_pos k)

theorem elemOf_eq_lane (v : Wide) (k j : Nat) : elemOf v k j = (lane v k j).toNat := by
  rw [lane, BitVec.toNat_ofNat, Nat.mod_eq_of_lt (elemOf_lt v k j)]

/-- The signed reading of R67 is that of the low n bits. -/
theorem sext_eq_toInt (v : Nat) {n : Nat} (hn : 0 < n) : sext v n = (BitVec.ofNat n v).toInt := by
  have h : n - 1 < n := by omega
  rw [sext, BitVec.toInt_eq_msb_cond, BitVec.msb_eq_getLsbD_last, BitVec.getLsbD_ofNat, bitOf_eq_testBit, BitVec.toNat_ofNat, Nat.one_shiftLeft]
  simp [h]

theorem sext_toNat {k : Nat} (hk : 0 < k) (a : BitVec k) : sext a.toNat k = a.toInt := by
  rw [sext_eq_toInt _ hk, BitVec.ofNat_toNat, BitVec.setWidth_eq]

theorem wrap_eq_ofInt (k : Nat) (z : Int) : wrap k z = (BitVec.ofInt k z).toNat := by
  rw [wrap, BitVec.toNat_ofInt, Nat.one_shiftLeft]
  rfl

/-! ### The lane functions of R132 -/

section
variable {k : Nat} (hk : 0 < k) (a b : BitVec k)

theorem vadd_lane : VAlu.add k a.toNat b.toNat = ((a + b).toNat, {}) := by
  rw [VAlu.add, wrap_eq_ofInt, BitVec.ofInt_add]
  simp

theorem vsub_lane : VAlu.sub k a.toNat b.toNat = ((a - b).toNat, {}) := by
  rw [VAlu.sub, wrap_eq_ofInt, Int.sub_eq_add_neg, BitVec.ofInt_add, BitVec.ofInt_neg, BitVec.sub_eq_add_neg]
  simp

theorem vand_lane : VAlu.and k a.toNat b.toNat = ((a &&& b).toNat, {}) := by rw [VAlu.and, BitVec.toNat_and]
theorem vor_lane : VAlu.or k a.toNat b.toNat = ((a ||| b).toNat, {}) := by rw [VAlu.or, BitVec.toNat_or]
theorem vxor_lane : VAlu.xor k a.toNat b.toNat = ((a ^^^ b).toNat, {}) := by rw [VAlu.xor, BitVec.toNat_xor]

theorem vminu_lane : VAlu.minu k a.toNat b.toNat = ((if a ≤ b then a else b).toNat, {}) := by
  simp only [VAlu.minu, BitVec.le_def, apply_ite BitVec.toNat]

theorem vmaxu_lane : VAlu.maxu k a.toNat b.toNat = ((if a ≤ b then b else a).toNat, {}) := by
  simp only [VAlu.maxu, BitVec.le_def, apply_ite BitVec.toNat]

theorem vsll_lane : VAlu.sll k a.toNat b.toNat = ((a <<< (b.toNat % k)).toNat, {}) := by
  rw [VAlu.sll, BitVec.toNat_shiftLeft, Nat.one_shiftLeft]

theorem vsrl_lane : VAlu.srl k a.toNat b.toNat = ((a >>> (b.toNat % k)).toNat, {}) := by
  rw [VAlu.srl, BitVec.toNat_ushiftRight]

include hk

theorem vmul_lane : VAlu.mul k a.toNat b.toNat = ((a * b).toNat, {}) := by
  rw [VAlu.mul, wrap_eq_ofInt, sext_toNat hk, sext_toNat hk, BitVec.ofInt_mul, BitVec.ofInt_toInt, BitVec.ofInt_toInt]

theorem vmulh_lane : VAlu.mulh k a.toNat b.toNat = ((BitVec.ofInt k (a.toInt * b.toInt / 2 ^ k)).toNat, {}) := by
  rw [VAlu.mulh, wrap_eq_ofInt, sext_toNat hk, sext_toNat hk, Nat.one_shiftLeft]
  simp

theorem vmin_lane : VAlu.min k a.toNat b.toNat = ((if a.toInt ≤ b.toInt then a else b).toNat, {}) := by
  rw [VAlu.min, apply_ite BitVec.toNat, sext_toNat hk, sext_toNat hk]

theorem vmax_lane : VAlu.max k a.toNat b.toNat = ((if a.toInt ≤ b.toInt then b else a).toNat, {}) := by
  rw [VAlu.max, apply_ite BitVec.toNat, sext_toNat hk, sext_toNat hk]

theorem vsra_lane : VAlu.sra k a.toNat b.toNat = ((a.sshiftRight (b.toNat % k)).toNat, {}) := by
  rw [VAlu.sra, wrap_eq_ofInt, sext_toNat hk, Nat.one_shiftLeft, ← BitVec.ofInt_toInt (x := a.sshiftRight (b.toNat % k)),
    BitVec.toInt_sshiftRight, Int.shiftRight_eq_div_pow]
  rfl

end

/-- Sat of R68 on a lane: the clamped value, and one saturation where it clamps. -/
theorem satS_clamped (k : Nat) (z : Int) :
    (wrap k (satS z k).1, ({ sat := b2n (satS z k).2 } : Ev)) = ((clamped k z).1.toNat, (clamped k z).2) := by
  have hp : (0 : Int) < 2 ^ (k - 1) := Int.pow_pos (by decide)
  rw [wrap_eq_ofInt, satS, clamped, Nat.one_shiftLeft, show Int.ofNat (2 ^ (k - 1)) = 2 ^ (k - 1) by simp]
  by_cases hlo : z < -2 ^ (k - 1)
  · simp [hlo, show ¬ z > 2 ^ (k - 1) - 1 by omega, b2n]
  · by_cases hhi : z > 2 ^ (k - 1) - 1 <;> simp [hlo, hhi, b2n]

theorem vadds_lane {k : Nat} (hk : 0 < k) (a b : BitVec k) :
    VAlu.adds k a.toNat b.toNat = ((clamped k (a.toInt + b.toInt)).1.toNat, (clamped k (a.toInt + b.toInt)).2) := by
  rw [VAlu.adds, sext_toNat hk, sext_toNat hk]
  exact satS_clamped k _

theorem vsubs_lane {k : Nat} (hk : 0 < k) (a b : BitVec k) :
    VAlu.subs k a.toNat b.toNat = ((clamped k (a.toInt - b.toInt)).1.toNat, (clamped k (a.toInt - b.toInt)).2) := by
  rw [VAlu.subs, sext_toNat hk, sext_toNat hk]
  exact satS_clamped k _

/-! ### The integer vector instructions -/

/-- An instruction of two w registers whose lane function has the given results and events on lanes as bit vectors. -/
theorem vecRR_givesW {i : Instr} {s : State} {c : Ctx} {word a x b k : Nat} {d : BitVec 5} {f : Nat → Nat → Nat × Ev}
    {g : BitVec k → BitVec k → Nat × Ev} (h : Runs s c {} [.src .w a x, .src .w b 0, .dst .w d.toNat]) (he : exec i s = vecRR word d.toNat a x b k f s)
    (hf : ∀ u v : BitVec k, f u.toNat v.toNat = g u v) :
    GivesW i s c d.toNat k (512 / k) (fun j => (g (lane (s.readW c a x) k j) (lane (s.readW c b 0) k j)).1)
      (laneEvents (512 / k) (fun j => (g (lane (s.readW c a x) k j) (lane (s.readW c b 0) k j)).2)) := by
  have hw := givesW_lanes (g := fun j => f (elemOf (s.readW c a x) k j) (elemOf (s.readW c b 0) k j)) d.isLt h he rfl
  simpa only [elemOf_eq_lane, hf] using hw

theorem intWidth_eq (e : Nat) : intWidth e = 8 * 2 ^ e := Nat.shiftLeft_eq 8 e

/-- Each operation that counts no event is a lane function, the same on bit vectors. -/
theorem exec_vecIntOps : ∀ o ∈ vecIntOps, ∃ f : Nat → Nat → Nat → Nat × Ev,
    (∀ d a x b e s, exec (o.1 d a x b e) s =
      vecRR (encode (o.1 d a x b e)) d.toNat a.toNat x.toNat b.toNat (8 * 2 ^ e.toNat) (f (8 * 2 ^ e.toNat)) s) ∧
    ∀ k, 0 < k → ∀ u v : BitVec k, f k u.toNat v.toNat = ((o.2 k u v).toNat, {}) := by
  simp only [vecIntOps, List.forall_mem_cons, ← intWidth_eq]
  exact ⟨⟨VAlu.add, fun _ _ _ _ _ _ => rfl, fun _ _ => vadd_lane⟩, ⟨VAlu.sub, fun _ _ _ _ _ _ => rfl, fun _ _ => vsub_lane⟩,
    ⟨VAlu.mul, fun _ _ _ _ _ _ => rfl, fun _ => vmul_lane⟩, ⟨VAlu.mulh, fun _ _ _ _ _ _ => rfl, fun _ => vmulh_lane⟩,
    ⟨VAlu.min, fun _ _ _ _ _ _ => rfl, fun _ => vmin_lane⟩, ⟨VAlu.max, fun _ _ _ _ _ _ => rfl, fun _ => vmax_lane⟩,
    ⟨VAlu.minu, fun _ _ _ _ _ _ => rfl, fun _ _ => vminu_lane⟩, ⟨VAlu.maxu, fun _ _ _ _ _ _ => rfl, fun _ _ => vmaxu_lane⟩,
    ⟨VAlu.and, fun _ _ _ _ _ _ => rfl, fun _ _ => vand_lane⟩, ⟨VAlu.or, fun _ _ _ _ _ _ => rfl, fun _ _ => vor_lane⟩,
    ⟨VAlu.xor, fun _ _ _ _ _ _ => rfl, fun _ _ => vxor_lane⟩, ⟨VAlu.sll, fun _ _ _ _ _ _ => rfl, fun _ _ => vsll_lane⟩,
    ⟨VAlu.srl, fun _ _ _ _ _ _ => rfl, fun _ _ => vsrl_lane⟩, ⟨VAlu.sra, fun _ _ _ _ _ _ => rfl, fun _ => vsra_lane⟩,
    List.forall_mem_nil _⟩

theorem exec_vadds (d a b : BitVec 5) (x e : BitVec 3) (s : State) : exec (.vadds d a x b e) s =
    vecRR (encode (.vadds d a x b e)) d.toNat a.toNat x.toNat b.toNat (8 * 2 ^ e.toNat) (VAlu.adds (8 * 2 ^ e.toNat)) s := by
  rw [← intWidth_eq]; rfl

theorem exec_vsubs (d a b : BitVec 5) (x e : BitVec 3) (s : State) : exec (.vsubs d a x b e) s =
    vecRR (encode (.vsubs d a x b e)) d.toNat a.toNat x.toNat b.toNat (8 * 2 ^ e.toNat) (VAlu.subs (8 * 2 ^ e.toNat)) s := by
  rw [← intWidth_eq]; rfl

end Sys2Proof.Claims

namespace Sys2Proof.Proofs
open Sys2Proof Sys2Proof.Machine Sys2Proof.Claims

/-- Settles O9: each operation computes its lanes as bit vectors do, and VADDS and VSUBS clamp as R68 says. -/
theorem vectorInteger : Obligations.VectorInteger := by
  intro s c d a b x e _ h k u v
  have hk : 0 < k := Nat.mul_pos (by decide) (Nat.two_pow_pos _)
  refine ⟨fun o ho => ?_, vecRR_givesW h (exec_vadds d a b x e s) (vadds_lane hk), vecRR_givesW h (exec_vsubs d a b x e s) (vsubs_lane hk)⟩
  obtain ⟨f, hx, hf⟩ := exec_vecIntOps o ho
  have hg := vecRR_givesW h (hx d a x b e s) (hf k hk)
  rwa [laneEvents_none] at hg

end Sys2Proof.Proofs
end

section
/-! Conversions and block images (spec/02 R57, spec/03 R78, spec/05 R141 to R143). -/
namespace Sys2Proof.Claims
open Sys2Proof Sys2Proof.Machine

/-! ### The lane functions of R141 -/

theorem intToFlt_eq {k : Nat} (hk : 0 < k) :
    intToFlt k = fun rm _ rb v => roundTo .fp32 rm false rb (Val.ofInt (BitVec.ofNat k v).toInt) := by
  funext rm sat rb v
  rw [intToFlt, sext_eq_toInt v hk]

theorem fltToInt_eq (f : Fmt) (k : Nat) : fltToInt f k =
    fun rm sat rb v => (((roundToInt k rm sat rb (exact f v)).1 % 2 ^ k).toNat, (roundToInt k rm sat rb (exact f v)).2) := by
  funext rm sat rb v
  rw [fltToInt, wrap, Nat.one_shiftLeft, show Int.ofNat (2 ^ k) = 2 ^ k by simp]

/-- Each conversion of a mode and a B field is the shared one, of its lane function. -/
theorem exec_cvtOps : ∀ o ∈ cvtOps, ∀ d a x b r s, exec (o.1 d a x b r) s =
    convert (encode (o.1 d a x b r)) d.toNat a.toNat x.toNat b.toNat r.toNat o.2.1 o.2.2.1 o.2.2.2.1 o.2.2.2.2 s := by
  simp only [cvtOps, List.forall_mem_cons, ← fltToInt_eq, ← intToFlt_eq (show 0 < 32 by decide)]
  exact ⟨fun _ _ _ _ _ _ => rfl, fun _ _ _ _ _ _ => rfl, fun _ _ _ _ _ _ => rfl, fun _ _ _ _ _ _ => rfl, fun _ _ _ _ _ _ => rfl,
    fun _ _ _ _ _ _ => rfl, fun _ _ _ _ _ _ => rfl, List.forall_mem_nil _⟩

/-- Each widening conversion is the shared one without a B field, to the nearest. -/
theorem exec_widenOps : ∀ o ∈ widenOps, ∃ f : Rm → Bool → Nat → Nat → Nat × Ev,
    (∀ d a x s, exec (o.1 d a x) s = convert (encode (o.1 d a x)) d.toNat a.toNat x.toNat 0 0 16 o.2.1 32 f s) ∧
    ∀ v, f .ne false 0 v = o.2.2 v := by
  simp only [widenOps, List.forall_mem_cons]
  exact ⟨⟨fltToFlt .bf16 .fp32, fun _ _ _ _ => rfl, fun _ => rfl⟩, ⟨fltToFlt .fp16 .fp32, fun _ _ _ _ => rfl, fun _ => rfl⟩,
    ⟨intToFlt 8, fun _ _ _ _ => rfl, fun v => by rw [intToFlt_eq (by decide)]⟩, List.forall_mem_nil _⟩

/-! ### The shared conversion -/

theorem randomBits_zero (j : Nat) : randomBits 0 j = 0 := by
  have h0 : (0 : Wide).toNat = 0 := BitVec.toNat_zero
  rw [randomBits, elemOf, h0, Nat.zero_shiftRight, Nat.zero_mod]

section
variable {i : Instr} {s : State} {c : Ctx} {word a x b n sw dw : Nat} {d : BitVec 5} {f : Rm → Bool → Nat → Nat → Nat × Ev}

/-- Under a mode but stochastic rounding, no lane has random bits, and bit 0 of the B field asks for saturation (R57). -/
theorem convert_givesW {r : Nat} (hr : r ≠ 4) (h : Runs s c {} [.src .w a x, .dst .w d.toNat])
    (he : exec i s = convert word d.toNat a x b r n sw dw f s) :
    GivesW i s c d.toNat dw n (fun j => (f (rmOf r) (bitOf b 0) 0 (elemOf (s.readW c a x) sw j)).1)
      (laneEvents n (fun j => (f (rmOf r) (bitOf b 0) 0 (elemOf (s.readW c a x) sw j)).2)) := by
  have hb : (r != 4) = true := by simpa using hr
  rw [convert, if_neg hr] at he
  have hw := givesW_lanes (k := dw) (n := n) (g := fun j => f (rmOf r) (r != 4 && bitOf b 0) (randomBits 0 j) (elemOf (s.readW c a x) sw j)) d.isLt h he
    (by simp only [if_neg hr])
  simpa only [hb, Bool.true_and, randomBits_zero] using hw

/-- Under stochastic rounding lane j has halfword j mod 32 of wB, and nothing saturates (R78, log 122). -/
theorem convert_givesW_stochastic (h : Runs s c {} [.src .w a x, .dst .w d.toNat, .src .w b 0])
    (he : exec i s = convert word d.toNat a x b 4 n sw dw f s) :
    GivesW i s c d.toNat dw n (fun j => (f .sr false (elemOf (s.readW c b 0) 16 (j % 32)) (elemOf (s.readW c a x) sw j)).1)
      (laneEvents n (fun j => (f .sr false (elemOf (s.readW c b 0) 16 (j % 32)) (elemOf (s.readW c a x) sw j)).2)) :=
  givesW_lanes (g := fun j => f .sr false (elemOf (s.readW c b 0) 16 (j % 32)) (elemOf (s.readW c a x) sw j)) d.isLt h he rfl

end

theorem exec_vpackmx (d a : BitVec 5) (x t : BitVec 3) (h : BitVec 1) (s : State) : exec (.vpackmx d a x h t) s =
    instr (encode (.vpackmx d a x h t)) {} [.src .w a.toNat x.toNat, .dst .w d.toNat]
      (fun c s => .ok ((s.writeW c d.toNat (BitVec.ofNat 512 (packMx t.toNat (h == 1) (s.readW c a.toNat x.toNat)).1)).count c
        (packMx t.toNat (h == 1) (s.readW c a.toNat x.toNat)).2)) s := rfl

theorem exec_vunpkmx (d a : BitVec 5) (x t : BitVec 3) (s : State) : exec (.vunpkmx d a x t) s =
    instr (encode (.vunpkmx d a x t)) {} [.src .w a.toNat x.toNat, .dst .w d.toNat]
      (fun c s => .ok ((s.writeW c d.toNat (wideOf 16 (((upTo 32).map (unpackMx t.toNat (s.readW c a.toNat x.toNat).toNat)).map
        (fun r => r.1)))).count c (Ev.sum (((upTo 32).map (unpackMx t.toNat (s.readW c a.toNat x.toNat).toNat)).map (fun r => r.2))))) s := rfl

/-- The mode of a B field without stochastic rounding (R57). -/
theorem rmOf_eq : ∀ r : BitVec 3, r.toNat < 4 → rmOf r.toNat = if r = 0 then .ne else if r = 1 then .rz else if r = 2 then .up else .down := by
  decide

theorem bitOf_toNat {n : Nat} (b : BitVec n) (i : Nat) : bitOf b.toNat i = b.getLsbD i := bitOf_eq_testBit _ _

end Sys2Proof.Claims

namespace Sys2Proof.Proofs
open Sys2Proof Sys2Proof.Machine Sys2Proof.Claims

/-- Settles O13: every conversion is the shared one of its lane function, with or without random bits (no saturation under code 4 is the
model's choice, log 122); VPACKMX writes one image, VUNPKMX 32 lanes. -/
theorem vectorConversions : Obligations.VectorConversions := by
  intro s c d a b x r h u rm
  refine ⟨fun hrun hr o ho => ?_, fun hrun hr o ho => ?_, fun hrun => ⟨fun o ho => ?_, fun _ => ⟨?_, ?_⟩⟩⟩
  · have hg := convert_givesW (Nat.ne_of_lt hr) hrun (exec_cvtOps o ho d a x b r s)
    rwa [rmOf_eq r hr, bitOf_toNat] at hg
  · subst hr
    exact convert_givesW_stochastic hrun (exec_cvtOps o ho d a x b 4 s)
  · obtain ⟨f, hx, hf⟩ := exec_widenOps o ho
    have hg := convert_givesW (by decide) hrun (hx d a x s)
    simpa only [show rmOf 0 = .ne from rfl, show bitOf 0 0 = false from rfl, hf] using hg
  · exact givesW_whole d.isLt hrun (exec_vpackmx d a x r h s) rfl
  · exact givesW_lanes (g := unpackMx r.toNat u.toNat) d.isLt hrun (exec_vunpkmx d a x r s) rfl

end Sys2Proof.Proofs
end

section
/-! Scalar arithmetic, compares and conditions: the shared shapes complete, and each form is one of them with the function of its rule
(spec/04 R98 to R106, spec/02 R45, R60). -/
namespace Sys2Proof.Claims
open Sys2Proof Sys2Proof.Machine

/-! ### The shared shapes complete -/

section
variable {i : Instr} {s : State} {c : Ctx} {word a x b y : Nat}

/-- An instruction of two g registers whose function has the given value on what they read. -/
theorem aluRR_givesG {d : BitVec 5} {f : Word → Word → Word} {v : Word} (h : Runs s c {} [.src .g a x, .src .g b y, .dst .g d.toNat])
    (he : exec i s = aluRR word d.toNat a x b y f s) (hf : f (s.readG c a x) (s.readG c b y) = v) : GivesG i s c d.toNat v {} := by
  subst hf
  exact givesG d.isLt h he rfl

/-- An instruction of one g register whose function has the given value on what it reads. -/
theorem aluR_givesG {d : BitVec 5} {f : Word → Word} {v : Word} (h : Runs s c {} [.src .g a x, .dst .g d.toNat])
    (he : exec i s = aluR word d.toNat a x f s) (hf : f (s.readG c a x) = v) : GivesG i s c d.toNat v {} := by
  subst hf
  exact givesG d.isLt h he rfl

theorem aluPc_givesG {d : BitVec 5} {f : Word → Word} (h : Runs s c {} [.dst .g d.toNat]) (he : exec i s = aluPc word d.toNat f s) :
    GivesG i s c d.toNat (f (s.pcOf c)) {} := givesG d.isLt h he rfl

/-- In a handler an instruction that runs writes no q register but q0 (R226). -/
theorem dst_q_zero_of_hnd {md : Mode} {uses : List Use} {q : Nat} (h : Runs s c md uses) (hq : .dst .q q ∈ uses) (hh : c.hnd = true) :
    q = 0 := by
  have hin := List.any_eq_false.mp (Runs.inBank h hh) _ hq
  simpa [Use.outsideBank, RSet.outsideBank] using hin

theorem cmpRR_givesQ {q : BitVec 3} {r : Rel} (h : Runs s c {} [.src .g a x, .src .g b y, .dst .q q.toNat])
    (he : exec i s = cmpRR word q.toNat a x b y r s) : GivesQ i s c q.toNat (r.holds (s.readG c a x) (s.readG c b y)) :=
  givesQ q.isLt h (dst_q_zero_of_hnd h (by simp)) he rfl

theorem cmpRI_givesQ {q : BitVec 3} {v : Word} {r : Rel} (h : Runs s c {} [.src .g a x, .dst .q q.toNat])
    (he : exec i s = cmpRI word q.toNat a x v r s) : GivesQ i s c q.toNat (r.holds (s.readG c a x) v) :=
  givesQ q.isLt h (dst_q_zero_of_hnd h (by simp)) he rfl

theorem condRR_givesQ {q : BitVec 3} {o : QOp} (h : Runs s c {} [.src .q a x, .src .q b y, .dst .q q.toNat])
    (he : exec i s = condRR word q.toNat a x b y o s) : GivesQ i s c q.toNat (o.apply (s.readQ c a x) (s.readQ c b y)) :=
  givesQ q.isLt h (dst_q_zero_of_hnd h (by simp)) he rfl

end

/-! ### The functions of R98 and R99 -/

section
variable (a b : Word)

theorem rol_eq_rotateLeft : Alu.rol a b = a.rotateLeft b.toNat := by rw [BitVec.rotateLeft_def, Alu.rol, sh6]

theorem ror_eq_rotateRight : Alu.ror a b = a.rotateRight b.toNat := by rw [BitVec.rotateRight_def, Alu.ror, sh6]

theorem minu_eq_ite : Alu.minu a b = if a ≤ b then a else b := by simp only [Alu.minu, BitVec.le_def]

theorem maxu_eq_ite : Alu.maxu a b = if a ≤ b then b else a := by simp only [Alu.maxu, BitVec.le_def]

theorem mulh_eq_ofInt : Alu.mulh a b = BitVec.ofInt 64 (a.toInt * b.toInt / 18446744073709551616) := rfl

theorem mulhu_eq_ofNat : Alu.mulhu a b = BitVec.ofNat 64 (a.toNat * b.toNat / 18446744073709551616) := by
  rw [Alu.mulhu, natWord, Nat.shiftRight_eq_div_pow]

end

/-- Each operation on two registers is the shared one, of the function its table gives. -/
theorem exec_aluOps : ∀ e ∈ aluOps, ∃ f : Word → Word → Word,
    (∀ d a x b y s, exec (e.1 d a x b y) s = aluRR (encode (e.1 d a x b y)) d.toNat a.toNat x.toNat b.toNat y.toNat f s) ∧
    ∀ u v, f u v = e.2 u v := by
  simp only [aluOps, List.forall_mem_cons]
  exact ⟨⟨_, fun _ _ _ _ _ _ => rfl, fun _ _ => rfl⟩, ⟨_, fun _ _ _ _ _ _ => rfl, fun _ _ => rfl⟩,
    ⟨_, fun _ _ _ _ _ _ => rfl, fun _ _ => rfl⟩, ⟨_, fun _ _ _ _ _ _ => rfl, fun _ _ => rfl⟩,
    ⟨_, fun _ _ _ _ _ _ => rfl, fun _ _ => rfl⟩, ⟨Alu.andn, fun _ _ _ _ _ _ => rfl, fun _ _ => rfl⟩,
    ⟨Alu.orn, fun _ _ _ _ _ _ => rfl, fun _ _ => rfl⟩, ⟨Alu.xnor, fun _ _ _ _ _ _ => rfl, fun _ _ => rfl⟩,
    ⟨Alu.sll, fun _ _ _ _ _ _ => rfl, fun _ _ => rfl⟩, ⟨Alu.srl, fun _ _ _ _ _ _ => rfl, fun _ _ => rfl⟩,
    ⟨Alu.sra, fun _ _ _ _ _ _ => rfl, fun _ _ => rfl⟩, ⟨Alu.rol, fun _ _ _ _ _ _ => rfl, rol_eq_rotateLeft⟩,
    ⟨Alu.ror, fun _ _ _ _ _ _ => rfl, ror_eq_rotateRight⟩, ⟨Alu.min, fun _ _ _ _ _ _ => rfl, fun _ _ => rfl⟩,
    ⟨Alu.max, fun _ _ _ _ _ _ => rfl, fun _ _ => rfl⟩, ⟨Alu.minu, fun _ _ _ _ _ _ => rfl, minu_eq_ite⟩,
    ⟨Alu.maxu, fun _ _ _ _ _ _ => rfl, maxu_eq_ite⟩, ⟨_, fun _ _ _ _ _ _ => rfl, fun _ _ => rfl⟩,
    ⟨Alu.mulh, fun _ _ _ _ _ _ => rfl, mulh_eq_ofInt⟩, ⟨Alu.mulhu, fun _ _ _ _ _ _ => rfl, mulhu_eq_ofNat⟩,
    ⟨Alu.div, fun _ _ _ _ _ _ => rfl, fun _ _ => rfl⟩, ⟨Alu.divu, fun _ _ _ _ _ _ => rfl, fun _ _ => rfl⟩,
    ⟨Alu.rem, fun _ _ _ _ _ _ => rfl, fun _ _ => rfl⟩, ⟨Alu.remu, fun _ _ _ _ _ _ => rfl, fun _ _ => rfl⟩, List.forall_mem_nil _⟩

/-! ### Immediate and compact forms (R45, R60, R102) -/

/-- A 6-bit immediate is its own shift amount. -/
theorem sh6_natWord (n : BitVec 6) : sh6 (natWord n.toNat) = n.toNat := by
  have := n.isLt
  rw [sh6, natWord, BitVec.toNat_ofNat]
  omega

theorem sll_natWord (v : Word) (n : BitVec 6) : Alu.sll v (natWord n.toNat) = v <<< n.toNat := by rw [Alu.sll, sh6_natWord]

theorem srl_natWord (v : Word) (n : BitVec 6) : Alu.srl v (natWord n.toNat) = v >>> n.toNat := by rw [Alu.srl, sh6_natWord]

theorem sra_natWord (v : Word) (n : BitVec 6) : Alu.sra v (natWord n.toNat) = v.sshiftRight n.toNat := by rw [Alu.sra, sh6_natWord]

theorem ror_natWord (v : Word) (n : BitVec 6) : Alu.ror v (natWord n.toNat) = v.rotateRight n.toNat := by
  rw [Alu.ror, sh6_natWord, BitVec.rotateRight_def, Nat.mod_eq_of_lt n.isLt]

/-- Each form with a 12-bit immediate is the shared one of one register. -/
theorem exec_immOps : ∀ e ∈ immOps, ∀ d a x i s,
    exec (e.1 d a x i) s = aluR (encode (e.1 d a x i)) d.toNat a.toNat x.toNat (fun v => e.2 v (i.signExtend 64)) s := by
  simp only [immOps, List.forall_mem_cons]
  exact ⟨fun _ _ _ _ _ => rfl, fun _ _ _ _ _ => rfl, fun _ _ _ _ _ => rfl, fun _ _ _ _ _ => rfl, List.forall_mem_nil _⟩

/-- Each form with a shift amount is the shared one of one register, of the shift its table gives. -/
theorem exec_shiftOps : ∀ e ∈ shiftOps, ∃ f : Word → Word → Word,
    (∀ d a x n s, exec (e.1 d a x n) s = aluR (encode (e.1 d a x n)) d.toNat a.toNat x.toNat (fun v => f v (natWord n.toNat)) s) ∧
    ∀ (v : Word) (n : BitVec 6), f v (natWord n.toNat) = e.2 v n.toNat := by
  simp only [shiftOps, List.forall_mem_cons]
  exact ⟨⟨Alu.sll, fun _ _ _ _ _ => rfl, sll_natWord⟩, ⟨Alu.srl, fun _ _ _ _ _ => rfl, srl_natWord⟩,
    ⟨Alu.sra, fun _ _ _ _ _ => rfl, sra_natWord⟩, ⟨Alu.ror, fun _ _ _ _ _ => rfl, ror_natWord⟩, List.forall_mem_nil _⟩

section
variable (d a : BitVec 5) (i : BitVec 6) (j : BitVec 20) (s : State)

theorem exec_upim : exec (.upim d j) s = aluPc (encode (.upim d j)) d.toNat (fun _ => (j ++ (0 : BitVec 12)).signExtend 64) s := rfl

theorem exec_pcadd : exec (.pcadd d j) s = aluPc (encode (.pcadd d j)) d.toNat (fun pc => pc + (j ++ (0 : BitVec 12)).signExtend 64) s := rfl

theorem exec_cMv : exec (.cMv d a) s = aluR (encode (.cMv d a)) d.toNat a.toNat 0 (fun v => v + 0) s := rfl

theorem exec_cAdd : exec (.cAdd d a) s = aluRR (encode (.cAdd d a)) d.toNat d.toNat 0 a.toNat 0 (fun u v => u + v) s := rfl

theorem exec_cSub : exec (.cSub d a) s = aluRR (encode (.cSub d a)) d.toNat d.toNat 0 a.toNat 0 (fun u v => u - v) s := rfl

theorem exec_cAnd : exec (.cAnd d a) s = aluRR (encode (.cAnd d a)) d.toNat d.toNat 0 a.toNat 0 (fun u v => u &&& v) s := rfl

theorem exec_cAddi : exec (.cAddi d i) s = aluR (encode (.cAddi d i)) d.toNat d.toNat 0 (fun v => v + i.signExtend 64) s := rfl

theorem exec_cLi : exec (.cLi d i) s = aluR (encode (.cLi d i)) d.toNat 0 0 (fun v => v + i.signExtend 64) s := rfl

theorem exec_cSlli : exec (.cSlli d i) s =
    aluR (encode (.cSlli d i)) d.toNat d.toNat 0 (fun v => Alu.sll v (natWord i.toNat)) s := rfl

theorem exec_cSrli : exec (.cSrli d i) s =
    aluR (encode (.cSrli d i)) d.toNat d.toNat 0 (fun v => Alu.srl v (natWord i.toNat)) s := rfl

end

/-- g0 reads as zero at every distance, in a handler too (R13). -/
@[simp] theorem readG_zero (s : State) (c : Ctx) (x : Nat) : s.readG c 0 x = 0 := by
  cases hh : c.hnd with
  | true => cases hb : (s.berth c.b).handler <;> simp [State.readG, hh, hb]
  | false => simp [State.readG, hh, Slip.getG]

theorem aluImmediates_holds : aluImmediates := by
  intro d a x s c
  refine ⟨fun h => ⟨fun e he i => aluR_givesG h (exec_immOps e he d a x i s) rfl, fun e he n => ?_⟩, fun h i => ⟨?_, ?_⟩⟩
  · obtain ⟨f, hx, hf⟩ := exec_shiftOps e he
    exact aluR_givesG h (hx d a x n s) (hf _ n)
  · exact aluPc_givesG h (exec_upim d i s)
  · exact aluPc_givesG h (exec_pcadd d i s)

theorem compactArithmetic_holds : compactArithmetic := by
  intro d a i s c
  refine ⟨fun h => ?_, fun h => ⟨?_, ?_, ?_⟩, fun h => ⟨?_, ?_, ?_⟩, fun h => ?_⟩
  · exact aluR_givesG h (exec_cMv d a s) (BitVec.add_zero _)
  · exact aluRR_givesG h (exec_cAdd d a s) rfl
  · exact aluRR_givesG h (exec_cSub d a s) rfl
  · exact aluRR_givesG h (exec_cAnd d a s) rfl
  · exact aluR_givesG h (exec_cAddi d i s) rfl
  · exact aluR_givesG h (exec_cSlli d i s) (sll_natWord _ i)
  · exact aluR_givesG h (exec_cSrli d i s) (srl_natWord _ i)
  · exact aluR_givesG h (exec_cLi d i s) (by rw [readG_zero]; exact BitVec.zero_add _)

/-! ### Compares and conditions (R105, R106) -/

/-- Each pair of compares is the shared pair, of one relation that is its table's. -/
theorem exec_cmpOps : ∀ e ∈ cmpOps, ∃ r : Rel,
    (∀ q a x b y s, exec (e.1 q a x b y) s = cmpRR (encode (e.1 q a x b y)) q.toNat a.toNat x.toNat b.toNat y.toNat r s) ∧
    (∀ q a x i s, exec (e.2.1 q a x i) s = cmpRI (encode (e.2.1 q a x i)) q.toNat a.toNat x.toNat (i.signExtend 64) r s) ∧
    ∀ u v, r.holds u v = e.2.2 u v := by
  simp only [cmpOps, List.forall_mem_cons]
  exact ⟨⟨.eq, fun _ _ _ _ _ _ => rfl, fun _ _ _ _ _ => rfl, fun _ _ => rfl⟩,
    ⟨.ne, fun _ _ _ _ _ _ => rfl, fun _ _ _ _ _ => rfl, fun _ _ => rfl⟩,
    ⟨.lt, fun _ _ _ _ _ _ => rfl, fun _ _ _ _ _ => rfl, fun _ _ => BitVec.slt_eq_decide.symm⟩,
    ⟨.ltu, fun _ _ _ _ _ _ => rfl, fun _ _ _ _ _ => rfl, fun _ _ => BitVec.ult_eq_decide.symm⟩,
    ⟨.ge, fun _ _ _ _ _ _ => rfl, fun _ _ _ _ _ => rfl, fun _ _ => BitVec.sle_eq_decide.symm⟩,
    ⟨.geu, fun _ _ _ _ _ _ => rfl, fun _ _ _ _ _ => rfl, fun _ _ => BitVec.ule_eq_decide.symm⟩, List.forall_mem_nil _⟩

section
variable (q a b x y : BitVec 3) (s : State)

theorem exec_qand : exec (.qand q a x b y) s =
    condRR (encode (.qand q a x b y)) q.toNat a.toNat x.toNat b.toNat y.toNat .and s := rfl

theorem exec_qor : exec (.qor q a x b y) s =
    condRR (encode (.qor q a x b y)) q.toNat a.toNat x.toNat b.toNat y.toNat .or s := rfl

theorem exec_qxor : exec (.qxor q a x b y) s =
    condRR (encode (.qxor q a x b y)) q.toNat a.toNat x.toNat b.toNat y.toNat .xor s := rfl

theorem exec_qnot : exec (.qnot q a x) s = instr (encode (.qnot q a x)) {} [.src .q a.toNat x.toNat, .dst .q q.toNat]
    (fun c s => .ok (s.writeQ c q.toNat (!s.readQ c a.toNat x.toNat))) s := rfl

end

end Sys2Proof.Claims

namespace Sys2Proof.Proofs
open Sys2Proof Sys2Proof.Machine Sys2Proof.Claims

/-- Settles O1: each operation is the shared one of two registers, and its function the one of R98 and R99. -/
theorem aluTwoRegisters : Obligations.AluTwoRegisters := by
  intro e he d a b x y s c h
  obtain ⟨f, hx, hf⟩ := exec_aluOps e he
  exact aluRR_givesG h (hx d a x b y s) (hf _ _)

/-- Settles O2: each compare sets q by its relation and each condition by its own table; a handler names no q register but q0. -/
theorem comparesAndConditions : Obligations.ComparesAndConditions := by
  refine ⟨fun e he q a b x y i s c => ?_, fun q a b x y s c => ⟨fun h => ⟨?_, ?_, ?_⟩, fun h => ?_⟩⟩
  · obtain ⟨r, hreg, himm, hr⟩ := exec_cmpOps e he
    simp only [← hr]
    exact ⟨fun h => cmpRR_givesQ h (hreg q a x b y s), fun h => cmpRI_givesQ h (himm q a x i s)⟩
  · exact condRR_givesQ h (exec_qand q a b x y s)
  · exact condRR_givesQ h (exec_qor q a b x y s)
  · exact condRR_givesQ h (exec_qxor q a b x y s)
  · exact givesQ q.isLt h (dst_q_zero_of_hnd h (by simp)) (exec_qnot q a x s) rfl

/-- Settles O51: the immediate and compact forms are the shared ones, an immediate standing for the second register. -/
theorem aluImmediates : Obligations.AluImmediates := ⟨aluImmediates_holds, compactArithmetic_holds⟩

end Sys2Proof.Proofs
end

section
/-! Float vectors, selects and permutes: results lane by lane (spec/05 R133, R134, R137). -/
namespace Sys2Proof.Claims
open Sys2Proof Sys2Proof.Machine

/-! ### The shared shapes complete -/

section
variable {i : Instr} {s : State} {c : Ctx} {word a x b k : Nat} {d : BitVec 5}

/-- An instruction of two w registers gives the results and the events of its lane function. -/
theorem vecRR_givesW_elems {f : Nat → Nat → Nat × Ev} (h : Runs s c {} [.src .w a x, .src .w b 0, .dst .w d.toNat])
    (he : exec i s = vecRR word d.toNat a x b k f s) :
    GivesW i s c d.toNat k (512 / k) (fun j => (f (elemOf (s.readW c a x) k j) (elemOf (s.readW c b 0) k j)).1)
      (laneEvents (512 / k) (fun j => (f (elemOf (s.readW c a x) k j) (elemOf (s.readW c b 0) k j)).2)) :=
  givesW_lanes (g := fun j => f (elemOf (s.readW c a x) k j) (elemOf (s.readW c b 0) k j)) d.isLt h he rfl

/-- An instruction of one w register. -/
theorem vecR_givesW {f : Nat → Nat × Ev} (h : Runs s c {} [.src .w a x, .dst .w d.toNat]) (he : exec i s = vecR word d.toNat a x k f s) :
    GivesW i s c d.toNat k (512 / k) (fun j => (f (elemOf (s.readW c a x) k j)).1)
      (laneEvents (512 / k) (fun j => (f (elemOf (s.readW c a x) k j)).2)) :=
  givesW_lanes (g := fun j => f (elemOf (s.readW c a x) k j)) d.isLt h he rfl

/-- A fused instruction, of three w registers at distance 0. -/
theorem vecFused_givesW {r : Nat} {f : Fmt} {neg : Bool} (h : Runs s c {} [.src .w a 0, .src .w b 0, .src .w r 0, .dst .w d.toNat])
    (he : exec i s = vecFused word d.toNat a b r f neg s) :
    GivesW i s c d.toNat f.width (512 / f.width)
      (fun j => (fpFma f false neg (elemOf (s.readW c a 0) f.width j) (elemOf (s.readW c b 0) f.width j) (elemOf (s.readW c r 0) f.width j)).1)
      (laneEvents (512 / f.width)
        (fun j => (fpFma f false neg (elemOf (s.readW c a 0) f.width j) (elemOf (s.readW c b 0) f.width j) (elemOf (s.readW c r 0) f.width j)).2)) :=
  givesW_lanes (g := fun j => fpFma f false neg (elemOf (s.readW c a 0) f.width j) (elemOf (s.readW c b 0) f.width j)
    (elemOf (s.readW c r 0) f.width j)) d.isLt h he rfl

/-- An instruction that packs the lanes of a function, and counts no event. -/
theorem givesW_elems {md : Mode} {uses : List Use} {g : Nat → Nat} {body : Ctx → State → Res} (h : Runs s c md uses)
    (he : exec i s = instr word md uses body s) (hb : body c s = .ok (s.writeW c d.toNat (wideOf k ((upTo (512 / k)).map g)))) :
    GivesW i s c d.toNat k (512 / k) g {} := by
  have hnone : Ev.sum (((upTo (512 / k)).map fun j => (g j, ({} : Ev))).map (fun r => r.2)) = {} := by
    rw [List.map_map]
    exact laneEvents_none _
  have hw := givesW_lanes (k := k) (n := 512 / k) (g := fun j => (g j, {})) d.isLt h he (by rw [hb, hnone, List.map_map]; rfl)
  rwa [laneEvents_none] at hw

end

/-! ### The forms -/

/-- The format of a float view (R54). -/
theorem fltFmt_eq : ∀ e : BitVec 3, fltFmt e.toNat = if e = 0 then .fp32 else .bf16 := by decide

/-- The width of an element of a view of the permutes (R54). -/
theorem viewWidth_eq (e : Nat) : viewWidth e = widthOf e := by
  rw [viewWidth, widthOf, Nat.shiftLeft_eq]

/-- Each float operation of two registers is the shared one, lane by lane the operation of its table. -/
theorem exec_fpOps : ∀ o ∈ fpOps, ∀ d a x b e s, exec (o.2.1 d a x b e) s =
    vecRR (encode (o.2.1 d a x b e)) d.toNat a.toNat x.toNat b.toNat (fltFmt e.toNat).width (o.2.2 (fltFmt e.toNat)) s := by
  simp only [fpOps, List.forall_mem_cons]
  exact ⟨fun _ _ _ _ _ _ => rfl, fun _ _ _ _ _ _ => rfl, fun _ _ _ _ _ _ => rfl, fun _ _ _ _ _ _ => rfl, fun _ _ _ _ _ _ => rfl,
    fun _ _ _ _ _ _ => rfl, List.forall_mem_nil _⟩

/-- Each float operation of one register is the shared one. -/
theorem exec_laneOps : ∀ o ∈ laneOps, ∀ d a x e s, exec (o.1 d a x e) s =
    vecR (encode (o.1 d a x e)) d.toNat a.toNat x.toNat (fltFmt e.toNat).width (o.2 (fltFmt e.toNat)) s := by
  simp only [laneOps, List.forall_mem_cons, ← Nat.one_shiftLeft]
  exact ⟨fun _ _ _ _ _ => rfl, fun _ _ _ _ _ => rfl, fun _ _ _ _ _ => rfl, fun _ _ _ _ _ => rfl, fun _ _ _ _ _ => rfl,
    List.forall_mem_nil _⟩

/-- Each select is the shared one at its width. -/
theorem exec_selOps : ∀ o ∈ selOps, ∀ d a b m s, exec (o.1 d a b m) s =
    vecSel (encode (o.1 d a b m)) d.toNat a.toNat b.toNat m.toNat o.2 s := by
  simp only [selOps, List.forall_mem_cons]
  exact ⟨fun _ _ _ _ _ => rfl, fun _ _ _ _ _ => rfl, fun _ _ _ _ _ => rfl, fun _ _ _ _ _ => rfl, List.forall_mem_nil _⟩

section
variable (d a b : BitVec 5) (x e : BitVec 3) (s : State)

theorem exec_vperm : exec (.vperm d a x b e) s =
    instr (encode (.vperm d a x b e)) {} [.src .w a.toNat x.toNat, .src .w b.toNat 0, .dst .w d.toNat]
      (fun c s => .ok (s.writeW c d.toNat (wideOf (widthOf e.toNat) ((upTo (512 / widthOf e.toNat)).map (fun j =>
        elemOf (s.readW c a.toNat x.toNat) (widthOf e.toNat)
          (elemOf (s.readW c b.toNat 0) (widthOf e.toNat) j % (512 / widthOf e.toNat))))))) s := by
  simp only [← viewWidth_eq]
  rfl

theorem exec_vbcast : exec (.vbcast d a x b e) s =
    instr (encode (.vbcast d a x b e)) {} [.src .w a.toNat x.toNat, .src .g b.toNat 0, .dst .w d.toNat]
      (fun c s => .ok (s.writeW c d.toNat (wideOf (widthOf e.toNat) ((upTo (512 / widthOf e.toNat)).map (fun _ =>
        elemOf (s.readW c a.toNat x.toNat) (widthOf e.toNat) ((s.readG c b.toNat 0).toNat % (512 / widthOf e.toNat))))))) s := by
  simp only [← viewWidth_eq]
  rfl

theorem exec_vsplat : exec (.vsplat d a x e) s =
    instr (encode (.vsplat d a x e)) {} [.src .g a.toNat x.toNat, .dst .w d.toNat]
      (fun c s => .ok (s.writeW c d.toNat (wideOf (widthOf e.toNat) ((upTo (512 / widthOf e.toNat)).map (fun _ =>
        (s.readG c a.toNat x.toNat).toNat % 2 ^ widthOf e.toNat))))) s := by
  simp only [← viewWidth_eq, ← Nat.one_shiftLeft (viewWidth _)]
  rfl

end

end Sys2Proof.Claims

namespace Sys2Proof.Proofs
open Sys2Proof Sys2Proof.Machine Sys2Proof.Claims

/-- Settles O10: each float form is a shared one in the format of its view, and its lane function is its table's. -/
theorem vectorFloat : Obligations.VectorFloat := by
  intro s c d a b r x e _ f n
  have hf : fltFmt e.toNat = f := fltFmt_eq e
  refine ⟨fun h o ho => ?_, fun h o ho => ?_, fun h => ⟨?_, ?_, ?_, ?_⟩⟩
  · have hw := vecRR_givesW_elems h (exec_fpOps o ho d a x b e s)
    rwa [hf] at hw
  · have hw := vecR_givesW h (exec_laneOps o ho d a x e s)
    rwa [hf] at hw
  · exact vecFused_givesW (f := .fp32) (neg := false) h rfl
  · exact vecFused_givesW (f := .fp32) (neg := true) h rfl
  · exact vecFused_givesW (f := .bf16) (neg := false) h rfl
  · exact vecFused_givesW (f := .bf16) (neg := true) h rfl

/-- Settles O11: each form packs the elements that its rule picks. -/
theorem vectorSelectAndPermute : Obligations.VectorSelectAndPermute := by
  intro s c d a b m x e
  refine ⟨fun h o ho => ?_, fun _ => ⟨fun h => ?_, fun h => ?_, fun h => ?_⟩⟩
  · simp only [← bitOf_toNat]
    exact givesW_elems h (exec_selOps o ho d a b m s) rfl
  · exact givesW_elems h (exec_vperm d a b x e s) rfl
  · exact givesW_elems h (exec_vbcast d a b x e s) rfl
  · exact givesW_elems h (exec_vsplat d a x e s) rfl

end Sys2Proof.Proofs
end

section
/-! Vector compares and masks: a mask's bits, the counts over them, and the forms (spec/05 R138, R139). -/
namespace Sys2Proof
open Sys2Proof.Machine

/-- Bit j of the number packed from a list is the list's j-th entry, zero past its end. -/
theorem testBit_ofBits : ∀ (l : List Bool) (j : Nat), (ofBits l).testBit j = l.getD j false
  | [], j => by simp [ofBits]
  | b :: l, 0 => by cases b <;> simp [ofBits, Nat.testBit_zero]
  | b :: l, j + 1 => by
    have hdiv : ofBits (b :: l) / 2 = ofBits l := by
      rw [ofBits]
      split <;> omega
    rw [Nat.testBit_succ, hdiv, testBit_ofBits l j, List.getD_cons_succ]

/-- The one bits among the low n, counted one by one. -/
theorem ones_eq_length_filter : ∀ n v : Nat, Alu.ones n v = ((List.range n).filter v.testBit).length
  | 0, _ => rfl
  | n + 1, v => by
    have hsucc : (v.testBit ∘ Nat.succ) = (v / 2).testBit := funext fun j => Nat.testBit_succ v j
    rw [Alu.ones, ones_eq_length_filter n (v / 2), List.range_succ_eq_map, List.filter_cons, Nat.testBit_zero]
    rcases Nat.mod_two_eq_zero_or_one v with h | h <;> simp [h, List.filter_map, hsucc, Nat.add_comm]

theorem trailing_le : ∀ n v : Nat, Alu.trailing n v ≤ n
  | 0, _ => Nat.le_refl 0
  | n + 1, v => by
    have := trailing_le n (v / 2)
    rw [Alu.trailing]
    split <;> omega

/-- Below the trailing count there are zero bits only. -/
theorem testBit_of_lt_trailing : ∀ {n v j : Nat}, j < Alu.trailing n v → v.testBit j = false
  | 0, _, _, h => absurd h (Nat.not_lt_zero _)
  | n + 1, v, j, h => by
    rw [Alu.trailing] at h
    split at h
    next => exact absurd h (Nat.not_lt_zero _)
    next hv =>
      cases j with
      | zero => simp [Nat.testBit_zero, hv]
      | succ j => rw [Nat.testBit_succ, testBit_of_lt_trailing (n := n) (by omega)]

/-- A trailing count below the width stops at a one bit. -/
theorem testBit_trailing : ∀ {n v : Nat}, Alu.trailing n v < n → v.testBit (Alu.trailing n v) = true
  | 0, _, h => absurd h (Nat.not_lt_zero _)
  | n + 1, v, h => by
    rw [Alu.trailing] at h ⊢
    split at h
    next hv => simp [Nat.testBit_zero, hv]
    next hv =>
      rw [if_neg hv, Nat.add_comm, Nat.testBit_succ]
      exact testBit_trailing (by omega)

end Sys2Proof

namespace Sys2Proof.Claims
open Sys2Proof Sys2Proof.Machine

/-! ### The shared shapes complete -/

section
variable {i : Instr} {s : State} {c : Ctx} {word a x b y : Nat}

/-- In a handler an instruction that runs writes no m register but m0 (R226). -/
theorem dst_m_zero_of_hnd {md : Mode} {uses : List Use} {m : Nat} (h : Runs s c md uses) (hm : .dst .m m ∈ uses) (hh : c.hnd = true) :
    m = 0 := by
  have hin := List.any_eq_false.mp (Runs.inBank h hh) _ hm
  simpa [Use.outsideBank, RSet.outsideBank] using hin

/-- A compare sets bit j by its relation of elements j, and clears the bits above. -/
theorem vecCmp_givesMask {m : BitVec 3} {k : Nat} {f : Nat → Nat → Bool} (h : Runs s c {} [.src .w a x, .src .w b 0, .dst .m m.toNat])
    (he : exec i s = vecCmp word m.toNat a x b k f s) :
    GivesMask i s c m.toNat (512 / k) (fun j => f (elemOf (s.readW c a x) k j) (elemOf (s.readW c b 0) k j)) := by
  refine ⟨_, givesM m.isLt h (dst_m_zero_of_hnd h (by simp)) he rfl, fun j hj => ?_⟩
  rw [natWord, BitVec.getLsbD_ofNat, testBit_ofBits, upTo, List.getD_eq_getElem?_getD, List.getElem?_map]
  by_cases hn : j < 512 / k <;> simp [hn, hj]

theorem maskRR_givesM {d : BitVec 3} {f : Word → Word → Word} (h : Runs s c {} [.src .m a x, .src .m b y, .dst .m d.toNat])
    (he : exec i s = maskRR word d.toNat a x b y f s) : GivesM i s c d.toNat (f (s.readM c a x) (s.readM c b y)) :=
  givesM d.isLt h (dst_m_zero_of_hnd h (by simp)) he rfl

theorem maskToG_givesG {d : BitVec 5} {f : Word → Word} (h : Runs s c {} [.src .m a x, .dst .g d.toNat])
    (he : exec i s = maskToG word d.toNat a x f s) : GivesG i s c d.toNat (f (s.readM c a x)) {} := givesG d.isLt h he rfl

end

/-! ### The relations of R139 on lanes -/

section
variable {k : Nat} (hk : 0 < k) (u v : BitVec k)

theorem ofElems_eq : Rel.eq.ofElems k u.toNat v.toNat = (u == v) := by
  rw [Rel.ofElems, Bool.eq_iff_iff, beq_iff_eq, beq_iff_eq, BitVec.toNat_inj]

theorem ofElems_ne : Rel.ne.ofElems k u.toNat v.toNat = (u != v) := by
  rw [Rel.ofElems, Bool.eq_iff_iff, bne_iff_ne, bne_iff_ne, BitVec.toNat_ne_iff_ne]

theorem ofElems_ltu : Rel.ltu.ofElems k u.toNat v.toNat = u.ult v := by rw [Rel.ofElems, BitVec.ult_eq_decide]

theorem ofElems_geu : Rel.geu.ofElems k u.toNat v.toNat = v.ule u := by rw [Rel.ofElems, BitVec.ule_eq_decide]

include hk

theorem ofElems_lt : Rel.lt.ofElems k u.toNat v.toNat = u.slt v := by
  rw [Rel.ofElems, sext_toNat hk, sext_toNat hk, BitVec.slt_eq_decide]

theorem ofElems_ge : Rel.ge.ofElems k u.toNat v.toNat = v.sle u := by
  rw [Rel.ofElems, sext_toNat hk, sext_toNat hk, BitVec.sle_eq_decide]

end

/-! ### The forms -/

/-- Each integer compare is the shared one, of one relation that is its table's on lanes. -/
theorem exec_vecCmpOps : ∀ o ∈ vecCmpOps, ∃ r : Rel,
    (∀ m a x b e s, exec (o.1 m a x b e) s =
      vecCmp (encode (o.1 m a x b e)) m.toNat a.toNat x.toNat b.toNat (8 * 2 ^ e.toNat) (r.ofElems (8 * 2 ^ e.toNat)) s) ∧
    ∀ k, 0 < k → ∀ u v : BitVec k, r.ofElems k u.toNat v.toNat = o.2 k u v := by
  simp only [vecCmpOps, List.forall_mem_cons, ← intWidth_eq]
  exact ⟨⟨.eq, fun _ _ _ _ _ _ => rfl, fun _ _ => ofElems_eq⟩, ⟨.ne, fun _ _ _ _ _ _ => rfl, fun _ _ => ofElems_ne⟩,
    ⟨.lt, fun _ _ _ _ _ _ => rfl, fun _ => ofElems_lt⟩, ⟨.ltu, fun _ _ _ _ _ _ => rfl, fun _ _ => ofElems_ltu⟩,
    ⟨.ge, fun _ _ _ _ _ _ => rfl, fun _ => ofElems_ge⟩, ⟨.geu, fun _ _ _ _ _ _ => rfl, fun _ _ => ofElems_geu⟩,
    List.forall_mem_nil _⟩

/-- Each float compare is the shared one, of its table's reading of the order of two values. -/
theorem exec_vecFltCmpOps : ∀ o ∈ vecFltCmpOps, ∀ m a x b e s, exec (o.1 m a x b e) s =
    vecCmp (encode (o.1 m a x b e)) m.toNat a.toNat x.toNat b.toNat (fltFmt e.toNat).width
      (fun u v => o.2 (vcompare (exact (fltFmt e.toNat) u) (exact (fltFmt e.toNat) v))) s := by
  simp only [vecFltCmpOps, List.forall_mem_cons]
  exact ⟨fun _ _ _ _ _ _ => rfl, fun _ _ _ _ _ _ => rfl, fun _ _ _ _ _ _ => rfl, List.forall_mem_nil _⟩

section
variable (d a b x y : BitVec 3) (e : BitVec 5) (s : State)

theorem exec_mand : exec (.mand d a x b y) s =
    maskRR (encode (.mand d a x b y)) d.toNat a.toNat x.toNat b.toNat y.toNat (fun u v => u &&& v) s := rfl

theorem exec_mor : exec (.mor d a x b y) s =
    maskRR (encode (.mor d a x b y)) d.toNat a.toNat x.toNat b.toNat y.toNat (fun u v => u ||| v) s := rfl

theorem exec_mxor : exec (.mxor d a x b y) s =
    maskRR (encode (.mxor d a x b y)) d.toNat a.toNat x.toNat b.toNat y.toNat (fun u v => u ^^^ v) s := rfl

theorem exec_mnot : exec (.mnot d a x) s = instr (encode (.mnot d a x)) {} [.src .m a.toNat x.toNat, .dst .m d.toNat]
    (fun c s => .ok (s.writeM c d.toNat (~~~ s.readM c a.toNat x.toNat))) s := rfl

theorem exec_mpop : exec (.mpop e a x) s = maskToG (encode (.mpop e a x)) e.toNat a.toNat x.toNat Alu.popc s := rfl

theorem exec_mfirst : exec (.mfirst e a x) s = maskToG (encode (.mfirst e a x)) e.toNat a.toNat x.toNat Alu.ctz s := rfl

end

end Sys2Proof.Claims

namespace Sys2Proof.Proofs
open Sys2Proof Sys2Proof.Machine Sys2Proof.Claims

/-- Settles O14: a compare packs the relations of its lanes into a mask; the counts over a mask are those of its bits. -/
theorem vectorCompareAndMasks : Obligations.VectorCompareAndMasks := by
  intro s c
  refine ⟨fun m x e a b h => ⟨fun _ o ho => ?int, fun _ o ho => ?flt⟩, fun d a b x y => ⟨fun h => ⟨?_, ?_, ?_⟩, fun h => ?_⟩,
    fun d a x h => ⟨?pop, ?first⟩⟩
  case int =>
    obtain ⟨r, hx, hr⟩ := exec_vecCmpOps o ho
    have hk : 0 < 8 * 2 ^ e.toNat := Nat.mul_pos (by decide) (Nat.two_pow_pos _)
    have hg := vecCmp_givesMask h (hx m a x b e s)
    simpa only [elemOf_eq_lane, hr _ hk] using hg
  case flt =>
    have hg := vecCmp_givesMask h (exec_vecFltCmpOps o ho m a x b e s)
    rwa [fltFmt_eq] at hg
  · exact maskRR_givesM h (exec_mand d a b x y s)
  · exact maskRR_givesM h (exec_mor d a b x y s)
  · exact maskRR_givesM h (exec_mxor d a b x y s)
  · exact givesM d.isLt h (dst_m_zero_of_hnd h (by simp)) (exec_mnot d a x s) rfl
  case pop =>
    have hg := maskToG_givesG h (exec_mpop a x d s)
    rwa [Alu.popc, ones_eq_length_filter] at hg
  case first =>
    exact ⟨_, trailing_le 64 _, fun j hj => testBit_of_lt_trailing hj, testBit_trailing, maskToG_givesG h (exec_mfirst a x d s)⟩

end Sys2Proof.Proofs
end

section
/-! Strided and indexed vector accesses that pass their checks: what a load gathers and a store scatters (spec/05 R144, R146, R147). -/
namespace Sys2Proof.Claims
open Sys2Proof Sys2Proof.Machine

/-! ### The active elements -/

theorem mem_activeElems {z mask : Nat} {ea : Nat → Word} {e : Nat × Word} :
    e ∈ activeElems z mask ea ↔ ∃ j, (j < 64 / z ∧ bitOf mask j = true) ∧ (j, ea j) = e := by
  simp only [activeElems, upTo, List.mem_map, List.mem_filter, List.mem_range]

/-- The active elements around one of them: those after it are of higher index. -/
theorem activeElems_split {z mask j : Nat} (ea : Nat → Word) (hj : j < 64 / z) (hm : bitOf mask j = true) :
    ∃ before after, activeElems z mask ea = before ++ (j, ea j) :: after ∧
      ∀ e ∈ after, ∃ k, (j < k ∧ k < 64 / z ∧ bitOf mask k = true) ∧ (k, ea k) = e := by
  obtain ⟨m, hn⟩ : ∃ m, 64 / z = j + 1 + m := ⟨64 / z - (j + 1), by omega⟩
  refine ⟨((List.range j).filter (bitOf mask)).map (fun i => (i, ea i)),
    (((List.range m).map (j + 1 + ·)).filter (bitOf mask)).map (fun i => (i, ea i)), ?_, fun e he => ?_⟩
  · simp [activeElems, upTo, hn, List.range_add, List.range_succ, hm]
  · simp only [List.mem_map, List.mem_filter, List.mem_range] at he
    obtain ⟨k, ⟨⟨i, hi, rfl⟩, hmk⟩, rfl⟩ := he
    exact ⟨_, ⟨by omega, by omega, hmk⟩, rfl⟩

theorem firstSome_eq_none {α β : Type} {f : α → Option β} {l : List α} (h : ∀ a ∈ l, f a = none) : firstSome f l = none := by
  rw [firstSome_eq_findSome?, List.findSome?_eq_none_iff]
  exact h

section
variable {s : State} {c : Ctx} {z mask : Nat} {ea : Nat → Word}

theorem ElementsPass.elemFault_none {store : Bool} (h : ElementsPass s c z mask ea store) :
    firstSome (fun e => s.elemFault c z e.2) (activeElems z mask ea) = none := by
  refine firstSome_eq_none fun e he => ?_
  obtain ⟨j, ⟨hj, hm⟩, rfl⟩ := mem_activeElems.mp he
  obtain ⟨hp, hf, -⟩ := h j hj hm
  exact Claims.elemFault_none hp hf

theorem ElementsPass.poisoned_none (h : ElementsPass s c z mask ea false) :
    firstSome (fun e => if s.poisoned (elemKey c e.2) z then some e.2 else none) (activeElems z mask ea) = none := by
  refine firstSome_eq_none fun e he => ?_
  obtain ⟨j, ⟨hj, hm⟩, rfl⟩ := mem_activeElems.mp he
  obtain ⟨-, -, hp⟩ := h j hj hm
  simp [show s.poisoned (elemKey c (ea j)) z = false from hp]

theorem ElementsPass.partPoisoned_none (h : ElementsPass s c z mask ea true) :
    firstSome (fun e => if s.partPoisoned (elemKey c e.2) z then some e.2 else none) (activeElems z mask ea) = none := by
  refine firstSome_eq_none fun e he => ?_
  obtain ⟨j, ⟨hj, hm⟩, rfl⟩ := mem_activeElems.mp he
  obtain ⟨-, -, hp, -⟩ := h j hj hm
  simp [hp]

theorem ElementsPass.unbarred (h : ElementsPass s c z mask ea true) :
    (activeElems z mask ea).any (fun e => s.commandBars c e.2.toNat z) = false := by
  refine List.any_eq_false.mpr fun e he => ?_
  obtain ⟨j, ⟨hj, hm⟩, rfl⟩ := mem_activeElems.mp he
  obtain ⟨-, -, -, hb⟩ := h j hj hm
  simp [hb]

end

/-! ### Gathers -/

theorem leNat_lt : ∀ bs : List Byte, leNat bs < 256 ^ bs.length
  | [] => by simp [leNat]
  | b :: bs => by
    have hb := b.isLt
    have ih := leNat_lt bs
    rw [leNat, List.length_cons, Nat.pow_succ']
    omega

/-- A number of z bytes fits an element of z bytes. -/
theorem natAt_lt (s : State) (key z : Nat) : s.natAt key z < 2 ^ (8 * z) := by
  have h := leNat_lt (s.bytesAt key z)
  rwa [State.length_bytesAt, show 256 = 2 ^ 8 by decide, ← Nat.pow_mul] at h

/-- What an element of z bytes lies within. -/
theorem elem_fits {z j : Nat} (hj : j < 64 / z) : 8 * z * j + 8 * z ≤ 512 := by
  have h := Nat.mul_le_of_le_div z (j + 1) 64 hj
  rw [Nat.succ_mul] at h
  rw [Nat.mul_assoc, Nat.mul_comm z j]
  omega

/-- A vector load whose elements pass: an instruction that runs, marks what it reads and packs the elements. -/
theorem vecLoad_gathers {i : Instr} {s : State} {c : Ctx} {md : Mode} {uses : List Use} {word z mask : Nat} {d : BitVec 5}
    {ea : Nat → Word} {body : Ctx → State → Res} (h : Runs s c md uses) (he : exec i s = instr word md uses body s)
    (hb : body c s = s.vecLoad c d.toNat z mask ea) : Gathers i s c d.toNat z mask ea := by
  intro hpass
  have hmarked : Marked s ((activeElems z mask ea).foldl (fun t e => t.touchAll c (elemOff e.2) z) s) c :=
    .foldl (fun t e => marked_touchAll t c _ z) _ s
  refine ⟨_, by rw [he, instr_runs h, hb, State.vecLoad]; simp only [hpass.elemFault_none, hpass.poisoned_none]; rfl, fun j hj => ?_,
    hmarked.then_kept ((keptAll_writeW d.toNat _).advance none true)⟩
  rw [readW_writeW_advance (hmarked.kept.ctx hmarked.cur h.1) d.isLt, elemOf_wideOf _ _ j (elem_fits hj), Nat.one_shiftLeft, upTo,
    List.getD_eq_getElem?_getD, List.getElem?_map, List.getElem?_range hj, Option.map_some, Option.getD_some]
  split
  next => exact Nat.mod_eq_of_lt (natAt_lt s _ z)
  next => exact Nat.zero_mod _

/-! ### Scatters -/

/-- One element of a vector store (R147). -/
def scatterElem (c : Ctx) (z : Nat) (v : Wide) (t : State) (e : Nat × Word) : State :=
  (t.touchAll c (elemOff e.2) z).storeScratch c.b (elemOff e.2) (leBytes z (elemOf v (8 * z) e.1))

/-- A vector store whose elements pass stores each, in ascending order. -/
theorem vecStore_of_elementsPass {s : State} {c : Ctx} {z mask : Nat} {ea : Nat → Word} (h : ElementsPass s c z mask ea true) (v : Wide) :
    s.vecStore c z mask ea v = .ok ((activeElems z mask ea).foldl (scatterElem c z v) s) := by
  simp only [State.vecStore, h.elemFault_none, h.unbarred, h.partPoisoned_none, Bool.false_eq_true, if_false]
  rfl

section
variable (c : Ctx) (z : Nat) (v : Wide)

/-- An element leaves marks and its bytes. -/
theorem scatterElem_eq_poke (t : State) (e : Nat × Word) :
    ∃ u, Marked t u c ∧ scatterElem c z v t e = u.pokeNat (elemKey c e.2) z (elemOf v (8 * z) e.1) :=
  ⟨_, ((marked_touchAll t c _ z).trans (marked_jotSpan _ c c.b _ _)).trans (marked_heal _ c _ _), rfl⟩

theorem kept_scatterElem (t : State) (e : Nat × Word) : Kept t (scatterElem c z v t e) c [] {} := by
  obtain ⟨u, hu, h⟩ := scatterElem_eq_poke c z v t e
  rw [h]
  exact hu.kept.trans (kept_poke u c _ _)

theorem byteAt_scatterElem {t : State} {e : Nat × Word} {k : Nat} (h : ¬ (elemKey c e.2 ≤ k ∧ k < elemKey c e.2 + z)) :
    (scatterElem c z v t e).byteAt k = t.byteAt k := by
  obtain ⟨u, hu, he⟩ := scatterElem_eq_poke c z v t e
  rw [he, State.pokeNat, State.byteAt_poke, length_leBytes, if_neg h, hu.byteAt]

/-- An element reads back as it was stored. -/
theorem natAt_scatterElem (t : State) (e : Nat × Word) :
    (scatterElem c z v t e).natAt (elemKey c e.2) z = elemOf v (8 * z) e.1 := by
  obtain ⟨u, -, he⟩ := scatterElem_eq_poke c z v t e
  have hlt := elemOf_lt v (8 * z) e.1
  rw [Nat.pow_mul] at hlt
  rw [he, State.natAt_pokeNat, Nat.mod_eq_of_lt hlt]

theorem kept_foldl_scatterElem : ∀ (es : List (Nat × Word)) (s : State), Kept s (es.foldl (scatterElem c z v) s) c [] {}
  | [], _ => .of_berths c rfl
  | e :: es, s => (kept_scatterElem c z v s e).trans (kept_foldl_scatterElem es _)

/-- A byte that no element covers is as it was. -/
theorem byteAt_foldl_scatterElem {k : Nat} : ∀ (es : List (Nat × Word)) (s : State),
    (∀ e ∈ es, ¬ (elemKey c e.2 ≤ k ∧ k < elemKey c e.2 + z)) → (es.foldl (scatterElem c z v) s).byteAt k = s.byteAt k
  | [], _, _ => rfl
  | e :: es, s, h => by
    obtain ⟨he, hes⟩ := List.forall_mem_cons.mp h
    rw [List.foldl_cons, byteAt_foldl_scatterElem es _ hes, byteAt_scatterElem c z v he]

end

/-- A vector store whose elements pass: an instruction that runs and stores its active elements one after another. -/
theorem vecStore_scatters {i : Instr} {s : State} {c : Ctx} {md : Mode} {uses : List Use} {word z mask : Nat} {ea : Nat → Word}
    {v : Wide} {body : Ctx → State → Res} (h : Runs s c md uses) (he : exec i s = instr word md uses body s)
    (hb : body c s = s.vecStore c z mask ea v) : Scatters i s c z mask ea v := by
  intro hpass
  refine ⟨_, by rw [he, instr_runs h, hb, vecStore_of_elementsPass hpass, finish_ok], fun k hk => ?_, fun j hj hm hlater => ?_,
    (kept_foldl_scatterElem c z v _ s).trans (keptAll_advance _ c none true).toKept⟩
  · rw [State.byteAt, State.advance_mem]
    refine byteAt_foldl_scatterElem c z v _ s fun e hmem => ?_
    obtain ⟨j, ⟨hj, hm⟩, rfl⟩ := mem_activeElems.mp hmem
    exact hk j hj hm
  · obtain ⟨before, after, hsplit, hafter⟩ := activeElems_split ea hj hm
    rw [State.natAt, State.bytesAt, State.advance_mem, hsplit, List.foldl_append, List.foldl_cons]
    refine .trans (State.natAt_congr fun k hlo hhi => byteAt_foldl_scatterElem c z v after _ fun e hmem => ?_)
      (natAt_scatterElem c z v _ (j, ea j))
    obtain ⟨j', ⟨hlt, hj', hm'⟩, rfl⟩ := hafter e hmem
    have hdisjoint := hlater j' hlt hj' hm'
    show ¬ (elemKey c (ea j') ≤ k ∧ k < elemKey c (ea j') + z)
    omega

end Sys2Proof.Claims

namespace Sys2Proof.Proofs
open Sys2Proof Sys2Proof.Machine Sys2Proof.Claims

/-- Settles O8: a load packs its active elements and leaves marks alone; a store leaves each element as its last active cover wrote it. -/
theorem vectorMemory : Obligations.VectorMemory := by
  intro s c d a b x m e
  refine ⟨fun h => ?_, fun h => ?_, fun h => ?_, fun h => ?_⟩
  · exact vecLoad_gathers h (exec_vls d a b x m e s) rfl
  · exact vecLoad_gathers h (exec_vlg d a b x m e s) rfl
  · exact vecStore_scatters h (exec_vss d a b x m e s) rfl
  · exact vecStore_scatters h (exec_vsg d a b x m e s) rfl

end Sys2Proof.Proofs
end

section
/-! Conversions, compares and masks complete, form by form: what gives its result completes (spec/05 R138, R139, R141 to R143). -/
namespace Sys2Proof.Claims
open Sys2Proof Sys2Proof.Machine

/-! ### A result is a completion -/

section
variable {i : Instr} {s : State} {c : Ctx} {d : Nat}

theorem GivesG.completes {v : Word} {ev : Ev} (h : GivesG i s c d v ev) : Completes i s c [(.g, d)] := by
  obtain ⟨t, ht, -, hk⟩ := h
  exact ⟨t, ev, ht, hk⟩

theorem GivesF.completes {v : W32} {ev : Ev} (h : GivesF i s c d v ev) : Completes i s c [(.f, d)] := by
  obtain ⟨t, ht, -, hk⟩ := h
  exact ⟨t, ev, ht, hk⟩

theorem GivesW.completes {k n : Nat} {f : Nat → Nat} {ev : Ev} (h : GivesW i s c d k n f ev) : Completes i s c [(.w, d)] := by
  obtain ⟨t, ht, -, hk⟩ := h
  exact ⟨t, ev, ht, hk⟩

theorem GivesM.completes {v : Word} (h : GivesM i s c d v) : Completes i s c [(.m, d)] := by
  obtain ⟨t, ht, -, hk⟩ := h
  exact ⟨t, {}, ht, hk⟩

theorem GivesMask.completes {n : Nat} {f : Nat → Bool} (h : GivesMask i s c d n f) : Completes i s c [(.m, d)] := by
  obtain ⟨v, hv, -⟩ := h
  exact hv.completes

end

/-! ### The tables of conversions and compares -/

section
variable {s : State} {c : Ctx} {d a b : BitVec 5} {x : BitVec 3}

/-- Every conversion with a mode completes, stochastic rounding with its second register. -/
theorem cvtOps_complete {r : BitVec 3} (h : r.toNat < 4 ∧ Runs s c {} [.src .w a.toNat x.toNat, .dst .w d.toNat] ∨
    r = 4 ∧ Runs s c {} [.src .w a.toNat x.toNat, .dst .w d.toNat, .src .w b.toNat 0]) :
    ∀ o ∈ cvtOps, Completes (o.1 d a x b r) s c [(.w, d.toNat)] := by
  intro o ho
  have hx := exec_cvtOps o ho d a x b r s
  obtain ⟨hr, h⟩ | ⟨rfl, h⟩ := h
  · exact (convert_givesW (Nat.ne_of_lt hr) h hx).completes
  · exact (convert_givesW_stochastic h hx).completes

theorem widenOps_complete (h : Runs s c {} [.src .w a.toNat x.toNat, .dst .w d.toNat]) :
    ∀ o ∈ widenOps, Completes (o.1 d a x) s c [(.w, d.toNat)] := by
  intro o ho
  obtain ⟨f, hx, -⟩ := exec_widenOps o ho
  exact (convert_givesW (by decide) h (hx d a x s)).completes

section
variable {m e : BitVec 3} (h : Runs s c {} [.src .w a.toNat x.toNat, .src .w b.toNat 0, .dst .m m.toNat])
include h

theorem vecCmpOps_complete : ∀ o ∈ vecCmpOps, Completes (o.1 m a x b e) s c [(.m, m.toNat)] := by
  intro o ho
  obtain ⟨r, hx, -⟩ := exec_vecCmpOps o ho
  exact (vecCmp_givesMask h (hx m a x b e s)).completes

theorem vecFltCmpOps_complete : ∀ o ∈ vecFltCmpOps, Completes (o.1 m a x b e) s c [(.m, m.toNat)] :=
  fun o ho => (vecCmp_givesMask h (exec_vecFltCmpOps o ho m a x b e s)).completes

end

end

theorem conversionsComplete_holds : ConversionsComplete := by
  intro s c d a b x r h
  refine ⟨fun hrun => ?_, fun hrun => ?_⟩
  · have hc := cvtOps_complete hrun
    simp only [cvtOps, List.forall_mem_cons] at hc
    obtain ⟨h1, h2, h3, h4, h5, h6, h7, -⟩ := hc
    exact ⟨h1, h2, h3, h4, h5, h6, h7⟩
  · have hw := widenOps_complete hrun
    simp only [widenOps, List.forall_mem_cons] at hw
    obtain ⟨h1, h2, h3, -⟩ := hw
    exact ⟨h1, h2, h3, (givesW_whole d.isLt hrun (exec_vpackmx d a x r h s) rfl).completes,
      (givesW_lanes (g := unpackMx r.toNat (s.readW c a.toNat x.toNat).toNat) d.isLt hrun (exec_vunpkmx d a x r s) rfl).completes⟩

theorem masksComplete_holds : MasksComplete := by
  intro s c
  refine ⟨fun m x e a b h => ?_, fun d a b x y => ⟨fun h => ⟨?_, ?_, ?_⟩, fun h => ?_⟩, fun d a x h => ⟨?_, ?_⟩⟩
  · have hi := vecCmpOps_complete (e := e) h
    have hf := vecFltCmpOps_complete (e := e) h
    simp only [vecCmpOps, List.forall_mem_cons] at hi
    simp only [vecFltCmpOps, List.forall_mem_cons] at hf
    obtain ⟨h1, h2, h3, h4, h5, h6, -⟩ := hi
    obtain ⟨h7, h8, h9, -⟩ := hf
    exact ⟨h1, h2, h3, h4, h5, h6, h7, h8, h9⟩
  · exact (maskRR_givesM h (exec_mand d a b x y s)).completes
  · exact (maskRR_givesM h (exec_mor d a b x y s)).completes
  · exact (maskRR_givesM h (exec_mxor d a b x y s)).completes
  · exact (givesM d.isLt h (dst_m_zero_of_hnd h (by simp)) (exec_mnot d a x s) rfl).completes
  · exact (maskToG_givesG h (exec_mpop a x d s)).completes
  · exact (maskToG_givesG h (exec_mfirst a x d s)).completes

end Sys2Proof.Claims
end

section
/-! Bank operations are sent, and multiplies queued (spec/15 R301 to R303, spec/18 R340, R351, R356). -/
namespace Sys2Proof.Machine
open Sys2Proof

/-! ### What a noted cell, a mark and the queue's step leave unchanged -/

@[simp] theorem State.noteReduce_mem (s : State) (c : Ctx) (ea key : Nat) : (s.noteReduce c ea key).mem = s.mem := by
  unfold State.noteReduce
  split <;> rfl

@[simp] theorem State.advance_bankOps (s : State) (c : Ctx) (br : Option Branch) (x : Bool) : (s.advance c br x).bankOps = s.bankOps :=
  (congrArg State.bankOps (keptAll_advance s c br x).rest :)

theorem marked_touchSpan (s : State) (c : Ctx) (rows : List (Nat × Nat)) : Marked s (s.touchSpan c rows) c := by
  refine .foldl (fun t r => ?_) rows s
  split
  · exact .refl t c
  · exact marked_touchAll t c _ _

/-- Marks leave the crane as it was. -/
theorem Marked.crane {s t : State} {c : Ctx} (h : Marked s t c) : (t.berth c.b).crane = (s.berth c.b).crane :=
  (congrArg Berth.crane h.kept.unit :)

@[simp] theorem State.advance_crane (s : State) (c : Ctx) (br : Option Branch) (x : Bool) :
    ((s.advance c br x).berth c.b).crane = (s.berth c.b).crane := (congrArg Berth.crane (keptAll_advance s c br x).unit :)

theorem State.crane_modCrane (s : State) (b : Nat) (f : Crane → Crane) : ((s.modCrane b f).berth b).crane = f (s.berth b).crane := by
  rw [show s.modCrane b f = s.modBerth b (fun x => { x with crane := f x.crane }) from rfl, State.berth_modBerth_self]

/-- With room in the queue a command goes behind all others, with the next number. -/
theorem craneEnqueue_ok {s : State} {c : Ctx} (h : (s.berth c.b).crane.queue.length < 16) (op : CraneOp) (k : Crane → Nat → Crane) :
    ∃ cmd : CraneCmd, cmd.op = op ∧ s.craneEnqueue c op k = .ok (s.modCrane c.b (fun x =>
      k { x with seq := (x.seq + 1) % 2 ^ 32, queue := x.queue ++ [cmd] } ((x.seq + 1) % 2 ^ 32))) := by
  refine ⟨{ seq := ((s.berth c.b).crane.seq + 1) % 2 ^ 32, slip := c.i, op := op, counts := !(s.slip c.b c.i).intrap }, rfl, ?_⟩
  rw [State.craneEnqueue, if_neg (Nat.not_le.mpr h)]
  rfl

end Sys2Proof.Machine

namespace Sys2Proof.Claims
open Sys2Proof Sys2Proof.Machine

/-! ### Bank operations (R301 to R303) -/

/-- An operation whose address R301 lets through goes on at its cell. -/
theorem cellK_hit {s : State} {c : Ctx} {ea : Word} {z n key : Nat} {brd : Bool} (h : s.cellReach c ea.toNat z n brd = .hit key)
    (k : Nat → Res) : s.cellK c ea z n brd k = k key := by simp only [State.cellK, h]

theorem sendBankOp_eq_posted (s : State) (c : Ctx) (ea key : Nat) (op : BOp) (v : Word) :
    s.sendBankOp c ea key op v = posted s c ea key op v := by
  simp only [State.sendBankOp, posted, bankOpOf, Nat.shiftRight_eq_div_pow]

/-- A bank operation with a doubleword sends its contribution. -/
theorem bankOp_sends {i : Instr} {s : State} {c : Ctx} {word a x b y z key : Nat} {op : BOp}
    (h : Runs s c {} [.src .g a x, .src .g b y]) (he : exec i s = bankOp word a x b y z op s)
    (hc : s.cellReach c (s.readG c a x).toNat z z false = .hit key) :
    exec i s = .next ((posted s c (s.readG c a x).toNat key op (s.readG c b y)).advance c none true) := by
  rw [he, bankOp, instr_runs h, cellK_hit hc, finish_ok, sendBankOp_eq_posted]

theorem exec_bdef (i : BitVec 3) (u : BitVec 1) (a b : BitVec 5) (x y : BitVec 3) (s : State) : exec (.bdef i u a x b y) s =
    instr (encode (.bdef i u a x b y)) {} [.src .g a.toNat x.toNat, .src .g b.toNat y.toNat]
      (fun c s => s.cellK c (s.readG c a.toNat x.toNat) 64 64 false (fun key =>
        .ok (s.sendBankOp c (s.readG c a.toNat x.toNat).toNat key
          (.define (u == 1) i.toNat ((s.readG c b.toNat y.toNat).toNat % 2 ^ 32)) (s.readG c b.toNat y.toNat)))) s := by
  simp only [← bitsOf_low _ 31]
  rfl

theorem exec_bvsa (e : BitVec 4) (a b : BitVec 5) (x y : BitVec 3) (s : State) : exec (.bvsa e a x b y) s =
    instr (encode (.bvsa e a x b y)) {} [.src .g a.toNat x.toNat, .src .w b.toNat y.toNat]
      (fun c s => s.cellK c (s.readG c a.toNat x.toNat) 64 1024 false (fun key =>
        .ok ((upTo 16).foldl (fun t l => t.sendBankOp c ((s.readG c a.toNat x.toNat).toNat + 64 * l) (key + 64 * l) (.vsa l e.toNat)
          (natWord (elemOf (s.readW c b.toNat y.toNat) 32 l))) s))) s := rfl

/-- Operations sent one after another are that many more on their way, and memory is as it was. -/
theorem foldl_sendBankOp (c : Ctx) (ea key : Nat → Nat) (op : Nat → BOp) (v : Nat → Word) : ∀ (l : List Nat) (s : State),
    (l.foldl (fun t j => t.sendBankOp c (ea j) (key j) (op j) (v j)) s).mem = s.mem ∧
    (l.foldl (fun t j => t.sendBankOp c (ea j) (key j) (op j) (v j)) s).bankOps.length = s.bankOps.length + l.length
  | [], _ => ⟨rfl, rfl⟩
  | j :: l, s => by
    obtain ⟨hm, hb⟩ := foldl_sendBankOp c ea key op v l (s.sendBankOp c (ea j) (key j) (op j) (v j))
    refine ⟨hm.trans (s.noteReduce_mem c _ _), hb.trans ?_⟩
    simp only [State.sendBankOp, List.length_append, List.length_cons, List.length_nil]
    omega

theorem bankSendsComplete_holds : BankSendsComplete := by
  intro s c a b x y u i e key ea v sends
  refine ⟨fun h => ⟨fun hc => ⟨?_, ?_, ?_, ?_, ?_, ?_, ?_, ?_⟩, fun hc => ⟨?_, ?_⟩⟩, fun h hc => ?_⟩
  · exact bankOp_sends h rfl hc
  · exact bankOp_sends h rfl hc
  · exact bankOp_sends h rfl hc
  · exact bankOp_sends h rfl hc
  · exact bankOp_sends h rfl hc
  · exact bankOp_sends h rfl hc
  · exact bankOp_sends h rfl hc
  · exact bankOp_sends h rfl hc
  · exact bankOp_sends h rfl hc
  · show exec _ s = _
    rw [exec_bdef, instr_runs h, cellK_hit hc, finish_ok, sendBankOp_eq_posted]
  · obtain ⟨hm, hb⟩ := foldl_sendBankOp c (fun l => ea.toNat + 64 * l) (fun l => key + 64 * l) (fun l => .vsa l e.toNat)
      (fun l => natWord (elemOf (s.readW c b.toNat y.toNat) 32 l)) (upTo 16) s
    exact ⟨_, by rw [exec_bvsa, instr_runs h, cellK_hit hc, finish_ok], (State.advance_mem _ c none true).trans hm,
      (congrArg List.length (State.advance_bankOps _ c none true)).trans hb⟩

/-! ### Multiplies (R340, R351, R356) -/

/-- The latch and the pending numbers of a multiply's tile, in the mirror (R356, R357). -/
def latchTile (pair z : Nat) (sa sb : W32) (x : Crane) (seq : Nat) : Crane :=
  x.setTile z { x.tile z with
    latch := (x.tile z).latch.or (some (sa, sb))
    int32 := if (x.tile z).latch.isNone then decide (pair = 2) else (x.tile z).int32
    pending := (x.tile z).pending ++ [seq] }

/-- A multiply that its grant and its checks let through marks the rows it reads and is queued. -/
theorem mma_runs {i : Instr} {s : State} {c : Ctx} {word pair z a f code cols depth need : Nat}
    (h : Runs s c { hnd := false } [.tile z, .src .g a 0, .src .f (2 * f) 0, .src .f (2 * f + 1) 0])
    (he : exec i s = mma word pair z a f code s) (hz : (s.slip c.b c.i).tiles.testBit z = true)
    (hq : (s.berth c.b).crane.queue.length < 16) :
    let d := (s.readG c a 0).toNat
    let off := d % 2 ^ 19
    let m := d / 2 ^ 20 % 2 ^ 6 + 1
    let stride := 32 * (d / 2 ^ 32 % 2 ^ 8)
    let op := CraneOp.mma z pair off stride m cols depth
    d / 2 ^ 40 = 0 → d / 2 ^ 26 % 2 ^ 6 = 0 → d.testBit 19 = false → shapeOf pair code = some (cols, depth, need) →
    s.mmaFault c pair z code cols depth need off stride m (s.readF c (2 * f) 0) (s.readF c (2 * f + 1) 0) = none →
    exec i s = finish c ((s.touchSpan c op.reads).craneEnqueue c op
      (latchTile pair z (s.readF c (2 * f) 0) (s.readF c (2 * f + 1) 0))) := by
  intro d off m stride op h40 h26 h19 hs hf
  have hgrant : s.grantFault c (some z) = none := by
    rw [← bitOf_eq_testBit] at hz
    exact if_pos hz
  have hoff : bitsOf d 18 0 = off := bitsOf_low d 18
  have hm : bitsOf d 25 20 + 1 = m := congrArg (· + 1) (bitsOf_eq d 25 20)
  have hstride : 32 * bitsOf d 39 32 = stride := congrArg (32 * ·) (bitsOf_eq d 39 32)
  have h40 : bitsOf d 63 40 = 0 := by rw [bitsOf_eq, h40, Nat.zero_mod]
  have h26 : bitsOf d 31 26 = 0 := (bitsOf_eq d 31 26).trans h26
  rw [← bitOf_eq_testBit] at h19
  rw [he, mma, craneOp, instr_runs h]
  simp only [hgrant, show (s.readG c a 0).toNat = d from rfl, h40, h26, h19, hoff, hm, hstride, hs, hf, Nat.not_le.mpr hq, ne_eq,
    not_true_eq_false, decide_false, Bool.or_self, Bool.false_eq_true, if_false]
  rfl

/-- The multiply of pair n, in any form that is the shared meaning. -/
theorem multiplyQueues_of_exec {form : BitVec 5 → BitVec 4 → BitVec 5 → BitVec 3 → Instr} {n : Nat}
    (he : ∀ a f h z s, exec (form a f h z) s = mma (encode (form a f h z)) n z.toNat a.toNat f.toNat h.toNat s) :
    MultiplyQueues form n := by
  intro s c a h f z cols depth need hrun hz hq d off m stride h40 h26 h19 hs hf
  let op := CraneOp.mma z.toNat n off stride m cols depth
  have hmarked := marked_touchSpan s c op.reads
  obtain ⟨cmd, hop, hen⟩ := craneEnqueue_ok (hmarked.crane.symm ▸ hq) op
    (latchTile n z.toNat (s.readF c (2 * f.toNat) 0) (s.readF c (2 * f.toNat + 1) 0))
  refine ⟨_, ((mma_runs hrun (he a f h z s) hz hq h40 h26 h19 hs hf).trans (congrArg (finish c) hen)).trans (finish_ok c _),
    (State.advance_mem _ c none true).trans hmarked.mem, ?_, ?_⟩
  · rw [State.advance_crane, State.crane_modCrane, hmarked.crane]
    rfl
  · rw [State.advance_crane, State.crane_modCrane, hmarked.crane]
    show List.map _ (_ ++ [cmd]) = _
    rw [List.map_append, List.map_singleton, hop]

theorem multipliesComplete_holds : MultipliesComplete :=
  ⟨multiplyQueues_of_exec fun _ _ _ _ _ => rfl, multiplyQueues_of_exec fun _ _ _ _ _ => rfl, multiplyQueues_of_exec fun _ _ _ _ _ => rfl,
    multiplyQueues_of_exec fun _ _ _ _ _ => rfl, multiplyQueues_of_exec fun _ _ _ _ _ => rfl, multiplyQueues_of_exec fun _ _ _ _ _ => rfl,
    multiplyQueues_of_exec fun _ _ _ _ _ => rfl, multiplyQueues_of_exec fun _ _ _ _ _ => rfl, multiplyQueues_of_exec fun _ _ _ _ _ => rfl,
    multiplyQueues_of_exec fun _ _ _ _ _ => rfl, multiplyQueues_of_exec fun _ _ _ _ _ => rfl, multiplyQueues_of_exec fun _ _ _ _ _ => rfl,
    multiplyQueues_of_exec fun _ _ _ _ _ => rfl, multiplyQueues_of_exec fun _ _ _ _ _ => rfl⟩

end Sys2Proof.Claims
end

section
/-! The quasi-random unit, FLUSHAS and DRAIN complete (spec/14 R285 to R287, spec/22 R411 to R413). -/
namespace Sys2Proof.Machine
open Sys2Proof

/-! ### What a registration and a flush leave unchanged -/

@[simp] theorem State.registerEntry_mem (s : State) (pk asid j : Nat) : (s.registerEntry pk asid j).mem = s.mem := by
  unfold State.registerEntry
  simp only
  split <;> rfl

/-- Registrations change packages alone (R461). -/
theorem State.foldl_registerEntry_mem (pk asid : Nat) : ∀ (l : List Nat) (s : State),
    (l.foldl (fun t j => t.registerEntry pk asid j) s).mem = s.mem
  | [], _ => rfl
  | j :: l, s => (foldl_registerEntry_mem pk asid l (s.registerEntry pk asid j)).trans (s.registerEntry_mem pk asid j)

@[simp] theorem State.flushSpace_mem (s : State) (c : Ctx) (asid : Nat) : (s.flushSpace c asid).mem = s.mem :=
  State.foldl_registerEntry_mem (pkgOf c.b) asid _ _

/-- A slip without the marks of a FLUSHAS has nothing to drain (R287). -/
theorem State.draining_none {s : State} {b i : Nat} (h : (s.slip b i).drains = []) : s.draining b i = false := by
  simp [State.draining, h]

theorem State.poisoned_none {s : State} (h : s.poison = []) (key n : Nat) : s.poisoned key n = false := by
  simp [State.poisoned, h]

/-- A test that no address answers has no first answer. -/
theorem firstAt_none {β : Type} {step : Nat} {f : Nat → Option β} (h : ∀ a, f a = none) : ∀ n a : Nat, firstAt step f n a = none
  | 0, _ => rfl
  | n + 1, a => by
    rw [firstAt, h a]
    exact firstAt_none h n (a + step)

end Sys2Proof.Machine

namespace Sys2Proof.Claims
open Sys2Proof Sys2Proof.Machine

/-- An instruction that runs and whose meaning changes no byte of memory. -/
theorem completesKeepingMemory {i : Instr} {s t : State} {c : Ctx} {md : Mode} {uses : List Use} {word : Nat} {body : Ctx → State → Res}
    (h : Runs s c md uses) (he : exec i s = instr word md uses body s) (hb : body c s = .ok t) (hm : t.mem = s.mem) :
    CompletesKeepingMemory i s :=
  ⟨t.advance c none true, by rw [he, instr_runs h, hb, finish_ok], (t.advance_mem c none true).trans hm⟩

/-- A generating instruction that writes a w register. -/
theorem qrGen_completesW {i : Instr} {s : State} {c : Ctx} {word a x b y : Nat} {d : BitVec 5} {v : QrBank → Nat → Nat → Wide}
    (h : Runs s c { hnd := false } [.src .g a x, .src .g b y, .dst .w d.toNat])
    (he : exec i s = qrGen word a x b y (.dst .w d.toNat) (fun c q dim j s => s.writeW c d.toNat (v q dim j)) s) :
    Completes i s c [(.w, d.toNat)] := by
  obtain ⟨t, ht, -, hk⟩ := givesW_value (ev := {}) d.isLt h he rfl
  exact ⟨t, {}, ht, hk⟩

section
variable (d a b : BitVec 5) (x y : BitVec 3) (s : State)

theorem exec_qri : exec (.qri d a x b y) s =
    qrGen (encode (.qri d a x b y)) a.toNat x.toNat b.toNat y.toNat (.dst .g d.toNat)
      (fun c q dim i s => s.writeG c d.toNat ((q.point dim i).setWidth 64)) s := rfl

theorem exec_qrf : exec (.qrf d a x b y) s =
    qrGen (encode (.qrf d a x b y)) a.toNat x.toNat b.toNat y.toNat (.dst .f d.toNat)
      (fun c q dim i s => s.writeF c d.toNat (BitVec.ofNat 32 (q.pointF dim i))) s := rfl

theorem exec_qrvI : exec (.qrvI d a x b y) s =
    qrGen (encode (.qrvI d a x b y)) a.toNat x.toNat b.toNat y.toNat (.dst .w d.toNat) (fun c q dim i s =>
      s.writeW c d.toNat (wideOf 32 ((upTo 16).map (fun l => q.pointF dim ((i + l) % (1 <<< 32)))))) s := rfl

theorem exec_qrvD : exec (.qrvD d a x b y) s =
    qrGen (encode (.qrvD d a x b y)) a.toNat x.toNat b.toNat y.toNat (.dst .w d.toNat) (fun c q dim i s =>
      s.writeW c d.toNat (wideOf 32 ((upTo 16).map (fun l => q.pointF ((dim + l) % 64) i)))) s := rfl

theorem exec_qrseed : exec (.qrseed a x b y) s =
    instr (encode (.qrseed a x b y)) { hnd := false } [.src .g a.toNat x.toNat, .src .g b.toNat y.toNat] (fun c s =>
      .ok (s.modSlip c.b c.i (fun p => { p with qr := { p.qr with
        s := SMap.put p.qr.s (qrDim (s.readG c b.toNat y.toNat)) (BitVec.ofNat 32 (s.readG c a.toNat x.toNat).toNat) } }))) s := rfl

theorem exec_flushas : exec (.flushas a x) s =
    instr (encode (.flushas a x)) { priv := true, hnd := false } [.src .g a.toNat x.toNat] (fun c s =>
      if (s.readG c a.toNat x.toNat).toNat >>> 16 ≠ 0 then .trap s 2 (natWord (encode (.flushas a x)))
      else .ok (s.flushSpace c (s.readG c a.toNat x.toNat).toNat)) s := rfl

theorem exec_drain : exec .drain s = instr (encode .drain) { priv := true, hnd := false } [] (fun c s =>
    if s.draining c.b c.i then .stay s
    else .ok (s.modSlip c.b c.i (fun p => { p with flushed := [], drains := [] }))) s := rfl

end

/-- QRLD reads its table where its checks pass and no word of it is poisoned. -/
theorem qrld_completes {s : State} {c : Ctx} {a b : BitVec 5} {x y : BitVec 3}
    (h : Runs s c { hnd := false } [.src .g a.toNat x.toNat, .src .g b.toNat y.toNat])
    (hf : s.qrldFault c (encode (.qrld a x b y)) (s.readG c a.toNat x.toNat) (s.readG c b.toNat y.toNat) = none) (hp : s.poison = []) :
    CompletesKeepingMemory (.qrld a x b y) s := by
  have hread (key n : Nat) : firstAt 8 (fun o => if s.poisoned (key + o) 8 then some o else none) n 0 = none :=
    firstAt_none (fun o => by rw [State.poisoned_none hp]; rfl) n 0
  have hf' : s.qrldFault c (Enc.qrld a x b y) (s.readG c a.toNat x.toNat) (s.readG c b.toNat y.toNat) = none := hf
  show ∃ t, execQrld a x b y s = .next t ∧ t.mem = s.mem
  rw [execQrld, instr_runs h]
  simp only [hf', hread]
  exact ⟨_, finish_ok c _, (State.advance_mem _ c none true).trans (marked_touchAll s c _ _).mem⟩

/-- FLUSHAS of an address space that a register names (R286). -/
theorem flushas_completes {s : State} {c : Ctx} {a : BitVec 5} {x : BitVec 3}
    (h : Runs s c { priv := true, hnd := false } [.src .g a.toNat x.toNat]) (ha : (s.readG c a.toNat x.toNat).toNat < 2 ^ 16) :
    CompletesKeepingMemory (.flushas a x) s := by
  have hspace : (s.readG c a.toNat x.toNat).toNat >>> 16 = 0 := by rw [Nat.shiftRight_eq_div_pow, Nat.div_eq_of_lt ha]
  exact completesKeepingMemory h (exec_flushas a x s) (if_neg (Classical.not_not.mpr hspace)) (s.flushSpace_mem c _)

/-- DRAIN of a slip that nothing under way keeps waiting (R287). -/
theorem drain_completes {s : State} {c : Ctx} (h : Runs s c { priv := true, hnd := false } []) (hd : (s.slip c.b c.i).drains = []) :
    CompletesKeepingMemory .drain s :=
  completesKeepingMemory h (exec_drain s) (if_neg (by rw [State.draining_none hd]; exact Bool.false_ne_true)) rfl

theorem unitsComplete_holds : UnitsComplete := by
  intro s c d a b x y ga gb two
  refine ⟨fun h => ?_, fun h => ?_, fun h => ⟨?_, ?_⟩, fun h => ⟨?_, fun hf hp => qrld_completes h hf hp⟩,
    fun h ha => flushas_completes h ha, fun h hd => drain_completes h hd⟩
  · exact (givesG (ev := {}) d.isLt h (exec_qri d a b x y s) rfl).completes
  · exact (givesF (ev := {}) d.isLt h (hnd_false_of_names_f h (by simp [Use.outsideBank, RSet.outsideBank])) (exec_qrf d a b x y s) rfl).completes
  · exact qrGen_completesW h (exec_qrvI d a b x y s)
  · exact qrGen_completesW h (exec_qrvD d a b x y s)
  · exact completesKeepingMemory h (exec_qrseed a b x y s) rfl rfl

end Sys2Proof.Claims
end

section
/-! Turns of copies, pages and cranes (spec/14 R289 to R294, spec/17 R326, R327, R331, spec/18 R353 to R364). -/
namespace Sys2Proof
open Sys2Proof.Machine

/-! ### Lists at an index -/

theorem getElem?_setAt {α : Type} : ∀ {l : List α} {n : Nat} {x : α} (a : α), l[n]? = some x → (setAt l n a)[n]? = some a
  | [], _, _, _, h => by simp at h
  | _ :: _, 0, _, _, _ => rfl
  | _ :: l, n + 1, x, a, h => by
    rw [List.getElem?_cons_succ] at h
    rw [setAt, List.getElem?_cons_succ, getElem?_setAt a h]

theorem dropAt_eq {α : Type} : ∀ (l : List α) (n : Nat), dropAt l n = l.take n ++ l.drop (n + 1)
  | [], n => by simp [dropAt]
  | _ :: _, 0 => rfl
  | x :: l, n + 1 => by rw [dropAt, dropAt_eq l n]; rfl

/-- The first element of an indexed list that meets a test stands at the first index that does. -/
theorem firstSome_indexed {α : Type} (p : α → Bool) : ∀ (l : List α) (i n : Nat) (a : α), l.findIdx? p = some n → l[n]? = some a →
    firstSome (fun e : Nat × α => if p e.2 then some e else none) ((List.range' i l.length).zip l) = some (i + n, a)
  | [], _, _, _, h, _ => by simp at h
  | x :: l, i, n, a, h, ha => by
    rw [List.length_cons, List.range'_succ, List.zip_cons_cons, firstSome]
    cases hx : p x with
    | true =>
      obtain rfl : 0 = n := by simpa [List.findIdx?_cons, hx] using h
      obtain rfl : x = a := by simpa using ha
      rfl
    | false =>
      rw [List.findIdx?_cons, hx] at h
      obtain ⟨m, hm, rfl⟩ := Option.map_eq_some_iff.mp h
      rw [List.getElem?_cons_succ] at ha
      rw [show i + (m + 1) = i + 1 + m by omega, ← firstSome_indexed p l (i + 1) m a hm ha]
      simp

end Sys2Proof

namespace Sys2Proof.Machine
open Sys2Proof

/-! ### Copies -/

@[simp] theorem State.retireCopy_copies (s : State) (n : Nat) (k : Copy) : (s.retireCopy n k).copies = dropAt s.copies n := by
  unfold State.retireCopy
  simp only
  split <;> rfl

/-- A copy without a sync word counts nowhere (R329). -/
theorem State.contribution_unsynced (s : State) {k : Copy} (h : k.sync = 0xFFFF) : s.contribution k = some none := by
  simp [State.contribution, h]

theorem State.syncOutside_unsynced (s : State) {k : Copy} (h : k.sync = 0xFFFF) : s.syncOutside k = false := by
  simp [State.syncOutside, h]

/-- The oldest queued request of a berth becomes active (R326, R327). -/
theorem execCopyStart_first {s : State} {b n : Nat} {k : Copy} (hn : s.copies.findIdx? (fun k => k.berth == b && k.stage == .queued) = some n)
    (hk : s.copies[n]? = some k) (hr : k.reason = 0) : execCopyStart b s = .next (s.setCopy n { k with stage := .active }) := by
  have hfirst := firstSome_indexed _ s.copies 0 n k hn hk
  rw [← List.range_eq_range', Nat.zero_add] at hfirst
  unfold execCopyStart
  split
  next h0 => cases hfirst.symm.trans h0
  next j k' h1 =>
    cases hfirst.symm.trans h1
    simp [hr]

/-- A copy that has landed all it lands, and counts nowhere, retires (R331). -/
theorem execCopyComplete_unsynced {s : State} {n : Nat} {k : Copy} (hk : s.copies[n]? = some k) (hst : k.stage = .active) (hb : k.buf = none)
    (hr : k.reason = 0) (hp : k.total ≤ k.pos) (hs : k.sync = 0xFFFF) : execCopyComplete n s = .next (s.retireCopy n k) := by
  simp [execCopyComplete, hk, hst, hb, hr, hp, s.contribution_unsynced hs, s.syncOutside_unsynced hs]

/-! ### Pages -/

theorem State.foldl_modSlip_notices (f : Slip → Slip) : ∀ (l : List (Nat × Nat)) (s : State),
    (l.foldl (fun t w => t.modSlip w.1 w.2 f) s).notices = s.notices
  | [], _ => rfl
  | w :: l, s => foldl_modSlip_notices f l (s.modSlip w.1 w.2 f)

@[simp] theorem State.failService_notices (s : State) (x : Notice) : (s.failService x).notices = s.notices :=
  State.foldl_modSlip_notices _ x.waiters s

/-- The next line of a page in migration lands where no early access to it is under way (R292). -/
theorem execMigration_line {s : State} {pk page dest : Nat} {m : Migration}
    (hm : (s.pkg pk).migrations.find? (fun m => m.page == page) = some m) (hops : ∀ o ∈ s.bankOps, o.early = false)
    (hbrd : ∀ e ∈ s.berths, ∀ q ∈ e.2.slips, q.2.brd = none) (hc : m.copied < 1024) :
    execMigration pk page dest s = .next ((s.migrateLine pk m).modPkg pk (fun p => { p with migrations := p.migrations.map (fun x =>
      if x.page = page then { x with copied := x.copied + 1 } else x) })) := by
  have hnoOps : s.bankOps.any (fun o => o.early && onPage pk m.old o.key) = false :=
    List.any_eq_false.mpr fun o ho => by simp [hops o ho]
  have hnoBrd : s.berths.any (fun e => e.2.slips.any (fun q => q.2.brd.any (fun w => w.early && onPage pk m.old w.key))) = false :=
    List.any_eq_false.mpr fun e he => by
      rw [Bool.not_eq_true]
      exact List.any_eq_false.mpr fun q hq => by simp [hbrd e he q hq]
  simp only [execMigration, hm, hnoOps, hnoBrd, Bool.or_self, Bool.false_eq_true, if_false, if_pos hc]

/-- The migration of a page after a change of the migrations of that page. -/
theorem find?_map_page {l : List Migration} {page : Nat} {m : Migration} (h : l.find? (fun m => m.page == page) = some m)
    (f : Migration → Migration) (hf : ∀ x, (f x).page = x.page) :
    (l.map (fun x => if x.page = page then f x else x)).find? (fun m => m.page == page) = some (f m) := by
  have hpage : m.page = page := by simpa using List.find?_some h
  have hcomp : ((fun m : Migration => m.page == page) ∘ fun x => if x.page = page then f x else x) = fun m => m.page == page := by
    funext x
    simp only [Function.comp_apply]
    split <;> simp [hf]
  rw [List.find?_map, hcomp, h, Option.map_some, if_pos hpage]

/-! ### The crane (R353 to R358, R363, R364) -/

@[simp] theorem Berth.logError_crane (x : Berth) (array addr : Nat) : (x.logError array addr).crane = x.crane := by
  unfold Berth.logError
  split <;> rfl

/-- A command's effect is none on what the crane executes. -/
@[simp] theorem State.craneEffect_running (s : State) (b : Nat) (k : Crane) (o : CraneOp) : (s.craneEffect b k o).1.running = k.running := by
  cases o with
  | swap => rfl
  | clear z => rfl
  | load toActive g off stride masks =>
    simp only [State.craneEffect, Crane.setPlane]
    split <;> rfl
  | mma z pair off stride m n kk =>
    simp only [State.craneEffect]
    split <;> rfl

/-- The crane after a change of it, beside a change of the count of free values. -/
theorem State.crane_modCrane_fresh (s : State) (b n : Nat) (f : Crane → Crane) :
    (({ s.modCrane b f with fresh := n } : State).berth b).crane = f (s.berth b).crane := s.crane_modCrane b f

/-- Where a command has been executed, failed or not, the crane executes none. -/
theorem State.craneExecute_running (s : State) (b : Nat) (cmd : CraneCmd) : ((s.craneExecute b cmd).berth b).crane.running = none := by
  unfold State.craneExecute
  simp only
  split
  · rw [State.berth_modBerth_self, Berth.logError_crane, State.crane_modCrane_fresh]
    split <;> rfl
  · split
    · rw [State.berth_modBerth_self, Berth.logError_crane, State.crane_modCrane_fresh]
      split <;> rfl
    · rw [State.crane_modCrane]
      exact s.craneEffect_running b _ cmd.op

theorem div_of_mem_quayBerths {b x : Nat} (h : x ∈ quayBerths b) : x / 8 = b / 8 := by
  obtain ⟨j, hj, rfl⟩ := List.mem_map.mp h
  have := List.mem_range.mp hj
  omega

/-- With no command running in the quay, the round robin's berth hands its next one over. -/
theorem execCraneDispatch_picked {s : State} {b : Nat} {cmd : CraneCmd} {rest : List CraneCmd} {starts : Bool}
    (hq : (s.berth b).crane.queue = cmd :: rest) (hidle : ∀ x, x / 8 = b / 8 → (s.berth x).crane.running = none)
    (hpick : s.cranePick b = some (b, starts)) :
    ∃ t, execCraneDispatch b s = .next t ∧ (t.berth b).crane.running = some cmd := by
  have hnone : (quayBerths b).any (fun x => (s.berth x).crane.running.isSome) = false :=
    List.any_eq_false.mpr fun x hx => by simp [hidle x (div_of_mem_quayBerths hx)]
  unfold execCraneDispatch
  simp only [hnone, hpick, hq, Bool.false_eq_true, if_false, ne_eq, not_true_eq_false]
  exact ⟨_, rfl, congrArg Crane.running (s.crane_modCrane b (fun _ => { (s.berth b).crane with queue := rest, running := some cmd }))⟩

end Sys2Proof.Machine
end

section
/-! Writes of registers, and every form of the families complete (spec/07 R190, R191, spec/20 R396, spec/23 R420, R440, spec/24 R447 to R449,
spec/25 R458). -/
namespace Sys2Proof
open Sys2Proof.Machine

/-! ### Bits cleared by a subtraction or a remainder -/

/-- Taking 2^k from a number whose bit k is one clears that bit. -/
theorem testBit_sub_two_pow {n k : Nat} (h : n.testBit k = true) (i : Nat) : (n - 2 ^ k).testBit i = (n.testBit i && decide (i ≠ k)) := by
  obtain ⟨q, r, hr, rfl⟩ : ∃ q r, r < 2 ^ k ∧ n = 2 ^ k * (2 * q + 1) + r := by
    refine ⟨n / 2 ^ k / 2, n % 2 ^ k, Nat.mod_lt _ (Nat.two_pow_pos k), ?_⟩
    have hodd : n / 2 ^ k % 2 = 1 := by simpa [Nat.testBit_eq_decide_div_mod_eq] using h
    rw [show 2 * (n / 2 ^ k / 2) + 1 = n / 2 ^ k by omega, Nat.div_add_mod]
  have hsub : 2 ^ k * (2 * q + 1) + r - 2 ^ k = 2 ^ k * (2 * q) + r := by
    rw [Nat.mul_succ]
    omega
  rw [hsub, Nat.testBit_two_pow_mul_add _ hr, Nat.testBit_two_pow_mul_add _ hr]
  split
  next hlt => simp [Nat.ne_of_lt hlt]
  next hge =>
    obtain ⟨j, rfl⟩ := Nat.exists_eq_add_of_le (Nat.not_lt.mp hge)
    rw [Nat.add_sub_cancel_left]
    cases j with
    | zero => simp
    | succ j =>
      have hhalf : (2 * q + 1) / 2 = 2 * q / 2 := by omega
      simp [Nat.testBit_succ, hhalf]

/-- A one in bit k of v clears bit k of n, by subtraction. -/
theorem testBit_clear_by_sub (v n k i : Nat) : (if bitOf v k && bitOf n k then n - 1 <<< k else n).testBit i =
    (n.testBit i && !(v.testBit k && decide (i = k))) := by
  rw [bitOf_eq_testBit, bitOf_eq_testBit, Nat.one_shiftLeft]
  by_cases hi : i = k
  · subst hi
    cases hv : v.testBit i <;> cases hn : n.testBit i <;> simp [hn, testBit_sub_two_pow]
  · cases hv : v.testBit k <;> cases hn : n.testBit k <;> simp [hi, hn, testBit_sub_two_pow]

/-- A one in bit k of v clears the highest bit k of n, by a remainder. -/
theorem testBit_clear_by_mod (v n : Nat) {k i : Nat} (hi : i ≤ k) : (if bitOf v k then n % (1 <<< k) else n).testBit i =
    (n.testBit i && !(v.testBit k && decide (i = k))) := by
  rw [bitOf_eq_testBit, Nat.one_shiftLeft]
  by_cases hk : i = k
  · subst hk
    cases v.testBit i <;> simp [Nat.testBit_mod_two_pow]
  · have hlt : i < k := by omega
    cases v.testBit k <;> simp [Nat.testBit_mod_two_pow, hk, hlt]

/-- Bits 63 and 62. -/
theorem getLsbD_top_two : ∀ i, i < 64 → (0xC000000000000000 : Word).getLsbD i = (decide (i = 63) || decide (i = 62)) := by decide

end Sys2Proof

namespace Sys2Proof.Machine
open Sys2Proof

/-! ### Writes of one that clear (R191, R396, R440) -/

/-- KVERR after a write: ones clear VALID and OVF (R396). -/
theorem State.kverr_kverrWrite (s : State) (pk k v : Nat) : SMap.get 0 ((s.kverrWrite pk k v).pkg pk).kverr k =
    SMap.get 0 (s.pkg pk).kverr k &&& ~~~ (BitVec.ofNat 64 v &&& 0xC000000000000000) := by
  simp only [State.kverrWrite, State.pkg_modPkg_self, SMap.get_put_self]
  refine BitVec.eq_of_getLsbD_eq fun i hi => ?_
  rw [natWord, BitVec.getLsbD_ofNat, testBit_clear_by_sub, testBit_clear_by_mod v _ (show i ≤ 63 by omega), BitVec.getLsbD_and,
    BitVec.getLsbD_not, BitVec.getLsbD_and, BitVec.getLsbD_ofNat, getLsbD_top_two i hi, BitVec.testBit_toNat]
  by_cases h63 : i = 63
  · subst h63
    simp
  · by_cases h62 : i = 62
    · subst h62
      simp
    · simp [hi, h63, h62]

/-- VALID of SERRLOG after a write (R440). -/
theorem State.serrlog_writeSerrlog (s : State) (b v : Nat) :
    ((s.writeSerrlog b v).berth b).serrlog.getLsbD 63 = ((s.berth b).serrlog.getLsbD 63 && !v.testBit 63) := by
  have hmask : Nat.testBit 0xC000000000000000 63 = true := by decide
  rw [State.writeSerrlog, State.berth_modBerth_self, BitVec.getLsbD_and, BitVec.getLsbD_not, natWord, BitVec.getLsbD_ofNat, Nat.testBit_and,
    hmask]
  simp

theorem State.ipMsg_writeIpend (s : State) (b v : Nat) : ((s.writeIpend b v).berth b).ipMsg = ((s.berth b).ipMsg && !v.testBit 1) := by
  rw [State.writeIpend, State.berth_modBerth_self, bitOf_eq_testBit]

theorem State.tcmp_writeTcmp (s : State) (b : Nat) (v : Word) : ((s.writeTcmp b v).berth b).tcmp = v := by
  rw [State.writeTcmp, State.berth_modBerth_self]

theorem State.ctl_writeQrctl (s : State) (c : Ctx) (v : Word) : ((s.writeQrctl c v).slip c.b c.i).qr.ctl = v &&& 0xFFFF0001 := by
  rw [State.writeQrctl, State.slip_modSlip_self]

/-- A nonzero CAUSE in FDSTOP stops a domain (R420). -/
theorem State.stops_writeFdstop (s : State) (c : Ctx) {v : Nat} (h : v % 64 ≠ 0) :
    (s.writeFdstop c v).stops.length = s.stops.length + 1 := by
  have hcause : bitsOf v 5 0 ≠ 0 := by
    rw [bitsOf_low]
    exact h
  rw [State.writeFdstop, if_neg hcause, State.report, State.stopFor]
  exact List.length_append

theorem State.runningCtx_some {s : State} {b i : Nat} (h : (s.berth b).running = some i) :
    s.runningCtx b = some { b := b, i := i, hnd := false } := by rw [State.runningCtx, h, Option.map_some]

/-! ### Package registers (R447 to R449, R458) -/

theorem State.replays_plstatWrite (s : State) (pk k : Nat) {v : Nat} (h : v.testBit 0 = true) :
    (SMap.get {} ((s.plstatWrite pk k v).pkg pk).ports k : Port).replays = 0 := by
  rw [← bitOf_eq_testBit] at h
  rw [State.plstatWrite, if_pos h, State.pkg_modPkg_self, Pkg.setPort, SMap.get_put_self]

theorem State.tko_cbstatWrite (s : State) (pk : Nat) {v : Nat} (h : v.testBit 0 = true) : ((s.cbstatWrite pk v).pkg pk).tko = false := by
  rw [← bitOf_eq_testBit] at h
  rw [State.cbstatWrite, if_pos h, State.pkg_modPkg_self]

theorem State.dbpend_dbpendWrite (s : State) (pk k : Nat) {v : Nat} (hv : v < 2 ^ 64) : ((s.dbpendWrite pk k v).pkg pk).dbpend =
    (s.pkg pk).dbpend ^^^ ((s.pkg pk).dbpend &&& v * 2 ^ (64 * k)) := by
  rw [State.dbpendWrite, State.pkg_modPkg_self, Nat.one_shiftLeft, Nat.mod_eq_of_lt hv, Nat.shiftLeft_eq]

/-- An event posted in turn, with room in the ring, counts in JPOSTED (R449). -/
theorem State.evpush_inTurn {s : State} {pk : Nat} (hh : (s.pkg pk).jposted < (s.pkg pk).jheld) (hr : (s.pkg pk).ringFull = false) :
    ∃ t, s.evpush pk (s.pkg pk).jposted = some t ∧ (t.pkg pk).jposted = (s.pkg pk).jposted + 1 := by
  have hwait : ((s.pkg pk).jposted ≠ (s.pkg pk).jposted || (s.pkg pk).jposted ≥ (s.pkg pk).jheld) = false := by simpa using hh
  unfold State.evpush
  simp only [hwait, hr, Bool.false_eq_true, if_false]
  refine ⟨_, rfl, ?_⟩
  rw [State.pkg_modPkg_self, State.writeEvent, State.pkg_modPkg_self]
  rfl

end Sys2Proof.Machine

namespace Sys2Proof.Claims
open Sys2Proof Sys2Proof.Machine

/-- With room the ring is not full (R240, R241). -/
theorem Roomy.ringFull {p : Pkg} (h : Roomy p) : p.ringFull = false := by
  obtain ⟨hen, hroom⟩ := h
  have hne : diff17 p.evtail p.evhead ≠ 1 <<< p.esize := by
    rw [Nat.one_shiftLeft]
    exact hroom
  simp [Pkg.ringFull, hen, hne]

/-- A write of a control register by the event is the write that CWR would make (log 70). -/
theorem execRegisterWrite_csr {s t : State} {c : Ctx} {reg n v : Nat} (pk : Nat) (hreg : reg = n + 0x10000) (hc : s.ctx = some c)
    (hw : s.csrWrite c n (BitVec.ofNat 64 v) = .inl t) (hq : s.pcqWait c n = none) : execRegisterWrite pk reg v s = .next t := by
  have hlt : ¬ reg < 0x10000 := Nat.not_lt.mpr (hreg ▸ Nat.le_add_left _ _)
  have hn : reg - 0x10000 = n := hreg ▸ Nat.add_sub_cancel n _
  unfold execRegisterWrite
  rw [if_neg hlt, hc, hn]
  simp only [natWord, hw, hq]

/-! ### Every turn and write completes -/

theorem turnsComplete_holds : TurnsComplete := by
  refine ⟨fun s b n v => ⟨fun k hn hk hr => ?start, fun k hk hst hb hr hp hs _ => ?complete, fun x hx => ?service,
    fun x entry hx hst => ?served, fun cmd hr => ?command, fun cmd rest starts hq hidle hpick => execCraneDispatch_picked hq hidle hpick,
    ⟨_, rfl, s.tcmp_writeTcmp b _⟩, ⟨_, rfl, s.ipMsg_writeIpend b v⟩, ⟨_, rfl, s.serrlog_writeSerrlog b v⟩, fun i hi => ⟨?qrctl, fun hv => ?fdstop⟩⟩,
    fun s pk k v => ⟨⟨_, rfl, s.kverr_kverrWrite pk k v⟩, fun hv => ⟨_, rfl, s.replays_plstatWrite pk k hv⟩,
      fun hv => ⟨_, rfl, s.tko_cbstatWrite pk hv⟩, fun hk hv => ?dbpend, fun hh hr => ?evpush, fun page dest m hm hops hbrd hc => ?migration,
      fun n c t hc hw hq => execRegisterWrite_csr pk (Nat.add_comm _ _) hc hw hq⟩⟩
  case start => exact ⟨_, execCopyStart_first hn hk hr, getElem?_setAt _ hk⟩
  case complete => exact ⟨_, execCopyComplete_unsynced hk hst hb hr hp hs, (s.retireCopy_copies n k).trans (dropAt_eq _ n)⟩
  case service =>
    show ∃ t, execPageService n s = .next t ∧ _
    simp only [execPageService, hx]
    exact ⟨_, rfl, getElem?_setAt _ hx⟩
  case served =>
    show ∃ t, execPageServiceComplete n entry 0 s = .next t ∧ _
    simp only [execPageServiceComplete, hx, hst, Bool.not_true, Bool.false_eq_true, if_false, if_true]
    exact ⟨_, rfl, (State.failService_notices _ x).trans (dropAt_eq _ n)⟩
  case command =>
    show ∃ t, execCraneCommand b s = .next t ∧ _
    simp only [execCraneCommand, hr]
    exact ⟨_, rfl, s.craneExecute_running b cmd⟩
  case qrctl =>
    show ∃ t, execQrctlWrite v s = .next t ∧ _
    simp only [execQrctlWrite, State.runningCtx_some hi]
    exact ⟨_, rfl, s.ctl_writeQrctl _ _⟩
  case fdstop =>
    show ∃ t, execFdstopWrite v s = .next t ∧ _
    simp only [execFdstopWrite, State.runningCtx_some hi]
    exact ⟨_, rfl, s.stops_writeFdstop _ hv⟩
  case dbpend =>
    show ∃ t, execDbpendWrite pk k v s = .next t ∧ _
    rw [execDbpendWrite, Nat.mod_eq_of_lt hk]
    exact ⟨_, rfl, s.dbpend_dbpendWrite pk k hv⟩
  case evpush =>
    obtain ⟨t, ht, hposted⟩ := State.evpush_inTurn hh (Roomy.ringFull hr)
    show ∃ t, execEvpush pk (s.pkg pk).jposted s = .next t ∧ _
    rw [execEvpush, ht, Option.getD_some]
    exact ⟨t, rfl, hposted⟩
  case migration =>
    refine ⟨_, execMigration_line hm hops hbrd hc, ?_⟩
    rw [State.pkg_modPkg_self]
    exact find?_map_page hm (fun x => { x with copied := x.copied + 1 }) (fun _ => rfl)

end Sys2Proof.Claims

namespace Sys2Proof.Proofs
open Sys2Proof.Claims

/-- Settles O50: the forms of each family complete, family by family; the numbering of REGISTER_WRITE is that of log 70, and its write is
not checked for ones in reserved fields (log 80). -/
theorem formsCompleteByName : Obligations.FormsCompleteByName :=
  ⟨conversionsComplete_holds, masksComplete_holds, bankSendsComplete_holds, multipliesComplete_holds, unitsComplete_holds, turnsComplete_holds⟩

end Sys2Proof.Proofs
end

section
/-! The eight versions of a register, and what a loop does to them: its entry spreads the current value over all, each iteration moves on to
the next version (spec/01 R19, R20, spec/06 R155, R158, R160). -/
namespace Sys2Proof.Machine
open Sys2Proof

/-- What the registers of a set hold (R13, R14). -/
def RSet.Val : RSet → Type
  | .g => Word
  | .f => W32
  | .w => Wide
  | .q => Bool
  | .m => Word

/-- How many registers a set has (R13). -/
def RSet.size : RSet → Nat
  | .g => 32
  | .f => 32
  | .w => 32
  | .q => 8
  | .m => 8

theorem RSet.size_le : ∀ k : RSet, k.size ≤ 32
  | .g | .f | .w => Nat.le_refl 32
  | .q | .m => by decide

/-! ### Versions as a ring of eight -/

/-- The eight versions of a register, and which of them is current (R19). -/
@[ext] structure Versions (α : Type) where
  cur : Fin 8
  held : Fin 8 → α

namespace Versions
variable {α : Type} (x : Versions α)

/-- The value at distance d (R19). -/
def read (d : Nat) : α := x.held (x.cur - Fin.ofNat 8 d)

/-- The next version, which starts as a copy of the current one (R20, R160). -/
def next : Versions α := { cur := x.cur + 1, held := fun v => if v = x.cur + 1 then x.held x.cur else x.held v }

/-- The current value in all versions (R155). -/
def spread : Versions α := { x with held := fun _ => x.held x.cur }

/-- The version at a distance, as a number (R19). -/
theorem sub_ofNat_val (c : Fin 8) (d : Nat) : (c - Fin.ofNat 8 d).val = (c.val + 8 - d % 8) % 8 := by
  rw [Fin.sub_def, Fin.val_ofNat]
  show (8 - d % 8 + c.val) % 8 = _
  omega

/-- One back from the next version is the current one, and it is another. -/
theorem succ_facts : ∀ c : Fin 8, c + 1 - Fin.ofNat 8 1 = c ∧ c ≠ c + 1 := by decide

theorem read_zero : x.read 0 = x.held x.cur := congrArg x.held (Fin.ext (by rw [sub_ofNat_val]; omega))

theorem read_next_zero : x.next.read 0 = x.read 0 := by
  rw [read_zero, read_zero]
  exact if_pos rfl

theorem read_next_one : x.next.read 1 = x.read 0 := by
  obtain ⟨hback, hne⟩ := succ_facts x.cur
  rw [read_zero]
  exact (congrArg x.next.held hback).trans (if_neg hne)

theorem read_spread (d : Nat) : x.spread.read d = x.read 0 := x.read_zero.symm

/-- Right after an entry every distance reads alike (R155). -/
theorem read_next_spread (d : Nat) : x.spread.next.read d = x.read 0 := by
  rw [read_zero]
  exact ite_self _

end Versions

/-! ### The versions that a slip holds -/

/-- Version v of a register. -/
def Slip.held (p : Slip) : (k : RSet) → Nat → Nat → k.Val
  | .g, r, v => SMap.get (0 : Word) p.g (8 * r + v)
  | .f, r, v => SMap.get (0 : W32) p.f (8 * r + v)
  | .w, r, v => SMap.get (0 : Wide) p.w (8 * r + v)
  | .q, r, v => SMap.get false p.q (8 * r + v)
  | .m, r, v => SMap.get (0 : Word) p.m (8 * r + v)

/-- What a read at distance d finds in a register, before constants (R19, R158). -/
def Slip.heldAt (p : Slip) (k : RSet) (r d : Nat) : k.Val := p.held k r (p.version k r d)

/-- The versions of a register. -/
def Slip.versions (p : Slip) (k : RSet) (r : Nat) : Versions k.Val :=
  { cur := Fin.ofNat 8 (SMap.get 0 p.cur (k.num * 32 + r)), held := fun v => p.held k r v }

theorem Slip.versions_cur (p : Slip) (k : RSet) (r : Nat) : ((p.versions k r).cur : Nat) = p.curOf k r := rfl

theorem Slip.heldAt_zero (p : Slip) (k : RSet) (r : Nat) : p.heldAt k r 0 = (p.versions k r).read 0 := by
  rw [Slip.heldAt, Slip.version_zero, Versions.read_zero]
  rfl

/-- A register that an active loop versions reads at a distance from its ring (R158). -/
theorem Slip.heldAt_of_versioned {p : Slip} {k : RSet} {r : Nat} (h : (p.versionedBy k r).isSome = true) (d : Nat) :
    p.heldAt k r d = (p.versions k r).read d := by
  have hv : p.version k r d = ((p.versions k r).cur - Fin.ofNat 8 d : Fin 8) := by
    rw [Versions.sub_ofNat_val, p.versions_cur, Slip.version, Option.isNone_eq_false_iff.mpr h]
    simp only [Bool.false_and, Bool.false_eq_true, if_false]
  rw [Slip.heldAt, hv]
  rfl

/-- The innermost loop versions the registers of its masks. -/
theorem Slip.versionedBy_innermost {p : Slip} {l : Level} {rest : List Level} {k : RSet} {r : Nat} (hl : p.levels = l :: rest)
    (h : l.masks.has k r = true) : (p.versionedBy k r).isSome = true := by
  simp [Slip.versionedBy, Slip.allLevels, hl, h]

section
variable {p t : Slip} {r d e : Nat}

theorem Slip.getG_of_heldAt (h : t.heldAt .g r d = p.heldAt .g r e) : t.getG r d = p.getG r e :=
  congrArg (fun v : Word => if r = 0 then 0 else v) h
theorem Slip.getF_of_heldAt (h : t.heldAt .f r d = p.heldAt .f r e) : t.getF r d = p.getF r e := h
theorem Slip.getW_of_heldAt (h : t.heldAt .w r d = p.heldAt .w r e) : t.getW r d = p.getW r e := h
theorem Slip.getQ_of_heldAt (h : t.heldAt .q r d = p.heldAt .q r e) : t.getQ r d = p.getQ r e :=
  congrArg (fun v : Bool => if r = 0 then true else v) h
theorem Slip.getM_of_heldAt (h : t.heldAt .m r d = p.heldAt .m r e) : t.getM r d = p.getM r e :=
  congrArg (fun v : Word => if r = 0 then BitVec.allOnes 64 else v) h

end

/-! ### One register moves on, or spreads its value -/

/-- Another set keeps its versions when one version of a register is copied. -/
theorem Slip.held_copyVersion_of_ne (p : Slip) {k j : RSet} (h : j ≠ k) (r a b n v : Nat) :
    (p.copyVersion k r a b).held j n v = p.held j n v := by
  cases k <;> cases j <;> simp [Slip.copyVersion, Slip.held] at h ⊢

/-- A version that was copied to another, in the map of its set. -/
theorem get_put_version {α : Type} (d : α) (m : SMap α) (r a n : Nat) {b v : Nat} (hb : b < 8) (hv : v < 8) :
    SMap.get d (SMap.put m (8 * r + b) (SMap.get d m (8 * r + a))) (8 * n + v) =
      if n = r ∧ v = b then SMap.get d m (8 * n + a) else SMap.get d m (8 * n + v) := by
  rw [SMap.get_put]
  by_cases h : n = r ∧ v = b
  · obtain ⟨rfl, rfl⟩ := h
    simp
  · rw [if_neg (by omega), if_neg h]

/-- A copy of a version replaces its target alone. -/
theorem Slip.held_copyVersion (p : Slip) (k j : RSet) (r a n : Nat) {b v : Nat} (hb : b < 8) (hv : v < 8) :
    (p.copyVersion k r a b).held j n v = if j = k ∧ n = r ∧ v = b then p.held j n a else p.held j n v := by
  by_cases hj : j = k
  · subst hj
    simp only [true_and]
    cases j <;> exact get_put_version _ _ r a n hb hv
  · rw [p.held_copyVersion_of_ne hj, if_neg (fun h => hj h.1)]

/-- Copies of one version to others. -/
theorem Slip.held_foldl_copyVersion (k j : RSet) (r n : Nat) {a v : Nat} (ha : a < 8) (hv : v < 8) :
    ∀ (l : List Nat) (p : Slip), (∀ b ∈ l, b < 8) →
      (l.foldl (fun q b => q.copyVersion k r a b) p).held j n v = if j = k ∧ n = r ∧ v ∈ l then p.held j n a else p.held j n v
  | [], p, _ => by simp
  | b :: l, p, hl => by
    have hb : b < 8 := hl b List.mem_cons_self
    rw [List.foldl_cons, Slip.held_foldl_copyVersion k j r n ha hv l _ (fun x hx => hl x (List.mem_cons_of_mem b hx)),
      p.held_copyVersion k j r a n hb ha, p.held_copyVersion k j r a n hb hv, ite_self]
    by_cases hx : j = k ∧ n = r
    · simp only [hx, true_and, List.mem_cons]
      by_cases hvb : v = b <;> simp [hvb]
    · simp only [← and_assoc, hx, false_and, if_false]

theorem Slip.versions_nextVersion (p : Slip) (k j : RSet) {r n : Nat} (hr : r < 32) (hn : n < 32) :
    (p.nextVersion k r).versions j n = if j = k ∧ n = r then (p.versions j n).next else p.versions j n := by
  have hcur := p.curOf_nextVersion k j hr hn
  have hheld : ∀ v : Fin 8, (p.nextVersion k r).held j n v =
      if j = k ∧ n = r ∧ v.val = (p.curOf k r + 1) % 8 then p.held j n (p.curOf k r) else p.held j n v := fun v => by
    rw [← p.held_copyVersion k j r _ n (Nat.mod_lt _ (by decide)) v.isLt]
    cases j <;> rfl
  by_cases h : j = k ∧ n = r
  · obtain ⟨rfl, rfl⟩ := h
    rw [if_pos ⟨rfl, rfl⟩]
    refine Versions.ext ?_ (funext fun v => ?_)
    · refine Fin.ext ?_
      rw [Slip.versions_cur, hcur, if_pos ⟨rfl, rfl⟩]
      rfl
    · have hv : (j = j ∧ n = n ∧ v.val = (p.curOf j n + 1) % 8) ↔ v = (p.versions j n).cur + 1 := by
        simp only [true_and, Fin.ext_iff]
        rfl
      exact (hheld v).trans (ite_congr (propext hv) (fun _ => rfl) (fun _ => rfl))
  · rw [if_neg h]
    refine Versions.ext ?_ (funext fun v => ?_)
    · refine Fin.ext ?_
      rw [Slip.versions_cur, hcur, if_neg h, Slip.versions_cur]
    · exact (hheld v).trans (if_neg (fun hx => h ⟨hx.1, hx.2.1⟩))

/-- A change that is made to one register at a time, for each of a list of registers, changes each of those once. -/
theorem Slip.versions_foldl {f : Slip → RSet → Nat → Slip} {g : ∀ α : Type, Versions α → Versions α}
    (hf : ∀ p k r j n, r < 32 → n < 32 → (f p k r).versions j n = if j = k ∧ n = r then g _ (p.versions j n) else p.versions j n)
    {j : RSet} {n : Nat} (hn : n < 32) : ∀ (l : List (RSet × Nat)) (p : Slip), l.Nodup → (∀ x ∈ l, x.2 < 32) →
      (l.foldl (fun q x => f q x.1 x.2) p).versions j n = if (j, n) ∈ l then g _ (p.versions j n) else p.versions j n
  | [], p, _, _ => by simp
  | (k, r) :: l, p, hl, hlt => by
    obtain ⟨hx, hl⟩ := List.nodup_cons.mp hl
    rw [List.foldl_cons, Slip.versions_foldl hf hn l _ hl (fun y hy => hlt y (List.mem_cons_of_mem _ hy)),
      hf p k r j n (hlt (k, r) List.mem_cons_self) hn]
    by_cases h : j = k ∧ n = r
    · obtain ⟨rfl, rfl⟩ := h
      simp [hx]
    · simp [h]

/-! ### All registers of a loop's masks -/

/-- The registers that a mask names. -/
theorem Masks.mem_keys (m : Masks) (k : RSet) (r : Nat) : (k, r) ∈ m.keys ↔ r < k.size ∧ m.has k r = true := by
  cases k <;> simp [Masks.keys, upTo, RSet.size]

theorem Masks.keys_nodup (m : Masks) : m.keys.Nodup := by
  have hset : ∀ (k : RSet) (n : Nat), (((upTo n).filter (m.has k)).map (fun r => (k, r))).Nodup := fun k n =>
    List.Pairwise.map _ (fun _ _ hne he => hne (Prod.mk.inj he).2) (List.Pairwise.filter _ List.nodup_range)
  have happend : ∀ (l : List (RSet × Nat)) (k : RSet) (n : Nat), l.Nodup → (∀ x ∈ l, x.1 ≠ k) →
      (l ++ ((upTo n).filter (m.has k)).map (fun r => (k, r))).Nodup := fun l k n hl hk =>
    List.nodup_append.mpr ⟨hl, hset k n, fun x hx y hy he => hk x hx (by
      obtain ⟨r, -, hr⟩ := List.mem_map.mp hy
      rw [he, ← hr])⟩
  refine happend _ .m 8 (happend _ .q 8 (happend _ .w 32 (happend _ .f 32 (hset .g 32) ?_) ?_) ?_) ?_ <;>
  · simp only [List.mem_append, List.mem_map]
    grind

/-- All registers that a mask names move to their next versions, and no other does. -/
theorem Slip.versions_nextVersions (p : Slip) (m : Masks) (k : RSet) {r : Nat} (hr : r < 32) :
    (p.nextVersions m).versions k r = if r < k.size ∧ m.has k r = true then (p.versions k r).next else p.versions k r := by
  rw [Slip.nextVersions, Slip.versions_foldl (f := fun q k r => q.nextVersion k r) (g := fun _ x => x.next)
    (fun q k r j n => q.versions_nextVersion k j) hr _ p m.keys_nodup m.keys_lt]
  exact ite_congr (propext (m.mem_keys k r)) (fun _ => rfl) (fun _ => rfl)

/-- A change beside the registers keeps their versions. -/
theorem Slip.versions_of_loops (p : Slip) (live : Queue) (levels : List Level) (pend : Pend) (after : List AfterWin) (k : RSet) (r : Nat) :
    ({ p with live := live, levels := levels, pend := pend, after := after } : Slip).versions k r = p.versions k r := by
  cases k <;> rfl

theorem Slip.versions_spread (p : Slip) (k j : RSet) (r n : Nat) :
    (p.spread k r).versions j n = if j = k ∧ n = r then (p.versions j n).spread else p.versions j n := by
  have hheld : ∀ v : Fin 8, (p.spread k r).held j n v = if j = k ∧ n = r ∧ v.val ∈ upTo 8 then p.held j n (p.curOf k r) else p.held j n v :=
    fun v => Slip.held_foldl_copyVersion k j r n (p.curOf_lt k r) v.isLt _ p (fun b hb => List.mem_range.mp hb)
  have hcur : ((p.spread k r).versions j n).cur = (p.versions j n).cur := by
    have hmap : (p.spread k r).cur = p.cur :=
      List.foldlRecOn (motive := fun q : Slip => q.cur = p.cur) _ _ rfl (fun q hq v _ => by rw [← hq]; cases k <;> rfl)
    refine Fin.ext ?_
    rw [Slip.versions_cur, Slip.versions_cur, Slip.curOf, hmap, Slip.curOf]
  split
  · next h =>
    obtain ⟨rfl, rfl⟩ := h
    exact Versions.ext hcur (funext fun v => (hheld v).trans (if_pos ⟨rfl, rfl, List.mem_range.mpr v.isLt⟩))
  · next h => exact Versions.ext hcur (funext fun v => (hheld v).trans (if_neg (fun hx => h ⟨hx.1, hx.2.1⟩)))

/-- At a loop's entry all registers of its masks spread their values, and no other does (R155). -/
theorem Slip.versions_enterLoop (p : Slip) (start stop : Word) (n : Nat) (k : RSet) {r : Nat} (hr : r < 32) :
    (p.enterLoop start stop n).versions k r =
      if r < k.size ∧ p.pend.masks.has k r = true then (p.versions k r).spread else p.versions k r := by
  have hfold := Slip.versions_foldl (f := fun q k r => q.spread k r) (g := fun _ x => x.spread)
    (fun q k r j n _ _ => q.versions_spread k j r n) (j := k) hr _ { p with after := [] } p.pend.masks.keys_nodup p.pend.masks.keys_lt
  refine (Slip.versions_of_loops _ _ _ _ _ k r).trans (hfold.trans ?_)
  rw [p.versions_of_loops p.live p.levels p.pend [] k r]
  exact ite_congr (propext (p.pend.masks.mem_keys k r)) (fun _ => rfl) (fun _ => rfl)

/-! ### What they leave alone -/

/-- A slip without its registers. -/
def Slip.bare (p : Slip) : Slip := { p with g := [], f := [], w := [], q := [], m := [], cur := [] }

theorem Slip.bare_copyVersion (p : Slip) (k : RSet) (r a b : Nat) : (p.copyVersion k r a b).bare = p.bare := by cases k <;> rfl

theorem Slip.bare_spread (p : Slip) (k : RSet) (r : Nat) : (p.spread k r).bare = p.bare :=
  List.foldlRecOn (motive := fun q : Slip => q.bare = p.bare) _ _ rfl (fun q hq v _ => (q.bare_copyVersion k r _ v).trans hq)

theorem Slip.bare_nextVersion (p : Slip) (k : RSet) (r : Nat) : (p.nextVersion k r).bare = p.bare := p.bare_copyVersion k r _ _

theorem Slip.bare_nextVersions (p : Slip) (m : Masks) : (p.nextVersions m).bare = p.bare :=
  List.foldlRecOn (motive := fun q : Slip => q.bare = p.bare) _ _ rfl (fun q hq x _ => (q.bare_nextVersion x.1 x.2).trans hq)

/-- The level that a pending descriptor gives, in its iteration 0 (R155). -/
def Pend.level (k : Pend) (start stop : Word) (n : Nat) : Level :=
  { width := k.width, dmax := k.dmax, masks := k.masks, start := start, stop := stop, count := n, idx := 0 }

/-- Beside the registers a loop's entry pushes the level, takes the descriptor and closes the windows (R155). -/
theorem Slip.bare_enterLoop (p : Slip) (start stop : Word) (n : Nat) : (p.enterLoop start stop n).bare =
    { p.bare with after := [], pend := {}, levels := p.pend.level start stop n :: p.levels } := by
  have hfold : (p.pend.masks.keys.foldl (fun (q : Slip) x => q.spread x.1 x.2) { p with after := [] }).bare = ({ p with after := [] } : Slip).bare :=
    List.foldlRecOn (motive := fun q : Slip => q.bare = ({ p with after := [] } : Slip).bare) _ _ rfl
      (fun q hq x _ => (q.bare_spread x.1 x.2).trans hq)
  exact congrArg (fun q : Slip => ({ q with pend := {}, levels := p.pend.level start stop n :: p.levels } : Slip)) hfold

end Sys2Proof.Machine
end

section
/-! Loops: what an iteration's beginning, a loop's entry and the exits of LEAVE and LEAVEQ do to the slip (spec/06 R150 to R167, R495). -/
namespace Sys2Proof.Machine
open Sys2Proof

/-! ### The next iteration begins -/

/-- At an entry that begins an iteration the innermost loop goes on to its next iteration (R162). -/
theorem Slip.arrive_of_iter {p : Slip} (len : Word → Option Nat) (hl : p.levels ≠ []) (ht : p.live.q0.tag = .iter) :
    p.arrive len = ({ p with live := { p.live with q0 := { p.live.q0 with tag := .plain } } } : Slip).nextIteration := by
  obtain ⟨l, rest, hl⟩ := List.exists_cons_of_ne_nil hl
  unfold Slip.arrive
  simp only
  split
  · rfl
  · next h _ => rw [ht] at h; cases h
  · next h _ => rw [ht] at h; cases h
  · next h _ _ => exact absurd hl (h l rest ht)

/-- An entry that begins an iteration comes to PCQ0: beside the queue, the step is to the next iteration (R162, R163). -/
theorem Slip.advance_of_iter {p : Slip} {len : Word → Option Nat} (hl : p.levels ≠ []) (ht : (p.resolve len).live.q1.tag = .iter) :
    ∃ live, p.advance len none = ({ p with live := live } : Slip).nextIteration :=
  let q := (p.resolve len).live
  let tail := (p.resolve len).tailEntry (aheadOf [q.q1, q.q2]) (q.q2.after len)
  ⟨_, Slip.arrive_of_iter (p := { p with live := { q0 := q.q1, q1 := q.q2, q2 := tail } }) len hl ht⟩

section
variable {p : Slip} {l : Level} {rest : List Level} (hl : p.levels = l :: rest)
include hl

theorem Slip.levels_nextIteration : p.nextIteration.levels = { l with idx := l.idx + 1 } :: rest := by
  simp only [Slip.nextIteration, hl]

theorem Slip.versions_nextIteration {k : RSet} {r : Nat} (hr : r < k.size) (hm : l.masks.has k r = true) :
    p.nextIteration.versions k r = (p.versions k r).next := by
  simp only [Slip.nextIteration, hl]
  refine (Slip.versions_of_loops _ _ _ _ _ k r).trans ?_
  rw [p.versions_nextVersions l.masks k (Nat.lt_of_lt_of_le hr k.size_le), if_pos ⟨hr, hm⟩]

/-- A register that the loop versions reads at distance 1 as it did at distance 0, and so at distance 0 (R158, R160). -/
theorem Slip.heldAt_nextIteration {k : RSet} {r : Nat} (hr : r < k.size) (hm : l.masks.has k r = true) :
    p.nextIteration.heldAt k r 1 = p.heldAt k r 0 ∧ p.nextIteration.heldAt k r 0 = p.heldAt k r 0 := by
  have hv : (p.nextIteration.versionedBy k r).isSome = true :=
    Slip.versionedBy_innermost (l := { l with idx := l.idx + 1 }) (Slip.levels_nextIteration hl) hm
  rw [Slip.heldAt_of_versioned hv, Slip.heldAt_zero, Slip.heldAt_zero, Slip.versions_nextIteration hl hr hm]
  exact ⟨Versions.read_next_one _, Versions.read_next_zero _⟩

end

/-! ### A loop is entered -/

/-- A slip in iteration 0 of a loop that it has entered (R155). -/
def Slip.inLoop (p : Slip) (start stop : Word) (n : Nat) : Slip := (p.enterLoop start stop n).nextVersions p.pend.masks

theorem Slip.bare_inLoop (p : Slip) (start stop : Word) (n : Nat) : (p.inLoop start stop n).bare = (p.enterLoop start stop n).bare :=
  Slip.bare_nextVersions _ _

theorem Slip.levels_inLoop (p : Slip) (start stop : Word) (n : Nat) : (p.inLoop start stop n).levels = p.pend.level start stop n :: p.levels :=
  congrArg Slip.levels ((p.bare_inLoop start stop n).trans (p.bare_enterLoop start stop n))

/-- A loop of iterations starts: the slip is in iteration 0 (R155). -/
theorem State.startLoop_of_pos (s : State) (c : Ctx) (offset : Nat) {n : Nat} (hn : n ≠ 0) : s.startLoop c offset n =
    .ok (s.setSlip c.b c.i ((s.slip c.b c.i).inLoop (s.pcOf c + 4) (s.pcOf c + natWord (2 * offset)) n)) :=
  if_neg hn

section
variable (p : Slip) (start stop : Word) (n : Nat) (k : RSet) {r : Nat}

theorem Slip.heldAt_zero_enterLoop (hr : r < 32) : (p.enterLoop start stop n).heldAt k r 0 = p.heldAt k r 0 := by
  rw [Slip.heldAt_zero, Slip.heldAt_zero, p.versions_enterLoop start stop n k hr]
  split
  · exact Versions.read_spread _ 0
  · rfl

theorem Slip.heldAt_zero_inLoop (hr : r < 32) : (p.inLoop start stop n).heldAt k r 0 = p.heldAt k r 0 := by
  rw [← p.heldAt_zero_enterLoop start stop n k hr, Slip.heldAt_zero, Slip.heldAt_zero, Slip.inLoop, Slip.versions_nextVersions _ _ k hr]
  split
  · exact Versions.read_next_zero _
  · rfl

/-- A register of the loop's masks reads alike at every distance (R155). -/
theorem Slip.heldAt_inLoop (hr : r < k.size) (hm : p.pend.masks.has k r = true) (d : Nat) :
    (p.inLoop start stop n).heldAt k r d = p.heldAt k r 0 := by
  have hr32 : r < 32 := Nat.lt_of_lt_of_le hr k.size_le
  rw [Slip.heldAt_of_versioned (Slip.versionedBy_innermost (p.levels_inLoop start stop n) hm), Slip.heldAt_zero, Slip.inLoop,
    Slip.versions_nextVersions _ _ k hr32, if_pos ⟨hr, hm⟩, p.versions_enterLoop start stop n k hr32, if_pos ⟨hr, hm⟩]
  exact Versions.read_next_spread _ d

end

/-- Outside every loop the queue starts again at an address (R163). -/
theorem Slip.refill_outside {p : Slip} (len : Word → Option Nat) (a : Word) (hl : p.levels = []) :
    ∃ q1 q2, p.refill len refillFuel a = { p with live := { q0 := { addr := some a }, q1 := q1, q2 := q2 } } := by
  simp only [refillFuel, Slip.refill, Slip.tailEntry, hl]
  exact ⟨_, _, rfl⟩

/-- A loop without iterations is passed over: the queue starts again behind its body (R155, R162, R163). -/
theorem Slip.passOver {p : Slip} (len : Word → Option Nat) (start stop : Word) (hl : p.levels = []) :
    let q := ((p.enterLoop start stop 0).endLevel 0 false).refill len refillFuel stop
    q.live.q0 = { addr := some stop } ∧ q.levels = [] ∧ q.lexit = 0 ∧ ∀ r, r < 32 → q.getG r 0 = p.getG r 0 := by
  intro q
  have hin : (p.enterLoop start stop 0).levels = p.pend.level start stop 0 :: [] := by
    rw [← hl]
    exact congrArg Slip.levels (p.bare_enterLoop start stop 0)
  have hend : ((p.enterLoop start stop 0).endLevel 0 false).levels = [] ∧ ((p.enterLoop start stop 0).endLevel 0 false).lexit = 0 := by
    simp [Slip.endLevel, hin, withBit]
  obtain ⟨q1, q2, hq⟩ : ∃ q1 q2, q = _ := Slip.refill_outside len stop hend.1
  have hg : ∀ r, r < 32 → q.getG r 0 = p.getG r 0 := fun r hr =>
    ((Slip.same_refill len refillFuel _ stop).g r hr).trans
      (((Slip.same_endLevel _ 0 false).g r hr).trans (Slip.getG_of_heldAt (p.heldAt_zero_enterLoop start stop 0 .g hr)))
  exact ⟨by rw [hq], by rw [hq]; exact hend.1, by rw [hq]; exact hend.2, hg⟩

/-! ### The address of an instruction, after the marks of an access -/

/-- An access keeps the queue of the slip: its marks are the same whoever makes it, and a handler's leave the slip alone. -/
theorem State.live_touchAll (s : State) (c : Ctx) (off n : Nat) : ((s.touchAll c off n).slip c.b c.i).live = (s.slip c.b c.i).live :=
  (congrArg Slip.live ((marked_touchAll s { c with hnd := true } off n).kept.ownSlip rfl) :)

theorem State.live_loadBytes (s : State) (c : Ctx) (sys : Bool) (key n : Nat) :
    ((s.loadBytes c sys key n).1.slip c.b c.i).live = (s.slip c.b c.i).live := by
  unfold State.loadBytes
  split
  · rw [State.slip_modSlip_self]
    rfl
  · rfl

end Sys2Proof.Machine

namespace Sys2Proof.Claims
open Sys2Proof Sys2Proof.Machine

theorem LoadsAt.pcOf {s t : State} {c : Ctx} {ea : Word} {n key : Nat} {bs : List Byte} (h : LoadsAt s c ea n key bs t) (hh : c.hnd = false) :
    t.pcOf c = s.pcOf c := by
  have hlive : (t.slip c.b c.i).live = (s.slip c.b c.i).live := by
    obtain ⟨-, -, ⟨-, -, -, -, rfl⟩ | ⟨-, -, -, hload⟩ | ⟨-, -, -, hload⟩⟩ := h
    · exact s.live_touchAll c _ n
    · simpa [hload] using s.live_loadBytes c false key n
    · simpa [hload] using s.live_loadBytes c true key n
  simp only [State.pcOf, hh, Bool.false_eq_true, if_false, Slip.pc, hlive]

/-- What no handler may execute is executed by a slip (R226). -/
theorem hnd_false_of_mode {s : State} {c : Ctx} {md : Mode} {uses : List Use} (h : Runs s c md uses) (hm : md.hnd = false) : c.hnd = false := by
  cases hh : c.hnd with
  | false => rfl
  | true => simpa [State.contextFault, hh, hm] using h.2 0

/-- An instruction that has replaced the flow of control itself. -/
theorem finish_gone {c : Ctx} (hh : c.hnd = false) (s : State) :
    finish c (.gone s) = .next (s.modSlip c.b c.i (fun p => { p with instret := p.instret + 1, begun := false })) :=
  congrArg Host.Outcome.next (if_neg (by simp [hh]))

/-! ### LSET, LOOP and LOOPS -/

/-- The state of a slip in iteration 0 is what R155 says. -/
theorem entered_inLoop (s : State) (c : Ctx) (start stop : Word) (n : Nat) :
    Entered s (s.setSlip c.b c.i ((s.slip c.b c.i).inLoop start stop n)) c start stop n := by
  unfold Entered
  simp only [State.slip_setSlip_self]
  generalize s.slip c.b c.i = p
  have hbare := (p.bare_inLoop start stop n).trans (p.bare_enterLoop start stop n)
  have hall := fun (k : RSet) (r d : Nat) (hr : r < k.size) (hm : p.pend.masks.has k r = true) => p.heldAt_inLoop start stop n k hr hm d
  have hzero := fun (k : RSet) (r : Nat) (hr : r < 32) => p.heldAt_zero_inLoop start stop n k hr
  exact ⟨p.levels_inLoop start stop n, congrArg Slip.pend hbare, congrArg Slip.after hbare,
    fun r d hr _ hm => Slip.getG_of_heldAt (hall .g r d hr hm), fun r d hr _ hm => Slip.getF_of_heldAt (hall .f r d hr hm),
    fun r d hr _ hm => Slip.getW_of_heldAt (hall .w r d hr hm), fun r d hr _ hm => Slip.getQ_of_heldAt (hall .q r d hr hm),
    fun r d hr _ hm => Slip.getM_of_heldAt (hall .m r d hr hm),
    fun r hr => Slip.getG_of_heldAt (hzero .g r hr), fun r hr => Slip.getF_of_heldAt (hzero .f r hr),
    fun r hr => Slip.getW_of_heldAt (hzero .w r hr), fun r hr => Slip.getQ_of_heldAt (hzero .q r (by omega)),
    fun r hr => Slip.getM_of_heldAt (hzero .m r (by omega)), (congrArg Slip.rest hbare :), (congrArg Slip.evc hbare :),
    (congrArg Slip.live hbare :), trivial⟩

section
variable {s : State} {c : Ctx} {r : BitVec 5} {o : BitVec 16}

/-- Where no trap holds levels aside, the loop group is legal (R495). -/
theorem loopBarred_eq_false (h : (s.slip c.b c.i).aside = []) : s.loopBarred c = false := by simp [State.loopBarred, h]

theorem loopBarred_eq_true (h : (s.slip c.b c.i).aside ≠ []) : s.loopBarred c = true := by simpa [State.loopBarred] using h

/-- LOOP and LOOPS, where the checks of R154 pass. -/
theorem loopWith_runs {i : Instr} {word : Nat} {rec_ : Bool} (ha : (s.slip c.b c.i).aside = []) (h : Runs s c { hnd := false } [.src .g r.toNat 0])
    (hf : ∀ word, (s.slip c.b c.i).loopFault word o.toNat (s.pcOf c) = none) (he : exec i s = loopWith word r.toNat o.toNat rec_ s) :
    exec i s = finish c (if rec_ then s.loadK c word (s.readG c r.toNat 0) 8 (fun t bs => t.startLoop c o.toNat (leNat (bs.take 4)))
      else s.startLoop c o.toNat (bitsOf (s.readG c r.toNat 0).toNat 31 0)) := by
  refine he.trans ((instr_runs h word _).trans ?_)
  simp only [loopBarred_eq_false ha, hf, Bool.false_eq_true, if_false]

/-- LSET fills the pending descriptor (R150). -/
theorem lset_pends {w m : BitVec 3} {a b : BitVec 5} (ha : (s.slip c.b c.i).aside = [])
    (h : Runs s c { hnd := false } [.src .g a.toNat 0, .src .g b.toNat 0]) :
    let ga := (s.readG c a.toNat 0).toNat
    let gb := (s.readG c b.toNat 0).toNat
    exec (.lset w m a b) s = .next ((s.setSlip c.b c.i { s.slip c.b c.i with pend := { width := w.toNat + 1, dmax := m.toNat, masks :=
      { g := ga % 2 ^ 32, f := ga / 2 ^ 32, w := gb % 2 ^ 32, q := gb / 2 ^ 32 % 2 ^ 8, m := gb / 2 ^ 40 % 2 ^ 8 } } }).advance c none true) := by
  intro ga gb
  have hf : bitsOf ga 63 32 = ga / 2 ^ 32 := by
    have := (s.readG c a.toNat 0).isLt
    rw [bitsOf_eq]
    omega
  show execLset w m a b s = _
  unfold execLset
  rw [instr_runs h]
  simp only [loopBarred_eq_false ha, Bool.false_eq_true, if_false, finish_ok]
  rw [hf, bitsOf_low, bitsOf_low, bitsOf_eq, bitsOf_eq]
  rfl

/-- A loop without iterations is passed over (R155). -/
theorem startLoop_zero (offset : Nat) (hh : c.hnd = false) (hl : (s.slip c.b c.i).levels = []) :
    ∃ t, finish c (s.startLoop c offset 0) = .next t ∧
      (t.slip c.b c.i).live.q0 = { addr := some (s.pcOf c + natWord (2 * offset)) } ∧ (t.slip c.b c.i).levels = [] ∧
      (t.slip c.b c.i).lexit = 0 ∧ (∀ r, r < 32 → (t.slip c.b c.i).getG r 0 = (s.slip c.b c.i).getG r 0) ∧ t.rest = s.rest := by
  obtain ⟨hq, hlevels, hexit, hg⟩ := Slip.passOver (s.lenAt c) (s.pcOf c + 4) (s.pcOf c + natWord (2 * offset)) hl
  rw [State.startLoop, if_pos rfl, finish_gone hh]
  refine ⟨_, rfl, ?_⟩
  rw [State.slip_modSlip_self, State.slip_setSlip_self]
  exact ⟨hq, hlevels, hexit, hg, rfl⟩

end

theorem loopsEnter_holds : loopsEnter := by
  refine fun s c ha => ⟨fun w m a b h => lset_pends ha h, fun r o h => ?_⟩
  intro pc stop hf
  have hh : c.hnd = false := hnd_false_of_mode h rfl
  have hloop : exec (.loop r o) s = finish c (s.startLoop c o.toNat ((s.readG c r.toNat 0).toNat % 2 ^ 32)) := by
    rw [← bitsOf_low]
    exact loopWith_runs (i := .loop r o) ha h hf rfl
  refine ⟨fun hn => ⟨_, entered_inLoop s c _ _ _, ?_⟩, fun key bs t0 hl hn => ⟨_, entered_inLoop t0 c _ _ _, ?_⟩, fun hn hlev => ?_⟩
  · rw [hloop, s.startLoop_of_pos c _ hn]
    rfl
  · refine (loopWith_runs (i := .loops r o) (rec_ := true) ha h hf rfl).trans ?_
    rw [if_pos rfl, loadK_of_loadsAt hl, t0.startLoop_of_pos c _ hn, hl.pcOf hh]
    rfl
  · rw [hloop, hn]
    exact startLoop_zero o.toNat hh hlev

/-! ### LEAVE and LEAVEQ -/

section
variable {s : State} {c : Ctx} {i : Instr} {word mode : Nat} {uses : List Use} {exit : Ctx → State → Bool}
  (h : Runs s c { hnd := false } uses) (he : exec i s = leaveWith word mode uses exit s)
include h he

/-- With levels held aside a LEAVE is illegal (R495). -/
theorem leaveWith_barred (ha : (s.slip c.b c.i).aside ≠ []) : exec i s = .next (s.raise c 1 (natWord word) false) := by
  refine he.trans ((instr_runs h word _).trans ?_)
  simp only [loopBarred_eq_true ha, if_true, finish_trap]

/-- Outside every loop a LEAVE is a loop escape (R167). -/
theorem leaveWith_outside (ha : (s.slip c.b c.i).aside = []) (hl : (s.slip c.b c.i).levels = []) :
    exec i s = .next (s.raise c 6 (s.pcOf c) false) := by
  refine he.trans ((instr_runs h word _).trans ?_)
  simp only [loopBarred_eq_false ha, hl, Bool.false_eq_true, if_false, finish_trap]

section
variable {l : Level} {rest : List Level} (ha : (s.slip c.b c.i).aside = []) (hl : (s.slip c.b c.i).levels = l :: rest)
include ha hl

/-- In another loop's body too (R167). -/
theorem leaveWith_uncovered (hc : l.covers (s.pcOf c) = false) : exec i s = .next (s.raise c 6 (s.pcOf c) false) := by
  refine he.trans ((instr_runs h word _).trans ?_)
  simp only [loopBarred_eq_false ha, hl, hc, Bool.false_eq_true, if_false, Bool.not_false, if_true, finish_trap]

/-- In its body a LEAVE is checked by R166, and then goes as a branch to the body's end. -/
theorem leaveWith_covered (hc : l.covers (s.pcOf c) = true) (hw : s.lengthWait c (s.queueOf c).q1 = none) :
    exec i s = finish c (if (s.queueOf c).q0.taken = true ∨ ¬ ((s.queueOf c).q1.inBody l = true ∧ (s.queueOf c).q2.inBody l = true)
      then .trap s 7 (s.pcOf c)
      else .branch s { taken := exit c s, target := l.stop, nullify := nullifies mode (exit c s), leave := true }) := by
  refine he.trans ((instr_runs h word _).trans ?_)
  simp only [loopBarred_eq_false ha, hl, hc, Bool.false_eq_true, if_false, Bool.not_true, awaitLengths_none (firstSome_one hw),
    Bool.or_eq_true, Bool.not_eq_true', ← Bool.not_eq_true, Bool.and_eq_true]

end
end

/-- The branch that a LEAVE in the body of a level is: to the body's end, taken where it exits (R167). -/
def leaveBranch (l : Level) (n : BitVec 2) (e : Bool) : Branch :=
  { taken := e, target := l.stop, nullify := (n == 1 && !e) || (n == 2 && e), leave := true }

/-- What R166, R167 and R495 say of a LEAVE, for any form of it. -/
theorem leaveExits_of_leaveWith {s : State} {c : Ctx} {i : Instr} {n : BitVec 2} {uses : List Use} {exit : Ctx → State → Bool}
    (h : Runs s c { hnd := false } uses) (he : exec i s = leaveWith (encode i) n.toNat uses exit s) :
    ((s.slip c.b c.i).aside ≠ [] → exec i s = .next (s.raise c 1 (BitVec.ofNat 64 (encode i)) false)) ∧
    ((s.slip c.b c.i).aside = [] → (s.slip c.b c.i).levels = [] → exec i s = .next (s.raise c 6 (s.pcOf c) false)) ∧
    (∀ l rest, (s.slip c.b c.i).aside = [] → (s.slip c.b c.i).levels = l :: rest →
      let qu := s.queueOf c
      (l.covers (s.pcOf c) = false → exec i s = .next (s.raise c 6 (s.pcOf c) false)) ∧
      (l.covers (s.pcOf c) = true → s.lengthWait c qu.q1 = none → qu.q0.taken = true ∨ qu.q1.inBody l = false ∨ qu.q2.inBody l = false →
        exec i s = .next (s.raise c 7 (s.pcOf c) false)) ∧
      (l.covers (s.pcOf c) = true → s.lengthWait c qu.q1 = none → qu.q0.taken = false → qu.q1.inBody l = true → qu.q2.inBody l = true →
        exec i s = .next (s.advance c (some (leaveBranch l n (exit c s))) true))) := by
  refine ⟨leaveWith_barred h he, leaveWith_outside h he, fun l rest ha hl => ⟨leaveWith_uncovered h he ha hl, fun hc hw hbad => ?_,
    fun hc hw ht h1 h2 => ?_⟩⟩
  · rw [leaveWith_covered h he ha hl hc hw, if_pos, finish_trap]
    refine hbad.imp_right ?_
    rintro (hq | hq) ⟨h1, h2⟩
    · exact Bool.noConfusion (hq.symm.trans h1)
    · exact Bool.noConfusion (hq.symm.trans h2)
  · rw [leaveWith_covered h he ha hl hc hw, if_neg (by simp [ht, h1, h2]), finish_branch, nullifies_eq, leaveBranch]

theorem exec_leave (n : BitVec 2) (s : State) :
    exec (.leave n) s = leaveWith (encode (.leave n)) n.toNat [] (fun _ _ => true) s := rfl

theorem exec_leaveq (q : BitVec 3) (t : BitVec 1) (n : BitVec 2) (s : State) : exec (.leaveq q t n) s =
    leaveWith (encode (.leaveq q t n)) n.toNat [.src .q q.toNat 0] (fun c s => s.readQ c q.toNat 0 != (t == 1)) s := rfl

theorem leaveExits_holds : leaveExits := by
  intro s c q t n goes
  exact ⟨fun h => (leaveExits_of_leaveWith h (exec_leave n s) :), fun h => (leaveExits_of_leaveWith h (exec_leaveq q t n s) :)⟩

end Sys2Proof.Claims

namespace Sys2Proof.Proofs
open Sys2Proof Sys2Proof.Machine Sys2Proof.Claims

/-- Settles O4: the iteration that begins holds in its new version a copy of the version before. -/
theorem iterationCarriesForward : Obligations.IterationCarriesForward := by
  intro p len l rest hl ht t
  obtain ⟨live, hadv⟩ : ∃ live, t = ({ p with live := live } : Slip).nextIteration := Slip.advance_of_iter (by simp [hl]) ht
  have hl' : ({ p with live := live } : Slip).levels = l :: rest := hl
  have hcarry : ∀ (k : RSet) (r : Nat), r < k.size → l.masks.has k r = true → t.heldAt k r 1 = p.heldAt k r 0 ∧ t.heldAt k r 0 = p.heldAt k r 0 :=
    fun k r hr hm => by
      have hkeep : ({ p with live := live } : Slip).heldAt k r 0 = p.heldAt k r 0 := by cases k <;> rfl
      rw [hadv, ← hkeep]
      exact Slip.heldAt_nextIteration hl' hr hm
  exact ⟨hadv ▸ Slip.levels_nextIteration hl',
    fun r hr hm => (hcarry .g r hr hm).imp Slip.getG_of_heldAt Slip.getG_of_heldAt,
    fun r hr hm => (hcarry .f r hr hm).imp Slip.getF_of_heldAt Slip.getF_of_heldAt,
    fun r hr hm => (hcarry .w r hr hm).imp Slip.getW_of_heldAt Slip.getW_of_heldAt,
    fun r hr hm => (hcarry .q r hr hm).imp Slip.getQ_of_heldAt Slip.getQ_of_heldAt,
    fun r hr hm => (hcarry .m r hr hm).imp Slip.getM_of_heldAt Slip.getM_of_heldAt⟩

/-- Settles O54: a loop's entry is that of R155, by the versions it makes; LEAVE and LEAVEQ share one meaning. -/
theorem loopsEnterAndLeave : Obligations.LoopsEnterAndLeave := ⟨loopsEnter_holds, leaveExits_holds⟩

end Sys2Proof.Proofs
end

section
/-! Trap entry and return: what each does to its slip, and to nothing else (spec/06 R174, R495, spec/07 R180 to R188). -/
namespace Sys2Proof.Machine
open Sys2Proof

@[simp] theorem Berth.rest_setSlip (x : Berth) (i : Nat) (p : Slip) : (x.setSlip i p).rest = x.rest := by
  rcases i with _ | _ | _ | i <;> rfl

theorem State.slip_setSlip_of_other (s : State) (b : Nat) {i j : Nat} (p : Slip) (h : Min.min j 3 ≠ Min.min i 3) :
    (s.setSlip b i p).slip b j = s.slip b j := by
  simp only [State.slip, State.berth_setSlip_self, Berth.slip_setSlip_of_other _ _ h]

/-- With nothing to begin or end at PCQ0 the loops stay as they are. -/
theorem Slip.arrive_of_plain {p : Slip} (len : Word → Option Nat) (h : p.live.q0.tag = .plain) : p.arrive len = p := by
  have hq0 : ({ p.live.q0 with tag := .plain } : QE) = p.live.q0 := by rw [← h]
  unfold Slip.arrive
  simp only [h, hq0]

end Sys2Proof.Machine

namespace Sys2Proof.Claims
open Sys2Proof Sys2Proof.Machine

/-! ### Trap entry -/

/-- The causes that a rollback answers are those of R427. -/
theorem rollbackClass_eq_true_iff (cause : Nat) (tv : Word) : rollbackClass cause tv = true ↔ RollbackCause cause tv := by
  simp [rollbackClass, RollbackCause, bitsOf_low, or_assoc]

/-- The upcalls of the model are those of R183. -/
theorem isUpcall_iff (s : State) (b i cause : Nat) (hard : Bool) : IsUpcall s b i cause hard ↔
    (upcallCause cause && !hard && !(s.slip b i).priv && (s.berth b).upvec != 0) = true := by
  simp [IsUpcall, upcallCause, and_assoc]

/-- Trap entry leaves the slip as R180 and R181 say. -/
theorem trapEntered_enterTrap (p : Slip) (len : Word → Option Nat) (cause : Nat) (tv vec : Word) (upcall : Bool) :
    TrapEntered p (p.enterTrap len cause tv vec upcall) cause tv vec (!upcall) := by
  have hcause : (p.enterTrap len cause tv vec upcall).tcause =
      cause % 64 + (if p.live.q0.slot then 64 else 0) + (if p.levels.isEmpty then 0 else 128) := by
    cases h : p.levels.isEmpty <;> simp [Slip.enterTrap, Slip.causeWord, withBit, h]
  exact ⟨rfl, rfl, rfl, rfl, rfl, rfl, rfl, rfl, hcause, rfl, rfl, rfl, rfl, rfl⟩

/-! ### Return -/

/-- What the return from a trap keeps and restores in its slip (R188, R495). -/
theorem leaveTrap_spec (p : Slip) (len : Word → Option Nat) :
    let q := p.leaveTrap len
    q.priv = p.ppriv ∧ q.dbie = p.pie.testBit 0 ∧ q.mie = p.pie.testBit 1 ∧ q.tie = p.pie.testBit 2 ∧ q.intrap = false ∧ q.aside = [] ∧
    (p.saved.q0.tag = .plain → q.live = p.saved ∧ q.levels = p.aside) ∧
    (∀ r, r < 32 → q.getG r 0 = p.getG r 0 ∧ q.getF r 0 = p.getF r 0 ∧ q.getW r 0 = p.getW r 0) ∧
    (∀ r, r < 8 → q.getQ r 0 = p.getQ r 0 ∧ q.getM r 0 = p.getM r 0) ∧
    q.tcause = p.tcause ∧ q.tval = p.tval ∧ q.saved = p.saved ∧ q.evc = p.evc := by
  intro q
  let back : Slip :=
    { p with live := p.saved, priv := p.ppriv, dbie := bitOf p.pie 0, mie := bitOf p.pie 1, tie := bitOf p.pie 2, intrap := false,
             levels := p.aside, aside := [] }
  have hsame : back.Same q := back.same_arrive len
  have hkeep : ∀ (k : RSet) (r : Nat), back.heldAt k r 0 = p.heldAt k r 0 := fun k r => by
    rw [Slip.heldAt_zero, Slip.heldAt_zero]
    cases k <;> rfl
  have hplain : p.saved.q0.tag = .plain → q = back := fun ht => Slip.arrive_of_plain (p := back) len ht
  refine ⟨(congrArg Slip.priv hsame.rest :), (congrArg Slip.dbie hsame.rest).trans (bitOf_eq_testBit _ _),
    (congrArg Slip.mie hsame.rest).trans (bitOf_eq_testBit _ _), (congrArg Slip.tie hsame.rest).trans (bitOf_eq_testBit _ _),
    (congrArg Slip.intrap hsame.rest :), (congrArg Slip.aside hsame.rest :), fun ht => ?_,
    fun r hr => ⟨(hsame.g r hr).trans (Slip.getG_of_heldAt (hkeep .g r)), (hsame.f r hr).trans (Slip.getF_of_heldAt (hkeep .f r)),
      (hsame.w r hr).trans (Slip.getW_of_heldAt (hkeep .w r))⟩,
    fun r hr => ⟨(hsame.q r hr).trans (Slip.getQ_of_heldAt (hkeep .q r)), (hsame.m r hr).trans (Slip.getM_of_heldAt (hkeep .m r))⟩,
    (congrArg Slip.tcause hsame.rest :), (congrArg Slip.tval hsame.rest :), (congrArg Slip.saved hsame.rest :), hsame.evc⟩
  rw [hplain ht]
  exact ⟨rfl, rfl⟩

section
variable {s : State} {c : Ctx} (h : Runs s c { hnd := false } [])
include h

theorem rft_runs : exec .rft s = finish c (if !(s.slip c.b c.i).intrap || !(s.slip c.b c.i).levels.isEmpty
    then .trap s 1 (BitVec.ofNat 64 (encode .rft)) else .gone (s.setSlip c.b c.i ((s.slip c.b c.i).leaveTrap (s.lenAt c)))) := by
  show execRft s = _
  unfold execRft
  rw [instr_runs h]
  rfl

/-- Outside a trap, or with a loop of the handler active, RFT is illegal (R188, R495). -/
theorem rft_illegal (hi : (s.slip c.b c.i).intrap = false ∨ (s.slip c.b c.i).levels ≠ []) :
    exec .rft s = .next (s.raise c 1 (BitVec.ofNat 64 (encode .rft)) false) := by
  rw [rft_runs h, if_pos (by simpa using hi), finish_trap]

/-- In a trap RFT is the return of its slip, and one instruction executed. -/
theorem rft_returns (hi : (s.slip c.b c.i).intrap = true) (hl : (s.slip c.b c.i).levels = []) :
    exec .rft s = .next (s.setSlip c.b c.i { (s.slip c.b c.i).leaveTrap (s.lenAt c) with
      instret := ((s.slip c.b c.i).leaveTrap (s.lenAt c)).instret + 1, begun := false }) := by
  rw [rft_runs h, if_neg (by simp [hi, hl]), finish_gone (hnd_false_of_mode h rfl), State.modSlip, State.slip_setSlip_self, State.setSlip_setSlip]

end

end Sys2Proof.Claims

namespace Sys2Proof.Proofs
open Sys2Proof Sys2Proof.Machine Sys2Proof.Claims

/-- Settles O15: no rollback and no double fault answers the cause, so the slip enters the trap at UPVEC or at TVEC; what is saved, and
that an upcall needs no TVEC, are the readings of logs 18 and 19. -/
theorem trapEntrySaves : Obligations.TrapEntrySaves := by
  intro s b i cause tv hard hin hroll
  rw [← rollbackClass_eq_true_iff] at hroll
  simp only [State.raiseSlip, hin, hroll, Bool.false_eq_true, if_false, isUpcall_iff]
  refine ⟨fun hup => ?_, fun hup htvec => ?_⟩
  · rw [if_pos hup]
    exact ⟨_, trapEntered_enterTrap _ _ cause tv _ true, rfl⟩
  · rw [if_neg hup, if_neg htvec]
    exact ⟨_, trapEntered_enterTrap _ _ cause tv _ false, rfl⟩

/-- Settles O17: a return changes its own slip alone, and there what entry saved comes back; the entry that comes to PCQ0 keeps its marks
(log 18). -/
theorem returnFromTrap : Obligations.ReturnFromTrap := by
  intro s c h p
  refine ⟨rft_illegal h, fun hi hl => ⟨_, rft_returns h hi hl, rfl, fun b hb => State.berth_setSlip_of_ne _ _ _ hb, ?_, ?_, ?_,
    fun j hj => State.slip_setSlip_of_other _ _ _ hj, ?_⟩⟩
  · rw [State.berth_setSlip_self, Berth.rest_setSlip]
  · rw [State.berth_setSlip_self, Berth.handler_setSlip]
  · rw [State.berth_setSlip_self, Berth.evcHi_setSlip]
  · rw [State.slip_setSlip_self]
    exact leaveTrap_spec p (s.lenAt c)

end Sys2Proof.Proofs
end

section
/-! Faults that a trap does not answer: what the slip, its domain and its berth's handler are left with (spec/07 R182, spec/11 R227, spec/23
R417, R427, spec/24 R446). -/
namespace Sys2Proof.Machine
open Sys2Proof

/-- What is told to the fault domain of a slip about a fault of it (R417, R419). -/
def State.faultRecord (s : State) (b i kind cause : Nat) (tv : Word) : Stop :=
  { berth := b, slip := i, kind := kind, cause := cause, tval := tv, pcq0 := (s.slip b i).recordPc, owner := (s.slip b i).owner }

section
variable (s : State) (b i cause : Nat) (tv : Word)

/-- That its slip has stopped changes nothing in the report of a fault; -/
theorem State.stops_report_stopped (kind : Nat) :
    ((s.modSlip b i (fun p => { p with stopped := true })).report b i kind cause tv).stops = s.stops ++ [s.faultRecord b i kind cause tv] := by
  simp only [State.report, State.stopFor, State.slip_modSlip_self, State.modSlip_stops]
  rfl

/-- nor does it that the berth's handler has ended. -/
theorem State.stops_report_unhandled (kind : Nat) :
    ((s.modBerth b (fun x => { x with handler := none })).report b i kind cause tv).stops = s.stops ++ [s.faultRecord b i kind cause tv] := by
  have hslip : (s.modBerth b (fun x => { x with handler := none })).slip b i = s.slip b i := by
    rw [State.slip, State.berth_modBerth_self]
    rcases i with _ | _ | _ | i <;> rfl
  simp only [State.report, State.stopFor, hslip, State.modBerth_stops]
  rfl

/-! ### Double faults -/

/-- A double fault of the active control berth calls for a takeover (R446). -/
theorem State.doubleFault_active (h : s.isActive b = true) : s.doubleFault b i cause tv =
    { s.modSlip b i (fun p => { p with stopped := true }) with takeovers := s.takeovers ++ [(b, cause)] } := if_pos h

/-- A double fault anywhere else is reported to the slip's domain (R182). -/
theorem State.doubleFault_inactive (h : s.isActive b = false) : s.doubleFault b i cause tv =
    (s.modSlip b i (fun p => { p with stopped := true })).report b i 2 cause tv := if_neg (by simp [h])

theorem State.slip_doubleFault : (s.doubleFault b i cause tv).slip b i = { s.slip b i with stopped := true } := by
  cases h : s.isActive b with
  | true => rw [s.doubleFault_active b i cause tv h]; exact s.slip_modSlip_self b i (fun p => { p with stopped := true })
  | false => rw [s.doubleFault_inactive b i cause tv h]; exact s.slip_modSlip_self b i (fun p => { p with stopped := true })

theorem State.doubleFault_mem : (s.doubleFault b i cause tv).mem = s.mem := by
  cases h : s.isActive b with
  | true => rw [s.doubleFault_active b i cause tv h]; rfl
  | false => rw [s.doubleFault_inactive b i cause tv h]; rfl

/-! ### Faults that a rollback answers -/

/-- The slip stops with the cause and its TVAL, and a rollback is due, but for cause 25 of the active control berth (R427, R446). -/
theorem State.rollbackFault_eq (h : s.isActive b = false ∨ cause ≠ 25) : s.rollbackFault b i cause tv =
    { s.modSlip b i (fun p => { p with tcause := p.causeWord cause, tval := tv, stopped := true }) with
      rollbacks := s.rollbacks ++ [s.faultRecord b i 3 cause tv] } := by
  have hkept : (s.isActive b && cause == 25) = false := by
    rcases h with h | h <;> simp [h]
  exact if_neg (by simp [hkept])

end

/-- CAUSE is the low six bits of what entry or a rollback-class fault leaves in TCAUSE (R27). -/
theorem Slip.causeWord_mod (p : Slip) (cause : Nat) : p.causeWord cause % 64 = cause % 64 := by
  simp only [Slip.causeWord, Claims.withBit_eq]
  split <;> split <;> omega

/-! ### Which of them a raised cause is -/

section
variable {s : State} {c : Ctx} {cause : Nat} {tv : Word} (hard : Bool)

theorem State.raise_rollback (hh : c.hnd = false) (hroll : rollbackClass cause tv = true) :
    s.raise c cause tv hard = s.rollbackFault c.b c.i cause tv := by
  simp only [State.raise, hh, State.raiseSlip, hroll, Bool.false_eq_true, if_false, if_true]

theorem State.raise_handler (hh : c.hnd = true) (hroll : rollbackClass cause tv = false) :
    s.raise c cause tv hard = (s.modBerth c.b (fun x => { x with handler := none })).report c.b c.i 4 cause tv := by
  simp only [State.raise, hh, hroll, Bool.false_eq_true, if_false, if_true]

end

end Sys2Proof.Machine

namespace Sys2Proof.Claims
open Sys2Proof Sys2Proof.Machine

/-- A cause that no rollback answers is a double fault in a trap, and where there is neither an upcall nor a TVEC to go to (R182). -/
theorem raise_doubleFault {s : State} {c : Ctx} {cause : Nat} {tv : Word} {hard : Bool} (hh : c.hnd = false)
    (hroll : ¬ RollbackCause cause tv)
    (hno : (s.slip c.b c.i).intrap = true ∨ ((s.berth c.b).tvec = 0 ∧ ¬ IsUpcall s c.b c.i cause hard)) :
    s.raise c cause tv hard = s.doubleFault c.b c.i cause tv := by
  rw [← rollbackClass_eq_true_iff] at hroll
  simp only [State.raise, hh, State.raiseSlip, hroll, Bool.false_eq_true, if_false]
  rcases hno with htrap | ⟨hvec, hup⟩
  · rw [if_pos htrap]
  · rw [isUpcall_iff] at hup
    rw [if_neg hup, if_pos hvec, ite_self]

end Sys2Proof.Claims

namespace Sys2Proof.Proofs
open Sys2Proof Sys2Proof.Machine Sys2Proof.Claims

/-- Settles O16: a raised cause is a double fault, a rollback-class fault or a handler's fault, and each leaves what its own law says. The
order of the first two beside the upcall, kind 4 for every fault of a handler, and the standby's ordinary stop are the readings of logs
19, 32 and 69. -/
theorem faultsThatStop : Obligations.FaultsThatStop := by
  intro s c cause tv hard p pcq0 told
  refine ⟨fun hh hroll hno => ?_, fun hh hroll hact => ?_, fun h hh hroll _ => ?_⟩
  · rw [raise_doubleFault hh hroll hno]
    refine ⟨s.slip_doubleFault c.b c.i cause tv, fun hact => ?_, fun hact => ?_, s.doubleFault_mem c.b c.i cause tv⟩
    · rw [s.doubleFault_inactive c.b c.i cause tv hact]
      exact ⟨s.stops_report_stopped c.b c.i cause tv 2, rfl⟩
    · rw [s.doubleFault_active c.b c.i cause tv hact]
      exact ⟨rfl, rfl⟩
  · rw [State.raise_rollback hard hh ((rollbackClass_eq_true_iff cause tv).mpr hroll), s.rollbackFault_eq c.b c.i cause tv hact]
    have hslip := s.slip_modSlip_self c.b c.i (fun p => { p with tcause := p.causeWord cause, tval := tv, stopped := true })
    exact ⟨rfl, congrArg Slip.stopped hslip, congrArg Slip.tval hslip,
      (congrArg (fun q : Slip => q.tcause % 64) hslip).trans (p.causeWord_mod cause), rfl⟩
  · rw [← rollbackClass_eq_true_iff, Bool.not_eq_true] at hroll
    rw [State.raise_handler hard hh hroll]
    exact ⟨congrArg Berth.handler (s.berth_modBerth_self c.b (fun x => { x with handler := none })),
      s.stops_report_unhandled c.b c.i cause tv 4, rfl⟩

end Sys2Proof.Proofs
end

section
/-! IDLE and its wake, the timer, and the slips that become READY (spec/07 R189 to R192, spec/11 R218, R219). -/
namespace Sys2Proof.Machine
open Sys2Proof

/-- A stamp handed out changes no slip. -/
theorem Berth.slip_stamps (x : Berth) (n i : Nat) : ({ x with stamps := n } : Berth).slip i = x.slip i := by
  rcases i with _ | _ | _ | i <;> rfl

@[simp] theorem Berth.stamps_setSlip (x : Berth) (i : Nat) (p : Slip) : (x.setSlip i p).stamps = x.stamps :=
  (congrArg Berth.stamps (x.rest_setSlip i p) :)

theorem Slip.enables_eq_zero_iff (p : Slip) : p.enables = 0 ↔ p.tie = false ∧ p.mie = false ∧ p.dbie = false := by
  simp [Slip.enables, Claims.withBit_eq, and_assoc]

/-- TIM is 0 until CYCLE reaches TCMP (R190). -/
theorem Berth.tim_of_lt {x : Berth} (h : x.cycle < x.tcmp) : x.tim = false := by
  have hlt : x.cycle.toNat < x.tcmp.toNat := h
  simp [Berth.tim, hlt]

theorem Berth.tim_of_cycle_eq {x : Berth} (h : x.tcmp ≠ 0) (he : x.cycle = x.tcmp) : x.tim = true := by
  simpa [Berth.tim, he] using h

end Sys2Proof.Machine

namespace Sys2Proof.Claims
open Sys2Proof Sys2Proof.Machine

/-- A slip made READY takes the next stamp of its berth (R218, R219), also after a change u of s that hands out no stamp. -/
theorem ready_makeReady {s u : State} {b : Nat} (i : Nat) (hstamps : (u.berth b).stamps = (s.berth b).stamps) (hrest : u.rest = s.rest) :
    Ready s (u.makeReady b i) b i (u.slip b i) := by
  refine ⟨?_, ?_, hrest⟩
  · simp only [State.makeReady, State.slip_modSlip_self, hstamps]
    rw [State.slip, State.berth_setBerth_self, Berth.slip_stamps]
    rfl
  · simp only [State.makeReady, State.berth_modSlip_self, State.berth_setBerth_self, Berth.stamps_setSlip, hstamps]

/-! ### IDLE -/

section
variable {s : State} {c : Ctx} (h : Runs s c { priv := true, hnd := false } [])
include h

theorem idle_runs : exec .idle s = finish c (if (s.slip c.b c.i).enables = 0 || s.pendingFor c.b c.i ≠ 0 then .ok s
    else .stay ((s.fixQueue c).block c .idle)) := by
  show execIdle s = _
  unfold execIdle
  rw [instr_runs h]

/-- With no source enabled, or one pending, IDLE has nothing to wait for (R189). -/
theorem idle_completes (hi : (s.slip c.b c.i).enables = 0 ∨ s.pendingFor c.b c.i ≠ 0) : exec .idle s = .next (s.advance c none true) := by
  rw [idle_runs h, if_pos (by simpa using hi), finish_ok]

/-- Else its slip blocks at it, the open entries of its queue resolved (R24, R189). -/
theorem idle_blocks (he : (s.slip c.b c.i).enables ≠ 0) (hp : s.pendingFor c.b c.i = 0) :
    exec .idle s = .next (s.setSlip c.b c.i
      { (s.slip c.b c.i).resolve (s.lenAt c) with st := .blocked, wait := some .idle, begun := true }) := by
  rw [idle_runs h, if_neg (by simp [he, hp]), finish_stay, State.began_block _ (hnd_false_of_mode h rfl), State.fixQueue,
    State.slip_modSlip_self, State.modSlip, State.setSlip_setSlip]

end

/-! ### The events -/

section
variable {s : State} {b i : Nat}

theorem idleWake_ready (hst : (s.slip b i).st = .blocked) (hw : (s.slip b i).wait = some .idle) (hp : s.pendingFor b i ≠ 0) :
    exec (.idleWake b i) s = .next ((s.advance { b := b, i := i, hnd := false } none true).makeReady b i) :=
  if_pos (by simp [hst, hw, hp])

theorem slipInputsSuffice_ready (hst : (s.slip b i).st = .waiting) (hin : (s.slip b i).inputsSuffice = true) :
    exec (.slipInputsSuffice b i) s = .next (s.makeReady b i) :=
  if_pos (by simp [hst, hin])

theorem waitSatisfied_ready {w : Wait} (hst : (s.slip b i).st = .blocked) (hw : (s.slip b i).wait = some w)
    (hstop : (s.slip b i).stopped = false) (hover : s.waitOver b i w = true) : exec (.waitSatisfied b i) s = .next (s.makeReady b i) := by
  show execWaitSatisfied b i s = _
  simp only [execWaitSatisfied, hw, hst, hstop, hover, decide_true, Bool.not_false, Bool.and_self, if_true]

theorem timerExpiry_expires (h0 : (s.berth b).tcmp ≠ 0) (hlt : (s.berth b).cycle < (s.berth b).tcmp) :
    exec (.timerExpiry b) s = .next (s.setBerth b { s.berth b with cycle := (s.berth b).tcmp }) :=
  if_neg (by simpa [Berth.tim_of_lt hlt] using h0)

end

end Sys2Proof.Claims

namespace Sys2Proof.Proofs
open Sys2Proof Sys2Proof.Machine Sys2Proof.Claims

/-- Settles O20: IDLE completes or blocks by the enables and what is pending; its wake, a WAITING slip's inputs and the end of a BLOCKED
slip's wait each make the slip READY; and the timer's expiry sets TIM. -/
theorem waitsAndWakes : Obligations.WaitsAndWakes := by
  constructor
  · intro s c h p idle
    refine ⟨fun hno => idle_completes h ?_, fun ⟨hen, hpend⟩ => ?_⟩
    · rw [Slip.enables_eq_zero_iff]
      exact (Classical.not_and_iff_not_or_not.mp hno).imp_left Classical.not_not.mp
    · rw [← Slip.enables_eq_zero_iff] at hen
      exact ⟨_, idle_blocks h hen hpend, rfl, s.slip_setSlip_self c.b c.i _⟩
  · intro s b i p c
    refine ⟨fun hst hw hp => ?_, fun hst hin => ?_, fun w hst hw hstop hover => ?_, fun h0 hlt => ?_⟩
    · have hkept := keptAll_advance s c none true
      exact ⟨_, idleWake_ready hst hw hp, ready_makeReady i (congrArg Berth.stamps hkept.unit :) hkept.rest⟩
    · exact ⟨_, slipInputsSuffice_ready hst hin, ready_makeReady i rfl rfl⟩
    · exact ⟨_, waitSatisfied_ready hst hw hstop hover, ready_makeReady i rfl rfl⟩
    · refine ⟨_, timerExpiry_expires h0 hlt, s.berth_setBerth_self b _, ?_, rfl⟩
      rw [State.berth_setBerth_self]
      exact Berth.tim_of_cycle_eq h0 rfl

end Sys2Proof.Proofs
end

section
/-! The distributor's list of selected regions (spec/11 R214, R215, R223). -/
namespace Sys2Proof.Claims
open Sys2Proof Sys2Proof.Machine

/-- A selection puts the chosen node last in the list and takes out its earlier place, where it has one (R223). -/
theorem regionSelect_selected {s t : State} {pkg a : Nat} (hc : s.choice pkg = some a) (ht : exec (.regionSelect pkg) s = .next t) :
    (t.pkg pkg).selected = (s.pkg pkg).selected.filter (fun x => x != a) ++ [a] := by
  have h : execRegionSelect pkg s = .next t := ht
  simp only [execRegionSelect, hc, Host.Outcome.next.injEq] at h
  rw [← h, State.pkg_modPkg_self]
  rfl

/-- So it appends the node exactly where the list did not hold it. -/
theorem regionSelect_appends_iff {s t : State} {pkg a : Nat} (hc : s.choice pkg = some a) (ht : exec (.regionSelect pkg) s = .next t) :
    (t.pkg pkg).selected = (s.pkg pkg).selected ++ [a] ↔ a ∉ (s.pkg pkg).selected := by
  rw [regionSelect_selected hc ht, List.append_cancel_right_eq, List.filter_eq_self]
  constructor
  · intro h hmem
    simpa using h a hmem
  · intro h x hx
    simpa using fun e : x = a => h (e ▸ hx)

/-- A tree of one node, at 0x1000, which the distributor has selected and software has then made READY again: STATE 1, PIPE not 0. A change
of a block that is not FREE takes effect at the next selection (R215). -/
def readyAndSelected : State :=
  { pkgs := [(0, { queues := [(0, { qroot := 0x1000 })], selected := [0x1000] })]
    mem := [(globKey 0 0x1018, 1), (globKey 0 0x1068, 1)] }

theorem readyAndSelected_choice : readyAndSelected.choice 0 = some 0x1000 := by decide

theorem readyAndSelected_selected : (readyAndSelected.pkg 0).selected = [0x1000] := rfl

end Sys2Proof.Claims

namespace Sys2Proof.Proofs
open Sys2Proof Sys2Proof.Machine Sys2Proof.Claims

/-- Refutes O37: the clause of REGION_SELECT gives the list of selected regions as the old one with the chosen node appended, also where the
old one holds the node already. Such a node is chosen in `readyAndSelected`; the model moves it to the end, so the list is [0x1000] again and
not [0x1000, 0x1000]. -/
theorem not_regionsSelectedAndBound : ¬ Obligations.RegionsSelectedAndBound := by
  intro h
  obtain ⟨hselect, -⟩ := h readyAndSelected 0
  obtain ⟨-, t, ht, -, -, -, happend, -⟩ := hselect 0x1000 readyAndSelected_choice
  have hnew := (regionSelect_appends_iff readyAndSelected_choice ht).mp happend
  rw [readyAndSelected_selected] at hnew
  exact hnew (List.mem_singleton_self _)

end Sys2Proof.Proofs
end

section
/-! The Harbourmaster's queues and its event ring: what an update of a queue, an event and a queue error change (spec/12 R233, R240, R244). -/
namespace Sys2Proof.Machine
open Sys2Proof

/-! ### One queue of a package -/

@[simp] theorem Pkg.queue_setQueue_self (p : Pkg) (q : Nat) (x : HQueue) : (p.setQueue q x).queue q = x := SMap.get_put_self _ _ _ _

@[simp] theorem Pkg.setQueue_setQueue (p : Pkg) (q : Nat) (x y : HQueue) : (p.setQueue q x).setQueue q y = p.setQueue q y := by
  simp only [Pkg.setQueue, SMap.put_put]

/-- Entries between two 17-bit indices are counted alike by the model and by the statements (R232, R240). -/
theorem diff17_eq_between (tail head : Nat) : diff17 tail head = Claims.between tail head := by
  rw [diff17, Claims.between, Nat.one_shiftLeft]

theorem hostKey_ge (a : Nat) : 2 ^ 64 ≤ hostKey a := by
  rw [hostKey, Nat.one_shiftLeft]
  exact Nat.le_add_right _ _

/-! ### Events -/

@[simp] theorem State.pkg_writeEvent (s : State) (pk : Nat) (bs : List Byte) : (s.writeEvent pk bs).pkg pk =
    { s.pkg pk with evtail := mod17 ((s.pkg pk).evtail + 1), msix0 := (s.pkg pk).msix0 + 1 } := State.pkg_modPkg_self _ _ _

/-- What an event of a package leaves as it was: its queues, every berth, and memory but the host's. -/
def QueuesKept (s t : State) (pk : Nat) : Prop :=
  (t.pkg pk).queues = (s.pkg pk).queues ∧ t.berths = s.berths ∧ ∀ a, a < 2 ^ 64 → t.byteAt a = s.byteAt a

theorem queuesKept_writeEvent (s : State) (pk : Nat) (bs : List Byte) : QueuesKept s (s.writeEvent pk bs) pk := by
  refine ⟨by rw [State.pkg_writeEvent], rfl, fun a ha => ?_⟩
  exact State.byteAt_poke_out (.inl (Nat.lt_of_lt_of_le ha (hostKey_ge _)))

theorem queuesKept_postError (s : State) (pk q err : Nat) (rest : List Byte) : QueuesKept s (s.postError pk q err rest) pk := by
  simp only [State.postError]
  split
  · exact ⟨by rw [State.pkg_setPkg_self], rfl, fun _ _ => rfl⟩
  · exact queuesKept_writeEvent s pk _

end Sys2Proof.Machine

namespace Sys2Proof.Claims
open Sys2Proof Sys2Proof.Machine

@[simp] theorem queueOf_withQueue (s : State) (pk q : Nat) (x : HQueue) : queueOf (withQueue s pk q x) pk q = x := by
  rw [queueOf, withQueue, withPkg]
  exact (congrArg (fun p => p.queue q) (s.pkg_setPkg_self pk _)).trans (Pkg.queue_setQueue_self _ _ _)

@[simp] theorem withQueue_withQueue (s : State) (pk q : Nat) (x y : HQueue) : withQueue (withQueue s pk q x) pk q y = withQueue s pk q y := by
  have hp : (withQueue s pk q x).pkg pk = (s.pkg pk).setQueue q x := s.pkg_setPkg_self pk _
  calc withQueue (withQueue s pk q x) pk q y
      = (withQueue s pk q x).setPkg pk (((withQueue s pk q x).pkg pk).setQueue q y) := rfl
    _ = (s.setPkg pk ((s.pkg pk).setQueue q x)).setPkg pk ((s.pkg pk).setQueue q y) := by rw [hp, Pkg.setQueue_setQueue]; rfl
    _ = withQueue s pk q y := s.setPkg_setPkg pk _ _

/-! ### Queue errors -/

theorem queueOf_congr {s t : State} {pk : Nat} (h : (t.pkg pk).queues = (s.pkg pk).queues) (q : Nat) : queueOf t pk q = queueOf s pk q := by
  rw [queueOf, queueOf, h]

/-- A queue error stops its queue and no other part of the machine but the event ring (R233). -/
theorem stopped_queueErrorWith (s : State) (pk q err : Nat) (rest : List Byte) : Stopped s (s.queueErrorWith pk q err rest) pk q err := by
  obtain ⟨hqueues, hberths, hbytes⟩ :=
    queuesKept_postError (withQueue s pk q { queueOf s pk q with err := err, st := 2, engine := none }) pk q err rest
  exact ⟨(queueOf_congr hqueues q).trans (queueOf_withQueue s pk q _), hberths, hbytes⟩

theorem stopped_queueError (s : State) (pk q err : Nat) : Stopped s (s.queueError pk q err) pk q err := stopped_queueErrorWith s pk q err _

/-- The registers of a stopped queue (R231, R233). -/
theorem Stopped.registers {s t : State} {pk q err : Nat} (h : Stopped s t pk q err) : (queueOf t pk q).st = 2 ∧ (queueOf t pk q).err = err := by
  rw [h.1]
  exact ⟨rfl, rfl⟩

/-- What raises a queue error leaves the queue STOPPED with its code. -/
theorem stops_of_queueError {i : Instr} {s u : State} {pk q err : Nat} (h : exec i s = .next (u.queueError pk q err)) :
    ∃ t, exec i s = .next t ∧ (queueOf t pk q).st = 2 ∧ (queueOf t pk q).err = err :=
  ⟨_, h, (stopped_queueError u pk q err).registers⟩

/-! ### The event ring -/

/-- The ring is full, or counts as full, exactly where it has no room (R240, R241). -/
theorem ringFull_eq_false_iff (p : Pkg) : p.ringFull = false ↔ Roomy p := by
  rw [Pkg.ringFull, diff17_eq_between, Nat.one_shiftLeft, Roomy, Bool.or_eq_false_iff, Bool.not_eq_false', beq_eq_false_iff_ne]

/-- Where the next event of a package goes, and how many have been written: what an event depends on, beside the memory. -/
def ringOf (p : Pkg) : Word × Nat × Nat × Nat := (p.evbase, p.evtail, p.esize, p.msix0)

/-- Two states with the same memory, berths and event ring of a package. -/
def SameRing (s t : State) (pk : Nat) : Prop := t.mem = s.mem ∧ t.berths = s.berths ∧ ringOf (t.pkg pk) = ringOf (s.pkg pk)

theorem SameRing.refl (s : State) (pk : Nat) : SameRing s s pk := ⟨rfl, rfl, rfl⟩

theorem sameRing_setPkg (s : State) {pk : Nat} {x : Pkg} (h : ringOf x = ringOf (s.pkg pk)) : SameRing s (s.setPkg pk x) pk :=
  ⟨rfl, rfl, by rw [State.pkg_setPkg_self, h]⟩

/-- An event stands in the ring the same way between states of the same ring. -/
theorem Posted.of_sameRing {s s' t t' : State} {pk : Nat} {bs : List Byte} (h : Posted s t pk bs) (hs : SameRing s s' pk) (ht : SameRing t t' pk) :
    Posted s' t' pk bs := by
  obtain ⟨hsm, hsb, hsr⟩ := hs
  obtain ⟨htm, htb, htr⟩ := ht
  simp only [ringOf, Prod.mk.injEq] at hsr htr
  obtain ⟨hbase, htail, hsize, hmsix⟩ := hsr
  obtain ⟨-, httail, -, htmsix⟩ := htr
  simpa only [Posted, State.byteAt, hsm, hsb, hbase, htail, hsize, hmsix, htm, htb, httail, htmsix] using h

/-- Bytes behind the end of a list read 0, as zeros that fill it up do. -/
theorem getD_append_zeros (bs : List Byte) (n j : Nat) : (bs ++ List.replicate n 0).getD j 0 = bs.getD j 0 := by
  simp only [List.getD_eq_getElem?_getD, List.getElem?_append, List.getElem?_replicate]
  split
  · rfl
  · rw [List.getElem?_eq_none (by omega)]
    split <;> rfl

theorem length_eventBytes {code q err : Nat} {rest : List Byte} (h : rest.length ≤ 56) : (eventBytes code q err rest).length = 64 := by
  simp only [eventBytes, List.length_append, length_leBytes, List.length_replicate]
  omega

/-- Byte j of an event: its word 0, its fields, zeros (R240, R242). -/
theorem getD_eventBytes (code q err : Nat) (rest : List Byte) (j : Nat) :
    (eventBytes code q err rest).getD j 0 = (leBytes 8 (code + q * 256 + err * 65536) ++ rest).getD j 0 := by
  rw [eventBytes, ← List.append_assoc, getD_append_zeros, Nat.shiftLeft_eq, Nat.shiftLeft_eq]

/-- An event of 64 bytes is written at the tail's slot (R240). -/
theorem posted_writeEvent (s : State) (pk : Nat) {bs cs : List Byte} (hlen : bs.length = 64) (hbs : ∀ j, bs.getD j 0 = cs.getD j 0) :
    Posted s (s.writeEvent pk bs) pk cs := by
  have hbyte (a : Nat) := State.byteAt_poke s (hostKey ((s.pkg pk).evbase.toNat + 64 * ((s.pkg pk).evtail % 2 ^ (s.pkg pk).esize))) a bs
  have hsame (a : Nat) : (s.writeEvent pk bs).byteAt a =
      (s.poke (hostKey ((s.pkg pk).evbase.toNat + 64 * ((s.pkg pk).evtail % 2 ^ (s.pkg pk).esize))) bs).byteAt a := by
    rw [State.writeEvent, Nat.one_shiftLeft]
    rfl
  refine ⟨fun j hj => ?slot, fun a ha => ?others, ?tail, by rw [State.pkg_writeEvent], rfl⟩
  case slot => rw [hsame, hbyte, if_pos (by omega), Nat.add_sub_cancel_left, hbs]
  case others => rw [hsame, hbyte, if_neg (by omega)]
  case tail => rw [State.pkg_writeEvent, mod17, Nat.one_shiftLeft]

end Sys2Proof.Claims
end

section
/-! The host's registers while READY = 1: doorbells and queue control (spec/12 R231, R232, R236, R450). -/
namespace Sys2Proof.Claims
open Sys2Proof Sys2Proof.Machine

@[simp] theorem pkg_withPkg (s : State) (pk : Nat) (x : Pkg) : (withPkg s pk x).pkg pk = x := s.pkg_setPkg_self pk x

@[simp] theorem pkg_withQueue (s : State) (pk q : Nat) (x : HQueue) : (withQueue s pk q x).pkg pk = (s.pkg pk).setQueue q x :=
  s.pkg_setPkg_self pk _

theorem shiftRight_eq_zero_iff (v n : Nat) : v >>> n = 0 ↔ v < 2 ^ n := by
  rw [Nat.shiftRight_eq_div_pow, Nat.div_eq_zero_iff]
  exact or_iff_right (Nat.ne_of_gt (Nat.two_pow_pos n))

/-! ### Doorbells -/

/-- s once a doorbell of queue q pends: its bit of DBPEND is set and the active control berth has its source (R447, R450). -/
def rung (s : State) (pk q : Nat) : State :=
  (s.modPkg pk (fun p => { p with dbpend := p.dbpend ||| 2 ^ q })).modBerth (activeControl pk (s.pkg pk)) (fun b => { b with ipDbell := true })

theorem pkg_rung (s : State) (pk q : Nat) : (rung s pk q).pkg pk = { s.pkg pk with dbpend := (s.pkg pk).dbpend ||| 2 ^ q } :=
  s.pkg_modPkg_self pk (fun p => { p with dbpend := p.dbpend ||| 2 ^ q })

theorem queueOf_rung (s : State) (pk q : Nat) : queueOf (rung s pk q) pk q = queueOf s pk q := queueOf_congr (by rw [pkg_rung]) q

section
variable {s : State} {pk q v : Nat}

theorem exec_doorbell (hq : q < 256) (hv : v < 2 ^ 64) : exec (.doorbell pk q v) s = .next (s.doorbell pk q v) := by
  show execDoorbell pk q v s = _
  rw [execDoorbell, Nat.mod_eq_of_lt hq, Nat.one_shiftLeft, Nat.mod_eq_of_lt hv]

/-- A doorbell of 17 bits moves TAIL and pends; it stops a RUNNING queue whose ring cannot hold what it announces (R232, R233). -/
theorem doorbell_of_lt (hr : (s.pkg pk).ready = true) (hv : v < 2 ^ 17) : s.doorbell pk q v =
    if (queueOf s pk q).st = 1 ∧ 2 ^ (queueOf s pk q).size < between v (queueOf s pk q).head
    then (withQueue (rung s pk q) pk q { queueOf s pk q with tail := v }).queueError pk q 2
    else withQueue (rung s pk q) pk q { queueOf s pk q with tail := v } := by
  have hshift := (shiftRight_eq_zero_iff v 17).mpr hv
  have hmoved : (rung s pk q).modPkg pk (fun p => p.setQueue q { p.queue q with tail := v }) =
      withQueue (rung s pk q) pk q { queueOf s pk q with tail := v } := by
    rw [← queueOf_rung]
    rfl
  rw [← hmoved]
  simp only [State.doorbell, hr, hshift, diff17_eq_between, Nat.one_shiftLeft, Bool.not_true, Bool.false_or, ne_eq, not_true_eq_false, decide_false,
    Bool.false_and, Bool.false_eq_true, if_false, Bool.and_eq_true, decide_eq_true_eq]
  rfl

/-- One with reserved bits stops a RUNNING queue (R232). -/
theorem doorbell_reserved (hr : (s.pkg pk).ready = true) (hst : (queueOf s pk q).st = 1) (hv : 2 ^ 17 ≤ v) :
    s.doorbell pk q v = (rung s pk q).queueError pk q 8 := by
  have hshift : v >>> 17 ≠ 0 := fun h => Nat.not_lt.mpr hv ((shiftRight_eq_zero_iff v 17).mp h)
  have hst' : ((s.pkg pk).queue q).st = 1 := hst
  simp only [State.doorbell, hr, hshift, hst', Nat.one_shiftLeft, Bool.not_true, Bool.false_or, ne_eq, not_false_eq_true, not_true_eq_false, decide_true, decide_false,
    Bool.and_false, Bool.false_eq_true, if_false, if_true]
  rfl

/-- Where no queue runs it is discarded (R232). -/
theorem doorbell_discarded (hst : (queueOf s pk q).st ≠ 1) (hv : 2 ^ 17 ≤ v) : s.doorbell pk q v = s := by
  have hshift : v >>> 17 ≠ 0 := fun h => Nat.not_lt.mpr hv ((shiftRight_eq_zero_iff v 17).mp h)
  have hst' : ((s.pkg pk).queue q).st ≠ 1 := hst
  simp [State.doorbell, hshift, hst']

/-- The doorbell that R232 admits, and what pends then. -/
theorem doorbell_moves (hq : q < 256) (hv : v < 2 ^ 17) (hr : (s.pkg pk).ready = true)
    (hroom : (queueOf s pk q).st = 1 → between v (queueOf s pk q).head ≤ 2 ^ (queueOf s pk q).size) :
    ∃ t, exec (.doorbell pk q v) s = .next t ∧ queueOf t pk q = { queueOf s pk q with tail := v } ∧
      (t.pkg pk).dbpend = (s.pkg pk).dbpend ||| 2 ^ q ∧ t.mem = s.mem ∧
      t.berths = (s.modBerth (activeControl pk (s.pkg pk)) (fun b => { b with ipDbell := true })).berths := by
  have hcond : ¬ ((queueOf s pk q).st = 1 ∧ 2 ^ (queueOf s pk q).size < between v (queueOf s pk q).head) := fun ⟨hst, hlt⟩ =>
    Nat.not_lt.mpr (hroom hst) hlt
  have hexec : exec (.doorbell pk q v) s = .next (withQueue (rung s pk q) pk q { queueOf s pk q with tail := v }) := by
    rw [exec_doorbell hq (by omega), doorbell_of_lt hr hv, if_neg hcond]
  refine ⟨_, hexec, queueOf_withQueue _ _ _ _, ?_, rfl, rfl⟩
  rw [pkg_withQueue, pkg_rung]
  rfl

theorem doorbell_outside_ring (hq : q < 256) (hv : v < 2 ^ 17) (hr : (s.pkg pk).ready = true) (hst : (queueOf s pk q).st = 1)
    (hover : 2 ^ (queueOf s pk q).size < between v (queueOf s pk q).head) :
    ∃ t, exec (.doorbell pk q v) s = .next t ∧ (queueOf t pk q).st = 2 ∧ (queueOf t pk q).err = 2 :=
  stops_of_queueError ((exec_doorbell hq (by omega)).trans (by rw [doorbell_of_lt hr hv, if_pos ⟨hst, hover⟩]))

/-! ### QCTL -/

theorem exec_qctlEnable (hq : q < 256) (hv : v < 2 ^ 64) : exec (.qctlEnable pk q v) s = .next (s.qctlWrite pk q v) := by
  show execQctlEnable pk q v s = _
  rw [execQctlEnable, Nat.mod_eq_of_lt hq, Nat.one_shiftLeft, Nat.mod_eq_of_lt hv]

/-- A DISABLED queue after SIZE and RESTART's clearing of ERR in a write of QCTL (R231). -/
def sized (x : HQueue) (v : Nat) : HQueue :=
  { x with size := if 4 ≤ v % 32 ∧ v % 32 ≤ 16 then v % 32 else x.size, err := if v.testBit 9 then 0 else x.err }

theorem sized_eq {x : HQueue} (hst : x.st = 0) (v : Nat) :
    (let x0 := if decide (x.st = 0) && decide (4 ≤ v % 32) && decide (v % 32 ≤ 16) then { x with size := v % 32 } else x
     if v.testBit 9 then { x0 with err := 0 } else x0) = sized x v := by
  cases x
  cases hst
  by_cases h : 4 ≤ v % 32 ∧ v % 32 ≤ 16 <;> cases h9 : v.testBit 9 <;> simp [sized, h, h9]

/-- ENABLE of a DISABLED queue goes on to the checks of its image (R231, R236). -/
theorem qctlWrite_enables (hr : (s.pkg pk).ready = true) (h8 : v.testBit 8 = true) (hen : (queueOf s pk q).enable = false)
    (hst : (queueOf s pk q).st = 0) : s.qctlWrite pk q v = (withQueue s pk q (sized (queueOf s pk q) v)).enableQueue pk q := by
  have hx : (s.pkg pk).queue q = queueOf s pk q := rfl
  have hoff : (!(queueOf s pk q).enable) = true := by rw [hen]; rfl
  simp only [State.qctlWrite, hr, hx, hoff, bitOf_eq_testBit, h8, Bool.not_true, Bool.and_self, Bool.false_eq_true, if_false, if_true]
  exact congrArg (fun x => (withQueue s pk q x).enableQueue pk q) (sized_eq hst v)

/-- An image that passes its checks is measured and the queue runs (R236, R492). -/
theorem enableQueue_runs {bs : List Byte} (hi : s.pilotImage pk (queueOf s pk q).qpilot.toNat = some bs) (hsigned : (s.pkg pk).signed 1 15 bs = true)
    (hchecks : pilotChecks (bs.take (bs.length - 448)) = true) : s.enableQueue pk q =
      s.setPkg pk (((s.pkg pk).measured bs).setQueue q { queueOf s pk q with enable := true, image := bs.take (bs.length - 448), st := 1 }) := by
  have hx : (s.pkg pk).queue q = queueOf s pk q := rfl
  have hi' (p : Pkg) : (s.setPkg pk p).pilotImage pk (queueOf s pk q).qpilot.toNat = some bs := hi
  simp only [State.enableQueue, hx, hi, hsigned, hchecks, Bool.and_self, if_true, State.setPkg_setPkg]

/-- An image that is not there, or fails a check, is queue error 1 (R236). -/
theorem enableQueue_refuses (hbad : ∀ bs, s.pilotImage pk (queueOf s pk q).qpilot.toNat = some bs →
      (s.pkg pk).signed 1 15 bs = false ∨ pilotChecks (bs.take (bs.length - 448)) = false) :
    ∃ u : State, s.enableQueue pk q = u.queueError pk q 1 := by
  have hx : (s.pkg pk).queue q = queueOf s pk q := rfl
  simp only [State.enableQueue, hx]
  cases hi : s.pilotImage pk (queueOf s pk q).qpilot.toNat with
  | none => exact ⟨_, rfl⟩
  | some bs =>
    have hfail : ((s.pkg pk).signed 1 15 bs && pilotChecks (bs.take (bs.length - 448))) = false := by
      rcases hbad bs hi with h | h <;> simp [h]
    simp only [hfail, Bool.false_eq_true, if_false]
    exact ⟨_, rfl⟩

theorem signed_setQueue (p : Pkg) (x : HQueue) (lo hi : Nat) (bs : List Byte) : (p.setQueue q x).signed lo hi bs = p.signed lo hi bs := rfl

theorem qctlEnable_runs (hq : q < 256) (hv : v < 2 ^ 64) (hr : (s.pkg pk).ready = true) (h8 : v.testBit 8 = true)
    (hen : (queueOf s pk q).enable = false) (hst : (queueOf s pk q).st = 0) {bs : List Byte}
    (hi : s.pilotImage pk (queueOf s pk q).qpilot.toNat = some bs) (hsigned : (s.pkg pk).signed 1 15 bs = true)
    (hchecks : pilotChecks (bs.take (bs.length - 448)) = true) :
    ∃ t, exec (.qctlEnable pk q v) s = .next t ∧ t.mem = s.mem ∧ (t.pkg pk).meas = sha256 ((s.pkg pk).meas ++ sha256 bs) ∧
      queueOf t pk q = { queueOf s pk q with
        enable := true, st := 1, image := bs.take (bs.length - 448), err := if v.testBit 9 then 0 else (queueOf s pk q).err,
        size := if 4 ≤ v % 32 ∧ v % 32 ≤ 16 then v % 32 else (queueOf s pk q).size } := by
  have hq' := queueOf_withQueue s pk q (sized (queueOf s pk q) v)
  have hruns := enableQueue_runs (s := withQueue s pk q (sized (queueOf s pk q) v)) (by rw [hq']; exact hi)
    (by rw [pkg_withQueue, signed_setQueue]; exact hsigned) hchecks
  have hexec := exec_qctlEnable (s := s) (pk := pk) hq hv
  rw [qctlWrite_enables hr h8 hen hst, hruns] at hexec
  refine ⟨_, hexec, rfl, ?_, ?_⟩
  · rw [State.pkg_setPkg_self, pkg_withQueue]
    rfl
  · rw [queueOf, State.pkg_setPkg_self, hq']
    exact Pkg.queue_setQueue_self _ _ _

theorem qctlEnable_refuses (hq : q < 256) (hv : v < 2 ^ 64) (hr : (s.pkg pk).ready = true) (h8 : v.testBit 8 = true)
    (hen : (queueOf s pk q).enable = false) (hst : (queueOf s pk q).st = 0)
    (hbad : ∀ bs, s.pilotImage pk (queueOf s pk q).qpilot.toNat = some bs →
      (s.pkg pk).signed 1 15 bs = false ∨ pilotChecks (bs.take (bs.length - 448)) = false) :
    ∃ t, exec (.qctlEnable pk q v) s = .next t ∧ (queueOf t pk q).st = 2 ∧ (queueOf t pk q).err = 1 := by
  obtain ⟨u, hu⟩ := enableQueue_refuses (s := withQueue s pk q (sized (queueOf s pk q) v)) (pk := pk) (q := q) (fun bs hi => by
    rw [queueOf_withQueue] at hi
    rw [pkg_withQueue, signed_setQueue]
    exact hbad bs hi)
  exact stops_of_queueError ((exec_qctlEnable hq hv).trans (by rw [qctlWrite_enables hr h8 hen hst, hu]))

/-- RESTART of a STOPPED queue clears ERR and runs it on at HEAD (R231). -/
theorem qctlRestart_runs (hq : q < 256) (hr : (s.pkg pk).ready = true) (hst : (queueOf s pk q).st = 2) (hen : (queueOf s pk q).enable = true)
    (himage : (queueOf s pk q).image ≠ []) (hsize : (queueOf s pk q).size ≤ 16) :
    exec (.qctlRestart pk q) s = .next (withQueue s pk q { queueOf s pk q with err := 0, st := 1 }) := by
  have hx : (s.pkg pk).queue q = queueOf s pk q := rfl
  have hword : (queueOf s pk q).qctl + 1 <<< 9 = (queueOf s pk q).size + 768 := by
    rw [HQueue.qctl, hen]
    rfl
  have h8 : bitOf ((queueOf s pk q).size + 768) 8 = true := by
    simp only [bitOf, Nat.shiftRight_eq_div_pow, beq_iff_eq]
    omega
  have h9 : bitOf ((queueOf s pk q).size + 768) 9 = true := by
    simp only [bitOf, Nat.shiftRight_eq_div_pow, beq_iff_eq]
    omega
  have hrestart : s.qctlWrite pk q ((queueOf s pk q).size + 768) = (withQueue s pk q { queueOf s pk q with err := 0 }).restartQueue pk q := by
    simp only [State.qctlWrite, hr, hx, hen, hst, h8, h9, Bool.not_true, Bool.and_false, Bool.false_eq_true, if_false, if_true,
      show ((2 : Nat) = 0) = False by simp, decide_false, Bool.false_and]
    rfl
  have hnot : (queueOf s pk q).image.isEmpty = false := List.isEmpty_eq_false_iff.mpr himage
  show execQctlRestart pk q s = _
  rw [execQctlRestart, Nat.mod_eq_of_lt hq, hx, hword, hrestart, State.restartQueue, pkg_withQueue, Pkg.queue_setQueue_self]
  simp only [hst, hnot, ne_eq, not_true_eq_false, Bool.false_eq_true, if_false, Pkg.setQueue_setQueue]
  congr 1
  exact State.setPkg_setPkg s pk _ _

end
end Sys2Proof.Claims
end

section
/-! The host's registers while READY = 1: the event ring, RESYNC, the registers of a descriptor, and the packet at HEAD
(spec/12 R229, R232, R234, R241, R243 to R245). -/
namespace Sys2Proof.Claims
open Sys2Proof Sys2Proof.Machine

section
variable {s : State} {pk q v : Nat}

/-! ### The event ring -/

theorem drainRing_of_not_ovf (h : (s.pkg pk).ovf = false) : s.drainRing pk = s := by
  simp only [State.drainRing, h, Bool.false_and, Bool.false_eq_true, if_false]

/-- With a slot free while OVF = 1 the coalesced event is written, and OVF and LOST clear (R244). -/
theorem drainRing_posts (hovf : (s.pkg pk).ovf = true) (hroom : Roomy (s.pkg pk)) :
    Posted s (s.drainRing pk) pk (leBytes 8 3 ++ leBytes 4 (s.pkg pk).lost ++ List.replicate 20 0 ++ queueBitmap (s.pkg pk).latched) ∧
      ((s.drainRing pk).pkg pk).ovf = false ∧ ((s.drainRing pk).pkg pk).lost = 0 := by
  have hring := (ringFull_eq_false_iff _).mpr hroom
  simp only [State.drainRing, hovf, hring, Bool.not_false, Bool.and_self, if_true, State.pkg_modPkg_self, and_true]
  have hlength : (leBytes 4 (s.pkg pk).lost ++ List.replicate 20 0 ++ queueBitmap (s.pkg pk).latched).length = 56 := by
    simp only [queueBitmap, List.length_append, List.length_replicate, length_leBytes]
  have hposted := posted_writeEvent s pk (length_eventBytes (code := 3) (q := 0) (err := 0) (Nat.le_of_eq hlength)) (getD_eventBytes 3 0 0 _)
  rw [List.append_assoc, List.append_assoc, ← List.append_assoc (leBytes 4 _)]
  exact hposted.of_sameRing (.refl s pk) (sameRing_setPkg _ rfl)

theorem evctlWrite_writes (hr : (s.pkg pk).ready = true) (hovf : (s.pkg pk).ovf = false) :
    exec (.evctlWrite pk v) s = .next (withPkg s pk { s.pkg pk with
      evEn := v.testBit 8
      esize := if (s.pkg pk).evEn = false ∧ 3 ≤ v % 32 ∧ v % 32 ≤ 16 then v % 32 else (s.pkg pk).esize }) := by
  show Host.Outcome.next (s.evctlWrite pk v) = _
  simp only [State.evctlWrite, hr, bitOf_eq_testBit, Bool.not_true, Bool.false_eq_true, if_false, Bool.and_eq_true, decide_eq_true_eq,
    Bool.not_eq_true', and_assoc]
  rw [drainRing_of_not_ovf (by rw [State.pkg_setPkg_self]; exact hovf)]
  rfl

theorem evheadWrite_eq (hr : (s.pkg pk).ready = true) (v : Nat) :
    s.evheadWrite pk v = (withPkg s pk { s.pkg pk with evhead := v % 2 ^ 17 }).drainRing pk := by
  simp only [State.evheadWrite, hr, mod17, Nat.one_shiftLeft, Bool.not_true, Bool.false_eq_true, if_false]
  rfl

theorem evheadWrite_writes (hr : (s.pkg pk).ready = true) (hovf : (s.pkg pk).ovf = false) :
    exec (.evheadWrite pk v) s = .next (withPkg s pk { s.pkg pk with evhead := v % 2 ^ 17 }) := by
  show Host.Outcome.next (s.evheadWrite pk v) = _
  rw [evheadWrite_eq hr, drainRing_of_not_ovf (by rw [pkg_withPkg]; exact hovf)]

theorem evheadWrite_posts (hr : (s.pkg pk).ready = true) (hovf : (s.pkg pk).ovf = true) (hen : (s.pkg pk).evEn = true)
    (hroom : between (s.pkg pk).evtail (v % 2 ^ 17) ≠ 2 ^ (s.pkg pk).esize) :
    ∃ t, exec (.evheadWrite pk v) s = .next t ∧
      Posted s t pk (leBytes 8 3 ++ leBytes 4 (s.pkg pk).lost ++ List.replicate 20 0 ++ queueBitmap (s.pkg pk).latched) ∧
      (t.pkg pk).ovf = false ∧ (t.pkg pk).lost = 0 := by
  have hdrain := drainRing_posts (s := withPkg s pk { s.pkg pk with evhead := v % 2 ^ 17 }) (pk := pk)
  rw [pkg_withPkg] at hdrain
  obtain ⟨hposted, hclear⟩ := hdrain hovf ⟨hen, hroom⟩
  refine ⟨_, congrArg Host.Outcome.next (evheadWrite_eq hr v), ?_, hclear⟩
  have hback : SameRing (withPkg s pk { s.pkg pk with evhead := v % 2 ^ 17 }) s pk := by
    refine ⟨rfl, rfl, ?_⟩
    rw [pkg_withPkg]
    rfl
  exact hposted.of_sameRing hback (.refl _ pk)

theorem evstatWrite_writes (hr : (s.pkg pk).ready = true) (h0 : v.testBit 0 = true) :
    exec (.evstatWrite pk v) s = .next (withPkg s pk { s.pkg pk with ovf := false }) := by
  show Host.Outcome.next (s.evstatWrite pk v) = _
  rw [State.evstatWrite, bitOf_eq_testBit, hr, h0]
  rfl

/-! ### RESYNC -/

theorem resync_takes (hv : v < 2 ^ 64) (hr : (s.pkg pk).ready = true) (hst : (s.pkg pk).resyncst = false) :
    exec (.resync pk v) s = .next (withPkg s pk { s.pkg pk with resyncst := true, resyncAddr := v, resyncImage := (s.pkg pk).summary }) := by
  show Host.Outcome.next (s.resync pk v) = _
  simp only [State.resync, hr, hst, Nat.one_shiftLeft, Nat.mod_eq_of_lt hv, Bool.not_true, Bool.or_self, Bool.false_eq_true, if_false]
  rfl

theorem resyncComplete_writes (hst : (s.pkg pk).resyncst = true) :
    ∃ t, exec (.resyncComplete pk) s = .next t ∧ (t.pkg pk).resyncst = false ∧ t.berths = s.berths ∧
      (∀ j, j < (s.pkg pk).resyncImage.length → t.byteAt (hostKey (s.pkg pk).resyncAddr + j) = (s.pkg pk).resyncImage.getD j 0) ∧
      (∀ a, a < hostKey (s.pkg pk).resyncAddr ∨ hostKey (s.pkg pk).resyncAddr + (s.pkg pk).resyncImage.length ≤ a → t.byteAt a = s.byteAt a) := by
  have hexec : exec (.resyncComplete pk) s = .next ((s.poke (hostKey (s.pkg pk).resyncAddr) (s.pkg pk).resyncImage).setPkg pk
      { s.pkg pk with resyncst := false, resyncImage := [] }) := by
    show execResyncComplete pk s = _
    simp only [execResyncComplete, hst, Bool.not_true, Bool.false_eq_true, if_false]
  refine ⟨_, hexec, by rw [State.pkg_setPkg_self], rfl, fun j hj => ?_, fun a ha => State.byteAt_poke_out ha⟩
  exact (s.byteAt_poke _ _ _).trans (by rw [if_pos (by omega), Nat.add_sub_cancel_left])

/-! ### Registers by number -/

/-- A number below 2^16 is an offset of BAR0 (log 70). -/
theorem exec_registerWrite_bar {off : Nat} (hoff : off < 2 ^ 16) (hv : v < 2 ^ 64) : exec (.registerWrite pk off v) s = .next (s.barWrite pk off v) := by
  show execRegisterWrite pk off v s = _
  have hbar : off < 0x10000 := hoff
  rw [execRegisterWrite, if_pos hbar, Nat.one_shiftLeft, Nat.mod_eq_of_lt hv]

theorem registerWrite_evbase (hv : v < 2 ^ 64) (hr : (s.pkg pk).ready = true) (hen : (s.pkg pk).evEn = false) :
    exec (.registerWrite pk 8 v) s = .next (withPkg s pk { s.pkg pk with evbase := BitVec.ofNat 64 v }) := by
  rw [exec_registerWrite_bar (by decide) hv]
  simp only [State.barWrite, hr, hen, Bool.not_true, Bool.false_eq_true, if_false, if_true]
  rfl

/-- The write of a descriptor's register by its BAR0 offset (R229). -/
theorem barWrite_descriptor {off : Nat} (hq : q < 256) (hr : (s.pkg pk).ready = true) (hoff : off < 64) (h8 : off % 8 = 0) :
    s.barWrite pk (0x4000 + 64 * q + off) v = s.queueRegister pk q off v := by
  have hnot (n : Nat) (hn : n < 0x4000) : ¬ 0x4000 + 64 * q + off = n := by omega
  have hbell : (decide (0x1000 ≤ 0x4000 + 64 * q + off) && decide (0x4000 + 64 * q + off < 0x1800)) = false := by
    rw [decide_eq_false (show ¬ 0x4000 + 64 * q + off < 0x1800 by omega), Bool.and_false]
  have hin : (decide (0x4000 ≤ 0x4000 + 64 * q + off) && decide (0x4000 + 64 * q + off < 0x8000) &&
      decide ((0x4000 + 64 * q + off) % 8 = 0)) = true := by
    rw [Bool.and_eq_true, Bool.and_eq_true, decide_eq_true_eq, decide_eq_true_eq, decide_eq_true_eq]
    omega
  have hqueue : (0x4000 + 64 * q + off - 0x4000) / 64 = q := by omega
  have hrest : (0x4000 + 64 * q + off) % 64 = off := by omega
  simp only [State.barWrite, hr, hnot 0x08 (by decide), hnot 0x10 (by decide), hnot 0x18 (by decide), hnot 0x28 (by decide), hnot 0x30 (by decide),
    hbell, hin, hqueue, hrest, Bool.not_true, Bool.false_and, Bool.false_eq_true, if_false, if_true]

/-- QBASE, QPILOT and QROOT are written by their numbers (R231). -/
theorem registerWrite_descriptor (hq : q < 256) (hv : v < 2 ^ 64) (hr : (s.pkg pk).ready = true) :
    exec (.registerWrite pk (0x4000 + 64 * q) v) s = .next (withQueue s pk q { queueOf s pk q with qbase := BitVec.ofNat 64 v }) ∧
      exec (.registerWrite pk (0x4010 + 64 * q) v) s = .next (withQueue s pk q { queueOf s pk q with qpilot := BitVec.ofNat 64 v }) ∧
      exec (.registerWrite pk (0x4018 + 64 * q) v) s = .next (withQueue s pk q { queueOf s pk q with qroot := BitVec.ofNat 64 v }) := by
  have hwrite (off : Nat) (hoff : off < 64) (h8 : off % 8 = 0) :
      exec (.registerWrite pk (0x4000 + 64 * q + off) v) s = .next (s.queueRegister pk q off v) := by
    rw [exec_registerWrite_bar (by omega) hv, barWrite_descriptor hq hr hoff h8]
  refine ⟨hwrite 0 (by decide) rfl, ?_, ?_⟩
  · rw [show 0x4010 + 64 * q = 0x4000 + 64 * q + 16 by omega]
    exact hwrite 16 (by decide) rfl
  · rw [show 0x4018 + 64 * q = 0x4000 + 64 * q + 24 by omega]
    exact hwrite 24 (by decide) rfl

/-! ### The packet at HEAD -/

theorem packetStart_takes (hr : (s.pkg pk).ready = true) (hst : (queueOf s pk q).st = 1) (hg : (queueOf s pk q).engine = none)
    (hne : (queueOf s pk q).head ≠ (queueOf s pk q).tail) (hroom : between (queueOf s pk q).tail (queueOf s pk q).head ≤ 2 ^ (queueOf s pk q).size)
    {bs : List Byte} (hbs : bs = s.bytesAt (hostKey ((queueOf s pk q).qbase.toNat + 64 * ((queueOf s pk q).head % 2 ^ (queueOf s pk q).size))) 64)
    (hheader : leNat (bs.take 8) < 2 ^ 11) :
    s.packetStart pk q = withQueue s pk q { queueOf s pk q with engine := some { packet := bs } } := by
  have hx : (s.pkg pk).queue q = queueOf s pk q := rfl
  have hfield : fieldAt bs 0 8 >>> 11 = 0 := (shiftRight_eq_zero_iff _ 11).mpr hheader
  have hne' : ((queueOf s pk q).head == (queueOf s pk q).tail) = false := beq_eq_false_iff_ne.mpr hne
  have hroom' : ¬ between (queueOf s pk q).tail (queueOf s pk q).head > 2 ^ (queueOf s pk q).size := Nat.not_lt.mpr hroom
  simp only [State.packetStart, hx, hr, hst, hg, hne', diff17_eq_between, Nat.one_shiftLeft, hroom', ← hbs, hfield, Bool.not_true, bne_self_eq_false,
    Option.isSome_none, Bool.or_self, Bool.false_eq_true, decide_false, ne_eq, not_true_eq_false, if_false]
  rfl

end
end Sys2Proof.Claims

namespace Sys2Proof.Proofs
open Sys2Proof Sys2Proof.Machine Sys2Proof.Claims

/-- Settles O40, register by register; the readings that the statement rests on are those of logs 60, 62, 65, 67, 70 and 113. -/
theorem hostRegisters : Obligations.HostRegisters := by
  intro s pk q v hq hv hr p x
  refine ⟨fun hlow hroom => doorbell_moves hq hlow hr hroom,
    fun hst => ⟨fun hhigh => stops_of_queueError ((exec_doorbell hq hv).trans (congrArg _ (doorbell_reserved hr hst hhigh))),
      fun hlow hover => doorbell_outside_ring hq hlow hr hst hover⟩,
    fun hst hhigh => (exec_doorbell hq hv).trans (congrArg _ (doorbell_discarded hst hhigh)),
    fun h8 hen hst => ⟨fun bs hi hsigned hchecks => qctlEnable_runs hq hv hr h8 hen hst hi hsigned hchecks,
      fun hbad => qctlEnable_refuses hq hv hr h8 hen hst hbad⟩,
    fun hst hen himage hsize => qctlRestart_runs hq hr hst hen himage hsize,
    fun hovf => ⟨evctlWrite_writes hr hovf, evheadWrite_writes hr hovf⟩,
    fun hovf hen hroom => evheadWrite_posts hr hovf hen hroom,
    fun h0 => evstatWrite_writes hr h0,
    fun hst => resync_takes hv hr hst,
    fun hst => resyncComplete_writes hst,
    fun hen => registerWrite_evbase hv hr hen,
    registerWrite_descriptor hq hv hr,
    fun bs hst hg hne hroom hbs hheader => ?packet⟩
  case packet =>
    have htakes : (Host.Outcome.next (s.packetStart pk q) : Out) = _ := congrArg Host.Outcome.next (packetStart_takes hr hst hg hne hroom hbs hheader)
    constructor
    · show Host.Outcome.next (s.packetStart pk (q % 256)) = _
      rw [Nat.mod_eq_of_lt hq]
      exact htakes
    · show Host.Outcome.next (s.packetStart pk ((256 * (v / 256) + q) % 256)) = _
      rw [Nat.mul_add_mod, Nat.mod_eq_of_lt hq]
      exact htakes

end Sys2Proof.Proofs
end

section
/-! The pilot engine: where it goes, what its registers hold, and one instruction at a time (spec/12 R235, R239). -/
namespace Sys2Proof.Claims
open Sys2Proof Sys2Proof.Machine

/-! ### Where the engine goes -/

theorem go_outside {g : Engine} (h : g.loops = []) (off : Nat) : g.go off = { g with off := off, blocked := none } := by
  simp [Engine.go, loopBack, h]

section
variable {g : Engine} {l : PilotLoop} {ls : List PilotLoop} {off : Nat} (hl : g.loops = l :: ls)
include hl

/-- Inside a body the engine goes where it is told. -/
theorem go_inside (h : off ≠ l.stop) : g.go off = { g with off := off, blocked := none } := by
  simp [Engine.go, loopBack, hl, h]

/-- At a body's end it goes round again while passes are left. -/
theorem go_round (h : off = l.stop) (hleft : 1 < l.left) :
    g.go off = { g with off := l.start, loops := { l with left := l.left - 1 } :: ls, blocked := none } := by
  simp [Engine.go, loopBack, hl, h, hleft]

/-- After the last pass the loop closes, and the loop around it decides. -/
theorem go_closed (h : off = l.stop) (hleft : l.left ≤ 1) : g.go off = ({ g with loops := ls } : Engine).go off := by
  have hlast : ¬ 1 < l.left := Nat.not_lt.mpr hleft
  simp only [Engine.go, loopBack, hl, h, if_true, gt_iff_lt, hlast, if_false]

end

/-! ### Registers -/

/-- What x(r) reads after x(n) was written; x0 stays zero. -/
theorem reg_put (g : Engine) (n r : Nat) (v : Word) : (g.put n v).reg r = if r = 0 then 0 else if r = n then v else g.reg r := by
  by_cases h0 : r = 0
  · rw [Engine.reg, if_pos h0, if_pos h0]
  · rw [Engine.reg, Engine.reg, if_neg h0, if_neg h0, if_neg h0]
    exact SMap.get_put _ _ _ _ _

theorem putsX_put (g : Engine) (n : Nat) (v : Word) : PutsX g (g.put n v) n v := ⟨fun r => reg_put g n r v, rfl⟩

/-! ### One instruction -/

theorem setEngine_eq (s : State) (pk q : Nat) (g : Engine) : s.setEngine pk q g = withQueue s pk q { queueOf s pk q with engine := some g } :=
  rfl

section
variable {s : State} {pk q : Nat} {g : Engine} {i : PilotIns}

/-- At an instruction of its opcode, and of its function where it has one, the engine executes it. -/
theorem pilotStep_at (h : AtPilot s pk q g i) {op : Nat} (hop : i.op = op) {fn : Option Nat} (hfn : fn.all (fun f => i.imm16 == f) = true)
    (body : Engine → PilotIns → State) : s.pilotStep pk q op fn body = .next (body g i) := by
  obtain ⟨hg, hb, hi⟩ := h
  have hg' : ((s.pkg pk).queue q).engine = some g := hg
  have hi' : pilotIns ((((s.pkg pk).queue q).image.drop g.off).take 8) = i := hi.symm
  cases fn with
  | none => simp only [State.pilotStep, hg', hi', hb, hop, Option.isSome_none, ne_eq, not_true_eq_false, decide_false, Bool.or_self,
      Bool.false_eq_true, if_false]
  | some f =>
    have hf : (i.imm16 != f) = false := by simpa using hfn
    simp only [State.pilotStep, hg', hi', hb, hop, hf, Option.isSome_none, ne_eq, not_true_eq_false, decide_false, Bool.or_self,
      Bool.false_eq_true, if_false]

/-- An instruction that computes a value from the engine's registers goes on with it in x(X). -/
theorem puts_of_pilotStep (h : AtPilot s pk q g i) {op : Nat} (hop : i.op = op) {n : Instr} (v : Engine → PilotIns → Word)
    (hn : exec n s = s.pilotStep pk q op none (fun g i => s.setEngine pk q (g.put i.x (v g i)))) :
    ∃ h, PutsX g h i.x (v g i) ∧ Pilots n s pk q h := ⟨_, putsX_put g i.x _, hn.trans (pilotStep_at h hop rfl _)⟩

/-! ### Loops -/

theorem loopn_enters (h : AtPilot s pk q g i) (hop : i.op = 8) (hn : 0 < Nat.min (g.reg i.x).toNat i.imm32.toNat) (hbody : 0 < i.imm16) :
    Pilots (.loopn pk q) s pk q { g with
      off := g.off + 8
      loops := { start := g.off + 8, stop := g.off + 8 + 8 * i.imm16, left := Nat.min (g.reg i.x).toNat i.imm32.toNat } :: g.loops } := by
  have hnot : (decide (Nat.min (g.reg i.x).toNat i.imm32.toNat = 0) || decide (i.imm16 = 0)) = false := by
    rw [decide_eq_false (Nat.ne_of_gt hn), decide_eq_false (Nat.ne_of_gt hbody)]
    rfl
  show execLoopn pk q s = _
  rw [execLoopn, pilotStep_at h hop rfl]
  exact congrArg (fun h => Host.Outcome.next (s.setEngine pk q h)) (if_neg (Bool.eq_false_iff.mp hnot))

theorem loopn_skips (h : AtPilot s pk q g i) (hop : i.op = 8) (hn : Nat.min (g.reg i.x).toNat i.imm32.toNat = 0) :
    Pilots (.loopn pk q) s pk q (g.go (g.off + 8 + 8 * i.imm16)) := by
  have hskip : (decide (Nat.min (g.reg i.x).toNat i.imm32.toNat = 0) || decide (i.imm16 = 0)) = true := by
    rw [decide_eq_true hn]
    rfl
  show execLoopn pk q s = _
  rw [execLoopn, pilotStep_at h hop rfl]
  exact congrArg (fun h => Host.Outcome.next (s.setEngine pk q h)) (if_pos hskip)

theorem beq_goes (h : AtPilot s pk q g i) (hop : i.op = 7) :
    Pilots (.pilotBeq pk q) s pk q (g.go (if g.reg i.x = g.reg i.y then g.off + 8 + 8 * i.imm16 else g.off + 8)) := by
  have hoff : (g.off + 8 + if g.reg i.x = g.reg i.y then 8 * i.imm16 else 0) = if g.reg i.x = g.reg i.y then g.off + 8 + 8 * i.imm16 else g.off + 8 := by
    split <;> rfl
  show execPilotBeq pk q s = _
  rw [execPilotBeq, pilotStep_at h hop rfl, hoff]
  rfl

/-! ### LDI -/

/-- The engine after an LDI that takes v from a unit, which it keeps for the packet (R239, log 64). -/
def fetched (g : Engine) (n u : Nat) (bs : List Byte) (v : Word) : Engine := { g.put n v with last := some u, units := SMap.put g.units u bs }

theorem reg_fetched (g : Engine) (n u r : Nat) (bs : List Byte) (v : Word) :
    (fetched g n u bs v).reg r = if r = 0 then 0 else if r = n then v else g.reg r := reg_put g n r v

theorem inWindow_iff (x : HQueue) (u : Nat) : x.inWindow u = true ↔ x.qiwbase.toNat ≤ u ∧ u + 64 ≤ x.qiwbase.toNat + x.qiwsize.toNat := by
  rw [HQueue.inWindow, Bool.and_eq_true, decide_eq_true_eq, decide_eq_true_eq]

/-- Bytes behind a unit, where LDI runs over its end (log 61). -/
def pastUnit (s : State) : List Byte := (upTo 7).map (fun j => Config.freeByte (64 * s.fresh + j))

/-- LDI of an address whose unit lies in the window. -/
theorem ldi_inside (h : AtPilot s pk q g i) (hop : i.op = 2) {e : Nat} (he : e = (g.reg i.y + BitVec.ofInt 64 i.imm32).toNat)
    (hlo : (queueOf s pk q).qiwbase.toNat ≤ e / 64 * 64)
    (hhi : e / 64 * 64 + 64 ≤ (queueOf s pk q).qiwbase.toNat + (queueOf s pk q).qiwsize.toNat) :
    exec (.ldi pk q) s = .next ((if e % 64 ≤ 56 then s else s.freshened).setEngine pk q (fetched g i.x (e / 64 * 64) (s.unitBytes g (e / 64 * 64))
      (natWord (fieldAt (s.unitBytes g (e / 64 * 64) ++ pastUnit s) (e % 64) 8)))) := by
  have hin : ((s.pkg pk).queue q).inWindow (e / 64 * 64) = true := (inWindow_iff _ _).mpr ⟨hlo, hhi⟩
  have hrest : e - e / 64 * 64 = e % 64 := by omega
  have hea : (g.reg i.y + toWord i.imm32).toNat = e := he.symm
  show execLdi pk q s = _
  rw [execLdi, pilotStep_at h hop rfl]
  simp only [hea, hin, hrest, Bool.not_true, Bool.false_eq_true, if_false]
  rfl

/-- LDI of an address whose unit does not is queue error 4 (R233, R239). -/
theorem ldi_outside (h : AtPilot s pk q g i) (hop : i.op = 2) {e : Nat} (he : e = (g.reg i.y + BitVec.ofInt 64 i.imm32).toNat)
    (hout : e / 64 * 64 < (queueOf s pk q).qiwbase.toNat ∨ (queueOf s pk q).qiwbase.toNat + (queueOf s pk q).qiwsize.toNat < e / 64 * 64 + 64) :
    exec (.ldi pk q) s = .next (s.queueError pk q 4) := by
  have hnot : ¬ ((s.pkg pk).queue q).inWindow (e / 64 * 64) = true := fun hin => by
    have := (inWindow_iff (queueOf s pk q) _).mp hin
    omega
  have hea : (g.reg i.y + toWord i.imm32).toNat = e := he.symm
  show execLdi pk q s = _
  rw [execLdi, pilotStep_at h hop rfl]
  simp only [hea, hnot, Bool.not_false, if_true]

theorem leNat_append : ∀ as bs : List Byte, leNat (as ++ bs) = leNat as + 256 ^ as.length * leNat bs
  | [], bs => by simp [leNat]
  | a :: as, bs => by
    rw [List.cons_append, leNat, leNat, leNat_append as bs, List.length_cons, Nat.pow_succ', Nat.mul_add, Nat.add_assoc, Nat.mul_assoc]

/-- A field that lies in the first of two lists of bytes. -/
theorem fieldAt_append_left {as bs : List Byte} {off n : Nat} (h : off + n ≤ as.length) : fieldAt (as ++ bs) off n = leNat ((as.drop off).take n) := by
  rw [fieldAt, List.drop_append_of_le_length (by omega), List.take_append_of_le_length (by rw [List.length_drop]; omega)]

/-- A field that runs over the end of the first: its low bytes are those that are there. -/
theorem fieldAt_append_mod {as bs : List Byte} {off n : Nat} (hoff : off ≤ as.length) (hn : as.length ≤ off + n) :
    fieldAt (as ++ bs) off n % 256 ^ (as.length - off) = leNat (as.drop off) := by
  have hlen : (as.drop off).length = as.length - off := List.length_drop
  rw [fieldAt, List.drop_append_of_le_length hoff, List.take_append, List.take_of_length_le (by omega), leNat_append, hlen, Nat.add_mul_mod_self_left,
    ← hlen, Nat.mod_eq_of_lt (leNat_lt _)]

/-- A field of eight bytes fits a doubleword. -/
theorem fieldAt_eight_lt (bs : List Byte) (off : Nat) : fieldAt bs off 8 < 2 ^ 64 := by
  have hlt := leNat_lt ((bs.drop off).take 8)
  have hle : 256 ^ ((bs.drop off).take 8).length ≤ 256 ^ 8 := Nat.pow_le_pow_right (by decide) (List.length_take_le 8 _)
  exact Nat.lt_of_lt_of_le hlt hle

/-- LDI of eight bytes within the unit puts them in x(X) (R235, R239). -/
theorem ldi_takes (h : AtPilot s pk q g i) (hop : i.op = 2) {e : Nat} (he : e = (g.reg i.y + BitVec.ofInt 64 i.imm32).toNat)
    (hlo : (queueOf s pk q).qiwbase.toNat ≤ e / 64 * 64)
    (hhi : e / 64 * 64 + 64 ≤ (queueOf s pk q).qiwbase.toNat + (queueOf s pk q).qiwsize.toNat)
    (hlen : (s.unitBytes g (e / 64 * 64)).length = 64) (hwhole : e % 64 ≤ 56) :
    Pilots (.ldi pk q) s pk q (fetched g i.x (e / 64 * 64) (s.unitBytes g (e / 64 * 64))
      (BitVec.ofNat 64 (leNat (((s.unitBytes g (e / 64 * 64)).drop (e % 64)).take 8)))) := by
  have hfield := fieldAt_append_left (as := s.unitBytes g (e / 64 * 64)) (bs := pastUnit s) (off := e % 64) (n := 8) (by omega)
  have hexec := ldi_inside h hop he hlo hhi
  rw [if_pos hwhole, hfield] at hexec
  exact hexec

/-- One that runs over its end puts there the bytes that the unit has, and free values (log 61). -/
theorem ldi_takes_part (h : AtPilot s pk q g i) (hop : i.op = 2) {e : Nat} (he : e = (g.reg i.y + BitVec.ofInt 64 i.imm32).toNat)
    (hlo : (queueOf s pk q).qiwbase.toNat ≤ e / 64 * 64)
    (hhi : e / 64 * 64 + 64 ≤ (queueOf s pk q).qiwbase.toNat + (queueOf s pk q).qiwsize.toNat)
    (hlen : (s.unitBytes g (e / 64 * 64)).length = 64) (hover : 56 < e % 64) :
    ∃ t v, exec (.ldi pk q) s = .next t ∧ t.mem = s.mem ∧
      (queueOf t pk q).engine = some (fetched g i.x (e / 64 * 64) (s.unitBytes g (e / 64 * 64)) v) ∧
      v.toNat % 256 ^ (64 - e % 64) = leNat ((s.unitBytes g (e / 64 * 64)).drop (e % 64)) := by
  have hfield := fieldAt_append_mod (as := s.unitBytes g (e / 64 * 64)) (bs := pastUnit s) (off := e % 64) (n := 8) (by omega) (by omega)
  have hexec := ldi_inside h hop he hlo hhi
  rw [if_neg (Nat.not_le.mpr hover), setEngine_eq] at hexec
  refine ⟨_, _, hexec, rfl, by rw [queueOf_withQueue], ?_⟩
  rw [natWord, BitVec.toNat_ofNat, Nat.mod_eq_of_lt (fieldAt_eight_lt _ _)]
  rwa [hlen] at hfield

end
end Sys2Proof.Claims
end

section
/-! LAUNCH, region operations, waits, events and ends of the pilot engine (spec/12 R235, R237, R238, R242, R244). -/
namespace Sys2Proof.Machine
open Sys2Proof

/-! ### What a flit leaves of a package -/

theorem queues_flitAlong (src dst : Nat) (f : Flit) (pk : Nat) : ∀ (n at_ : Nat) (s : State),
    ((flitAlong src dst f n at_ s).pkg pk).queues = (s.pkg pk).queues
  | 0, _, _ => rfl
  | n + 1, at_, s => by
    unfold flitAlong
    split
    · rfl
    · split
      · rfl
      · rw [queues_flitAlong src dst f pk n]
        by_cases h : pk = at_
        · subst h
          rw [State.pkg_modPkg_self]
          rfl
        · rw [State.modPkg, State.pkg_setPkg_of_ne _ _ h]

theorem State.queues_linkFlits (src dst n pk : Nat) (s : State) : ((s.linkFlits src dst n).pkg pk).queues = (s.pkg pk).queues := by
  unfold State.linkFlits
  split
  · rfl
  · generalize upTo ((n + 231) / 232) = l
    induction l generalizing s with
    | nil => rfl
    | cons j l ih =>
      rw [List.foldl_cons, ih]
      exact queues_flitAlong src dst _ pk _ _ _

/-- A packet on its way leaves every queue as it was. -/
theorem State.queues_transmit (s : State) (src dst : Nat) (body : Body) (pk : Nat) :
    ((s.transmit src dst body).pkg pk).queues = (s.pkg pk).queues := State.queues_linkFlits src dst 64 pk s

/-! ### Fields of a block -/

@[simp] theorem State.blk_setBlk_self (s : State) (pkg a : Nat) (f : Nat × Nat) (v : Nat) : (s.setBlk pkg a f v).blk pkg a f = v % 256 ^ f.2 :=
  State.natAt_pokeNat s _ _ v

/-- A field that lies apart from the one written reads as before. -/
theorem State.blk_setBlk_of_apart (s : State) (pkg a : Nat) {f f' : Nat × Nat} (v : Nat) (h : f'.1 + f'.2 ≤ f.1 ∨ f.1 + f.2 ≤ f'.1) :
    (s.setBlk pkg a f v).blk pkg a f' = s.blk pkg a f' := by
  refine State.natAt_congr fun adr hlo hhi => State.byteAt_poke_out ?_
  rw [length_leBytes]
  omega

/-- The slips that carry a region's actors are a matter of the berths alone. -/
theorem State.boundMembers_congr {s t : State} (h : t.berths = s.berths) (r : Region) : t.boundMembers r = s.boundMembers r := by
  simp only [State.boundMembers, State.slip, State.berth, h]

end Sys2Proof.Machine

namespace Sys2Proof.Claims
open Sys2Proof Sys2Proof.Machine

theorem blockKept_setBlk (s : State) (pkg a : Nat) (f : Nat × Nat) (v : Nat) : BlockKept s (s.setBlk pkg a f v) pkg a [f] := fun adr h => by
  have hout := h f (List.mem_singleton_self f)
  refine State.byteAt_poke_out ?_
  rw [length_leBytes]
  exact hout

/-- A node that becomes READY: its STATE, its AGE, and no other byte (R214). -/
theorem readyRegion_spec (s : State) (pkg a : Nat) : (s.readyRegion pkg a).regionState pkg a = 1 ∧
    (s.readyRegion pkg a).blk pkg a fAge = ((s.pkg pkg).ageSeq + 1) % 2 ^ 32 ∧ BlockKept s (s.readyRegion pkg a) pkg a [fState, fAge] := by
  refine ⟨?state, ?age, fun adr h => ?kept⟩
  case state =>
    rw [State.regionState, State.readyRegion, State.setRegionState, State.blk_setBlk_self]
    rfl
  case age =>
    rw [State.readyRegion, State.setRegionState, State.blk_setBlk_of_apart _ _ _ _ (by decide), State.blk_setBlk_self, Nat.one_shiftLeft]
    exact Nat.mod_mod _ _
  case kept =>
    rw [State.readyRegion, State.setRegionState]
    exact (blockKept_setBlk _ pkg a fState 1 adr (fun f hf => h f (by rw [List.mem_singleton.mp hf]; simp))).trans
      (blockKept_setBlk _ pkg a fAge _ adr (fun f hf => h f (by rw [List.mem_singleton.mp hf]; simp)))

section
variable {s : State} {pk q : Nat} {g : Engine} {i : PilotIns}

/-! ### LAUNCH -/

/-- The class that a packet requests (R234). -/
def classAsked (g : Engine) : Nat := bitsOf (fieldAt g.packet 0 8) 9 8

/-- s once the first LAUNCH of a packet has recorded the class it requests (R238). -/
def recorded (s : State) (pk q : Nat) (g : Engine) : State :=
  if (!g.launched && classAsked g != 3) = true then withQueue s pk q { queueOf s pk q with fclass := some (classAsked g) } else s

/-- A record of the class changes neither memory, berths and packets, nor anything else of the queue (R238). -/
theorem recorded_keeps (s : State) (pk q : Nat) (g : Engine) : (recorded s pk q g).mem = s.mem ∧ (recorded s pk q g).berths = s.berths ∧
    (recorded s pk q g).net = s.net ∧ (queueOf (recorded s pk q g) pk q).head = (queueOf s pk q).head := by
  rw [recorded]
  split
  · exact ⟨rfl, rfl, rfl, by rw [queueOf_withQueue]⟩
  · exact ⟨rfl, rfl, rfl, rfl⟩

theorem exec_pilotLaunch (h : AtPilot s pk q g i) (hop : i.op = 9) : exec (.pilotLaunch pk q) s = .next (s.tryLaunch pk q g i) := by
  show execPilotLaunch pk q s = _
  rw [execPilotLaunch, pilotStep_at h hop rfl]

/-- A block outside the queue's tree is error 6 (R237). -/
theorem tryLaunch_outside (htree : s.inTree pk q (g.reg i.y).toNat = false) : s.tryLaunch pk q g i = (recorded s pk q g).queueError pk q 6 := by
  simp only [State.tryLaunch, htree, Bool.not_false, if_true]
  rfl

section
variable (htree : s.inTree pk q (g.reg i.y).toNat = true)
include htree

/-- A region that is not bound and FAULTED is error 7 (R237, R242). -/
theorem tryLaunch_faulted (hfind : (s.pkg pk).regions.find? (fun r => r.block == (g.reg i.y).toNat && !r.suspended) = none)
    (hst : s.regionState pk (g.reg i.y).toNat = 6 ∨ s.regionState pk (g.reg i.y).toNat = 7) :
    s.tryLaunch pk q g i = { (recorded s pk q g).queueErrorWith pk q 7 (s.faultRecordOf pk (g.reg i.y).toNat) with fresh := s.fresh + 1 } := by
  have hst' : (decide (s.regionState pk (g.reg i.y).toNat = 6) || decide (s.regionState pk (g.reg i.y).toNat = 7)) = true := by
    rw [Bool.or_eq_true, decide_eq_true_eq, decide_eq_true_eq]
    exact hst
  simp only [State.tryLaunch, htree, hfind, hst', Bool.not_true, Bool.false_eq_true, if_false, if_true]
  rfl

/-- One that is not bound and not FAULTED blocks the LAUNCH (R237). -/
theorem tryLaunch_waits (hfind : (s.pkg pk).regions.find? (fun r => r.block == (g.reg i.y).toNat && !r.suspended) = none)
    (hst : s.regionState pk (g.reg i.y).toNat < 3) :
    s.tryLaunch pk q g i = (recorded s pk q g).setEngine pk q { g with blocked := some .launch } := by
  have hst' : (decide (s.regionState pk (g.reg i.y).toNat = 6) || decide (s.regionState pk (g.reg i.y).toNat = 7)) = false := by
    rw [Bool.or_eq_false_iff, decide_eq_false_iff_not, decide_eq_false_iff_not]
    omega
  simp only [State.tryLaunch, htree, hfind, hst', Bool.not_true, Bool.false_eq_true, if_false]
  rfl

/-- A bound region, no HOLD, a handler in its range and a page of its address space: the last steps of LAUNCH (R237). -/
theorem tryLaunch_resolves {r : Region} {leaf base size : Nat}
    (hfind : (s.pkg pk).regions.find? (fun r => r.block == (g.reg i.y).toNat && !r.suspended) = some r)
    (hhold : (leNat (g.packet.take 8)).testBit 10 = false) (hlo : r.hbase ≤ (g.reg 1).toNat) (hhi : (g.reg 1).toNat < r.hlimit)
    (hva : (g.reg 2).toNat < 2 ^ 57) (hwalk : s.walkFrom pk r.ptroot (g.reg 2).toNat = .leaf leaf base size) :
    s.tryLaunch pk q g i = (recorded s pk q g).sendLaunch pk q g r leaf := by
  have hhold' : bitOf (fieldAt g.packet 0 8) 10 = false := by
    rw [bitOf_eq_testBit]
    exact hhold
  have hrange : (decide ((g.reg 1).toNat < r.hbase) || decide (r.hlimit ≤ (g.reg 1).toNat) || decide ((g.reg 2).toNat ≥ 1 <<< 57)) = false := by
    rw [Bool.or_eq_false_iff, Bool.or_eq_false_iff, decide_eq_false_iff_not, decide_eq_false_iff_not, decide_eq_false_iff_not, Nat.one_shiftLeft]
    omega
  simp only [State.tryLaunch, htree, hfind, hhold', hrange, hwalk, Bool.not_true, Bool.and_false, Bool.false_and, Bool.false_eq_true, if_false]
  rfl

end

/-- The message of a LAUNCH (R237). -/
def launchOf (s : State) (pk q : Nat) (g : Engine) : Launch :=
  { words := (List.range 8).map (fun j => g.reg (j + 1)), queue := q, packet := (queueOf s pk q).head, pkg := pk }

/-- The page's owner takes launches and stands in a slip: the message goes to that slip, and the engine goes on (R237). -/
theorem sendLaunch_sends {r : Region} {leaf slot : Nat} {m : Member} (hclass : classOf leaf = .owned) (hslot : r.owners[ownerOf leaf]? = some slot)
    (hlaunch : slot ∈ r.launches) (hm : (s.boundMembers r).find? (fun m => m.actor == slot) = some m) :
    s.sendLaunch pk q g r leaf = (s.setEngine pk q (({ g with launched := true, page := none, pageBad := false } : Engine).go (g.off + 8))).transmit
      (hmPort pk) m.berth (.launch m.slip m.tag (launchOf s pk q g)) := by
  have hactor : r.owners.getD (ownerOf leaf) noActor = slot := by rw [List.getD_eq_getElem?_getD, hslot, Option.getD_some]
  have hadmits : (decide (classOf leaf ≠ .owned) || !r.launches.contains slot) = false := by simp [hclass, hlaunch]
  simp only [State.sendLaunch, hactor, hadmits, hm, Bool.false_eq_true, if_false]
  rfl

theorem pilotLaunch_faulted (h : AtPilot s pk q g i) (hop : i.op = 9) (htree : s.inTree pk q (g.reg i.y).toNat = true)
    (hst : s.regionState pk (g.reg i.y).toNat = 6 ∨ s.regionState pk (g.reg i.y).toNat = 7)
    (hfind : (s.pkg pk).regions.find? (fun r => r.block == (g.reg i.y).toNat && !r.suspended) = none) :
    ∃ t, exec (.pilotLaunch pk q) s = .next t ∧ (queueOf t pk q).st = 2 ∧ (queueOf t pk q).err = 7 := by
  have hexec := exec_pilotLaunch h hop
  rw [tryLaunch_faulted htree hfind hst] at hexec
  exact ⟨_, hexec, (stopped_queueErrorWith (recorded s pk q g) pk q 7 _).registers⟩

theorem pilotLaunch_waits (h : AtPilot s pk q g i) (hop : i.op = 9) (htree : s.inTree pk q (g.reg i.y).toNat = true)
    (hst : s.regionState pk (g.reg i.y).toNat < 3)
    (hfind : (s.pkg pk).regions.find? (fun r => r.block == (g.reg i.y).toNat && !r.suspended) = none) :
    ∃ t, exec (.pilotLaunch pk q) s = .next t ∧ t.net = s.net ∧ t.mem = s.mem ∧ (queueOf t pk q).engine = some { g with blocked := some .launch } := by
  obtain ⟨hmem, -, hnet, -⟩ := recorded_keeps s pk q g
  have hexec := exec_pilotLaunch h hop
  rw [tryLaunch_waits htree hfind hst, setEngine_eq] at hexec
  exact ⟨_, hexec, hnet, hmem, by rw [queueOf_withQueue]⟩

theorem pilotLaunch_sends (h : AtPilot s pk q g i) (hop : i.op = 9) {r : Region} {leaf base size slot : Nat} {m : Member}
    (htree : s.inTree pk q (g.reg i.y).toNat = true)
    (hfind : (s.pkg pk).regions.find? (fun r => r.block == (g.reg i.y).toNat && !r.suspended) = some r)
    (hhold : (leNat (g.packet.take 8)).testBit 10 = false) (hlo : r.hbase ≤ (g.reg 1).toNat) (hhi : (g.reg 1).toNat < r.hlimit)
    (hva : (g.reg 2).toNat < 2 ^ 57) (hwalk : s.walkFrom pk r.ptroot (g.reg 2).toNat = .leaf leaf base size) (hclass : classOf leaf = .owned)
    (hslot : r.owners[ownerOf leaf]? = some slot) (hlaunch : slot ∈ r.launches)
    (hm : (s.boundMembers r).find? (fun m => m.actor == slot) = some m) :
    ∃ t, exec (.pilotLaunch pk q) s = .next t ∧ t.mem = s.mem ∧ t.berths = s.berths ∧
      (∃ src, t.net = (sent s src m.berth (.launch m.slip m.tag (launchOf s pk q g))).net) ∧
      (∃ h, (queueOf t pk q).engine = some h ∧ h.off = (g.go (g.off + 8)).off ∧ h.blocked = none ∧ h.x = g.x) := by
  obtain ⟨hmem, hberths, hnet, hhead⟩ := recorded_keeps s pk q g
  have hmsg : launchOf (recorded s pk q g) pk q g = launchOf s pk q g := by rw [launchOf, launchOf, hhead]
  have hexec := exec_pilotLaunch h hop
  rw [tryLaunch_resolves htree hfind hhold hlo hhi hva hwalk,
    sendLaunch_sends hclass hslot hlaunch (by rw [State.boundMembers_congr hberths]; exact hm), hmsg] at hexec
  refine ⟨_, hexec, ?mem, ?berths, ⟨hmPort pk, ?net⟩, ⟨({ g with launched := true, page := none, pageBad := false } : Engine).go (g.off + 8), ?engine, rfl, rfl, rfl⟩⟩
  case mem =>
    rw [State.transmit_mem]
    exact hmem
  case berths =>
    rw [State.transmit_berths]
    exact hberths
  case net =>
    rw [State.transmit_net]
    exact congrArg (· ++ _) hnet
  case engine =>
    rw [queueOf_congr (State.queues_transmit _ _ _ _ pk), setEngine_eq, queueOf_withQueue]

/-! ### Region operations -/

/-- On a block of the queue's tree a region operation is carried out (R233, R235). -/
theorem regop_inside (htree : s.inTree pk q (g.reg i.y).toNat = true) (f : State → State) : s.regop pk q (g.reg i.y).toNat f = f s := by
  rw [State.regop, if_pos htree]

theorem regopReady_readies (h : AtPilot s pk q g i) (hop : i.op = 10) (htree : s.inTree pk q (g.reg i.y).toNat = true) (hfn : i.imm16 = 0)
    (hfree : s.regionState pk (g.reg i.y).toNat = 0) :
    ∃ t, exec (.regopReady pk q) s = .next t ∧ t.regionState pk (g.reg i.y).toNat = 1 ∧
      t.blk pk (g.reg i.y).toNat fAge = ((s.pkg pk).ageSeq + 1) % 2 ^ 32 ∧ BlockKept s t pk (g.reg i.y).toNat [fState, fAge] ∧
      (queueOf t pk q).engine = some (g.go (g.off + 8)) := by
  obtain ⟨hstate, hage, hkept⟩ := readyRegion_spec s pk (g.reg i.y).toNat
  have hexec : exec (.regopReady pk q) s = .next (((s.readyRegion pk (g.reg i.y).toNat).setEngine pk q (g.go (g.off + 8))).modPkg pk (fun p =>
      { p with faultRecords := SMap.erase p.faultRecords (g.reg i.y).toNat })) := by
    show execRegopReady pk q s = _
    rw [execRegopReady, pilotStep_at h hop (by simp [hfn])]
    simp only [regop_inside htree, hfree, ne_eq, not_true_eq_false, if_false]
  refine ⟨_, hexec, hstate, hage, hkept, ?_⟩
  rw [queueOf, State.pkg_modPkg_self]
  exact congrArg HQueue.engine (queueOf_withQueue (s.readyRegion pk (g.reg i.y).toNat) pk q _)

theorem regopReady_refuses (h : AtPilot s pk q g i) (hop : i.op = 10) (htree : s.inTree pk q (g.reg i.y).toNat = true) (hfn : i.imm16 = 0)
    (hbusy : s.regionState pk (g.reg i.y).toNat ≠ 0) : exec (.regopReady pk q) s = .next (s.queueError pk q 9) := by
  show execRegopReady pk q s = _
  rw [execRegopReady, pilotStep_at h hop (by simp [hfn])]
  simp only [regop_inside htree, hbusy, ne_eq, not_false_eq_true, if_true]

/-- A region operation that writes one field of the block. -/
theorem field_written {n : Instr} {a v : Nat} {f : Nat × Nat} {g' : Engine} (hexec : exec n s = .next ((s.setBlk pk a f v).setEngine pk q g')) :
    ∃ t, exec n s = .next t ∧ t.blk pk a f = v % 256 ^ f.2 ∧ BlockKept s t pk a [f] ∧ (queueOf t pk q).engine = some g' :=
  ⟨_, hexec, s.blk_setBlk_self pk a f v, blockKept_setBlk s pk a f v, by rw [setEngine_eq, queueOf_withQueue]⟩

theorem regopPrio_writes (h : AtPilot s pk q g i) (hop : i.op = 10) (htree : s.inTree pk q (g.reg i.y).toNat = true) (hfn : i.imm16 = 1) :
    ∃ t, exec (.regopPrio pk q) s = .next t ∧ t.blk pk (g.reg i.y).toNat fPrio = (g.reg i.x).toNat % 16 ∧
      BlockKept s t pk (g.reg i.y).toNat [fPrio] ∧ (queueOf t pk q).engine = some (g.go (g.off + 8)) := by
  have hexec : exec (.regopPrio pk q) s =
      .next ((s.setBlk pk (g.reg i.y).toNat fPrio ((g.reg i.x).toNat % 16)).setEngine pk q (g.go (g.off + 8))) := by
    show execRegopPrio pk q s = _
    rw [execRegopPrio, pilotStep_at h hop (by simp [hfn])]
    simp only [regop_inside htree]
  have hwritten := field_written hexec
  rwa [show (g.reg i.x).toNat % 16 % 256 ^ fPrio.2 = (g.reg i.x).toNat % 16 by show _ % 256 ^ 1 = _; omega] at hwritten

theorem regopArgs_writes (h : AtPilot s pk q g i) (hop : i.op = 10) (htree : s.inTree pk q (g.reg i.y).toNat = true) (hfn : i.imm16 = 2) :
    ∃ t, exec (.regopArgs pk q) s = .next t ∧ t.blk pk (g.reg i.y).toNat fArgs = (g.reg i.x).toNat ∧
      BlockKept s t pk (g.reg i.y).toNat [fArgs] ∧ (queueOf t pk q).engine = some (g.go (g.off + 8)) := by
  have hexec : exec (.regopArgs pk q) s = .next ((s.setBlk pk (g.reg i.y).toNat fArgs (g.reg i.x).toNat).setEngine pk q (g.go (g.off + 8))) := by
    show execRegopArgs pk q s = _
    rw [execRegopArgs, pilotStep_at h hop (by simp [hfn])]
    simp only [regop_inside htree]
  have hwritten := field_written hexec
  rwa [Nat.mod_eq_of_lt (show (g.reg i.x).toNat < 256 ^ fArgs.2 from (g.reg i.x).isLt)] at hwritten

/-! ### Waits, events, ends -/

theorem tryWaitr_goes (hst : 5 ≤ s.regionState pk (g.reg i.y).toNat) : s.tryWaitr pk q g i = s.setEngine pk q (g.go (g.off + 8)) := by
  rw [State.tryWaitr, if_pos hst]

theorem tryWaitr_waits (hst : s.regionState pk (g.reg i.y).toNat < 5) :
    s.tryWaitr pk q g i = s.setEngine pk q { g with blocked := some .waitr } := by
  rw [State.tryWaitr, if_neg (Nat.not_le.mpr hst)]

theorem exec_waitr (h : AtPilot s pk q g i) (hop : i.op = 11) : exec (.waitr pk q) s = .next (s.tryWaitr pk q g i) := by
  show execWaitr pk q s = _
  rw [execWaitr, pilotStep_at h hop rfl]

theorem exec_pilotEvent (h : AtPilot s pk q g i) (hop : i.op = 12) : exec (.pilotEvent pk q) s = .next (s.tryEvent pk q g i) := by
  show execPilotEvent pk q s = _
  rw [execPilotEvent, pilotStep_at h hop rfl]

/-- An EVENT whose turn it is, with a slot free, posts its event (R242, R244). -/
theorem pilotEvent_posts (h : AtPilot s pk q g i) (hop : i.op = 12) (hroom : Roomy (s.pkg pk)) (hovf : (s.pkg pk).ovf = false)
    (hturn : (s.pkg pk).eventBefore q = false) :
    ∃ t, exec (.pilotEvent pk q) s = .next t ∧
      Posted s t pk (leBytes 8 (1 + q * 256) ++ leBytes 8 (g.reg i.x).toNat ++ leBytes 4 (BitVec.ofInt 64 i.imm32).toNat ++
        leBytes 4 (queueOf s pk q).head) ∧
      (queueOf t pk q).engine = some (g.go (g.off + 8)) := by
  have hring := (ringFull_eq_false_iff _).mpr hroom
  have hexec := exec_pilotEvent h hop
  simp only [State.tryEvent, hring, hovf, hturn, Bool.or_self, Bool.false_eq_true, if_false] at hexec
  have hposted := posted_writeEvent (s.setEngine pk q (g.go (g.off + 8))) pk
    (length_eventBytes (code := 1) (q := q) (err := 0) (rest := leBytes 8 (g.reg i.x).toNat ++ leBytes 4 (toWord i.imm32).toNat ++
      leBytes 4 ((s.pkg pk).queue q).head) (by simp only [List.length_append, length_leBytes, Nat.reduceAdd, Nat.reduceLeDiff])) (getD_eventBytes 1 q 0 _)
  refine ⟨_, hexec, ?posted, ?engine⟩
  case posted =>
    have hback : SameRing (s.setEngine pk q (g.go (g.off + 8))) s pk := by
      refine ⟨rfl, rfl, ?_⟩
      rw [setEngine_eq, pkg_withQueue]
      rfl
    have hthere := hposted.of_sameRing hback (.refl _ pk)
    rw [← List.append_assoc, ← List.append_assoc, Nat.zero_mul, Nat.add_zero] at hthere
    exact hthere
  case engine =>
    rw [queueOf_congr (queuesKept_writeEvent _ pk _).1, setEngine_eq, queueOf_withQueue]

/-- Any other EVENT blocks (R244, log 66). -/
theorem pilotEvent_waits (h : AtPilot s pk q g i) (hop : i.op = 12)
    (hwait : ¬ Roomy (s.pkg pk) ∨ (s.pkg pk).ovf = true ∨ (s.pkg pk).eventBefore q = true) :
    Pilots (.pilotEvent pk q) s pk q { g with blocked := some .event } := by
  have hcond : ((s.pkg pk).ringFull || (s.pkg pk).ovf || (s.pkg pk).eventBefore q) = true := by
    rw [← ringFull_eq_false_iff, Bool.not_eq_false] at hwait
    rw [Bool.or_eq_true, Bool.or_eq_true, or_assoc]
    exact hwait
  have hexec := exec_pilotEvent h hop
  rw [State.tryEvent, if_pos hcond] at hexec
  exact hexec

theorem fail_stops (h : AtPilot s pk q g i) (hop : i.op = 13) : ∃ t, exec (.fail pk q) s = .next t ∧ Stopped s t pk q 3 := by
  refine ⟨_, ?_, stopped_queueError s pk q 3⟩
  show execFail pk q s = _
  rw [execFail, pilotStep_at h hop rfl]

theorem haltp_ends (h : AtPilot s pk q g i) (hop : i.op = 14) :
    exec (.haltp pk q) s = .next (withQueue s pk q { queueOf s pk q with head := ((queueOf s pk q).head + 1) % 2 ^ 17, engine := none }) := by
  show execHaltp pk q s = _
  rw [execHaltp, pilotStep_at h hop rfl]
  simp only [mod17, Nat.one_shiftLeft]
  rfl

/-- A blocked WAITR goes on once its block is DONE or FAULTED (R235). -/
theorem waitr_resumes (hg : (queueOf s pk q).engine = some g) (hb : g.blocked = some .waitr)
    (hst : 5 ≤ s.regionState pk (g.reg (pilotIns (((queueOf s pk q).image.drop g.off).take 8)).y).toNat) :
    Pilots (.pilotWaitResume pk q) s pk q (g.go (g.off + 8)) := by
  have hg' : ((s.pkg pk).queue q).engine = some g := hg
  show execPilotWaitResume pk q s = _
  simp only [execPilotWaitResume, hg', hb]
  exact congrArg Host.Outcome.next (tryWaitr_goes hst)

end
end Sys2Proof.Claims

namespace Sys2Proof.Proofs
open Sys2Proof Sys2Proof.Machine Sys2Proof.Claims

/-- Settles O41, instruction by instruction; the readings that the statement rests on are those of logs 12, 21, 47, 61, 63, 64, 66, 68, 74
and 113. -/
theorem pilotInstructions : Obligations.PilotInstructions := by
  refine ⟨fun g off => ⟨fun hl => go_outside hl off,
    fun l ls hl => ⟨go_inside hl, fun hoff hleft => go_round hl hoff hleft, fun hoff hleft => go_closed hl hoff hleft⟩⟩,
    ?instructions, fun s pk q g hg hb hst => waitr_resumes hg hb hst⟩
  intro s pk q g i h p x a puts
  refine ⟨fun hop => ?ldp, ?ldi, fun hop => ?movi, fun hop => ?add, fun hop => ?and, fun hop => ?shr, fun hop => beq_goes h hop,
    fun hop => ⟨fun hn hbody => loopn_enters h hop hn hbody, fun hn => loopn_skips h hop hn⟩, fun hop => ⟨?strange, ?faulted, ?waits, ?sends⟩,
    fun hop htree => ⟨fun hfn hfree => regopReady_readies h hop htree hfn hfree,
      fun hfn hbusy => stops_of_queueError (regopReady_refuses h hop htree hfn hbusy), fun hfn => regopPrio_writes h hop htree hfn,
      fun hfn => regopArgs_writes h hop htree hfn⟩,
    fun hop => ⟨fun hst => ?done, fun hst => ?undone⟩, fun hop hroom hovf hturn => pilotEvent_posts h hop hroom hovf hturn,
    fun hop hwait => pilotEvent_waits h hop hwait, fun hop => fail_stops h hop, fun hop => haltp_ends h hop⟩
  case ldp => exact puts_of_pilotStep h hop (fun g i => natWord (fieldAt g.packet (8 * i.imm16) 8)) rfl
  case movi => exact puts_of_pilotStep h hop (fun g i => toWord i.imm32) rfl
  case add => exact puts_of_pilotStep h hop (fun g i => g.reg i.x + g.reg i.y) rfl
  case and => exact puts_of_pilotStep h hop (fun g i => g.reg i.x &&& g.reg i.y) rfl
  case shr => exact puts_of_pilotStep h hop (fun g i => g.reg i.x >>> ((g.reg i.y).toNat % 64)) rfl
  case ldi =>
    intro hop e u bs
    refine ⟨fun hlo hhi hlen => ⟨fun hwhole => ?whole, fun hover => ?part⟩, fun hout => stops_of_queueError (ldi_outside h hop rfl hout)⟩
    case whole => exact ⟨_, fun r => reg_fetched g i.x u r bs _, rfl, rfl, rfl, ldi_takes h hop rfl hlo hhi hlen hwhole⟩
    case part =>
      obtain ⟨t, v, hexec, hmem, hengine, hbytes⟩ := ldi_takes_part h hop rfl hlo hhi hlen hover
      refine ⟨t, _, hexec, hmem, hengine, rfl, rfl, rfl, fun hx => ?_⟩
      rw [reg_fetched, if_neg hx, if_pos rfl]
      exact hbytes
  case strange =>
    intro htree
    have hexec := exec_pilotLaunch h hop
    rw [tryLaunch_outside htree] at hexec
    exact stops_of_queueError hexec
  case faulted => exact fun htree hst hfind => pilotLaunch_faulted h hop htree hst hfind
  case waits => exact fun htree hst hfind => pilotLaunch_waits h hop htree hst hfind
  case sends =>
    intro r m leaf base size htree hfind hhold msg hlo hhi hva hwalk hclass slot hslot hlaunch hm
    exact pilotLaunch_sends h hop htree hfind hhold hlo hhi hva hwalk hclass hslot hlaunch hm
  case done => exact (exec_waitr h hop).trans (congrArg _ (tryWaitr_goes hst))
  case undone => exact (exec_waitr h hop).trans (congrArg _ (tryWaitr_waits hst))

end Sys2Proof.Proofs
end

section
/-! Packets on their way and packets taken off it (spec/13 R253, R266, R267, spec/25 R455). -/
namespace Sys2Proof
open Sys2Proof.Machine

theorem setAt_eq_set {α : Type} : ∀ (l : List α) (n : Nat) (a : α), setAt l n a = l.set n a
  | [], _, _ => rfl
  | _ :: _, 0, _ => rfl
  | x :: l, n + 1, a => congrArg (x :: ·) (setAt_eq_set l n a)

/-- A list with the element at an index replaced. -/
theorem setAt_eq {α : Type} {l : List α} {n : Nat} {x : α} (a : α) (h : l[n]? = some x) :
    setAt l n a = l.take n ++ a :: l.drop (n + 1) := by
  obtain ⟨hn, -⟩ := List.getElem?_eq_some_iff.mp h
  rw [setAt_eq_set, List.set_eq_take_append_cons_drop, if_pos hn]

/-- Another index reads as before. -/
theorem getElem?_setAt_of_ne {α : Type} (l : List α) {n m : Nat} (a : α) (h : m ≠ n) : (setAt l n a)[m]? = l[m]? := by
  rw [setAt_eq_set, List.getElem?_set_ne h.symm]

end Sys2Proof

namespace Sys2Proof.Machine
open Sys2Proof

/-- Touch marks are none of a slip's matters (R319). -/
theorem State.slip_clearTouch (s : State) (b i b' j : Nat) : (s.clearTouch b i).slip b' j = s.slip b' j := rfl

/-! ### What a flit does not read -/

theorem State.pkg_setBerth (s : State) (b : Nat) (x : Berth) (k : Nat) : (s.setBerth b x).pkg k = s.pkg k := rfl

theorem State.modPkg_setBerth (s : State) (b : Nat) (x : Berth) (k : Nat) (f : Pkg → Pkg) :
    (s.setBerth b x).modPkg k f = (s.modPkg k f).setBerth b x := rfl

/-- A flit's way is a matter of the packages, whatever a berth holds (R455). -/
theorem flitAlong_setBerth (src dst : Nat) (f : Flit) (b : Nat) (x : Berth) : ∀ (n at_ : Nat) (s : State),
    flitAlong src dst f n at_ (s.setBerth b x) = (flitAlong src dst f n at_ s).setBerth b x
  | 0, _, _ => rfl
  | n + 1, at_, s => by
    unfold flitAlong
    rw [State.pkg_setBerth]
    split
    · rfl
    · split
      · rfl
      · rw [State.modPkg_setBerth, flitAlong_setBerth src dst f b x n]

theorem State.linkFlits_setBerth (s : State) (b : Nat) (x : Berth) (src dst n : Nat) :
    (s.setBerth b x).linkFlits src dst n = (s.linkFlits src dst n).setBerth b x := by
  unfold State.linkFlits
  split
  · rfl
  · generalize upTo ((n + 231) / 232) = l
    induction l generalizing s with
    | nil => rfl
    | cons j l ih =>
      rw [List.foldl_cons, List.foldl_cons, ← ih, State.setBerth_fresh, flitAlong_setBerth]
      rfl

/-- A packet's way and a change of a berth do not meet. -/
theorem State.transmit_setBerth (s : State) (b : Nat) (x : Berth) (src dst : Nat) (body : Body) :
    (s.setBerth b x).transmit src dst body = (s.transmit src dst body).setBerth b x := by
  unfold State.transmit State.linkFlit
  rw [State.linkFlits_setBerth]
  rfl

theorem State.modSlip_transmit (s : State) (b i : Nat) (f : Slip → Slip) (src dst : Nat) (body : Body) :
    (s.transmit src dst body).modSlip b i f = (s.modSlip b i f).transmit src dst body := by
  have hberth : (s.transmit src dst body).berth b = s.berth b := by rw [State.berth, State.transmit_berths, State.berth]
  rw [State.modSlip, State.setSlip, State.slip, hberth, State.modSlip, State.setSlip, State.slip, State.transmit_setBerth]

/-! ### A packet that arrives -/

theorem State.dropPacket_eq (s : State) (n : Nat) : s.dropPacket n = Claims.taken s n := by
  rw [State.dropPacket, dropAt_eq, Claims.taken]

/-- A packet that may arrive stands in its place. -/
theorem State.net_of_arriving {s : State} {n : Nat} {p : Packet} (h : s.arriving n = some p) : s.net[n]? = some p := by
  unfold State.arriving at h
  split at h
  · rename_i q hq
    rw [hq, ← (Option.ite_none_right_eq_some.mp h).2]
  · cases h

/-- A packet with an entry at its receiver is taken (R266). -/
theorem State.takeItem_free {s : State} {p : Packet} (n : Nat) (h : s.entryFree p = true) (k : State → State) :
    s.takeItem n p k = k (Claims.received s n p.src p.dst) := by
  rw [State.takeItem, if_pos h, State.dropPacket_eq, Claims.received]
  rfl

/-- A packet without one is refused (R267). -/
theorem State.takeItem_full {s : State} {p : Packet} (n : Nat) (h : s.entryFree p = false) (k : State → State) :
    s.takeItem n p k = s.refuseBusy n p := if_neg (by simp [h])

/-- A refused packet backs off in its place; memory is as it was (R267). -/
theorem State.refuseBusy_net {s : State} {n : Nat} {p : Packet} (h : s.net[n]? = some p) :
    (s.refuseBusy n p).net = s.net.take n ++ { p with busy := p.busy + 1, waiting := true } :: s.net.drop (n + 1) := setAt_eq _ h

theorem State.refuseBusy_mem (s : State) (n : Nat) (p : Packet) : (s.refuseBusy n p).mem = s.mem := rfl

/-- The list of refused senders is none of a slip's matters. -/
theorem Berth.slip_refused (x : Berth) (l : List Nat) (i : Nat) : ({ x with refused := l } : Berth).slip i = x.slip i := by
  rcases i with _ | _ | _ | i <;> rfl

/-- What a packet taken leaves of a berth: at most the list of refused senders changes. -/
theorem State.berth_received (s : State) (n src b : Nat) : ∃ l, (Claims.received s n src b).berth b = { s.berth b with refused := l } := by
  unfold Claims.received
  split
  · exact ⟨_, State.berth_setBerth_self _ b _⟩
  · exact ⟨_, rfl⟩

@[simp] theorem State.slip_received (s : State) (n src b b' i : Nat) : (Claims.received s n src b).slip b' i = s.slip b' i := by
  by_cases hb : b' = b
  · subst hb
    obtain ⟨l, hl⟩ := s.berth_received n src b'
    rw [State.slip, hl, Berth.slip_refused, State.slip]
  · unfold Claims.received
    split
    · rw [State.slip, State.berth_setBerth_of_ne _ _ hb]
      rfl
    · rfl

@[simp] theorem State.handler_received (s : State) (n src b : Nat) : ((Claims.received s n src b).berth b).handler = (s.berth b).handler := by
  obtain ⟨l, hl⟩ := s.berth_received n src b
  rw [hl]

@[simp] theorem State.mem_received (s : State) (n src b : Nat) : (Claims.received s n src b).mem = s.mem := by
  unfold Claims.received
  split <;> rfl

/-- A timing event is none of a slip's matters. -/
@[simp] theorem State.slip_timing (s : State) (b k b' i : Nat) : (s.timing b k).slip b' i = s.slip b' i := by
  by_cases hb : b' = b
  · subst hb
    rw [State.timing, State.slip, State.berth_modBerth_self]
    rcases i with _ | _ | _ | i <;> rfl
  · rw [State.timing, State.slip, State.berth_modBerth_of_ne _ _ hb, State.slip]

end Sys2Proof.Machine

namespace Sys2Proof.Claims
open Sys2Proof Sys2Proof.Machine

/-- A packet put on its way, as the model sends it (R455). -/
theorem transmit_eq_sent (s : State) (src dst : Nat) (body : Body) : s.transmit src dst body = sent s src dst body := by
  rw [State.transmit_same, sent, State.linkFlit_same]

/-- The TVAL of a misuse (R250). -/
theorem misuse_eq_channelTrap (reason h : Nat) : misuse reason h = channelTrap reason h := by
  simp [misuse, channelTval, channelTrap, natWord, Nat.shiftLeft_eq]

end Sys2Proof.Claims
end

section
/-! The channel instructions (spec/13 R246 to R252). -/
namespace Sys2Proof.Claims
open Sys2Proof Sys2Proof.Machine

/-! ### A channel instruction by the role of its handle -/

/-- A handle in one role is in no other (R246). -/
theorem role_ne {x : Chan} {a b : ChRole} (h : x.role = a) (hab : a ≠ b) : x.role ≠ b := fun hb => hab (h.symm.trans hb)

section
variable {s : State} {c : Ctx} {h : Nat} {uses : List Use} (hr : Runs s c { hnd := false } (.handle h :: uses))
include hr

/-- On a handle in its role a channel instruction is its own meaning (R249). -/
theorem chanOp_runs {role : ChRole} (hx : ((s.slip c.b c.i).chan h).role = role) (word : Nat) (k : Ctx → Chan → State → Res) :
    chanOp word h uses (some role) k s = finish c (k c ((s.slip c.b c.i).chan h) s) := by
  rw [chanOp, instr_runs hr]
  simp only [hx, decide_true, if_true]

/-- On one in another role it is misuse 1 (R249, R250). -/
theorem chanOp_misuse {role : ChRole} (hx : ((s.slip c.b c.i).chan h).role ≠ role) (word : Nat) (k : Ctx → Chan → State → Res) :
    chanOp word h uses (some role) k s = .next (s.raise c 16 (channelTrap 1 h) false) := by
  rw [chanOp, instr_runs hr]
  simp only [hx, decide_false, Bool.false_eq_true, if_false, finish_trap, misuse_eq_channelTrap]

/-- An instruction for either role runs on any handle that is bound. -/
theorem chanOp_bound (hx : ((s.slip c.b c.i).chan h).role ≠ .unbound) (word : Nat) (k : Ctx → Chan → State → Res) :
    chanOp word h uses none k s = finish c (k c ((s.slip c.b c.i).chan h) s) := by
  rw [chanOp, instr_runs hr]
  simp only [hx, ne_eq, not_false_eq_true, decide_true, if_true]

theorem chanOp_unbound (hx : ((s.slip c.b c.i).chan h).role = .unbound) (word : Nat) (k : Ctx → Chan → State → Res) :
    chanOp word h uses none k s = .next (s.raise c 16 (channelTrap 1 h) false) := by
  rw [chanOp, instr_runs hr]
  simp only [hx, ne_eq, not_true_eq_false, decide_false, Bool.false_eq_true, if_false, finish_trap, misuse_eq_channelTrap]

/-- One that completes by writing a g register. -/
theorem chanOp_givesG {i : Instr} {word d : Nat} {v : Word} {k : Ctx → Chan → State → Res} (hd : d < 32)
    (hx : ((s.slip c.b c.i).chan h).role ≠ .unbound) (he : exec i s = chanOp word h uses none k s)
    (hk : k c ((s.slip c.b c.i).chan h) s = .ok (s.writeG c d v)) : GivesG i s c d v {} := by
  unfold chanOp at he
  refine givesG hd hr he ?_
  simp only [hx, ne_eq, not_false_eq_true, decide_true, if_true]
  exact hk

end

/-! ### Waits -/

/-- i waits for n slots on handle h in a role, where so many are there: it takes the grant, blocks, or is a misuse (R249, R250). -/
def ChanWaits (i : Instr) (s : State) (c : Ctx) (h n : Nat) (role : ChRole) (there : Nat) (w : Wait) : Prop :=
  let x := (s.slip c.b c.i).chan h
  (x.role = role → n ≤ x.cap → n ≤ there →
    exec i s = .next (((withHandle s c h { x with granted := Nat.max x.granted n }).acquired c).advance c none true)) ∧
  (x.role = role → n ≤ x.cap → there < n →
    exec i s = .next (s.setSlip c.b c.i { s.slip c.b c.i with st := .blocked, wait := some w, begun := true })) ∧
  (x.role = role → x.cap < n → exec i s = .next (s.raise c 16 (channelTrap 2 h) false)) ∧
  (x.role ≠ role → exec i s = .next (s.raise c 16 (channelTrap 1 h) false))

theorem chanWaits_of_chanWait {i : Instr} {s : State} {c : Ctx} {h n word : Nat} {role : ChRole} {there : Chan → Nat} {w : Wait}
    (hr : Runs s c { hnd := false } [.handle h]) (he : exec i s = chanOp word h [] (some role) (chanWait h n there w) s) :
    ChanWaits i s c h n role (there ((s.slip c.b c.i).chan h)) w := by
  refine ⟨fun hx hcap hn => ?_, fun hx hcap hn => ?_, fun hx hcap => ?_, fun hx => he.trans (chanOp_misuse hr hx _ _)⟩ <;>
    rw [he, chanOp_runs hr hx, chanWait]
  · rw [if_neg (Nat.not_lt.mpr hcap), if_pos hn]
    rfl
  · rw [if_neg (Nat.not_lt.mpr hcap), if_neg (Nat.not_le.mpr hn), finish_stay, State.began_block s (hnd_false_of_mode hr rfl)]
  · rw [if_pos hcap, finish_trap, misuse_eq_channelTrap]

/-! ### The grant -/

/-- i is misuse 3 where it goes beyond the grant of its handle, and misuse 1 in another role (R249, R250). -/
def ChanBounds (i : Instr) (s : State) (c : Ctx) (h : Nat) (role : ChRole) (beyond : Prop) : Prop :=
  (((s.slip c.b c.i).chan h).role = role → beyond → exec i s = .next (s.raise c 16 (channelTrap 3 h) false)) ∧
  (((s.slip c.b c.i).chan h).role ≠ role → exec i s = .next (s.raise c 16 (channelTrap 1 h) false))

theorem chanBounds_of_chanOp {i : Instr} {s : State} {c : Ctx} {h word : Nat} {uses : List Use} {role : ChRole} {beyond : Prop}
    {k : Ctx → Chan → State → Res} (hr : Runs s c { hnd := false } (.handle h :: uses))
    (he : exec i s = chanOp word h uses (some role) k s)
    (hk : beyond → k c ((s.slip c.b c.i).chan h) s = .trap s 16 (misuse 3 h)) : ChanBounds i s c h role beyond := by
  refine ⟨fun hx hb => ?_, fun hx => he.trans (chanOp_misuse hr hx _ _)⟩
  rw [he, chanOp_runs hr hx, hk hb, finish_trap, misuse_eq_channelTrap]

theorem exec_chwaitf (s : State) (h : BitVec 4) (n : BitVec 12) : exec (.chwaitf h n) s = execChwaitf h n s := rfl
theorem exec_chwaite (s : State) (h : BitVec 4) (n : BitVec 12) : exec (.chwaite h n) s = execChwaite h n s := rfl
theorem exec_chadvc (s : State) (h : BitVec 4) (n : BitVec 12) : exec (.chadvc h n) s = execChadvc h n s := rfl
theorem exec_chadvp (s : State) (h : BitVec 4) (n : BitVec 12) : exec (.chadvp h n) s = execChadvp h n s := rfl
theorem exec_chst (s : State) (r : BitVec 5) (h : BitVec 4) (n : BitVec 12) : exec (.chst r h n) s = execChst r h n s := rfl
theorem exec_chaddr (s : State) (r : BitVec 5) (h : BitVec 4) (n : BitVec 12) : exec (.chaddr r h n) s = execChaddr r h n s := rfl

section
variable {s : State} {c : Ctx} {h : BitVec 4} {n : BitVec 12}

/-- CHADVC within its grant waits while a command reads the slots, and then frees them (R249, R252). -/
theorem chadvc_granted (hr : Runs s c { hnd := false } [.handle h.toNat]) (hx : ((s.slip c.b c.i).chan h.toNat).role = .consumer)
    (hn : n.toNat ≤ ((s.slip c.b c.i).chan h.toNat).granted) :
    let x := (s.slip c.b c.i).chan h.toNat
    let t := s.clearTouch c.b c.i
    exec (.chadvc h n) s = if t.slotsRead c x n.toNat then .next (t.began c)
      else .next ((sent (withHandle t c h.toNat { x with ri := (x.ri + n.toNat) % 2 ^ 32, granted := x.granted - n.toNat }) c.b x.peer
        (.freed x.peerSlip x.peerHandle x.peerTag n.toNat)).advance c none true) := by
  intro x t
  rw [exec_chadvc, execChadvc, chanOp_runs hr hx, if_neg (Nat.not_lt.mpr hn)]
  simp only [transmit_eq_sent]
  split
  · rfl
  · rfl

/-- CHADVP within its grant waits while its CHST and copies into the ring are to land, and then advances (R249). -/
theorem chadvp_granted (hr : Runs s c { hnd := false } [.handle h.toNat]) (hx : ((s.slip c.b c.i).chan h.toNat).role = .producer)
    (hn : n.toNat ≤ ((s.slip c.b c.i).chan h.toNat).granted) :
    let x := (s.slip c.b c.i).chan h.toNat
    let t := s.clearTouch c.b c.i
    exec (.chadvp h n) s = if t.ringPending c x then .next (t.began c)
      else .next ((sent (withHandle t c h.toNat { x with wi := (x.wi + n.toNat) % 2 ^ 32, granted := x.granted - n.toNat }) c.b x.peer
        (.advance x.peerSlip x.peerHandle x.peerTag n.toNat)).advance c none true) := by
  intro x t
  rw [exec_chadvp, execChadvp, chanOp_runs hr hx, if_neg (Nat.not_lt.mpr hn)]
  simp only [transmit_eq_sent]
  split
  · rfl
  · rfl

/-- CHST within its grant sends the 64 bytes of wS to its ring byte (R249). -/
theorem chst_granted {r : BitVec 5} (hr : Runs s c { hnd := false } [.handle h.toNat, .src .w r.toNat 0])
    (hx : ((s.slip c.b c.i).chan h.toNat).role = .producer)
    (hn : n.toNat * 32 + 64 ≤ ((s.slip c.b c.i).chan h.toNat).granted * ((s.slip c.b c.i).chan h.toNat).slotb) :
    let x := (s.slip c.b c.i).chan h.toNat
    exec (.chst r h n) s = .next ((sent s c.b x.peer (.chst x.peerSlip x.peerHandle x.peerTag x.base (x.ringByte x.wi n.toNat)
      (s.readW c r.toNat 0) c.i (s.slip c.b c.i).tag)).advance c none true) := by
  intro x
  rw [exec_chst, execChst, chanOp_runs hr hx, if_neg (Nat.not_lt.mpr hn), finish_ok, transmit_eq_sent]

/-- CHADDR within its grant writes the address of its ring byte, LOCAL at the consumer, REMOTE at the producer (R249). -/
theorem chaddr_givesG {r : BitVec 5} {a : Word} (hr : Runs s c { hnd := false } [.handle h.toNat, .dst .g r.toNat])
    (hx : ((s.slip c.b c.i).chan h.toNat).role ≠ .unbound)
    (hn : n.toNat * 32 < ((s.slip c.b c.i).chan h.toNat).granted * ((s.slip c.b c.i).chan h.toNat).slotb)
    (ha : let x := (s.slip c.b c.i).chan h.toNat
      (if x.role = .consumer then localAddr (x.base + x.ringByte x.ri n.toNat) else remoteAddr x.peer (x.base + x.ringByte x.wi n.toNat)) = a) :
    GivesG (.chaddr r h n) s c r.toNat a {} := by
  subst ha
  exact chanOp_givesG hr r.isLt hx (exec_chaddr s r h n) (if_neg (Nat.not_le.mpr hn))

theorem chaddr_beyond {r : BitVec 5} (hr : Runs s c { hnd := false } [.handle h.toNat, .dst .g r.toNat])
    (hx : ((s.slip c.b c.i).chan h.toNat).role ≠ .unbound)
    (hn : ((s.slip c.b c.i).chan h.toNat).granted * ((s.slip c.b c.i).chan h.toNat).slotb ≤ n.toNat * 32) :
    exec (.chaddr r h n) s = .next (s.raise c 16 (channelTrap 3 h.toNat) false) := by
  rw [exec_chaddr, execChaddr, chanOp_bound hr hx, if_pos hn, finish_trap, misuse_eq_channelTrap]

end

end Sys2Proof.Claims

namespace Sys2Proof.Proofs
open Sys2Proof Sys2Proof.Machine Sys2Proof.Claims

/-- Settles O23: each of the six by the role of its handle, its CAP and its grant; the flit of a notice or CHST is the reading of log 111. -/
theorem channelInstructions : Obligations.ChannelInstructions := by
  intro s c h n r p x filled free ring waits bounds
  refine ⟨fun hr => ⟨chanWaits_of_chanWait hr (exec_chwaitf s h n), chanWaits_of_chanWait hr (exec_chwaite s h n),
      fun hx hn hread => ?freed, fun hx hn hread => ?reads, fun hx hn hland => ?advanced, fun hx hn hland => ?lands,
      chanBounds_of_chanOp hr (exec_chadvc s h n) fun hb => if_pos hb, chanBounds_of_chanOp hr (exec_chadvp s h n) fun hb => if_pos hb⟩,
    fun hr => ⟨fun hx hn => chst_granted hr hx hn, chanBounds_of_chanOp hr (exec_chst s r h n) fun hb => if_pos hb⟩,
    fun hr => ⟨fun hx => (exec_chaddr s r h n).trans (chanOp_unbound hr hx _ _), fun hx hn => chaddr_beyond hr hx hn,
      fun hx hn => chaddr_givesG hr (role_ne hx (by decide)) hn ?consumer,
      fun hx hn => chaddr_givesG hr (role_ne hx (by decide)) hn (if_neg (role_ne hx (by decide)))⟩⟩
  case freed => exact (chadvc_granted hr hx hn).trans (if_neg (ne_true_of_eq_false hread))
  case reads => exact (chadvc_granted hr hx hn).trans (if_pos hread)
  case advanced => exact (chadvp_granted hr hx hn).trans (if_neg (ne_true_of_eq_false hland))
  case lands => exact (chadvp_granted hr hx hn).trans (if_pos hland)
  case consumer => exact (if_pos hx).trans (congrArg natWord (Nat.add_assoc _ _ _).symm)

end Sys2Proof.Proofs
end
section
/-! SEND, PUT, GET and WINDOW as they issue (spec/13 R253 to R256, R261). -/
namespace Sys2Proof.Claims
open Sys2Proof Sys2Proof.Machine

/-! ### One item issued -/

/-- Is what executes a handler that an item entered (R264)? Its items belong to the window after its slip's. -/
def fromItem (s : State) (c : Ctx) : Bool := c.hnd && s.sourceOf c.b == some .item

theorem fromItem_iff (s : State) (c : Ctx) :
    fromItem s c = true ↔ c.hnd = true ∧ ∃ h, (s.berth c.b).handler = some h ∧ h.source = .item := by
  rw [fromItem, Bool.and_eq_true, beq_iff_eq, State.sourceOf, Option.map_eq_some_iff]

theorem fromItem_of_slip (s : State) {c : Ctx} (hh : c.hnd = false) : fromItem s c = false := by rw [fromItem, hh, Bool.false_and]

theorem nextSeq_eq (s : State) (c : Ctx) : s.nextSeq c =
    if fromItem s c then (((s.slip c.b c.i).wseq + 1) % 2 ^ 32, (s.slip c.b c.i).hseq) else ((s.slip c.b c.i).wseq, (s.slip c.b c.i).sseq) := rfl

/-- The item that whoever executes issues to a member (R256). -/
def issuedItem (s : State) (c : Ctx) (m : Member) (kind : ItemKind) : Item :=
  { kind := kind, sidx := (s.slip c.b c.i).sidx, sseq := (s.nextSeq c).2, win := (s.nextSeq c).1, src := c.b, srcSlip := c.i,
    srcTag := (s.slip c.b c.i).tag, dst := m.berth, dstSlip := m.slip, dtag := m.tag }

/-- Its slip once the item is counted and unacknowledged, with the destinations of a GET (R256, R264). -/
def issuerAfter (s : State) (c : Ctx) (x : Item) (gets : List GetDest) : Slip :=
  let p := s.slip c.b c.i
  { p with
    sseq := if fromItem s c then p.sseq else (p.sseq + 1) % 2 ^ 32
    hseq := if fromItem s c then p.hseq + 1 else p.hseq
    unacked := p.unacked ++ [x]
    gets := p.gets ++ gets }

/-- s once an item of a kind has been issued to member m. -/
def issued (s : State) (c : Ctx) (m : Member) (kind : ItemKind) (gets : List GetDest) : State :=
  let x := issuedItem s c m kind
  sent (s.setSlip c.b c.i (issuerAfter s c x gets)) c.b m.berth (.item x)

theorem countItem_eq (s : State) (c : Ctx) : s.countItem c = s.setSlip c.b c.i
    { s.slip c.b c.i with
      sseq := if fromItem s c then (s.slip c.b c.i).sseq else ((s.slip c.b c.i).sseq + 1) % 2 ^ 32
      hseq := if fromItem s c then (s.slip c.b c.i).hseq + 1 else (s.slip c.b c.i).hseq } := by
  show s.modSlip c.b c.i (fun p => if fromItem s c then { p with hseq := p.hseq + 1 } else { p with sseq := (p.sseq + 1) % (1 <<< 32) }) = _
  cases fromItem s c <;> rfl

/-- The issue of an item is one change of its slip, and one packet more. -/
theorem issueItem_eq (s : State) (c : Ctx) (m : Member) (kind : ItemKind) : s.issueItem c m kind = issued s c m kind [] := by
  unfold State.issueItem issued issuerAfter
  rw [transmit_eq_sent, countItem_eq, State.modSlip, State.slip_setSlip_self, State.setSlip_setSlip]
  simp only [List.append_nil]
  rfl

/-- A GET's destinations join its slip, whether before or after the packet leaves. -/
theorem issueItem_gets (s : State) (c : Ctx) (m : Member) (kind : ItemKind) (gets : List GetDest) :
    (s.issueItem c m kind).modSlip c.b c.i (fun q => { q with gets := q.gets ++ gets }) = issued s c m kind gets := by
  rw [issueItem_eq, issued, issued, ← transmit_eq_sent, ← transmit_eq_sent, State.modSlip_transmit, State.modSlip,
    State.slip_setSlip_self, State.setSlip_setSlip]
  simp only [issuerAfter, List.append_nil]

theorem issues_of_issued {i : Instr} {s : State} {c : Ctx} {m : Member} {kind : ItemKind} {gets : List GetDest}
    (h : exec i s = .next ((issued s c m kind gets).advance c none true)) : Issues i s c m kind gets := by
  unfold Issues
  simp only
  rw [← fromItem_iff, Bool.not_eq_true]
  refine ⟨(s.nextSeq c).1, (s.nextSeq c).2, fun hf => ?_, fun hf => ?_, issuerAfter s c (issuedItem s c m kind) gets,
    fun hf => ?_, fun hf => ?_, rfl, h⟩
  · simp only [nextSeq_eq, hf, Bool.false_eq_true, if_false, and_self]
  · rw [Bool.not_eq_false] at hf
    simp only [nextSeq_eq, hf, if_true, and_self]
  · simp only [issuerAfter, hf, Bool.false_eq_true, if_false, and_self]
  · rw [Bool.not_eq_false] at hf
    simp only [issuerAfter, hf, if_true, and_self]

/-! ### The operands -/

theorem lowBytes_eq (v : Wide) (n : Nat) : lowBytes v n = BitVec.ofNat 512 (v.toNat % 2 ^ (8 * n)) := by
  rw [lowBytes, Nat.one_shiftLeft]

/-- Word 0 of a message is its handler's address (R255). -/
theorem natWord_elemOf_zero (v : Wide) : natWord (elemOf v 64 0) = v.setWidth 64 := by
  apply BitVec.eq_of_toNat_eq
  simp [natWord, elemOf]

/-- An address is LOCAL where nothing stands above its offset but the path (R34, R269). -/
theorem local_iff (a : Word) : (bitsOf a.toNat 63 60 ≠ 1 ∨ bitsOf a.toNat 59 19 ≠ 0) ↔ a.toNat / 2 ^ 19 ≠ 2 ^ 41 := by
  have := a.isLt
  rw [bitsOf_eq, bitsOf_eq]
  omega

theorem noGroup_eq (s : State) : noGroup s = .trap s 16 (channelTrap 5 0) := by rw [noGroup, misuse_eq_channelTrap]

/-! ### SEND -/

theorem exec_send (s : State) (k : BitVec 3) (a r : BitVec 5) : exec (.send k a r) s = execSend k a r s := rfl
theorem exec_put (s : State) (z : BitVec 3) (a r : BitVec 5) : exec (.put z a r) s = execPut z a r s := rfl
theorem exec_get (s : State) (z : BitVec 3) (a r : BitVec 5) : exec (.get z a r) s = execGet z a r s := rfl
theorem exec_window (s : State) (k g : BitVec 1) : exec (.window k g) s = execWindow k g s := rfl

section
variable {s : State} {c : Ctx} {k : BitVec 3} {a r : BitVec 5} (hr : Runs s c {} [.src .g a.toNat 0, .src .w r.toNat 0])
include hr

/-- SEND to an actor that is no member of the group (R256). -/
theorem send_outside (hm : (s.slip c.b c.i).members.find? (fun m => m.actor == (s.readG c a.toNat 0).toNat % 2 ^ 32) = none) :
    exec (.send k a r) s = .next (s.raise c 16 (channelTrap 5 0) false) := by
  rw [exec_send, execSend, instr_runs hr, bitsOf_low]
  simp only [hm, noGroup_eq, ite_self, finish_trap]

/-- SEND to a member: its handler's address must lie in the window (R255, R256). -/
theorem send_member {m : Member}
    (hm : (s.slip c.b c.i).members.find? (fun m => m.actor == (s.readG c a.toNat 0).toNat % 2 ^ 32) = some m) :
    let v := s.readW c r.toNat 0
    let pc : Word := v.setWidth 64
    exec (.send k a r) s = finish c (if pc < (s.berth c.b).hbase ∨ (s.berth c.b).hlimit ≤ pc then .trap s 17 pc
      else .ok (issued s c m (.send (BitVec.ofNat 512 (v.toNat % 2 ^ (64 * (k.toNat + 1)))) (k.toNat + 1)) [])) := by
  intro v pc
  have hne : (s.slip c.b c.i).members.isEmpty = false := List.isEmpty_eq_false_iff.mpr fun hnil => by rw [hnil] at hm; cases hm
  have hbytes : 8 * (8 * (k.toNat + 1)) = 64 * (k.toNat + 1) := by omega
  rw [exec_send, execSend, instr_runs hr, bitsOf_low]
  simp only [hne, hm, Bool.false_eq_true, if_false, natWord_elemOf_zero, issueItem_eq, lowBytes_eq, hbytes, Bool.or_eq_true,
    decide_eq_true_eq]
  rfl

end

/-! ### PUT -/

section
variable {s : State} {c : Ctx} {z : BitVec 3} {a r : BitVec 5} (hr : Runs s c {} [.src .g a.toNat 0, .src .w r.toNat 0])
include hr

theorem put_alone (hm : (s.slip c.b c.i).members = []) : exec (.put z a r) s = .next (s.raise c 16 (channelTrap 5 0) false) := by
  rw [exec_put, execPut, instr_runs hr]
  simp only [hm, List.isEmpty_nil, if_true, noGroup_eq, finish_trap]

/-- PUT to no berth's scratchpad (R256). -/
theorem put_pathless (hm : (s.slip c.b c.i).members ≠ []) (hb : s.remoteBerth (s.readG c a.toNat 0).toNat = none) :
    exec (.put z a r) s = .next (s.raise c 9 (s.readG c a.toNat 0) false) := by
  rw [exec_put, execPut, instr_runs hr]
  simp only [List.isEmpty_eq_false_iff.mpr hm, hb, Bool.false_eq_true, if_false, finish_trap]

/-- PUT to a berth's scratchpad: its alignment, then the member that holds the bank (R256). -/
theorem put_checks {b : Nat} (hm : (s.slip c.b c.i).members ≠ []) (hb : s.remoteBerth (s.readG c a.toNat 0).toNat = some b) :
    let ea := s.readG c a.toNat 0
    let off := ea.toNat % 2 ^ 19
    exec (.put z a r) s = finish c (if ea.toNat % 2 ^ z.toNat ≠ 0 then .trap s 8 ea
      else (s.bankMember (s.slip c.b c.i) b (off / 0x8000)).elim (.trap s 16 (channelTrap 5 0)) fun m => .ok (issued s c m
        (.put off (2 ^ z.toNat) (BitVec.ofNat 512 ((s.readW c r.toNat 0).toNat % 2 ^ (8 * 2 ^ z.toNat)))) [])) := by
  intro ea off
  rw [exec_put, execPut, instr_runs hr]
  simp only [List.isEmpty_eq_false_iff.mpr hm, hb, Bool.false_eq_true, if_false, noGroup_eq, issueItem_eq, lowBytes_eq, bitsOf_low,
    Nat.one_shiftLeft]
  cases s.bankMember (s.slip c.b c.i) b (off / 0x8000) <;> rfl

end

/-! ### GET -/

section
variable {s : State} {c : Ctx} {z : BitVec 3} {a r : BitVec 5}
  (hr : Runs s c { hnd := false } [.src .g a.toNat 0, .src .g r.toNat 0])
include hr

theorem get_alone (hm : (s.slip c.b c.i).members = []) : exec (.get z a r) s = .next (s.raise c 16 (channelTrap 5 0) false) := by
  rw [exec_get, execGet, instr_runs hr]
  simp only [hm, List.isEmpty_nil, if_true, noGroup_eq, finish_trap]

/-- GET from no berth's scratchpad (R256). -/
theorem get_pathless (hm : (s.slip c.b c.i).members ≠ []) (hb : s.remoteBerth (s.readG c a.toNat 0).toNat = none) :
    exec (.get z a r) s = .next (s.raise c 9 (s.readG c a.toNat 0) false) := by
  rw [exec_get, execGet, instr_runs hr]
  simp only [List.isEmpty_eq_false_iff.mpr hm, hb, Bool.false_eq_true, if_false, finish_trap]

/-- GET from a berth's scratchpad: the path of its destination, the alignment of both, the member that holds the bank, and the bank of the
destination (R256, R261). -/
theorem get_checks {b : Nat} (hm : (s.slip c.b c.i).members ≠ []) (hb : s.remoteBerth (s.readG c a.toNat 0).toNat = some b) :
    let p := s.slip c.b c.i
    let ea := s.readG c a.toNat 0
    let da := s.readG c r.toNat 0
    let off := ea.toNat % 2 ^ 19
    let dst := da.toNat % 2 ^ 19
    exec (.get z a r) s = finish c (if da.toNat / 2 ^ 19 ≠ 2 ^ 41 then .trap s 9 da
      else if ea.toNat % 2 ^ z.toNat ≠ 0 then .trap s 8 ea
      else if da.toNat % 2 ^ z.toNat ≠ 0 then .trap s 8 da
      else (s.bankMember p b (off / 0x8000)).elim (.trap s 16 (channelTrap 5 0)) fun m =>
        if p.banks.testBit (dst / 0x8000) = false then .trap s 12 da
        else .ok (issued s c m (.get off (2 ^ z.toNat) dst) [{ win := p.wseq, seq := p.sseq, off := dst, size := 2 ^ z.toNat }])) := by
  intro p ea da off dst
  have hseq : s.nextSeq c = (p.wseq, p.sseq) := by
    rw [nextSeq_eq, fromItem_of_slip s (hnd_false_of_mode hr rfl)]
    rfl
  rw [exec_get, execGet, instr_runs hr]
  simp only [List.isEmpty_eq_false_iff.mpr hm, hb, Bool.false_eq_true, if_false, noGroup_eq, issueItem_gets, hseq, bitsOf_low, Nat.one_shiftLeft,
    Bool.or_eq_true, decide_eq_true_eq, local_iff, State.holdsBank, bitOf_eq_testBit, Bool.not_eq_true']
  cases s.bankMember p b (off / 0x8000) <;> rfl

end

/-! ### WINDOW -/

/-- WINDOW blocks its slip with the close under way, its queue resolved and its touch marks cleared (R24, R258, R319). -/
theorem window_blocks {s : State} {c : Ctx} (k g : BitVec 1) (hr : Runs s c { hnd := false } []) :
    exec (.window k g) s = .next ((s.clearTouch c.b c.i).setSlip c.b c.i
      { (s.slip c.b c.i).resolve (s.lenAt c) with
        closing := some { k := k == 1, g := g == 1 }, st := .blocked, wait := some .window, begun := true }) := by
  rw [exec_window, execWindow, instr_runs hr, finish_stay, State.began_block _ (hnd_false_of_mode hr rfl), State.slip_modSlip_self,
    State.modSlip, State.setSlip_setSlip, State.slip_clearTouch]

end Sys2Proof.Claims

namespace Sys2Proof.Proofs
open Sys2Proof Sys2Proof.Machine Sys2Proof.Claims

/-- Settles O24: the checks of each instruction in R256's order, and the one item that it then issues; the number of a handler's item and the
flit to another package are the readings of logs 13 and 111. -/
theorem messageIssue : Obligations.MessageIssue := by
  intro s c a r p ea off
  refine ⟨fun k hr => ⟨fun hm => send_outside hr hm, fun m hm => ⟨fun hpc => ?outside, fun hlo hhi => issues_of_issued ?sends⟩⟩,
    fun z hr hm => put_alone hr hm, fun z hr hm => ⟨fun hb => put_pathless hr hm hb, fun b hb => ?put⟩,
    fun z hr => ⟨fun hm => get_alone hr hm, fun hm hb => get_pathless hr hm hb, fun b hm hb => ?get⟩,
    fun k g hr => window_blocks k g hr⟩
  case outside => rw [send_member hr hm, if_pos hpc, finish_trap]
  case sends =>
    rw [send_member hr hm, if_neg (not_or.mpr ⟨BitVec.not_lt.mpr hlo, BitVec.not_le.mpr hhi⟩), finish_ok]
  case put =>
    refine ⟨fun ha => ?_, fun ha hn => ?_, fun m ha (hn : s.bankMember _ _ _ = _) => issues_of_issued ?_⟩
    · rw [put_checks hr hm hb, if_pos ha, finish_trap]
    · rw [put_checks hr hm hb, if_neg (not_not_intro ha), hn, Option.elim_none, finish_trap]
    · rw [put_checks hr hm hb, if_neg (not_not_intro ha), hn, Option.elim_some, finish_ok]
  case get =>
    have hget := get_checks (z := z) hr hm hb
    refine ⟨fun hl => ?path, fun hl ha => ?source, fun hl ha hd => ?destination, fun hl ha hd => ?aligned⟩
    case path => exact hget.trans (by rw [if_pos hl, finish_trap])
    case source => exact hget.trans (by rw [if_neg (not_not_intro hl), if_pos ha, finish_trap])
    case destination => exact hget.trans (by rw [if_neg (not_not_intro hl), if_neg (not_not_intro ha), if_pos hd, finish_trap])
    case aligned =>
      have haligned := hget.trans (congrArg (finish c)
        ((if_neg (not_not_intro hl)).trans ((if_neg (not_not_intro ha)).trans (if_neg (not_not_intro hd)))))
      refine ⟨fun hn => ?_, fun m (hn : s.bankMember _ _ _ = _) => ⟨fun hk => ?_, fun hk => issues_of_issued ?_⟩⟩
      · exact haligned.trans (by rw [hn, Option.elim_none, finish_trap])
      · exact haligned.trans (by rw [hn, Option.elim_some, if_pos hk, finish_trap])
      · exact haligned.trans (by rw [hn, Option.elim_some, if_neg (ne_false_of_eq_true hk), finish_ok])

end Sys2Proof.Proofs
end
section
/-! What arrives: items, acknowledgements, replies, launches; and what is sent again (spec/13 R257, R259, R260, R262, R265 to R268). -/
namespace Sys2Proof.Claims
open Sys2Proof Sys2Proof.Machine

/-! ### Items -/

theorem staleFor_eq_true_iff (p : Slip) (tag : Nat) : p.staleFor tag = true ↔ p.bound = false ∨ p.tag ≠ tag ∨ p.halting = true := by
  simp [Slip.staleFor, or_assoc]

theorem staleFor_eq_false {p : Slip} {tag : Nat} (hb : p.bound = true) (ht : p.tag = tag) (hh : p.halting = false) :
    p.staleFor tag = false := by simp [Slip.staleFor, hb, ht, hh]

/-- An item counted is one more in the list of those addressed, and nothing else (R260). -/
theorem countAddressed_eq (p : Slip) (w : Nat) : p.countAddressed w = { p with addressed := (p.countAddressed w).addressed } := by
  unfold Slip.countAddressed
  split <;> rfl

theorem parkedFor_countAddressed (p : Slip) (v w : Nat) : (p.countAddressed v).parkedFor w = p.parkedFor w := by
  rw [countAddressed_eq]
  rfl

theorem parkCap_countAddressed (p : Slip) (w : Nat) : (p.countAddressed w).parkCap = 16 + p.spillCap := by
  rw [countAddressed_eq]
  rfl

/-- The answer to an item goes back to its sender (R266). -/
def answered (t : State) (x : Item) (r : AckReason) : State := sent t x.dst x.src (.ack x.srcSlip x.srcTag r x)

section
variable {t : State} {x : Item}

/-- An item whose receiver is no longer the one named is dropped (R262, R266). -/
theorem receiveItem_stale (h : (t.slip x.dst x.dstSlip).staleFor x.dtag = true) : t.receiveItem x = answered t x .stale := by
  simp only [State.receiveItem, h, if_true, transmit_eq_sent, answered]

/-- One that its slip has room for is parked (R259, R260). -/
theorem receiveItem_parks (h : (t.slip x.dst x.dstSlip).staleFor x.dtag = false)
    (hroom : (t.slip x.dst x.dstSlip).parkedFor x.win < 16 + (t.slip x.dst x.dstSlip).spillCap) :
    t.receiveItem x = answered ((t.spillItem x).setSlip x.dst x.dstSlip { (t.slip x.dst x.dstSlip).countAddressed x.win with
      parked := (t.slip x.dst x.dstSlip).parked ++ [x] }) x .accept := by
  have hparked : ((t.slip x.dst x.dstSlip).countAddressed x.win).parked = (t.slip x.dst x.dstSlip).parked := by rw [countAddressed_eq]
  simp only [State.receiveItem, h, Bool.false_eq_true, if_false, parkedFor_countAddressed, parkCap_countAddressed, ge_iff_le,
    Nat.not_le.mpr hroom, transmit_eq_sent, answered, hparked]

/-- One that it has no room for is dropped, and the window is marked (R260). -/
theorem receiveItem_overflows (h : (t.slip x.dst x.dstSlip).staleFor x.dtag = false)
    (hfull : 16 + (t.slip x.dst x.dstSlip).spillCap ≤ (t.slip x.dst x.dstSlip).parkedFor x.win) :
    t.receiveItem x = answered (t.setSlip x.dst x.dstSlip { (t.slip x.dst x.dstSlip).countAddressed x.win with
      overflowed := x.win :: (t.slip x.dst x.dstSlip).overflowed }) x .overflow := by
  have hover : ((t.slip x.dst x.dstSlip).countAddressed x.win).overflowed = (t.slip x.dst x.dstSlip).overflowed := by rw [countAddressed_eq]
  simp only [State.receiveItem, h, Bool.false_eq_true, if_false, parkedFor_countAddressed, parkCap_countAddressed, ge_iff_le, hfull,
    if_true, transmit_eq_sent, answered, hover]

/-- The first 16 items of a parity take no record of the spill area (R260). -/
theorem spillItem_of_lt (h : (t.slip x.dst x.dstSlip).parkedFor x.win < 16) : t.spillItem x = t := if_pos h

end

section
variable {s : State} {n src b bz : Nat} {x : Item} (ha : s.arriving n = some { src := src, dst := b, body := .item x, busy := bz })
include ha

/-- An item with an entry at its receiver is received (R266). -/
theorem itemArrival_taken (hf : s.entryFree { src := src, dst := b, body := .item x, busy := bz } = true) :
    exec (.itemArrival n) s = .next ((received s n src b).receiveItem x) := by
  show execItemArrival n s = _
  simp only [execItemArrival, ha, State.takeItem_free n hf]

/-- One without backs off in its place (R267). -/
theorem itemArrival_refused (hf : s.entryFree { src := src, dst := b, body := .item x, busy := bz } = false) :
    exec (.itemArrival n) s = .next (s.refuseBusy n { src := src, dst := b, body := .item x, busy := bz }) := by
  show execItemArrival n s = _
  simp only [execItemArrival, ha, State.takeItem_full n hf]

end

/-! ### Acknowledgements -/

theorem acknowledged_unacked (p : Slip) (r : AckReason) (x : Item) :
    (p.acknowledged r x).unacked = p.unacked.filter (fun y => !(y.win == x.win && y.sseq == x.sseq)) := by cases r <;> rfl

theorem acknowledged_stale (p : Slip) (r : AckReason) (x : Item) : (p.acknowledged r x).stale =
    if r = .stale then p.stale ++ [{ win := x.win, actor := x.dtag / 2 ^ 32, sseq := x.sseq }] else p.stale := by
  cases r with
  | accept => rfl
  | overflow => rfl
  | stale => simp [Slip.acknowledged, Slip.recordStale, Slip.dropGet, Nat.shiftRight_eq_div_pow]

/-- s once packet n, an acknowledgement to berth b, is off the network; another than ACCEPT counts EVC10 (R442). -/
def ackTaken (s : State) (n b : Nat) (r : AckReason) : State := if r = .accept then taken s n else (taken s n).timing b 10

theorem ackTaken_net (s : State) (n b : Nat) (r : AckReason) : (ackTaken s n b r).net = (taken s n).net := by unfold ackTaken; split <;> rfl
theorem ackTaken_mem (s : State) (n b : Nat) (r : AckReason) : (ackTaken s n b r).mem = s.mem := by unfold ackTaken; split <;> rfl

theorem slip_ackTaken (s : State) (n b : Nat) (r : AckReason) (b' i : Nat) : (ackTaken s n b r).slip b' i = s.slip b' i := by
  unfold ackTaken
  split
  · rfl
  · rw [State.slip_timing]
    rfl

/-- An acknowledgement reaches the slip that issued the item (R266). -/
theorem ackArrival_acts {s : State} {n src b bz i tag : Nat} {r : AckReason} {x : Item}
    (ha : s.arriving n = some { src := src, dst := b, body := .ack i tag r x, busy := bz }) (hb : (s.slip b i).bound = true)
    (ht : (s.slip b i).tag = tag) :
    exec (.ackArrival n) s = .next ((ackTaken s n b r).setSlip b i ((s.slip b i).acknowledged r x)) := by
  show execAckArrival n s = _
  have htaken : (if r = .accept then taken s n else (taken s n).timing b 10) = ackTaken s n b r := rfl
  simp only [execAckArrival, ha, State.dropPacket_eq, htaken, slip_ackTaken, hb, ht, BEq.rfl, Bool.and_self, if_true, State.modSlip]

/-! ### Replies -/

/-- A slip with a reply held, whose GET is no longer owed it (R257). -/
def holdsReply (p : Slip) (r : Reply) : Slip :=
  { p with
    replies := p.replies ++ [r]
    gets := p.gets.map (fun g => if g.win == r.win && g.seq == r.seq then { g with owed := false } else g) }

theorem holdsReply_owed (p : Slip) (r : Reply) : ∀ g ∈ (holdsReply p r).gets, g.win = r.win → g.seq = r.seq → g.owed = false := by
  intro g hg hw hs
  obtain ⟨y, -, rfl⟩ := List.mem_map.mp hg
  by_cases hy : (y.win == r.win && y.seq == r.seq) = true
  · rw [if_pos hy]
  · rw [if_neg hy] at hw hs
    exact absurd (by simp [hw, hs]) hy

theorem getReplyArrival_holds {s : State} {n src b bz i tag : Nat} {r : Reply}
    (ha : s.arriving n = some { src := src, dst := b, body := .reply i tag r, busy := bz })
    (hf : s.entryFree { src := src, dst := b, body := .reply i tag r, busy := bz } = true) (hb : (s.slip b i).bound = true)
    (ht : (s.slip b i).tag = tag) :
    exec (.getReplyArrival n) s = .next ((received s n src b).setSlip b i (holdsReply (s.slip b i) r)) := by
  show execGetReplyArrival n s = _
  simp only [execGetReplyArrival, ha, State.takeItem_free n hf]
  rw [if_pos (by simp [hb, ht]), State.modSlip, State.slip_received]
  rfl

/-! ### Launches -/

/-- The bytes of the packet that an error event names (R242). -/
theorem leBytes_four (v : Nat) : leBytes 4 v = BitVec.ofNat 8 v :: BitVec.ofNat 8 (v / 256) ::
    [BitVec.ofNat 8 (v / 65536), BitVec.ofNat 8 (v / 16777216)] := by
  simp [leBytes, Nat.div_div_eq_div_mul]

section
variable {s : State} {n src b bz i tag : Nat} {l : Launch}
  (ha : s.arriving n = some { src := src, dst := b, body := .launch i tag l, busy := bz })
  (hf : s.entryFree { src := src, dst := b, body := .launch i tag l, busy := bz } = true)
include ha hf

/-- A launch for a slip that has gone: its queue takes error 5 (R265). -/
theorem launchArrival_stale (h : (s.slip b i).staleFor tag = true) :
    exec (.launchArrival n) s = .next ((received s n src b).queueErrorWith l.pkg l.queue 5 (leBytes 4 l.packet)) := by
  show execLaunchArrival n s = _
  simp only [execLaunchArrival, ha, State.receiveLaunch, h, Bool.not_true, Bool.and_false, Bool.false_and, Bool.false_eq_true, if_false,
    State.takeItem_free n hf, if_true, State.launchStale]

/-- One for a slip with a place in its queue of launches is queued (R265). -/
theorem launchArrival_queued (hc : isControl b = false) (h : (s.slip b i).staleFor tag = false) (hroom : (s.slip b i).launches.length < 16) :
    exec (.launchArrival n) s = .next ((received s n src b).setSlip b i
      { s.slip b i with launches := (s.slip b i).launches ++ [l] }) := by
  show execLaunchArrival n s = _
  simp only [execLaunchArrival, ha, State.receiveLaunch, hc, h, ge_iff_le, Nat.not_le.mpr hroom, decide_false, Bool.and_false,
    Bool.false_eq_true, if_false, State.takeItem_free n hf, State.modSlip, State.slip_received]

/-- One at a control berth without a handler is run, and sets IPEND.MSG (R191, R265). -/
theorem launchArrival_runs (hc : isControl b = true) (h : (s.slip b i).staleFor tag = false) (hh : (s.berth b).handler = none) :
    exec (.launchArrival n) s = .next (((received s n src b).modBerth b (fun y => { y with ipMsg := true })).startLaunch b i .control l) := by
  show execLaunchArrival n s = _
  simp only [execLaunchArrival, ha, State.receiveLaunch, hc, h, Bool.not_true, Bool.false_and, Bool.false_eq_true, if_false,
    State.takeItem_free n hf, if_true, State.berth_modBerth_self, State.handler_received, hh, Option.isSome_none]

end

/-- What the handler of a launch begins with: its words, its queue and its packet (R265). -/
theorem startLaunch_handler (t : State) (b i : Nat) (source : HSource) (l : Launch) :
    ∃ h, ((t.startLaunch b i source l).berth b).handler = some h ∧ h.slip = i ∧ h.source = source ∧ h.steps = 0 ∧
      h.live.q0 = { addr := some (BitVec.ofNat 64 ((l.words.getD 0 0).toNat)) } ∧ SMap.get 0 h.g 1 = BitVec.ofNat 64 (l.queue % 256) ∧
      SMap.get 0 h.g 2 = BitVec.ofNat 64 (l.packet % 2 ^ 17) := by
  have hword : elemOf l.data 64 0 = (l.words.getD 0 0).toNat := by
    rw [Launch.data, elemOf_wideOf 64 _ 0 (by decide)]
    exact Nat.mod_eq_of_lt (l.words.getD 0 0).isLt
  rw [State.startLaunch, State.startHandler, State.berth_modBerth_self, hword]
  exact ⟨_, rfl, rfl, rfl, rfl, rfl, rfl, rfl⟩

theorem startLaunch_ipMsg (t : State) (b i : Nat) (source : HSource) (l : Launch) :
    ((t.startLaunch b i source l).berth b).ipMsg = (t.berth b).ipMsg := by
  rw [State.startLaunch, State.startHandler, State.berth_modBerth_self]

/-! ### What is sent again -/

/-- A refused packet is sent again after its back-off (R267). -/
theorem busyResend_packet {s : State} {n : Nat} {p : Packet} (hp : s.net[n]? = some p) (hw : p.waiting = true) :
    exec (.busyResend n) s = .next { s.linkFlit p.src p.dst with net := setAt s.net n { p with waiting := false } } := by
  show execBusyResend n s = _
  simp only [execBusyResend, hp, hw, if_true]

/-- A number past the last packet names a valley command (R391). -/
theorem busyResend_query {s : State} {m : Nat} {k : KvCmd} (hk : s.kvCmds[m]? = some k) :
    exec (.busyResend (s.net.length + m)) s = .next {
      (if k.backoff = true then s.linkFlits k.berth (unitPort k.page) k.op.bytes else s) with
      kvCmds := s.kvCmds.take m ++ { k with backoff := false } :: s.kvCmds.drop (m + 1) } := by
  have hnone : s.net[s.net.length + m]? = none := List.getElem?_eq_none (Nat.le_add_right _ _)
  show execBusyResend _ s = _
  simp only [execBusyResend, hnone, Nat.add_sub_cancel_left, hk, setAt_eq _ hk]

end Sys2Proof.Claims

namespace Sys2Proof.Proofs
open Sys2Proof Sys2Proof.Machine Sys2Proof.Claims

/-- Settles O25: each arrival by what its receiver is; BUSY as an input, the sender of a launch, a late error 5, unitPort, the records of the
spill area and the flits are the readings of logs 46, 57, 64, 71, 111 and 113. -/
theorem messageArrivals : Obligations.MessageArrivals := by
  intro s n src b bz left answer
  refine ⟨fun x ha hf => ?item, fun x ha hf => ?refused, fun i tag r x ha hb ht => ?ack, fun i tag r ha hf hb ht => ?reply,
    fun i tag l ha hf => ?launch, fun p hp hw => ?packet, fun k m hk => busyResend_query hk⟩
  case item =>
    have hslip : ∀ b' j, left.slip b' j = s.slip b' j := s.slip_received n src b
    have hexec : exec (.itemArrival n) s = .next (left.receiveItem x) := itemArrival_taken ha hf
    intro p full
    refine ⟨fun hgone => ?stale, fun hb ht hh hroom => ?parked, fun hb ht hh hfull => ?overflow⟩
    case stale =>
      rw [hexec, receiveItem_stale (by rw [hslip]; exact (staleFor_eq_true_iff p x.dtag).mpr hgone)]
      rfl
    case parked =>
      refine ⟨{ p.countAddressed x.win with parked := p.parked ++ [x] }, rfl, ?_, ?_, fun hfew => spillItem_of_lt (by rwa [hslip])⟩
      · rw [countAddressed_eq]
      · rw [hexec, receiveItem_parks (by rw [hslip]; exact staleFor_eq_false hb ht hh) (by rw [hslip]; exact Nat.not_le.mp hroom), hslip]
        rfl
    case overflow =>
      refine ⟨{ p.countAddressed x.win with overflowed := x.win :: p.overflowed }, rfl, ?_, ?_⟩
      · rw [countAddressed_eq]
      · rw [hexec, receiveItem_overflows (by rw [hslip]; exact staleFor_eq_false hb ht hh) (by rw [hslip]; exact hfull), hslip]
        rfl
  case refused =>
    exact ⟨_, itemArrival_refused ha hf, s.refuseBusy_mem n _, State.refuseBusy_net (State.net_of_arriving ha)⟩
  case ack =>
    refine ⟨_, ackArrival_acts ha hb ht, ackTaken_net s n b r, ackTaken_mem s n b r, ?_, ?_⟩ <;> rw [State.slip_setSlip_self]
    · exact acknowledged_unacked _ r x
    · exact acknowledged_stale _ r x
  case reply =>
    refine ⟨_, getReplyArrival_holds ha hf hb ht, rfl, s.mem_received n src b, ?_, ?_⟩ <;> rw [State.slip_setSlip_self]
    · rfl
    · exact holdsReply_owed _ r
  case launch =>
    intro p
    refine ⟨fun hgone => ?_, fun hc hb ht hh hroom => launchArrival_queued ha hf hc (staleFor_eq_false hb ht hh) hroom,
      fun hc hb ht hh hnone => ?_⟩
    · rw [launchArrival_stale ha hf ((staleFor_eq_true_iff p tag).mpr hgone), leBytes_four]
    · obtain ⟨h, hrun, hslip, hsource, hsteps, hq0, hqueue, hpacket⟩ :=
        startLaunch_handler (left.modBerth b (fun y => { y with ipMsg := true })) b i .control l
      refine ⟨_, h, launchArrival_runs ha hf hc (staleFor_eq_false hb ht hh) hnone, ?_, hrun, hslip, hsource, hsteps, hq0, hqueue, hpacket,
        rfl⟩
      rw [startLaunch_ipMsg, State.berth_modBerth_self]
  case packet =>
    exact ⟨_, busyResend_packet hp hw, rfl, getElem?_setAt _ hp, fun m hm => getElem?_setAt_of_ne _ _ hm⟩

end Sys2Proof.Proofs
end
